-- ==== Sys2Proof/Word.lean ====
section
/-! DEFINITION. The machine's words: 32-bit registers (R1) and bytes of memory. -/
namespace Sys2Proof

/-- A register, 32 bits wide. -/
abbrev Word := BitVec 32

/-- A byte of a memory window. -/
abbrev Byte := BitVec 8

end Sys2Proof
end

