-- ==== Sys2Proof/Syntax.lean ====
section
/-! DEFINITION. The commands of the block, one constructor for each row of spec/opcode_table.json. -/
namespace Sys2Proof

/-- The master of a fabric access (R53): a Zensor session with its world, the image loader, the management core's
own firmware, a Gouge core, the Skew engine, the Cellar, the Ledger. -/
inductive Master
  | session (secure : Bool)
  | loader
  | mgmt
  | gouge (n : Fin 10)
  | skew
  | cellar
  | ledger
  deriving DecidableEq, Repr

/-- The width of a fabric access (R48, R49). -/
inductive Size
  | b8
  | b16
  | b32
  deriving DecidableEq, Repr

/-- The parts of an accumulator that MOVC reaches: residue, fraction, integer part. -/
inductive APart
  | r
  | f
  | i
  deriving DecidableEq, Repr

/-- The registers that an RR number names (the table before R386). -/
inductive GReg
  | d (i : Fin 16)
  | p (i : Fin 8)
  | m (i : Fin 8)
  | lc (i : Fin 2)
  | ls (i : Fin 2)
  | le (i : Fin 2)
  | sr
  | rb
  | esr
  | epc
  | core
  | ccnt
  | part (a : Fin 4) (x : APart)
  deriving DecidableEq, Repr

/-- The modifications of a single access (R395, R400). -/
inductive PMod
  | none
  | inc
  | dec
  | addM
  | addImm
  | index
  deriving DecidableEq, Repr

/-- The modifications of a parallel access (R400). -/
inductive XMod
  | none
  | inc
  | dec
  | addM
  deriving DecidableEq, Repr

/-- One side of a parallel access: nothing, a load or a store, of a D register through a P register of the
side's four (R400). -/
inductive ParSide
  | none
  | load (reg : Fin 16) (p : Fin 4) (m : XMod)
  | store (reg : Fin 16) (p : Fin 4) (m : XMod)
  deriving DecidableEq, Repr

/-- The branch conditions (R404). -/
inductive Cond
  | al | eq | ne | mi | pl | cs | cc | vs | vc | lt | ge | gt | le | og
  deriving DecidableEq, Repr

/-- The causes of a core fault (R426). -/
inductive CoreCause
  | regpar
  | plim
  | tfault
  | force
  deriving DecidableEq, Repr

/-- How channel B of Threshold finds REFCLK (R497). -/
inductive Refclk
  | ok
  | stopped
  | off
  deriving DecidableEq, Repr

/-- A frame the management core puts in port H's transmit queue, with its descriptor (R533): egress ports, PCP, whether
the rewrites of R160 apply, the receive stamp t2 in ns; the bytes run from the destination address to the end of the
payload. -/
structure MgmtTx where
  ports : BitVec 4
  pcp : BitVec 3
  oneStep : Bool
  t2 : Nat
  bytes : List Byte
  deriving DecidableEq, Repr

/-- The header of a Zensor request (R545): SID, SEQ and, with TAGGED, the TAG, its first byte most significant. -/
structure ZHead where
  sid : BitVec 32
  seq : BitVec 32
  tag : Option (BitVec 128)
  deriving DecidableEq, Repr

/-- A CAN frame (R559): a base identifier lies in [28:18]. -/
structure CanFrame where
  ide : Bool
  rtr : Bool
  fdf : Bool
  brs : Bool
  esi : Bool
  id : BitVec 29
  dlc : BitVec 4
  data : List Byte
  deriving DecidableEq, Repr

/-- How a CAN transmission ends (R563). -/
inductive CanEnd
  | sent
  | lost
  | error
  deriving DecidableEq, Repr

/-- The error codes of LASTERR (R564). -/
inductive CanCode
  | crc | ack | form | stuff | bit1 | bit0
  deriving DecidableEq, Repr

/-- Which counter rule of ISO 11898-1 an error falls under (R564): an error in a frame, or one that the standard exempts
from counting; a bit error in an error or overload flag, or a further run of dominant bits after one. -/
inductive CanRule
  | frame
  | exempt
  | flag
  deriving DecidableEq, Repr

/-- What the CAN wake logic sees (R570): a dominant level of some ns, or a frame, good or with an error. -/
inductive CanSeen
  | dominant (ns : Nat)
  | frame (fd good : Bool) (f : CanFrame)
  deriving DecidableEq, Repr

/-- The levels of the balls at a Cellar sample (R448): MARK in, RAF, CMD in. -/
structure Balls where
  mark : BitVec 16
  raf : BitVec 4
  cmd : BitVec 8
  deriving DecidableEq, Repr

/-- What the loader finds as it reads the flash (R575, R587). -/
inductive FlashRead
  | ok
  | noFlash
  | readError
  deriving DecidableEq, Repr

/-- A SESSION_OPEN request (R548): MODE 0, or MODE 1 with HKEY, NC, QC as its prefix byte and coordinates, and SIG as r
and s. -/
inductive OpenReq
  | plain
  | secure (hkey : Byte) (nc : BitVec 128) (form : Byte) (qx qy r sg : BitVec 256)
  deriving DecidableEq, Repr

/-- A STREAM_OPEN request (R546). -/
structure StreamReq where
  eport : Byte
  pcp : Byte
  vid : BitVec 16
  family : Byte
  addr : List Byte
  deriving DecidableEq, Repr

/-- What the clock monitor sees (R511). -/
inductive ClockFault
  | stopped
  | offFrequency
  | unlocked
  deriving DecidableEq, Repr

/-- The commands of the block. `dt` is the physical time in ns since the command before; the other operands are what the
command carries, or what the block finds as it happens. Each row's rules stand at its meaning. -/
inductive Instr
  | registerWrite (dt : Nat) (acc : Master) (size : Size) (addr : BitVec 32) (v : Word)
  | rcRead (dt : Nat) (acc : Master) (size : Size) (addr : BitVec 32)
  | registerRead (dt : Nat) (acc : Master) (size : Size) (addr : BitVec 32)
  | memoryWindowAccess (dt : Nat) (acc : Master) (size : Size) (write : Bool) (addr : BitVec 32) (v : Word)
  | runStart (dt : Nat) (acc : Master) (v : Word)
  | runStop (dt : Nat) (acc : Master) (v : Word)
  | cycleStart (dt : Nat)
  | upstreamDeadline (dt : Nat)
  | dutyDeadline (dt : Nat)
  | replayWindowEnd (dt : Nat)
  | downstreamFrameDepart (dt : Nat) (l : Fin 16)
  | fuseProgram (dt : Nat) (acc : Master) (v : Word)
  | fuseProgramDone (dt : Nat)
  | spindleEnable (dt : Nat) (acc : Master) (n : Fin 16) (v : Word)
  | spindleRescale (dt : Nat) (acc : Master) (n : Fin 16) (v : Word)
  | spindleLoad (dt : Nat) (acc : Master) (n : Fin 16) (v : Word)
  | spindleStandstill (dt : Nat) (n : Fin 16)
  | ledgerArm (dt : Nat) (acc : Master) (v : Word)
  | ledgerCancel (dt : Nat) (acc : Master) (v : Word)
  | ledgerFire (dt : Nat) (n : Fin 16) (slot : BitVec 15)
  | lclkLaneFire (dt : Nat) (slot : BitVec 15)
  | donePop (dt : Nat) (acc : Master) (v : Word)
  | markCapture (dt : Nat) (n : Fin 16) (raw : BitVec 16)
  | markPop (dt : Nat) (acc : Master) (n : Fin 16) (v : Word)
  | toutForce (dt : Nat) (acc : Master) (n : Fin 16) (v : Word)
  | chuckModeChange (dt : Nat) (acc : Master) (c : Fin 32) (v : Word)
  | chuckOffsetWrite (dt : Nat) (acc : Master) (c : Fin 32) (v : Word)
  | quadCountChange (dt : Nat) (c : Fin 32) (b a : BitVec 16)
  | chuckIndex (dt : Nat) (c : Fin 32) (z : BitVec 16)
  | hallSectorChange (dt : Nat) (c : Fin 32) (h3 h2 h1 : BitVec 16)
  | hallinv (dt : Nat) (c : Fin 32)
  | ssiRequest (dt : Nat) (c : Fin 32) (ready : Bool)
  | ssiFrameEnd (dt : Nat) (c : Fin 32) (frame : BitVec 40)
  | chuckFltClear (dt : Nat) (acc : Master) (c : Fin 32) (v : Word)
  | lclkSet (dt : Nat) (acc : Master) (v : Word)
  | lclkStepWrite (dt : Nat) (acc : Master) (v : Word)
  | servoMeasurement (dt : Nat) (p : Fin 4) (dom : BitVec 8) (theta : Int) (ts : Nat) (parent : BitVec 80)
      (delay : Int) (gmid : BitVec 64)
  | parentLoss (dt : Nat)
  | bmcaGrandmaster (dt : Nat)
  | rafterFire (dt : Nat) (acc : Master) (v : Word)
  | rafterDeferredLaunch (dt : Nat) (l : Fin 4)
  | rafterBurstReceive (dt : Nat) (l : Fin 4) (bits : BitVec 7) (stable : Bool) (ago : Nat)
  | rafterAction (dt : Nat) (l : Fin 4)
  | rafterMeas (dt : Nat) (acc : Master) (v : Word)
  | mrsp (dt : Nat) (l : Fin 4)
  | rafterMeasTimeout (dt : Nat)
  | rafclkLoss (dt : Nat)
  | axNone (dt : Nat) (acc : Master) (n : Fin 64)
  | axSync (dt : Nat) (acc : Master) (n : Fin 64)
  | axMove (dt : Nat) (acc : Master) (n : Fin 64)
  | axJog (dt : Nat) (acc : Master) (n : Fin 64)
  | axExt (dt : Nat) (acc : Master) (n : Fin 64)
  | axGear (dt : Nat) (acc : Master) (n : Fin 64)
  | axCam (dt : Nat) (acc : Master) (n : Fin 64)
  | axGroup (dt : Nat) (acc : Master) (n : Fin 64)
  | axStop (dt : Nat) (acc : Master) (n : Fin 64)
  | axQstop (dt : Nat) (acc : Master) (n : Fin 64)
  | axDisengage (dt : Nat) (acc : Master) (n : Fin 64)
  | axShift (dt : Nat) (acc : Master) (n : Fin 64) (v : Word)
  | grpPush (dt : Nat) (acc : Master) (n : Fin 64)
  | grpStop (dt : Nat) (acc : Master) (n : Fin 64)
  | loopEnable (dt : Nat) (acc : Master) (n : Fin 64) (v : Word)
  | loopDisable (dt : Nat) (acc : Master) (n : Fin 64) (v : Word)
  | loopResetI (dt : Nat) (acc : Master) (n : Fin 64) (v : Word)
  | loopClrPk (dt : Nat) (acc : Master) (n : Fin 64) (v : Word)
  | filterRawCommit (dt : Nat) (acc : Master) (n : Fin 64) (f : Fin 3) (v : Word)
  | axisFaultClear (dt : Nat) (acc : Master) (n : Fin 64) (v : Word)
  | cmdDutyEdge (dt : Nat) (k : Fin 8) (raw : BitVec 16) (pair : Bool)
  | cmdFreqEdge (dt : Nat) (k : Fin 8) (raw : BitVec 16) (pair : Bool)
  | cmdLoss (dt : Nat) (k : Fin 8)
  | sillResult (dt : Nat) (code : BitVec 16)
  | listenTimeout (dt : Nat) (n : Fin 64)
  | alignEnd (dt : Nat) (n : Fin 64)
  | brakeTimeout (dt : Nat) (n : Fin 64)
  | ifholdTimeout (dt : Nat) (n : Fin 64)
  | recatch (dt : Nat) (n : Fin 64)
  | iflow (dt : Nat) (n : Fin 64)
  | recatchTimeout (dt : Nat) (n : Fin 64)
  | zvecTimeout (dt : Nat) (n : Fin 64)
  | holdCurrent (dt : Nat) (n : Fin 64)
  | stall (dt : Nat) (n : Fin 64)
  | blTrain (dt : Nat) (acc : Master) (l : Fin 16) (v : Word)
  | blDisable (dt : Nat) (acc : Master) (l : Fin 16) (v : Word)
  | blClrflt (dt : Nat) (acc : Master) (l : Fin 16) (v : Word)
  | blAligned (dt : Nat) (l : Fin 16)
  | ping (dt : Nat) (l : Fin 16)
  | pong (dt : Nat) (l : Fin 16) (tag : BitVec 8) (ui : Nat)
  | blMeasureEnd (dt : Nat) (l : Fin 16)
  | syncLaunch (dt : Nat) (l : Fin 16)
  | upstreamFrame (dt : Nat) (l : Fin 16) (gs : List (BitVec 10)) (rd : Bool)
  | blCodeErrorBurst (dt : Nat) (l : Fin 16) (gs : List (BitVec 10)) (rd : Bool)
  | creset (dt : Nat) (acc : Master) (b : Fin 16)
  | jlTrain (dt : Nat) (acc : Master) (l : Fin 8) (v : Word)
  | jlDisable (dt : Nat) (acc : Master) (l : Fin 8) (v : Word)
  | jlAligned (dt : Nat) (l : Fin 8)
  | jlEnum (dt : Nat) (l : Fin 8) (gs : List (BitVec 10)) (rd : Bool)
  | jlEnumTimeout (dt : Nat) (l : Fin 8)
  | jlReq (dt : Nat) (l : Fin 8)
  | jlRsp (dt : Nat) (l : Fin 8) (gs : List (BitVec 10)) (rd : Bool) (ui : Nat)
  | jlMeasureEnd (dt : Nat) (l : Fin 8)
  | jlTmark (dt : Nat) (l : Fin 8) (fine : Fin 10)
  | jlTimeIdle (dt : Nat) (l : Fin 8)
  | jlFrameDepart (dt : Nat) (l : Fin 8)
  | jlStat (dt : Nat) (l : Fin 8) (gs : List (BitVec 10)) (rd : Bool)
  | jlDl (dt : Nat) (acc : Master) (l : Fin 8) (v : Word)
  | jlDlTimeout (dt : Nat) (l : Fin 8)
  | jlLoss (dt : Nat) (l : Fin 8) (aligned : Bool) (gs : List (BitVec 10)) (rd : Bool)
  | jlModlost (dt : Nat) (l : Fin 8) (p : Fin 16)
  | mnop (dt : Nat) (n : Fin 10) (rot : Bool)
  | mpy (dt : Nat) (n : Fin 10) (rot : Bool) (d : Fin 4) (x y : Fin 16) (int ux uy : Bool)
  | mac (dt : Nat) (n : Fin 10) (rot : Bool) (d : Fin 4) (x y : Fin 16) (int ux uy : Bool)
  | msu (dt : Nat) (n : Fin 10) (rot : Bool) (d : Fin 4) (x y : Fin 16) (int ux uy : Bool)
  | mpy2 (dt : Nat) (n : Fin 10) (rot : Bool) (d : Fin 2) (x y : Fin 16) (s0 s1 : Bool)
  | mac2 (dt : Nat) (n : Fin 10) (rot : Bool) (d : Fin 2) (x y : Fin 16) (s0 s1 : Bool)
  | add (dt : Nat) (n : Fin 10) (rot : Bool) (d a : Fin 4)
  | sub (dt : Nat) (n : Fin 10) (rot : Bool) (d a : Fin 4)
  | adc (dt : Nat) (n : Fin 10) (rot : Bool) (d a : Fin 4)
  | sbc (dt : Nat) (n : Fin 10) (rot : Bool) (d a : Fin 4)
  | addd (dt : Nat) (n : Fin 10) (rot : Bool) (d : Fin 4) (x : Fin 16)
  | subd (dt : Nat) (n : Fin 10) (rot : Bool) (d : Fin 4) (x : Fin 16)
  | neg (dt : Nat) (n : Fin 10) (rot : Bool) (d a : Fin 4)
  | abs (dt : Nat) (n : Fin 10) (rot : Bool) (d a : Fin 4)
  | mova (dt : Nat) (n : Fin 10) (rot : Bool) (d a : Fin 4)
  | clr (dt : Nat) (n : Fin 10) (rot : Bool) (d : Fin 4)
  | asl (dt : Nat) (n : Fin 10) (rot : Bool) (d a : Fin 4) (k : Fin 64)
  | asr (dt : Nat) (n : Fin 10) (rot : Bool) (d a : Fin 4) (k : Fin 64)
  | lsr (dt : Nat) (n : Fin 10) (rot : Bool) (d a : Fin 4) (k : Fin 64)
  | shv (dt : Nat) (n : Fin 10) (rot : Bool) (d a : Fin 4) (y : Fin 16)
  | rnd (dt : Nat) (n : Fin 10) (rot : Bool) (d a : Fin 4)
  | max (dt : Nat) (n : Fin 10) (rot : Bool) (d a : Fin 4)
  | min (dt : Nat) (n : Fin 10) (rot : Bool) (d a : Fin 4)
  | cmp (dt : Nat) (n : Fin 10) (rot : Bool) (d a : Fin 4)
  | dtoa (dt : Nat) (n : Fin 10) (rot : Bool) (d : Fin 4) (x : Fin 16)
  | div (dt : Nat) (n : Fin 10) (rot : Bool) (d : Fin 4) (x : Fin 16)
  | movd (dt : Nat) (n : Fin 10) (rot : Bool) (d : Fin 16) (a : Fin 4)
  | cls (dt : Nat) (n : Fin 10) (rot : Bool) (d : Fin 16) (a : Fin 4)
  | dadd (dt : Nat) (n : Fin 10) (rot : Bool) (d x y : Fin 16)
  | dsub (dt : Nat) (n : Fin 10) (rot : Bool) (d x y : Fin 16)
  | daddi (dt : Nat) (n : Fin 10) (rot : Bool) (d x : Fin 16) (imm : BitVec 6)
  | dand (dt : Nat) (n : Fin 10) (rot : Bool) (d x y : Fin 16)
  | dor (dt : Nat) (n : Fin 10) (rot : Bool) (d x y : Fin 16)
  | dxor (dt : Nat) (n : Fin 10) (rot : Bool) (d x y : Fin 16)
  | dshl (dt : Nat) (n : Fin 10) (rot : Bool) (d x : Fin 16) (k : Fin 64)
  | dshr (dt : Nat) (n : Fin 10) (rot : Bool) (d x : Fin 16) (k : Fin 64)
  | dlsr (dt : Nat) (n : Fin 10) (rot : Bool) (d x : Fin 16) (k : Fin 64)
  | lnop (dt : Nat) (n : Fin 10) (more : Bool)
  | ld (dt : Nat) (n : Fin 10) (more : Bool) (reg : Fin 16) (p : Fin 8) (k : PMod) (imm : BitVec 16)
  | ldh (dt : Nat) (n : Fin 10) (more : Bool) (reg : Fin 16) (p : Fin 8) (k : PMod) (imm : BitVec 16)
  | st (dt : Nat) (n : Fin 10) (more : Bool) (reg : Fin 16) (p : Fin 8) (k : PMod) (imm : BitVec 16)
  | sth (dt : Nat) (n : Fin 10) (more : Bool) (reg : Fin 16) (p : Fin 8) (k : PMod) (imm : BitVec 16)
  | sta (dt : Nat) (n : Fin 10) (more : Bool) (a : Fin 4) (p : Fin 8) (k : PMod) (imm : BitVec 16)
  | xadd (dt : Nat) (n : Fin 10) (more : Bool) (reg : Fin 16) (p : Fin 8) (k : PMod) (imm : BitVec 16)
  | xswp (dt : Nat) (n : Fin 10) (more : Bool) (reg : Fin 16) (p : Fin 8) (k : PMod) (imm : BitVec 16)
  | par (dt : Nat) (n : Fin 10) (more : Bool) (x y : ParSide)
  | ldi (dt : Nat) (n : Fin 10) (more : Bool) (g : GReg) (imm : BitVec 16)
  | ldih (dt : Nat) (n : Fin 10) (more : Bool) (g : GReg) (imm : BitVec 16)
  | movc (dt : Nat) (n : Fin 10) (more : Bool) (g src : GReg)
  | padd (dt : Nat) (n : Fin 10) (more : Bool) (p : Fin 8) (imm : BitVec 16)
  | clrf (dt : Nat) (n : Fin 10) (more : Bool) (imm : BitVec 16)
  | tfault (dt : Nat) (n : Fin 10) (more : Bool)
  | duty (dt : Nat) (n : Fin 10) (more : Bool) (l : Fin 16) (half : Bool)
  | bra (dt : Nat) (n : Fin 10) (more : Bool) (c : Cond) (target : BitVec 14)
  | call (dt : Nat) (n : Fin 10) (more : Bool) (target : BitVec 14)
  | ret (dt : Nat) (n : Fin 10) (more : Bool)
  | rete (dt : Nat) (n : Fin 10) (more : Bool)
  | hwLoop (dt : Nat) (n : Fin 10) (more : Bool) (level : Fin 2) (reg : Option (Fin 16)) (count : BitVec 14)
      (eofs : BitVec 8)
  | endTask (dt : Nat) (n : Fin 10) (more : Bool)
  | fence (dt : Nat) (n : Fin 10) (more : Bool)
  | pantryLoadArrival (dt : Nat) (n : Fin 10)
  | pantryStoreComplete (dt : Nat) (n : Fin 10)
  | slotTaskStart (dt : Nat) (n : Fin 10) (i : Fin 32) (axes : List (Fin 64))
  | eventTaskStart (dt : Nat) (n : Fin 10)
  | gougeForce (dt : Nat) (acc : Master) (n : Fin 10) (v : Word)
  | coreFault (dt : Nat) (n : Fin 10) (cause : CoreCause)
  | marchSlice (dt : Nat) (bad : Option (Fin 16))
  | marchBackoffEnd (dt : Nat) (bad : Option (Fin 16))
  | marchPassStart (dt : Nat) (bad : Option (Fin 16))
  | celArm (dt : Nat) (acc : Master) (v : Word)
  | celStop (dt : Nat) (acc : Master) (v : Word)
  | celForce (dt : Nat) (acc : Master) (v : Word)
  | celSample (dt : Nat) (balls : List Balls)
  | autoTrigger (dt : Nat)
  | datagram (dt : Nat)
  | thrInputSample (dt : Nat) (c : Fin 2) (ins bands : BitVec 8)
  | thrTick (dt : Nat) (c : Fin 2) (refclk : Refclk) (badParity : Bool)
  | thrRstreq (dt : Nat) (acc : Master) (v : Word)
  | thrDemand (dt : Nat) (acc : Master) (v : Word)
  | darkTest (dt : Nat) (g : Fin 4)
  | darkTestLowSide (dt : Nat) (g : Fin 4)
  | darkTestEnd (dt : Nat) (g : Fin 4)
  | graceExpiry (dt : Nat) (g : Fin 4)
  | crossLinkMessage (dt : Nat) (c : Fin 2) (sameCrc : Bool) (interval : Nat)
  | crossLinkTimeout (dt : Nat) (c : Fin 2)
  | thrStartupTest (dt : Nat) (c : Fin 2) (pass : Bool)
  | channelSupplyFail (dt : Nat) (c : Fin 2)
  | f3reset (dt : Nat) (refsel : Bool)
  | clockFault (dt : Nat) (cause : ClockFault)
  | atticCommit (dt : Nat) (slots : List (List Byte))
  | atticScanDone (dt : Nat)
  | atticUser (dt : Nat) (acc : Master) (v : Word)
  | atticClear (dt : Nat) (acc : Master) (v : Word)
  | portCfgWrite (dt : Nat) (acc : Master) (p : Fin 4) (v : Word)
  | linkChange (dt : Nat) (p : Fin 4) (up : Bool) (speed : Fin 3) (half : Bool)
  | mdioAddress (dt : Nat) (acc : Master) (v : Word)
  | mdioWrite (dt : Nat) (acc : Master) (v : Word)
  | mdioRead (dt : Nat) (acc : Master) (v : Word)
  | mdioFrameEnd (dt : Nat) (data : BitVec 16)
  | hwFrameReceive (dt : Nat) (p : Fin 4) (frame : List Byte) (ago : Nat)
  | hwFrameTransmit (dt : Nat) (p : Fin 4) (own : Option MgmtTx)
  | macAgeing (dt : Nat) (mac : BitVec 48)
  | qbvCommit (dt : Nat) (acc : Master) (p : Fin 4) (v : Word)
  | qbvListStart (dt : Nat) (p : Fin 4)
  | qbvEntry (dt : Nat) (p : Fin 4)
  | joistDepart (dt : Nat)
  | joistTimeout (dt : Nat) (r : Fin 64)
  | zenRead (dt : Nat) (h : ZHead) (addr : BitVec 32)
  | zenWrite (dt : Nat) (h : ZHead) (addr : BitVec 32) (data : Word)
  | zenBlockRead (dt : Nat) (h : ZHead) (addr : BitVec 32) (count : BitVec 16)
  | zenBlockWrite (dt : Nat) (h : ZHead) (addr : BitVec 32) (count : BitVec 16) (data : List Word)
  | zenLedgerInsert (dt : Nat) (h : ZHead) (slot : BitVec 16) (lane : Byte) (entry : BitVec 128)
  | zenFlashWrite (dt : Nat) (h : ZHead) (slot : Byte) (erase : Byte) (offset : BitVec 32) (data : List Byte)
  | zenReload (dt : Nat) (h : ZHead) (mode : Byte)
  | sessionOpen (dt : Nat) (seq : BitVec 32) (req : OpenReq)
  | sessionClose (dt : Nat) (h : ZHead)
  | streamOpen (dt : Nat) (h : ZHead) (req : StreamReq) (mac : Option (BitVec 48))
  | sessionTimeout (dt : Nat) (sid : BitVec 32)
  | streamOpenNoroute (dt : Nat)
  | flashWriteComplete (dt : Nat) (found : Option (List Byte))
  | canInit (dt : Nat) (acc : Master) (n : Fin 2) (v : Word) (idle : Bool)
  | canInitRelease (dt : Nat) (acc : Master) (n : Fin 2) (v : Word) (idle : Bool)
  | canBorcv (dt : Nat) (acc : Master) (n : Fin 2) (v : Word) (idle : Bool)
  | canRom (dt : Nat) (acc : Master) (n : Fin 2) (v : Word) (idle : Bool)
  | canMon (dt : Nat) (acc : Master) (n : Fin 2) (v : Word) (idle : Bool)
  | canSleep (dt : Nat) (acc : Master) (n : Fin 2) (v : Word) (idle : Bool)
  | canTxreq (dt : Nat) (acc : Master) (n : Fin 2) (hi : Bool) (v : Word)
  | canTxcancel (dt : Nat) (acc : Master) (n : Fin 2) (hi : Bool) (v : Word)
  | canNewdatClear (dt : Nat) (acc : Master) (n : Fin 2) (hi : Bool) (v : Word)
  | canIntegrated (dt : Nat) (n : Fin 2)
  | canRecovered (dt : Nat) (n : Fin 2)
  | canFrameReceive (dt : Nat) (n : Fin 2) (f : CanFrame) (ago : Nat)
  | canTransmitStart (dt : Nat) (n : Fin 2)
  | canTransmitEnd (dt : Nat) (n : Fin 2) (how : CanEnd) (loopDelay : Option Nat)
  | canError (dt : Nat) (n : Fin 2) (code : CanCode) (rule : CanRule) (dataPhase : Bool)
  | protocolException (dt : Nat) (n : Fin 2)
  | canWake (dt : Nat) (n : Fin 2) (seen : CanSeen) (refsel : Bool)
  | powerOnReset (dt : Nat) (refsel : Bool)
  | resetN (dt : Nat) (ns : Nat) (refsel : Bool)
  | watchdog (dt : Nat) (refsel : Bool)
  | zensorSoftReset (dt : Nat) (refsel : Bool)
  | warmReload (dt : Nat) (refsel : Bool)
  | pwrResetSoft (dt : Nat) (acc : Master) (v : Word)
  | pwrResetWarm (dt : Nat) (acc : Master) (v : Word)
  | loadPass1End (dt : Nat) (read : FlashRead)
  | regsPoll (dt : Nat)
  | regsPollTimeout (dt : Nat)
  | regsDelay (dt : Nat)
  | sleepRequest (dt : Nat) (acc : Master) (v : Word)
  | sleepEntry (dt : Nat) (refsel : Bool)
  | wakeN (dt : Nat) (ns : Nat) (refsel : Bool)
  | wakeTimer (dt : Nat) (refsel : Bool)
  | wdtStart (dt : Nat) (acc : Master) (v : Word)
  | wdtKick (dt : Nat) (acc : Master) (v : Word)
  | supplyBelowFallingThreshold (dt : Nat)
  deriving DecidableEq, Repr

end Sys2Proof
end

