-- ==== Sys2Proof/Config.lean ====
section
/-! DEFINITION. What an implementation fixes and what the spec leaves open: constants without a body, so
that no proof can see a value of one. -/
namespace Sys2Proof

/-- The n-th free value: a value the spec leaves undefined, unpredictable or unstated. -/
opaque Config.freeValue : Nat → BitVec 64

/-- Which of the two neighbours of a value that is not representable a register shows: false the lower. -/
opaque Config.roundUp : Nat → Int → Bool

/-- The fuse words as manufactured: 0 FUSE_CFG, 8 to 15 FUSE_KEYHASH (R67). -/
opaque Config.fuseWord : Nat → Word

/-- The 64-bit unique die number (R67). -/
opaque Config.uid : BitVec 64

/-- What lies beyond 2⁻⁶⁵ of an irrational value as the device computes it, by function and argument: the spec states no
accuracy. -/
opaque Config.part : Nat → Rat → BitVec 32

/-- The inactive level of a STPn_DIR ball (R300). -/
opaque Config.dirIdle : Bool

/-- A quotient by zero, where the spec states no result. -/
opaque Config.overZero : Rat → Rat

/-- The bytes of the IP and UDP headers of a stream datagram that the spec does not determine (R551): address family,
address, payload length, index. -/
opaque Config.ipByte : Nat → List Nat → Nat → Nat → Nat

/-- The size in bytes of the external flash that the xSPI tables report (R575). -/
opaque Config.flashDensity : Nat

/-- The Gouge tasks of the image have not written their Joist records when the frame of cycle k departs (R538). -/
opaque Config.outerLate : Nat → Bool

/-- The running disparity, true positive, from which a lane (0 to 15 bridge links, 16 to 23 jet links) sends an ordered
set or a frame at an instant in ns: it follows from the fill before it, whose length the spec leaves open (R302, R355). -/
opaque Config.lineDisparity : Nat → Nat → Bool

/-- How fast the PLLs run from the clock monitor's oscillator from an instant in ns on, within its error (R511). -/
opaque Config.oscSpeed : Nat → Nat

/-- Another unit drives edges on RAFCLK, at an instant in ns (R180): the environment's. -/
opaque Config.rafclkSeen : Nat → Bool

/-- The peer link delay in ns that firmware has measured at a port other than the SLAVE port, at an instant in ns (R181): no
command hands it over. -/
opaque Config.linkDelay : Nat → Nat → Word

/-- The BMCA's choice among the port states other than SLAVE, at a port and an instant in ns (R181). -/
opaque Config.portState : Nat → Nat → BitVec 4

end Sys2Proof
end

