-- ==== Sys2Proof/Machine/Bits.lean ====
section
/-! DEFINITION. Bit fields, two's complement, saturation and byte order: the small arithmetic every block
uses. -/
namespace Sys2Proof.Machine

/-- Bits `hi`..`lo` of a number. -/
def bitsOf (w hi lo : Nat) : Nat := (w >>> lo) % 2 ^ (hi + 1 - lo)

/-- A number with its bits `hi`..`lo` replaced by `v`. -/
def putBits (w hi lo v : Nat) : Nat :=
  w - (bitsOf w hi lo) * 2 ^ lo + (v % 2 ^ (hi + 1 - lo)) * 2 ^ lo

/-- Bit `i` of a number as a Bool. -/
def bit (w i : Nat) : Bool := w.testBit i

/-- 1 for true, 0 for false. -/
def b2n (b : Bool) : Nat := if b then 1 else 0

/-- A `w`-bit number read as two's complement (R2). -/
def toS (w v : Nat) : Int :=
  let u := v % 2 ^ w
  if 2 * u < 2 ^ w then (u : Int) else (u : Int) - (2 ^ w : Nat)

/-- The `w` low bits of an integer in two's complement (R2). -/
def ofS (w : Nat) (i : Int) : Nat := (i % ((2 ^ w : Nat) : Int)).toNat

/-- An integer held inside an interval. -/
def clampI (lo hi x : Int) : Int := if x < lo then lo else if hi < x then hi else x

/-- Signed saturation to `w` bits. -/
def satS (w : Nat) (x : Int) : Int := clampI (-(2 ^ (w - 1) : Nat)) ((2 ^ (w - 1) : Nat) - 1) x

/-- Magnitude of an integer, as an integer. -/
def absI (x : Int) : Int := if x < 0 then -x else x

def signI (x : Int) : Int := if x < 0 then -1 else if x = 0 then 0 else 1

/-- Round a quotient toward minus infinity after adding half a unit. -/
def roundDiv (n : Int) (d : Nat) : Int := (2 * n + d) / (2 * d : Nat)

/-- The least significant byte first (R1). -/
def bytesLE : Nat → Nat → List Nat
  | 0, _ => []
  | k + 1, v => v % 256 :: bytesLE k (v / 256)

def ofBytesLE : List Nat → Nat
  | [] => 0
  | b :: bs => b % 256 + 256 * ofBytesLE bs

/-- The most significant byte first. -/
def bytesBE (k v : Nat) : List Nat := (bytesLE k v).reverse

def ofBytesBE (bs : List Nat) : Nat := ofBytesLE bs.reverse

/-- One step of a bitwise CRC of width `w`, most significant bit first. -/
def crcBit (w poly reg : Nat) (b : Bool) : Nat :=
  let top := reg.testBit (w - 1) != b
  let r := (reg * 2) % 2 ^ w
  if top then r ^^^ poly else r

/-- The `k` low bits of a number, most significant first. -/
def bitsMSB : Nat → Nat → List Bool
  | 0, _ => []
  | k + 1, v => v.testBit k :: bitsMSB k v

def crcBits (w poly : Nat) (init : Nat) (bs : List Bool) : Nat :=
  bs.foldl (fun r b => crcBit w poly r b) init

/-- CRC over bytes, each byte most significant bit first. -/
def crcMSB (w poly init : Nat) (bs : List Nat) : Nat :=
  crcBits w poly init (bs.flatMap (bitsMSB 8))

/-- The `k` low bits of a number in reverse order. -/
def reflect (k v : Nat) : Nat :=
  (bitsMSB k v).reverse.foldl (fun a b => 2 * a + b2n b) 0

/-- The reflected CRC-32 of IEEE 802.3. -/
def crc32 (bs : List Nat) : Nat :=
  (reflect 32 (crcBits 32 0x04C11DB7 0xFFFFFFFF (bs.flatMap (fun b => (bitsMSB 8 b).reverse)))) ^^^ 0xFFFFFFFF

/-- Floor of the square root, by bisection over `k` bits. -/
def isqrtStep (n : Nat) : Nat → Nat → Nat
  | 0, r => r
  | k + 1, r =>
    let c := r + 2 ^ k
    if c * c ≤ n then isqrtStep n k c else isqrtStep n k r

def isqrt (n : Nat) : Nat := isqrtStep n (n.log2 / 2 + 1) 0

/-- Set bits of a mask below `k`, lowest first. -/
def setBits (k m : Nat) : List Nat := (List.range k).filter (fun i => m.testBit i)

/-- Mask with the bits of a list of positions. -/
def maskOf (l : List Nat) : Nat := l.foldl (fun a i => a ||| 2 ^ i) 0

end Sys2Proof.Machine
end

