-- ==== Sys2Proof/Machine/LineCode.lean ====
section
/-! DEFINITION. 8b/10b line code of the bridge and jet links (R301, R302, R353, R355): symbols, code groups, running
disparity, ordered sets and the byte stream of a frame. The tables are those of IEEE 802.3 clause 36 (PRESUMED: the spec
names them). A code group holds bit a, the first sent, in bit 9 and bit j in bit 0. -/
namespace Sys2Proof.Machine

abbrev CodeGroup := BitVec 10

/-- A data or control symbol, with the byte HGFEDCBA that names it: Dx.y and Kx.y have byte 32y + x. -/
inductive Sym where
  | d (byte : Nat)
  | k (byte : Nat)
  deriving DecidableEq, Repr

/-! ### The K code groups of the ordered sets -/

def kTag : Nat := 0x1C     -- K28.0: PING, PONG
def kMark : Nat := 0x3C    -- K28.1: SYNC, TMARK
def kGoff : Nat := 0x7C    -- K28.3
def kComma : Nat := 0xBC   -- K28.5: IDLE, FILL
def kSof : Nat := 0xFB     -- K27.7
def kEof : Nat := 0xFD     -- K29.7
def kAbort : Nat := 0xFE   -- K30.7

/-! ### Code tables -/

/-- abcdei of D0 to D31 at negative running disparity. -/
def sixTable : List Nat :=
  [0b100111, 0b011101, 0b101101, 0b110001, 0b110101, 0b101001, 0b011001, 0b111000,
   0b111001, 0b100101, 0b010101, 0b110100, 0b001101, 0b101100, 0b011100, 0b010111,
   0b011011, 0b100011, 0b010011, 0b110010, 0b001011, 0b101010, 0b011010, 0b111010,
   0b110011, 0b100110, 0b010110, 0b110110, 0b001110, 0b101110, 0b011110, 0b101011]

/-- fghj of Dx.0 to Dx.7 at negative running disparity. -/
def fourTable : List Nat := [0b1011, 0b1001, 0b0101, 0b1100, 0b1101, 0b1010, 0b0110, 0b1110]

/-- The K symbols and their groups at negative running disparity. -/
def kTable : List (Nat × Nat) :=
  [(0x1C, 0b0011110100), (0x3C, 0b0011111001), (0x5C, 0b0011110101), (0x7C, 0b0011110011),
   (0x9C, 0b0011110010), (0xBC, 0b0011111010), (0xDC, 0b0011110110), (0xFC, 0b0011111000),
   (0xF7, 0b1110101000), (0xFB, 0b1101101000), (0xFD, 0b1011101000), (0xFE, 0b0111101000)]

def onesOf (k v : Nat) : Nat := ((List.range k).filter (fun i => v.testBit i)).length

/-- Running disparity after a sub-block of `k` bits; true is positive. -/
def disparity (k v : Nat) (rd : Bool) : Bool :=
  let n := 2 * onesOf k v
  if k < n then true
  else if n < k then false
  else if v = 2 ^ (k / 2) - 1 then true
  else if v = 2 ^ k - 2 ^ (k / 2) then false
  else rd

/-- A sub-block has another form at positive running disparity: it is unbalanced, or 111000 or 1100. -/
def subBlock (k v : Nat) (rd : Bool) : Nat :=
  if rd && (2 * onesOf k v != k || v == 2 ^ k - 2 ^ (k / 2)) then 2 ^ k - 1 - v else v

def sixOf (rd : Bool) (x : Nat) : Nat := subBlock 6 (sixTable.getD x 0) rd

/-- fghj after a six-bit sub-block of x; Dx.7 has its alternate form where five equal bits would follow each other. -/
def fourOf (rd : Bool) (x y : Nat) : Nat :=
  if y = 7 ∧ ((!rd && (x == 17 || x == 18 || x == 20)) || (rd && (x == 11 || x == 13 || x == 14))) then
    if rd then 0b1000 else 0b0111
  else subBlock 4 (fourTable.getD y 0) rd

def groupDisparity (g : Nat) (rd : Bool) : Bool := disparity 4 (g % 16) (disparity 6 (g / 16) rd)

/-- The code group of a symbol. -/
def encodeSym (rd : Bool) : Sym → Nat
  | .d b =>
    let s := sixOf rd (b % 32)
    16 * s + fourOf (disparity 6 s rd) (b % 32) (b / 32 % 8)
  | .k b =>
    let g := ((kTable.find? (fun e => e.1 == b)).map (·.2)).getD 0
    if rd then 1023 - g else g

/-- The symbol of a code group, none where the column of the present running disparity does not hold it. -/
def decodeGroup (rd : Bool) (g : Nat) : Option Sym :=
  match (List.range 32).find? (fun x => sixOf rd x == g / 16) with
  | some x =>
    match (List.range 8).find? (fun y => fourOf (disparity 6 (g / 16) rd) x y == g % 16) with
    | some y => some (.d (32 * y + x))
    | none => (kTable.find? (fun e => encodeSym rd (.k e.1) == g)).map (fun e => .k e.1)
  | none => (kTable.find? (fun e => encodeSym rd (.k e.1) == g)).map (fun e => .k e.1)

/-- Symbols as they are sent from running disparity `rd`. -/
def lineGroups : Bool → List Sym → List CodeGroup
  | _, [] => []
  | rd, x :: r =>
    let g := encodeSym rd x
    BitVec.ofNat 10 g :: lineGroups (groupDisparity g rd) r

/-- Code groups as they are received; none is an invalid group. -/
def lineSymbols : Bool → List CodeGroup → List (Option Sym)
  | _, [] => []
  | rd, g :: r => decodeGroup rd g.toNat :: lineSymbols (groupDisparity g.toNat rd) r

/-! ### Ordered sets and frames -/

/-- A frame on the line: SOF, its bytes, EOF (R304, R357). -/
def frameSyms (bs : List Nat) : List Sym := .k kSof :: bs.map Sym.d ++ [.k kEof]

/-- The K codes of the ordered sets of a bridge link and of a jet link. -/
def bridgeSets : List Nat := [kComma, kSof, kEof, kAbort, kMark, kGoff, kTag]
def jetSets : List Nat := [kComma, kSof, kEof, kAbort, kMark]

/-- A code error: an invalid group, or a K code of no ordered set (R302, R355). -/
def isCodeError (sets : List Nat) : Option Sym → Bool
  | none => true
  | some (.d _) => false
  | some (.k c) => !sets.contains c

/-- What a receiver took of a frame: its bytes, the code errors among the groups given, whether it began with SOF, and
whether EOF ended it with nothing between but its bytes and the sets a receiver removes (R303, R356). -/
structure Taken where
  bytes : List Nat := []
  errs : Nat := 0
  begun : Bool := false
  whole : Bool := false
  deriving DecidableEq, Repr

/-- The symbols after SOF. `ins` are the sets that are removed, `skip` that their second symbol is next. -/
def takeSyms (sets ins : List Nat) : Bool → List (Option Sym) → Taken
  | _, [] => {}
  | skip, x :: r =>
    if isCodeError sets x then
      let t := takeSyms sets ins false r
      { t with errs := t.errs + 1, whole := false }
    else if skip then takeSyms sets ins false r
    else match x with
      | some (.d b) =>
        let t := takeSyms sets ins false r
        { t with bytes := b :: t.bytes }
      | some (.k c) =>
        if c = kEof then { errs := (r.filter (isCodeError sets)).length, whole := true }
        else if ins.contains c then takeSyms sets ins true r
        else { takeSyms sets ins false r with whole := false }
      | none => {}

/-- The frame in the groups from its SOF on, received at running disparity `rd`. -/
def takeFrame (sets ins : List Nat) (gs : List CodeGroup) (rd : Bool) : Taken :=
  match lineSymbols rd gs with
  | some (.k c) :: r =>
    if c = kSof then { takeSyms sets ins false r with begun := true }
    else { errs := ((lineSymbols rd gs).filter (isCodeError sets)).length }
  | r => { errs := (r.filter (isCodeError sets)).length }

/-- The code errors among groups outside a frame. -/
def lineErrors (sets : List Nat) (gs : List CodeGroup) (rd : Bool) : Nat :=
  ((lineSymbols rd gs).filter (isCodeError sets)).length

end Sys2Proof.Machine
end

