-- ==== Sys2Proof/Machine/Memory.lean ====
section
/-! DEFINITION. The memory windows (R47, R49): a list of (address, byte) pairs in canonical form: addresses
strictly rising, no byte equal to zero. An unlisted byte reads zero, which is what the hardware zero-fill
leaves in every SRAM at power-up (R443, R593). -/
namespace Sys2Proof.Machine

/-- The bytes of all memory windows. -/
abbrev Memory := List Host.Cell

def Memory.read : Memory → Nat → Byte
  | [], _ => 0
  | (k, v) :: m, a => if k = a then v else Memory.read m a

def Memory.erase (a : Nat) : Memory → Memory
  | [] => []
  | (k, v) :: m => if k = a then m else (k, v) :: Memory.erase a m

def Memory.insert (a : Nat) (b : Byte) : Memory → Memory
  | [] => [(a, b)]
  | (k, v) :: m => if a < k then (a, b) :: (k, v) :: m
      else if k = a then (a, b) :: m else (k, v) :: Memory.insert a b m

/-- Write one byte; writing zero takes the entry out. -/
def Memory.write (m : Memory) (a : Nat) (b : Byte) : Memory :=
  if b = 0 then Memory.erase a m else Memory.insert a b m

/-- Addresses strictly rising. -/
def Memory.rising : Memory → Bool
  | [] => true
  | [_] => true
  | (k, _) :: (k', v') :: m => decide (k < k') && Memory.rising ((k', v') :: m)

/-- The canonical form. -/
def Memory.wf (m : Memory) : Bool := m.rising && m.all (fun c => decide (c.2 ≠ 0))

/-- `k` bytes from `a`, least significant first (R1). -/
def Memory.readN (m : Memory) (a k : Nat) : Nat :=
  ofBytesLE ((List.range k).map (fun i => (m.read (a + i)).toNat))

def Memory.writeBytes (m : Memory) (a : Nat) : List Nat → Memory
  | [] => m
  | b :: bs => Memory.writeBytes (m.write a (BitVec.ofNat 8 b)) (a + 1) bs

/-- Write the `k` low bytes of a number at `a`, least significant first (R1). -/
def Memory.writeN (m : Memory) (a k v : Nat) : Memory := m.writeBytes a (bytesLE k v)

end Sys2Proof.Machine
end

