-- ==== Sys2Proof/Machine/Fields.lean ====
section
/-! DEFINITION. The name of every register field and of every wide register value of the part, as the
register tables of the chapters of spec/ give them: its address, the strides of the instances, its bits. -/
namespace Sys2Proof.Machine

/-- A register field: the address of its register in instance 0, the stride from one instance of the
block to the next, the stride inside the block, and its highest and lowest bit. -/
structure Fld where
  base : Nat
  stride : Nat
  inner : Nat
  hi : Nat
  lo : Nat
  deriving DecidableEq, Repr

/-- A value wider than 32 bits (R10, R11): the address of its lowest word in instance 0, the strides, and
how many consecutive words it spans. -/
structure Wide where
  base : Nat
  stride : Nat
  inner : Nat
  words : Nat
  deriving DecidableEq, Repr

namespace F

def DEV_DEVICE_ID : Fld := ⟨0x10000, 0x0, 0x0, 31, 0⟩
def DEV_STEPPING : Fld := ⟨0x10004, 0x0, 0x0, 7, 0⟩
def DEV_UID : Wide := ⟨0x10008, 0x0, 0x0, 2⟩
def DEV_FUSE_CFG_MINVER : Fld := ⟨0x10010, 0x0, 0x0, 31, 16⟩
def DEV_FUSE_CFG_NOSLOTB : Fld := ⟨0x10010, 0x0, 0x0, 2, 2⟩
def DEV_FUSE_CFG_DBGLOCK : Fld := ⟨0x10010, 0x0, 0x0, 1, 1⟩
def DEV_FUSE_CFG_SECBOOT : Fld := ⟨0x10010, 0x0, 0x0, 0, 0⟩
def DEV_FUSE_KEYHASH : Fld := ⟨0x10020, 0x0, 0x4, 31, 0⟩
def DEV_FUSE_PGM_KEY : Fld := ⟨0x10040, 0x0, 0x0, 31, 16⟩
def DEV_FUSE_PGM_WORD : Fld := ⟨0x10040, 0x0, 0x0, 7, 2⟩
def DEV_FUSE_PGM_GO : Fld := ⟨0x10040, 0x0, 0x0, 1, 1⟩
def DEV_FUSE_PGM_BUSY : Fld := ⟨0x10040, 0x0, 0x0, 0, 0⟩
def DEV_FUSE_DATA : Fld := ⟨0x10044, 0x0, 0x0, 31, 0⟩
def LODGE_CTRL_ATTIC : Fld := ⟨0x20000, 0x0, 0x0, 1, 1⟩
def LODGE_CTRL_LOCK : Fld := ⟨0x20000, 0x0, 0x0, 0, 0⟩
def LODGE_BWORLD : Fld := ⟨0x20010, 0x0, 0x4, 31, 0⟩
def LODGE_VIOL_STATUS_MASTER : Fld := ⟨0x20040, 0x0, 0x0, 15, 8⟩
def LODGE_VIOL_STATUS_KIND : Fld := ⟨0x20040, 0x0, 0x0, 6, 4⟩
def LODGE_VIOL_STATUS_WORLD : Fld := ⟨0x20040, 0x0, 0x0, 3, 3⟩
def LODGE_VIOL_STATUS_OVF : Fld := ⟨0x20040, 0x0, 0x0, 1, 1⟩
def LODGE_VIOL_STATUS_VALID : Fld := ⟨0x20040, 0x0, 0x0, 0, 0⟩
def LODGE_VIOL_ADDR : Fld := ⟨0x20044, 0x0, 0x0, 31, 0⟩
def LODGE_VIOL_STAMP : Fld := ⟨0x20048, 0x0, 0x0, 31, 0⟩
def LODGE_VIOL_COUNT : Fld := ⟨0x2004C, 0x0, 0x0, 31, 0⟩
def LODGE_REGION_BASE : Fld := ⟨0x20100, 0x0, 0x10, 31, 12⟩
def LODGE_REGION_LIMIT : Fld := ⟨0x20104, 0x0, 0x10, 31, 12⟩
def LODGE_REGION_CTRL_RO : Fld := ⟨0x20108, 0x0, 0x10, 2, 2⟩
def LODGE_REGION_CTRL_WORLD : Fld := ⟨0x20108, 0x0, 0x10, 1, 1⟩
def LODGE_REGION_CTRL_EN : Fld := ⟨0x20108, 0x0, 0x10, 0, 0⟩
def PWR_RESET_KEY : Fld := ⟨0x30000, 0x0, 0x0, 31, 16⟩
def PWR_RESET_KIND : Fld := ⟨0x30000, 0x0, 0x0, 1, 0⟩
def PWR_BOOT_STATUS_LOADED : Fld := ⟨0x30004, 0x0, 0x0, 31, 31⟩
def PWR_BOOT_STATUS_FELLBACK : Fld := ⟨0x30004, 0x0, 0x0, 30, 30⟩
def PWR_BOOT_STATUS_POLLTMO : Fld := ⟨0x30004, 0x0, 0x0, 29, 29⟩
def PWR_BOOT_STATUS_SIGNED : Fld := ⟨0x30004, 0x0, 0x0, 28, 28⟩
def PWR_BOOT_STATUS_ERRB : Fld := ⟨0x30004, 0x0, 0x0, 23, 20⟩
def PWR_BOOT_STATUS_ERRA : Fld := ⟨0x30004, 0x0, 0x0, 19, 16⟩
def PWR_BOOT_STATUS_SLOT : Fld := ⟨0x30004, 0x0, 0x0, 7, 7⟩
def PWR_BOOT_STATUS_RSTKIND : Fld := ⟨0x30004, 0x0, 0x0, 2, 0⟩
def PWR_BOOT_NEXT_VALID : Fld := ⟨0x30008, 0x0, 0x0, 2, 2⟩
def PWR_BOOT_NEXT_ONCE : Fld := ⟨0x30008, 0x0, 0x0, 1, 1⟩
def PWR_BOOT_NEXT_SLOT : Fld := ⟨0x30008, 0x0, 0x0, 0, 0⟩
def PWR_IMG_VERSION : Fld := ⟨0x3000C, 0x0, 0x0, 15, 0⟩
def PWR_IMG_GEN : Fld := ⟨0x30010, 0x0, 0x0, 31, 0⟩
def PWR_BOOT_TIME : Fld := ⟨0x30014, 0x0, 0x0, 31, 0⟩
def PWR_SLEEP_KEY : Fld := ⟨0x30020, 0x0, 0x0, 31, 16⟩
def PWR_SLEEP_GO : Fld := ⟨0x30020, 0x0, 0x0, 0, 0⟩
def PWR_STATUS_SLEEPREJ : Fld := ⟨0x30024, 0x0, 0x0, 0, 0⟩
def PWR_WAKE_CFG_TIMER : Fld := ⟨0x30028, 0x0, 0x0, 31, 16⟩
def PWR_WAKE_CFG_PINEN : Fld := ⟨0x30028, 0x0, 0x0, 0, 0⟩
def PWR_WAKE_STATUS_CAUSE : Fld := ⟨0x3002C, 0x0, 0x0, 2, 0⟩
def PWR_WDT_CTRL_TIMEOUT : Fld := ⟨0x30040, 0x0, 0x0, 31, 16⟩
def PWR_WDT_CTRL_EN : Fld := ⟨0x30040, 0x0, 0x0, 0, 0⟩
def PWR_WDT_KICK_KEY : Fld := ⟨0x30044, 0x0, 0x0, 15, 0⟩
def PWR_WDT_LEFT : Fld := ⟨0x30048, 0x0, 0x0, 15, 0⟩
def CYC_CTRL_RALN : Fld := ⟨0x30400, 0x0, 0x0, 1, 1⟩
def CYC_CTRL_RUN : Fld := ⟨0x30400, 0x0, 0x0, 0, 0⟩
def CYC_CFG_PDIV : Fld := ⟨0x30404, 0x0, 0x0, 9, 8⟩
def CYC_CFG_VDIV : Fld := ⟨0x30404, 0x0, 0x0, 5, 4⟩
def CYC_CFG_FISEL : Fld := ⟨0x30404, 0x0, 0x0, 2, 0⟩
def CYC_PHASE : Fld := ⟨0x30408, 0x0, 0x0, 29, 0⟩
def CYC_STATUS_KSYNC : Fld := ⟨0x3040C, 0x0, 0x0, 5, 5⟩
def CYC_STATUS_ALIGNED : Fld := ⟨0x3040C, 0x0, 0x0, 4, 4⟩
def CYC_STATUS_OVERRUN : Fld := ⟨0x3040C, 0x0, 0x0, 3, 3⟩
def CYC_STATUS_REALIGN : Fld := ⟨0x3040C, 0x0, 0x0, 2, 2⟩
def CYC_STATUS_CFGERR : Fld := ⟨0x3040C, 0x0, 0x0, 1, 1⟩
def CYC_STATUS_RUNNING : Fld := ⟨0x3040C, 0x0, 0x0, 0, 0⟩
def CYC_COUNT : Wide := ⟨0x30410, 0x0, 0x0, 2⟩
def CYC_STEPS : Fld := ⟨0x30418, 0x0, 0x0, 31, 0⟩
def CYC_MISS : Fld := ⟨0x3041C, 0x0, 0x0, 31, 0⟩
def GS_GOUGE_SPARE_CORE : Fld := ⟨0x30600, 0x0, 0x0, 3, 0⟩
def GS_GOUGE_MIGR_VALID : Fld := ⟨0x30604, 0x0, 0x0, 31, 31⟩
def GS_GOUGE_MIGR_LATE : Fld := ⟨0x30604, 0x0, 0x0, 30, 30⟩
def GS_GOUGE_MIGR_FROM : Fld := ⟨0x30604, 0x0, 0x0, 23, 20⟩
def GS_GOUGE_MIGR_TO : Fld := ⟨0x30604, 0x0, 0x0, 19, 16⟩
def GS_GOUGE_MIGR_K : Fld := ⟨0x30604, 0x0, 0x0, 15, 0⟩
def GS_BLMAP0 : Fld := ⟨0x30608, 0x0, 0x0, 31, 0⟩
def GS_BLMAP1 : Fld := ⟨0x3060C, 0x0, 0x0, 31, 0⟩
def GS_GOUGE_MERR : Fld := ⟨0x30610, 0x0, 0x0, 31, 0⟩
def PAN_SNAPBASE : Fld := ⟨0x30800, 0x0, 0x0, 31, 0⟩
def PAN_HOSTDEFER : Fld := ⟨0x30804, 0x0, 0x0, 31, 0⟩
def PAN_PERR : Fld := ⟨0x30808, 0x0, 0x0, 31, 0⟩
def PAN_PERRCNT : Fld := ⟨0x3080C, 0x0, 0x0, 31, 0⟩
def PAN_MARCH_CTRL_BACKOFF : Fld := ⟨0x30810, 0x0, 0x0, 31, 24⟩
def PAN_MARCH_CTRL_INTERVAL : Fld := ⟨0x30810, 0x0, 0x0, 23, 8⟩
def PAN_MARCH_CTRL_EN : Fld := ⟨0x30810, 0x0, 0x0, 0, 0⟩
def PAN_MARCH_STATUS_FAIL : Fld := ⟨0x30814, 0x0, 0x0, 31, 31⟩
def PAN_MARCH_STATUS_FADDR : Fld := ⟨0x30814, 0x0, 0x0, 20, 0⟩
def PAN_PASSES : Fld := ⟨0x30818, 0x0, 0x0, 31, 0⟩
def PAN_YIELDS : Fld := ⟨0x3081C, 0x0, 0x0, 31, 0⟩
def THRQ_THR_DEMAND : Fld := ⟨0x30A00, 0x0, 0x0, 3, 0⟩
def THRQ_THR_RSTREQ_KEY : Fld := ⟨0x30A04, 0x0, 0x0, 31, 16⟩
def THRQ_THR_RSTREQ_GRP : Fld := ⟨0x30A04, 0x0, 0x0, 3, 0⟩
def FLT_FAULT_CFG_REC : Fld := ⟨0x30C00, 0x0, 0x0, 31, 28⟩
def FLT_FAULT_CFG_FEVTEN : Fld := ⟨0x30C00, 0x0, 0x0, 24, 24⟩
def FLT_FAULT_CFG_FEVT : Fld := ⟨0x30C00, 0x0, 0x0, 23, 16⟩
def FLT_FAULT_CFG_MEMF3 : Fld := ⟨0x30C00, 0x0, 0x0, 13, 8⟩
def FLT_FAULT_CFG_F3RESET : Fld := ⟨0x30C00, 0x0, 0x0, 0, 0⟩
def FLT_DEVFLT_HALT : Fld := ⟨0x30C04, 0x0, 0x0, 8, 8⟩
def FLT_DEVFLT_F : Fld := ⟨0x30C04, 0x0, 0x0, 3, 0⟩
def FLT_LASTFLT_SRC : Fld := ⟨0x30C08, 0x0, 0x0, 31, 24⟩
def FLT_LASTFLT_INST : Fld := ⟨0x30C08, 0x0, 0x0, 23, 16⟩
def FLT_LASTFLT_DETAIL : Fld := ⟨0x30C08, 0x0, 0x0, 15, 0⟩
def FLT_FCOUNT : Fld := ⟨0x30C10, 0x0, 0x4, 31, 0⟩
def FLT_ATTIC_STATUS_READY : Fld := ⟨0x30C20, 0x0, 0x0, 31, 31⟩
def FLT_ATTIC_STATUS_ERR : Fld := ⟨0x30C20, 0x0, 0x0, 30, 30⟩
def FLT_ATTIC_STATUS_HEAD : Fld := ⟨0x30C20, 0x0, 0x0, 27, 16⟩
def FLT_ATTIC_STATUS_QLEVEL : Fld := ⟨0x30C20, 0x0, 0x0, 4, 0⟩
def FLT_NEXTSEQ : Wide := ⟨0x30C24, 0x0, 0x0, 2⟩
def FLT_FIRST : Wide := ⟨0x30C2C, 0x0, 0x0, 2⟩
def FLT_LOST : Fld := ⟨0x30C34, 0x0, 0x0, 31, 0⟩
def FLT_ATTIC_CLEAR_KEY : Fld := ⟨0x30C38, 0x0, 0x0, 31, 16⟩
def FLT_ATTIC_CLEAR_GO : Fld := ⟨0x30C38, 0x0, 0x0, 0, 0⟩
def FLT_BOOTS : Fld := ⟨0x30C3C, 0x0, 0x0, 31, 0⟩
def FLT_UDATA : Fld := ⟨0x30C40, 0x0, 0x4, 31, 0⟩
def FLT_ATTIC_UWRITE_INST : Fld := ⟨0x30C58, 0x0, 0x0, 31, 24⟩
def FLT_ATTIC_UWRITE_DETAIL : Fld := ⟨0x30C58, 0x0, 0x0, 15, 0⟩
def HEARTH_CTRL_COPYFWD : Fld := ⟨0x100000, 0x0, 0x0, 2, 2⟩
def HEARTH_CTRL_NOSTEP : Fld := ⟨0x100000, 0x0, 0x0, 1, 1⟩
def HEARTH_CTRL_MODE : Fld := ⟨0x100000, 0x0, 0x0, 0, 0⟩
def HEARTH_LCLK : Wide := ⟨0x100010, 0x0, 0x0, 4⟩
def HEARTH_NS32 : Fld := ⟨0x100020, 0x0, 0x0, 31, 0⟩
def HEARTH_SET : Wide := ⟨0x100024, 0x0, 0x0, 3⟩
def HEARTH_STEP : Wide := ⟨0x100030, 0x0, 0x0, 2⟩
def HEARTH_ADJ : Fld := ⟨0x100038, 0x0, 0x0, 31, 0⟩
def HEARTH_SERVO_GAIN_KP : Fld := ⟨0x10003C, 0x0, 0x0, 31, 16⟩
def HEARTH_SERVO_GAIN_KI : Fld := ⟨0x10003C, 0x0, 0x0, 15, 0⟩
def HEARTH_SERVO_LIM_RATEMAX : Fld := ⟨0x100040, 0x0, 0x0, 31, 16⟩
def HEARTH_SERVO_LIM_SLEWMAX : Fld := ⟨0x100040, 0x0, 0x0, 15, 0⟩
def HEARTH_STEPTHR : Fld := ⟨0x100044, 0x0, 0x0, 31, 0⟩
def HEARTH_LOCK_STEPCONF : Fld := ⟨0x100048, 0x0, 0x0, 31, 24⟩
def HEARTH_LOCK_LOCKN : Fld := ⟨0x100048, 0x0, 0x0, 23, 16⟩
def HEARTH_LOCK_LOCKTHR : Fld := ⟨0x100048, 0x0, 0x0, 15, 0⟩
def HEARTH_OFFSET : Fld := ⟨0x10004C, 0x0, 0x0, 31, 0⟩
def HEARTH_MPD : Fld := ⟨0x100050, 0x0, 0x0, 31, 0⟩
def HEARTH_STATUS_MLOSS : Fld := ⟨0x100054, 0x0, 0x0, 10, 10⟩
def HEARTH_STATUS_MASTERCHG : Fld := ⟨0x100054, 0x0, 0x0, 9, 9⟩
def HEARTH_STATUS_STEPPED : Fld := ⟨0x100054, 0x0, 0x0, 8, 8⟩
def HEARTH_STATUS_BIGOFS : Fld := ⟨0x100054, 0x0, 0x0, 3, 3⟩
def HEARTH_STATUS_GM : Fld := ⟨0x100054, 0x0, 0x0, 2, 2⟩
def HEARTH_STATUS_HOLDOVER : Fld := ⟨0x100054, 0x0, 0x0, 1, 1⟩
def HEARTH_STATUS_LOCKED : Fld := ⟨0x100054, 0x0, 0x0, 0, 0⟩
def HEARTH_STEPS : Fld := ⟨0x100058, 0x0, 0x0, 31, 0⟩
def HEARTH_LASTSTEP : Wide := ⟨0x10005C, 0x0, 0x0, 2⟩
def HEARTH_HOLDTIME : Fld := ⟨0x100064, 0x0, 0x0, 31, 0⟩
def HEARTH_FRATE : Fld := ⟨0x100068, 0x0, 0x0, 31, 0⟩
def HEARTH_PTP_CFG_DOMAIN : Fld := ⟨0x100080, 0x0, 0x0, 23, 16⟩
def HEARTH_PTP_CFG_TCPORT : Fld := ⟨0x100080, 0x0, 0x0, 13, 12⟩
def HEARTH_PTP_CFG_PORTEN : Fld := ⟨0x100080, 0x0, 0x0, 11, 8⟩
def HEARTH_PTP_CFG_SLAVEONLY : Fld := ⟨0x100080, 0x0, 0x0, 6, 6⟩
def HEARTH_PTP_CFG_TRANSPORT : Fld := ⟨0x100080, 0x0, 0x0, 5, 4⟩
def HEARTH_PTP_CFG_PROFILE : Fld := ⟨0x100080, 0x0, 0x0, 3, 2⟩
def HEARTH_PTP_CFG_ROLE : Fld := ⟨0x100080, 0x0, 0x0, 1, 0⟩
def HEARTH_PTP_INTV_LOGDLY : Fld := ⟨0x100084, 0x0, 0x0, 23, 16⟩
def HEARTH_PTP_INTV_LOGANN : Fld := ⟨0x100084, 0x0, 0x0, 15, 8⟩
def HEARTH_PTP_INTV_LOGSYNC : Fld := ⟨0x100084, 0x0, 0x0, 7, 0⟩
def HEARTH_PTP_TMO_DLYAVG : Fld := ⟨0x100088, 0x0, 0x0, 19, 16⟩
def HEARTH_PTP_TMO_SYNCTMO : Fld := ⟨0x100088, 0x0, 0x0, 15, 8⟩
def HEARTH_PTP_TMO_ANNTMO : Fld := ⟨0x100088, 0x0, 0x0, 7, 0⟩
def HEARTH_PTP_PRIO_HOCLASS : Fld := ⟨0x10008C, 0x0, 0x0, 31, 24⟩
def HEARTH_PTP_PRIO_CLASS : Fld := ⟨0x10008C, 0x0, 0x0, 23, 16⟩
def HEARTH_PTP_PRIO_PRIO2 : Fld := ⟨0x10008C, 0x0, 0x0, 15, 8⟩
def HEARTH_PTP_PRIO_PRIO1 : Fld := ⟨0x10008C, 0x0, 0x0, 7, 0⟩
def HEARTH_GMID : Wide := ⟨0x100090, 0x0, 0x0, 2⟩
def HEARTH_PORT_LAT_RXLAT : Fld := ⟨0x1000C0, 0x0, 0x10, 31, 16⟩
def HEARTH_PORT_LAT_TXLAT : Fld := ⟨0x1000C0, 0x0, 0x10, 15, 0⟩
def HEARTH_PORT_ASYM : Fld := ⟨0x1000C4, 0x0, 0x10, 31, 0⟩
def HEARTH_PORT_STATE : Fld := ⟨0x1000C8, 0x0, 0x10, 3, 0⟩
def HEARTH_PORT_LINKDLY : Fld := ⟨0x1000CC, 0x0, 0x10, 31, 0⟩
def RAFTER_CFG_ACTLAT : Fld := ⟨0x110000, 0x0, 0x0, 25, 16⟩
def RAFTER_CFG_EN : Fld := ⟨0x110000, 0x0, 0x0, 5, 5⟩
def RAFTER_CFG_MRSPEN : Fld := ⟨0x110000, 0x0, 0x0, 4, 4⟩
def RAFTER_CFG_CLKDRV : Fld := ⟨0x110000, 0x0, 0x0, 3, 3⟩
def RAFTER_CFG_UNIT : Fld := ⟨0x110000, 0x0, 0x0, 2, 0⟩
def RAFTER_LINE_CFG_EVT : Fld := ⟨0x110010, 0x0, 0x4, 15, 8⟩
def RAFTER_LINE_CFG_EVTEN : Fld := ⟨0x110010, 0x0, 0x4, 2, 2⟩
def RAFTER_LINE_CFG_RXEN : Fld := ⟨0x110010, 0x0, 0x4, 1, 1⟩
def RAFTER_LINE_CFG_TXEN : Fld := ⟨0x110010, 0x0, 0x4, 0, 0⟩
def RAFTER_FIRE_LINES : Fld := ⟨0x110020, 0x0, 0x0, 3, 0⟩
def RAFTER_DLY : Fld := ⟨0x110030, 0x0, 0x4, 9, 0⟩
def RAFTER_MEAS_GO : Fld := ⟨0x110050, 0x0, 0x0, 6, 6⟩
def RAFTER_MEAS_LOAD : Fld := ⟨0x110050, 0x0, 0x0, 5, 5⟩
def RAFTER_MEAS_TARGET : Fld := ⟨0x110050, 0x0, 0x0, 4, 2⟩
def RAFTER_MEAS_LINE : Fld := ⟨0x110050, 0x0, 0x0, 1, 0⟩
def RAFTER_MEAS_RES_DONE : Fld := ⟨0x110054, 0x0, 0x0, 31, 31⟩
def RAFTER_MEAS_RES_TIMEOUT : Fld := ⟨0x110054, 0x0, 0x0, 30, 30⟩
def RAFTER_MEAS_RES_BUSY : Fld := ⟨0x110054, 0x0, 0x0, 29, 29⟩
def RAFTER_MEAS_RES_ONEWAY : Fld := ⟨0x110054, 0x0, 0x0, 9, 0⟩
def RAFTER_LAST_STAMP : Fld := ⟨0x110060, 0x0, 0x8, 31, 0⟩
def RAFTER_LAST_SRC_VALID : Fld := ⟨0x110064, 0x0, 0x8, 8, 8⟩
def RAFTER_LAST_SRC_ID : Fld := ⟨0x110064, 0x0, 0x8, 2, 0⟩
def RAFTER_BAD : Fld := ⟨0x110080, 0x0, 0x0, 31, 0⟩
def RAFTER_DEFER : Fld := ⟨0x110084, 0x0, 0x0, 31, 0⟩
def RAFTER_LATE : Fld := ⟨0x110088, 0x0, 0x0, 31, 0⟩
def RAFTER_COLL : Fld := ⟨0x11008C, 0x0, 0x0, 31, 0⟩
def RAFTER_STATUS_CLKOK : Fld := ⟨0x110090, 0x0, 0x0, 4, 4⟩
def RAFTER_STATUS_BUSY : Fld := ⟨0x110090, 0x0, 0x0, 3, 0⟩
def HW_PORT_CFG_PVID : Fld := ⟨0x200000, 0x0, 0x80, 27, 16⟩
def HW_PORT_CFG_DEFPCP : Fld := ⟨0x200000, 0x0, 0x80, 10, 8⟩
def HW_PORT_CFG_ANEG : Fld := ⟨0x200000, 0x0, 0x80, 3, 3⟩
def HW_PORT_CFG_MODE : Fld := ⟨0x200000, 0x0, 0x80, 2, 0⟩
def HW_PORT_STATUS_LINKCHG : Fld := ⟨0x200004, 0x0, 0x80, 5, 5⟩
def HW_PORT_STATUS_FDX : Fld := ⟨0x200004, 0x0, 0x80, 4, 4⟩
def HW_PORT_STATUS_SPEED : Fld := ⟨0x200004, 0x0, 0x80, 3, 1⟩
def HW_PORT_STATUS_LINK : Fld := ⟨0x200004, 0x0, 0x80, 0, 0⟩
def HW_RXFRAMES : Fld := ⟨0x200008, 0x0, 0x80, 31, 0⟩
def HW_TXFRAMES : Fld := ⟨0x20000C, 0x0, 0x80, 31, 0⟩
def HW_RXERR : Fld := ⟨0x200010, 0x0, 0x80, 31, 0⟩
def HW_DROPS : Fld := ⟨0x200014, 0x0, 0x80, 31, 0⟩
def HW_TOOLONG : Fld := ⟨0x200018, 0x0, 0x80, 31, 0⟩
def HW_QBV_CTRL_PEND : Fld := ⟨0x200020, 0x0, 0x80, 2, 2⟩
def HW_QBV_CTRL_COMMIT : Fld := ⟨0x200020, 0x0, 0x80, 1, 1⟩
def HW_QBV_CTRL_EN : Fld := ⟨0x200020, 0x0, 0x80, 0, 0⟩
def HW_QBV_CYCLE : Fld := ⟨0x200024, 0x0, 0x80, 31, 0⟩
def HW_QBV_BASE : Wide := ⟨0x200028, 0x0, 0x80, 2⟩
def HW_QBV_LEN : Fld := ⟨0x200030, 0x0, 0x80, 6, 0⟩
def HW_CTRL_AGE : Fld := ⟨0x200400, 0x0, 0x0, 31, 16⟩
def HW_CTRL_LEARN : Fld := ⟨0x200400, 0x0, 0x0, 1, 1⟩
def HW_CTRL_EN : Fld := ⟨0x200400, 0x0, 0x0, 0, 0⟩
def HW_MAXLEN : Fld := ⟨0x200404, 0x0, 0x0, 13, 0⟩
def HW_TCMAP : Fld := ⟨0x200408, 0x0, 0x0, 23, 0⟩
def HW_MAC : Wide := ⟨0x200410, 0x0, 0x0, 2⟩
def HW_MDIO_CFG_DIV : Fld := ⟨0x200420, 0x0, 0x0, 7, 0⟩
def HW_MDIO_CMD_GO : Fld := ⟨0x200424, 0x0, 0x0, 31, 31⟩
def HW_MDIO_CMD_BUSY : Fld := ⟨0x200424, 0x0, 0x0, 30, 30⟩
def HW_MDIO_CMD_C45 : Fld := ⟨0x200424, 0x0, 0x0, 29, 29⟩
def HW_MDIO_CMD_OP : Fld := ⟨0x200424, 0x0, 0x0, 28, 27⟩
def HW_MDIO_CMD_PHYAD : Fld := ⟨0x200424, 0x0, 0x0, 26, 22⟩
def HW_MDIO_CMD_REGAD : Fld := ⟨0x200424, 0x0, 0x0, 21, 17⟩
def HW_MDIO_CMD_WDATA : Fld := ⟨0x200424, 0x0, 0x0, 15, 0⟩
def HW_MDIO_DATA_DONE : Fld := ⟨0x200428, 0x0, 0x0, 31, 31⟩
def HW_MDIO_DATA_DATA : Fld := ⟨0x200428, 0x0, 0x0, 15, 0⟩
def HW_VLAN_EN : Fld := ⟨0x200800, 0x0, 0x8, 15, 15⟩
def HW_VLAN_VID : Fld := ⟨0x200800, 0x0, 0x8, 11, 0⟩
def HW_VLAN_UNTAG : Fld := ⟨0x200804, 0x0, 0x8, 13, 8⟩
def HW_VLAN_MEMBER : Fld := ⟨0x200804, 0x0, 0x8, 5, 0⟩
def HW_GATE_GATES : Fld := ⟨0x201000, 0x0, 0x8, 7, 0⟩
def HW_GATE_INTERVAL : Fld := ⟨0x201004, 0x0, 0x8, 31, 0⟩
def HW_J_CFG_TMO : Fld := ⟨0x202000, 0x0, 0x0, 31, 24⟩
def HW_J_CFG_EPORT : Fld := ⟨0x202000, 0x0, 0x0, 23, 20⟩
def HW_J_CFG_VID : Fld := ⟨0x202000, 0x0, 0x0, 19, 8⟩
def HW_J_CFG_PCP : Fld := ⟨0x202000, 0x0, 0x0, 6, 4⟩
def HW_J_CFG_TAGGED : Fld := ⟨0x202000, 0x0, 0x0, 3, 3⟩
def HW_J_CFG_RATE : Fld := ⟨0x202000, 0x0, 0x0, 2, 2⟩
def HW_J_CFG_TWIN : Fld := ⟨0x202000, 0x0, 0x0, 1, 1⟩
def HW_J_CFG_EN : Fld := ⟨0x202000, 0x0, 0x0, 0, 0⟩
def HW_J_TXPHASE : Fld := ⟨0x202004, 0x0, 0x0, 23, 0⟩
def HW_J_APPLY : Fld := ⟨0x202008, 0x0, 0x0, 23, 0⟩
def HW_J_SRCID : Fld := ⟨0x20200C, 0x0, 0x0, 15, 0⟩
def HW_J_DMAC : Wide := ⟨0x202010, 0x0, 0x0, 2⟩
def HW_J_OUTMASK : Wide := ⟨0x202018, 0x0, 0x0, 2⟩
def HW_J_INMASK : Wide := ⟨0x202020, 0x0, 0x0, 2⟩
def HW_J_FLTRST : Wide := ⟨0x202028, 0x0, 0x0, 2⟩
def HW_J_TMOREC : Wide := ⟨0x202030, 0x0, 0x0, 2⟩
def HW_J_STATUS_LATE : Fld := ⟨0x202038, 0x0, 0x0, 2, 2⟩
def HW_J_STATUS_SRCFULL : Fld := ⟨0x202038, 0x0, 0x0, 1, 1⟩
def HW_J_STATUS_TIMEOUT : Fld := ⟨0x202038, 0x0, 0x0, 0, 0⟩
def HW_J_TXFRAMES : Fld := ⟨0x202040, 0x0, 0x0, 31, 0⟩
def HW_J_RXFRAMES : Fld := ⟨0x202044, 0x0, 0x0, 31, 0⟩
def HW_J_DUP : Fld := ⟨0x202048, 0x0, 0x0, 31, 0⟩
def HW_J_STALE : Fld := ⟨0x20204C, 0x0, 0x0, 31, 0⟩
def HW_J_BADHDR : Fld := ⟨0x202050, 0x0, 0x0, 31, 0⟩
def HW_J_TXREC : Fld := ⟨0x202400, 0x0, 0x4, 31, 0⟩
def HW_J_RXREC : Fld := ⟨0x202800, 0x0, 0x4, 31, 0⟩
def HW_ZEN_SESSIONS : Fld := ⟨0x203000, 0x0, 0x0, 2, 0⟩
def HW_BADTAG : Fld := ⟨0x203004, 0x0, 0x0, 31, 0⟩
def HW_BADSEQ : Fld := ⟨0x203008, 0x0, 0x0, 31, 0⟩
def CHUCK_CFG_QLIM : Fld := ⟨0x300000, 0x400, 0x0, 31, 24⟩
def CHUCK_CFG_IDXRUN : Fld := ⟨0x300000, 0x400, 0x0, 23, 20⟩
def CHUCK_CFG_IDXEDGE : Fld := ⟨0x300000, 0x400, 0x0, 19, 18⟩
def CHUCK_CFG_IDXGEN : Fld := ⟨0x300000, 0x400, 0x0, 17, 17⟩
def CHUCK_CFG_IDXAB : Fld := ⟨0x300000, 0x400, 0x0, 16, 15⟩
def CHUCK_CFG_FILT : Fld := ⟨0x300000, 0x400, 0x0, 11, 8⟩
def CHUCK_CFG_DIR : Fld := ⟨0x300000, 0x400, 0x0, 4, 4⟩
def CHUCK_CFG_MODE : Fld := ⟨0x300000, 0x400, 0x0, 1, 0⟩
def CHUCK_LINES_IDXTOL : Fld := ⟨0x300004, 0x400, 0x0, 31, 24⟩
def CHUCK_LINES : Fld := ⟨0x300004, 0x400, 0x0, 23, 0⟩
def CHUCK_HALL_HINVT : Fld := ⟨0x300008, 0x400, 0x0, 31, 16⟩
def CHUCK_HALL_SECTOFF : Fld := ⟨0x300008, 0x400, 0x0, 2, 0⟩
def CHUCK_SSI_CFG_DIV : Fld := ⟨0x30000C, 0x400, 0x0, 31, 24⟩
def CHUCK_SSI_CFG_DLY : Fld := ⟨0x30000C, 0x400, 0x0, 23, 16⟩
def CHUCK_SSI_CFG_ERRLIM : Fld := ⟨0x30000C, 0x400, 0x0, 15, 8⟩
def CHUCK_SSI_CFG_RATE : Fld := ⟨0x30000C, 0x400, 0x0, 3, 2⟩
def CHUCK_SSI_FMT_SKIP : Fld := ⟨0x300010, 0x400, 0x0, 25, 24⟩
def CHUCK_SSI_FMT_POSBITS : Fld := ⟨0x300010, 0x400, 0x0, 23, 18⟩
def CHUCK_SSI_FMT_GRAY : Fld := ⟨0x300010, 0x400, 0x0, 17, 17⟩
def CHUCK_SSI_FMT_CRCINV : Fld := ⟨0x300010, 0x400, 0x0, 16, 16⟩
def CHUCK_SSI_FMT_CRCLEN : Fld := ⟨0x300010, 0x400, 0x0, 15, 12⟩
def CHUCK_SSI_FMT_STATBITS : Fld := ⟨0x300010, 0x400, 0x0, 11, 8⟩
def CHUCK_SSI_CRC_INIT : Fld := ⟨0x300014, 0x400, 0x0, 15, 8⟩
def CHUCK_SSI_CRC_POLY : Fld := ⟨0x300014, 0x400, 0x0, 7, 0⟩
def CHUCK_SSI_MON_LAT : Fld := ⟨0x300018, 0x400, 0x0, 31, 16⟩
def CHUCK_SSI_MON_TMON : Fld := ⟨0x300018, 0x400, 0x0, 15, 0⟩
def CHUCK_SSI_PHASE : Fld := ⟨0x30001C, 0x400, 0x0, 15, 0⟩
def CHUCK_SSI_JUMP : Fld := ⟨0x300020, 0x400, 0x0, 31, 0⟩
def CHUCK_COUNT : Fld := ⟨0x300040, 0x400, 0x0, 31, 0⟩
def CHUCK_OFFSET : Fld := ⟨0x300044, 0x400, 0x0, 31, 0⟩
def CHUCK_POS : Fld := ⟨0x300048, 0x400, 0x0, 31, 0⟩
def CHUCK_SNAP : Fld := ⟨0x30004C, 0x400, 0x0, 31, 0⟩
def CHUCK_IDXPOS : Fld := ⟨0x300050, 0x400, 0x0, 31, 0⟩
def CHUCK_IDXDEV : Fld := ⟨0x300054, 0x400, 0x0, 31, 0⟩
def CHUCK_IDXCNT : Fld := ⟨0x300058, 0x400, 0x0, 31, 0⟩
def CHUCK_STATUS_RUN : Fld := ⟨0x30005C, 0x400, 0x0, 31, 28⟩
def CHUCK_STATUS_SECTOR : Fld := ⟨0x30005C, 0x400, 0x0, 18, 16⟩
def CHUCK_STATUS_HALLINV : Fld := ⟨0x30005C, 0x400, 0x0, 9, 9⟩
def CHUCK_STATUS_SSIGOOD : Fld := ⟨0x30005C, 0x400, 0x0, 8, 8⟩
def CHUCK_STATUS_IDXDEV : Fld := ⟨0x30005C, 0x400, 0x0, 5, 5⟩
def CHUCK_STATUS_IDX : Fld := ⟨0x30005C, 0x400, 0x0, 4, 4⟩
def CHUCK_STATUS_LVL : Fld := ⟨0x30005C, 0x400, 0x0, 2, 0⟩
def CHUCK_QERR : Fld := ⟨0x300060, 0x400, 0x0, 31, 0⟩
def CHUCK_SSI_RAW : Fld := ⟨0x300064, 0x400, 0x0, 31, 0⟩
def CHUCK_SSI_STAT : Fld := ⟨0x300068, 0x400, 0x0, 31, 0⟩
def CHUCK_SSIERR_SKIPPED : Fld := ⟨0x30006C, 0x400, 0x0, 31, 24⟩
def CHUCK_SSIERR_JUMP : Fld := ⟨0x30006C, 0x400, 0x0, 23, 16⟩
def CHUCK_SSIERR_NOREADY : Fld := ⟨0x30006C, 0x400, 0x0, 15, 8⟩
def CHUCK_SSIERR_CRC : Fld := ⟨0x30006C, 0x400, 0x0, 7, 0⟩
def CHUCK_FLT_SSI : Fld := ⟨0x300070, 0x400, 0x0, 4, 4⟩
def CHUCK_FLT_HALLINV : Fld := ⟨0x300070, 0x400, 0x0, 3, 3⟩
def CHUCK_FLT_IDXRUN : Fld := ⟨0x300070, 0x400, 0x0, 2, 2⟩
def CHUCK_FLT_QBURST : Fld := ⟨0x300070, 0x400, 0x0, 1, 1⟩
def CHUCK_FLT_ACTIVE : Fld := ⟨0x300070, 0x400, 0x0, 0, 0⟩
def SP_CTRL_SEL : Fld := ⟨0x400000, 0x100, 0x0, 13, 8⟩
def SP_CTRL_SRC : Fld := ⟨0x400000, 0x100, 0x0, 3, 1⟩
def SP_CTRL_EN : Fld := ⟨0x400000, 0x100, 0x0, 0, 0⟩
def SP_EST_ACCTC : Fld := ⟨0x400004, 0x100, 0x0, 27, 24⟩
def SP_EST_STILLT : Fld := ⟨0x400004, 0x100, 0x0, 23, 8⟩
def SP_EST_VWIN : Fld := ⟨0x400004, 0x100, 0x0, 7, 0⟩
def SP_SCALE : Wide := ⟨0x400008, 0x100, 0x0, 2⟩
def SP_LOAD : Wide := ⟨0x400010, 0x100, 0x0, 2⟩
def SP_POS : Wide := ⟨0x400018, 0x100, 0x0, 2⟩
def SP_VEL : Wide := ⟨0x400020, 0x100, 0x0, 2⟩
def SP_ACC : Wide := ⟨0x400028, 0x100, 0x0, 2⟩
def SP_VMIN : Fld := ⟨0x400030, 0x100, 0x0, 31, 0⟩
def SP_HYST : Fld := ⟨0x400034, 0x100, 0x0, 31, 0⟩
def SP_STATUS_STEP : Fld := ⟨0x400038, 0x100, 0x0, 10, 10⟩
def SP_STATUS_SRCERR : Fld := ⟨0x400038, 0x100, 0x0, 9, 9⟩
def SP_STATUS_WRAP : Fld := ⟨0x400038, 0x100, 0x0, 8, 8⟩
def SP_STATUS_SRCBAD : Fld := ⟨0x400038, 0x100, 0x0, 2, 2⟩
def SP_STATUS_DIRN : Fld := ⟨0x400038, 0x100, 0x0, 1, 1⟩
def SP_STATUS_STILL : Fld := ⟨0x400038, 0x100, 0x0, 0, 0⟩
def SP_STEPADJ : Wide := ⟨0x400040, 0x100, 0x0, 2⟩
def LED_CTRL_EN : Fld := ⟨0x410000, 0x0, 0x0, 0, 0⟩
def LED_ARM_LANE : Fld := ⟨0x410004, 0x0, 0x0, 20, 16⟩
def LED_ARM_SLOT : Fld := ⟨0x410004, 0x0, 0x0, 14, 0⟩
def LED_CANCEL_SLOT : Fld := ⟨0x410008, 0x0, 0x0, 14, 0⟩
def LED_LATE : Fld := ⟨0x41000C, 0x0, 0x0, 31, 0⟩
def LED_REJECT : Fld := ⟨0x410010, 0x0, 0x0, 31, 0⟩
def LED_DEFER : Fld := ⟨0x410014, 0x0, 0x0, 31, 0⟩
def LED_DONE_LO_VALID : Fld := ⟨0x410018, 0x0, 0x0, 31, 31⟩
def LED_DONE_LO_LANE : Fld := ⟨0x410018, 0x0, 0x0, 28, 24⟩
def LED_DONE_LO_CODE : Fld := ⟨0x410018, 0x0, 0x0, 23, 21⟩
def LED_DONE_LO_LAST : Fld := ⟨0x410018, 0x0, 0x0, 20, 20⟩
def LED_DONE_LO_SLOT : Fld := ⟨0x410018, 0x0, 0x0, 14, 0⟩
def LED_DONE_HI : Fld := ⟨0x41001C, 0x0, 0x0, 31, 0⟩
def LED_DONE_STATUS_OVF : Fld := ⟨0x410020, 0x0, 0x0, 16, 16⟩
def LED_DONE_STATUS_LEVEL : Fld := ⟨0x410020, 0x0, 0x0, 9, 0⟩
def LED_DONE_POP : Fld := ⟨0x410024, 0x0, 0x0, 0, 0⟩
def LED_LANE_ARMED : Fld := ⟨0x410040, 0x0, 0x4, 15, 0⟩
def AX_CFG_GROUP : Fld := ⟨0x500000, 0x1000, 0x0, 29, 24⟩
def AX_CFG_ATT : Fld := ⟨0x500000, 0x1000, 0x0, 21, 16⟩
def AX_CFG_GRPEN : Fld := ⟨0x500000, 0x1000, 0x0, 7, 7⟩
def AX_CFG_STPPIN : Fld := ⟨0x500000, 0x1000, 0x0, 4, 4⟩
def AX_CFG_KIND : Fld := ⟨0x500000, 0x1000, 0x0, 1, 0⟩
def AX_CMD_OP : Fld := ⟨0x500004, 0x1000, 0x0, 3, 0⟩
def AX_STATUS_CMDLOST : Fld := ⟨0x500008, 0x1000, 0x0, 11, 11⟩
def AX_STATUS_MSTRLOST : Fld := ⟨0x500008, 0x1000, 0x0, 10, 10⟩
def AX_STATUS_VLIM : Fld := ⟨0x500008, 0x1000, 0x0, 9, 9⟩
def AX_STATUS_SHIFTING : Fld := ⟨0x500008, 0x1000, 0x0, 8, 8⟩
def AX_STATUS_CAMEND : Fld := ⟨0x500008, 0x1000, 0x0, 7, 7⟩
def AX_STATUS_RAMPING : Fld := ⟨0x500008, 0x1000, 0x0, 6, 6⟩
def AX_STATUS_LIMITED : Fld := ⟨0x500008, 0x1000, 0x0, 5, 5⟩
def AX_STATUS_DONE : Fld := ⟨0x500008, 0x1000, 0x0, 4, 4⟩
def AX_STATUS_STATE : Fld := ⟨0x500008, 0x1000, 0x0, 3, 0⟩
def AX_TARGET : Wide := ⟨0x500010, 0x1000, 0x0, 2⟩
def AX_VTGT : Wide := ⟨0x500018, 0x1000, 0x0, 2⟩
def AX_VMAX : Wide := ⟨0x500020, 0x1000, 0x0, 2⟩
def AX_ACC : Wide := ⟨0x500028, 0x1000, 0x0, 2⟩
def AX_DEC : Wide := ⟨0x500030, 0x1000, 0x0, 2⟩
def AX_DEC_MAX : Wide := ⟨0x500038, 0x1000, 0x0, 2⟩
def AX_SP_POS : Wide := ⟨0x500040, 0x1000, 0x0, 2⟩
def AX_SP_VEL : Wide := ⟨0x500048, 0x1000, 0x0, 2⟩
def AX_SP_ACC : Wide := ⟨0x500050, 0x1000, 0x0, 2⟩
def AX_ACT_POS : Wide := ⟨0x500058, 0x1000, 0x0, 2⟩
def AX_FBSCALE : Wide := ⟨0x500060, 0x1000, 0x0, 2⟩
def AX_POSOFS : Wide := ⟨0x500068, 0x1000, 0x0, 2⟩
def AX_EXTPOS : Wide := ⟨0x500070, 0x1000, 0x0, 2⟩
def AX_GEAR_CTRL_ENGAT : Fld := ⟨0x500100, 0x1000, 0x0, 5, 5⟩
def AX_GEAR_CTRL_SPIN : Fld := ⟨0x500100, 0x1000, 0x0, 3, 0⟩
def AX_GEAR_RATIO : Wide := ⟨0x500108, 0x1000, 0x0, 2⟩
def AX_GEAR_RAMP : Wide := ⟨0x500110, 0x1000, 0x0, 2⟩
def AX_GEAR_ENGPOS : Wide := ⟨0x500118, 0x1000, 0x0, 2⟩
def AX_GEAR_LEAD : Fld := ⟨0x500120, 0x1000, 0x0, 31, 0⟩
def AX_GEAR_REFF : Wide := ⟨0x500128, 0x1000, 0x0, 2⟩
def AX_CAM_CTRL_REL : Fld := ⟨0x500140, 0x1000, 0x0, 4, 4⟩
def AX_CAM_CTRL_SPIN : Fld := ⟨0x500140, 0x1000, 0x0, 3, 0⟩
def AX_CAM_BASE : Fld := ⟨0x500144, 0x1000, 0x0, 31, 0⟩
def AX_CAM_NEXT : Fld := ⟨0x500148, 0x1000, 0x0, 31, 0⟩
def AX_CAM_PHASE : Wide := ⟨0x500150, 0x1000, 0x0, 2⟩
def AX_CAM_CAMOFS : Wide := ⟨0x500158, 0x1000, 0x0, 2⟩
def AX_CAM_X : Wide := ⟨0x500160, 0x1000, 0x0, 2⟩
def AX_CAM_CYCLES : Fld := ⟨0x500168, 0x1000, 0x0, 31, 0⟩
def AX_SHIFT : Wide := ⟨0x500180, 0x1000, 0x0, 2⟩
def AX_SHIFTV : Wide := ⟨0x500188, 0x1000, 0x0, 2⟩
def AX_SHIFTA : Wide := ⟨0x500190, 0x1000, 0x0, 2⟩
def AX_SHIFTREM : Wide := ⟨0x500198, 0x1000, 0x0, 2⟩
def AX_LOOP_CFG_RMODE : Fld := ⟨0x500200, 0x1000, 0x0, 29, 29⟩
def AX_LOOP_CFG_VFB : Fld := ⟨0x500200, 0x1000, 0x0, 28, 24⟩
def AX_LOOP_CFG_VSRC : Fld := ⟨0x500200, 0x1000, 0x0, 23, 22⟩
def AX_LOOP_CFG_PFBEN : Fld := ⟨0x500200, 0x1000, 0x0, 21, 21⟩
def AX_LOOP_CFG_PFB : Fld := ⟨0x500200, 0x1000, 0x0, 20, 16⟩
def AX_LOOP_CFG_EXTSRC : Fld := ⟨0x500200, 0x1000, 0x0, 15, 14⟩
def AX_LOOP_CFG_REFJ : Fld := ⟨0x500200, 0x1000, 0x0, 13, 8⟩
def AX_LOOP_CFG_REFCMD : Fld := ⟨0x500200, 0x1000, 0x0, 6, 4⟩
def AX_LOOP_CFG_REFSRC : Fld := ⟨0x500200, 0x1000, 0x0, 3, 2⟩
def AX_LOOP_CFG_MODE : Fld := ⟨0x500200, 0x1000, 0x0, 1, 0⟩
def AX_LOOP_CTRL_CLRPK : Fld := ⟨0x500204, 0x1000, 0x0, 2, 2⟩
def AX_LOOP_CTRL_RESETI : Fld := ⟨0x500204, 0x1000, 0x0, 1, 1⟩
def AX_LOOP_CTRL_EN : Fld := ⟨0x500204, 0x1000, 0x0, 0, 0⟩
def AX_LOOP_STATUS_CMDREF : Fld := ⟨0x500208, 0x1000, 0x0, 9, 9⟩
def AX_LOOP_STATUS_FERR : Fld := ⟨0x500208, 0x1000, 0x0, 8, 8⟩
def AX_LOOP_STATUS_FEWSTK : Fld := ⟨0x500208, 0x1000, 0x0, 7, 7⟩
def AX_LOOP_STATUS_FEWARN : Fld := ⟨0x500208, 0x1000, 0x0, 6, 6⟩
def AX_LOOP_STATUS_ISAT : Fld := ⟨0x500208, 0x1000, 0x0, 5, 5⟩
def AX_LOOP_STATUS_RSTATE : Fld := ⟨0x500208, 0x1000, 0x0, 2, 0⟩
def AX_VEST_STILLT : Fld := ⟨0x50020C, 0x1000, 0x0, 23, 8⟩
def AX_VEST_VWIN : Fld := ⟨0x50020C, 0x1000, 0x0, 7, 0⟩
def AX_KPP : Fld := ⟨0x500210, 0x1000, 0x0, 31, 0⟩
def AX_KVFF : Fld := ⟨0x500214, 0x1000, 0x0, 31, 0⟩
def AX_KPV : Fld := ⟨0x500218, 0x1000, 0x0, 31, 0⟩
def AX_KIV : Fld := ⟨0x50021C, 0x1000, 0x0, 31, 0⟩
def AX_KAFF : Fld := ⟨0x500220, 0x1000, 0x0, 31, 0⟩
def AX_ILIM : Fld := ⟨0x500224, 0x1000, 0x0, 23, 0⟩
def AX_VSCALE : Wide := ⟨0x500228, 0x1000, 0x0, 2⟩
def AX_VCLAMP : Wide := ⟨0x500230, 0x1000, 0x0, 2⟩
def AX_REFVAL : Wide := ⟨0x500238, 0x1000, 0x0, 2⟩
def AX_REFSCALE : Wide := ⟨0x500240, 0x1000, 0x0, 2⟩
def AX_VCMD : Wide := ⟨0x500248, 0x1000, 0x0, 2⟩
def AX_VACT : Wide := ⟨0x500250, 0x1000, 0x0, 2⟩
def AX_ICMD : Fld := ⟨0x500258, 0x1000, 0x0, 31, 0⟩
def AX_FE : Wide := ⟨0x500260, 0x1000, 0x0, 2⟩
def AX_FEPEAK : Wide := ⟨0x500268, 0x1000, 0x0, 2⟩
def AX_FEWARN : Wide := ⟨0x500270, 0x1000, 0x0, 2⟩
def AX_FEMAX : Wide := ⟨0x500278, 0x1000, 0x0, 2⟩
def AX_FETIME : Fld := ⟨0x500280, 0x1000, 0x0, 23, 0⟩
def AX_FECHK : Fld := ⟨0x500284, 0x1000, 0x0, 2, 0⟩
def AX_VOVER : Wide := ⟨0x500288, 0x1000, 0x0, 2⟩
def AX_FILT_CFG_BWQ : Fld := ⟨0x500300, 0x1000, 0x20, 31, 16⟩
def AX_FILT_CFG_F0HZ : Fld := ⟨0x500300, 0x1000, 0x20, 15, 2⟩
def AX_FILT_CFG_MODE : Fld := ⟨0x500300, 0x1000, 0x20, 1, 0⟩
def AX_FILT_DEPTH : Fld := ⟨0x500304, 0x1000, 0x20, 15, 0⟩
def AX_FILT_B0 : Fld := ⟨0x500308, 0x1000, 0x20, 31, 0⟩
def AX_FILT_B1 : Fld := ⟨0x50030C, 0x1000, 0x20, 31, 0⟩
def AX_FILT_B2 : Fld := ⟨0x500310, 0x1000, 0x20, 31, 0⟩
def AX_FILT_A1 : Fld := ⟨0x500314, 0x1000, 0x20, 31, 0⟩
def AX_FILT_A2 : Fld := ⟨0x500318, 0x1000, 0x20, 31, 0⟩
def AX_FAULT_ACTIVE : Fld := ⟨0x500380, 0x1000, 0x0, 31, 31⟩
def AX_FAULT_FIRST : Fld := ⟨0x500380, 0x1000, 0x0, 26, 24⟩
def AX_FAULT_CAUSE : Fld := ⟨0x500380, 0x1000, 0x0, 7, 0⟩
def AX_REACT_DRIVE : Fld := ⟨0x500384, 0x1000, 0x0, 14, 12⟩
def AX_REACT_SPLOSS : Fld := ⟨0x500384, 0x1000, 0x0, 11, 9⟩
def AX_REACT_FEEDBACK : Fld := ⟨0x500384, 0x1000, 0x0, 8, 6⟩
def AX_REACT_OVERSPEED : Fld := ⟨0x500384, 0x1000, 0x0, 5, 3⟩
def AX_REACT_FOLLOW : Fld := ⟨0x500384, 0x1000, 0x0, 2, 0⟩
def AX_FLD_CFG_POLEP : Fld := ⟨0x500400, 0x1000, 0x0, 19, 16⟩
def AX_FLD_CFG_RETRY : Fld := ⟨0x500400, 0x1000, 0x0, 15, 13⟩
def AX_FLD_CFG_CFB : Fld := ⟨0x500400, 0x1000, 0x0, 12, 8⟩
def AX_FLD_CFG_STALLACT : Fld := ⟨0x500400, 0x1000, 0x0, 6, 6⟩
def AX_FLD_CFG_VPH : Fld := ⟨0x500400, 0x1000, 0x0, 5, 5⟩
def AX_FLD_CFG_PAEN : Fld := ⟨0x500400, 0x1000, 0x0, 4, 4⟩
def AX_FLD_CFG_DECEN : Fld := ⟨0x500400, 0x1000, 0x0, 3, 3⟩
def AX_FLD_CFG_ANGVAL : Fld := ⟨0x500400, 0x1000, 0x0, 2, 2⟩
def AX_FLD_CFG_ANGSRC : Fld := ⟨0x500400, 0x1000, 0x0, 1, 0⟩
def AX_FLD_IFS : Fld := ⟨0x500404, 0x1000, 0x0, 31, 0⟩
def AX_FLD_VFS : Fld := ⟨0x500408, 0x1000, 0x0, 31, 0⟩
def AX_FLD_KPD : Fld := ⟨0x500410, 0x1000, 0x0, 31, 0⟩
def AX_FLD_KID : Fld := ⟨0x500414, 0x1000, 0x0, 31, 0⟩
def AX_FLD_KPQ : Fld := ⟨0x500418, 0x1000, 0x0, 31, 0⟩
def AX_FLD_KIQ : Fld := ⟨0x50041C, 0x1000, 0x0, 31, 0⟩
def AX_FLD_LD : Fld := ⟨0x500420, 0x1000, 0x0, 31, 0⟩
def AX_FLD_LQ : Fld := ⟨0x500424, 0x1000, 0x0, 31, 0⟩
def AX_FLD_KE : Fld := ⟨0x500428, 0x1000, 0x0, 31, 0⟩
def AX_FLD_RS : Fld := ⟨0x50042C, 0x1000, 0x0, 31, 0⟩
def AX_FLD_KPPLL : Fld := ⟨0x500430, 0x1000, 0x0, 31, 0⟩
def AX_FLD_KIPLL : Fld := ⟨0x500434, 0x1000, 0x0, 31, 0⟩
def AX_FLD_IMAX : Fld := ⟨0x500438, 0x1000, 0x0, 23, 0⟩
def AX_FLD_VLIM_DMIN : Fld := ⟨0x50043C, 0x1000, 0x0, 31, 16⟩
def AX_FLD_VLIM_VLIMF : Fld := ⟨0x50043C, 0x1000, 0x0, 15, 0⟩
def AX_FLD_DT_DTBAND : Fld := ⟨0x500440, 0x1000, 0x0, 31, 16⟩
def AX_FLD_DT_DTC : Fld := ⟨0x500440, 0x1000, 0x0, 15, 0⟩
def AX_FLD_OBSMIN : Fld := ⟨0x500444, 0x1000, 0x0, 31, 0⟩
def AX_FLD_CATCHV : Fld := ⟨0x500448, 0x1000, 0x0, 31, 0⟩
def AX_FLD_LOCK_LOSSN : Fld := ⟨0x50044C, 0x1000, 0x0, 31, 24⟩
def AX_FLD_LOCK_LOCKN : Fld := ⟨0x50044C, 0x1000, 0x0, 23, 16⟩
def AX_FLD_LOCK_RESTHR : Fld := ⟨0x50044C, 0x1000, 0x0, 15, 0⟩
def AX_FLD_IALIGN : Fld := ⟨0x500450, 0x1000, 0x0, 23, 0⟩
def AX_FLD_ALIGN_ALIGNANG : Fld := ⟨0x500454, 0x1000, 0x0, 31, 16⟩
def AX_FLD_ALIGN_TALIGN : Fld := ⟨0x500454, 0x1000, 0x0, 15, 0⟩
def AX_FLD_IFCUR : Fld := ⟨0x500458, 0x1000, 0x0, 23, 0⟩
def AX_FLD_IFACC : Fld := ⟨0x50045C, 0x1000, 0x0, 31, 0⟩
def AX_FLD_IFEND : Fld := ⟨0x500460, 0x1000, 0x0, 31, 0⟩
def AX_FLD_IFH_RETRYINC : Fld := ⟨0x500464, 0x1000, 0x0, 31, 16⟩
def AX_FLD_IFH_IFHOLD : Fld := ⟨0x500464, 0x1000, 0x0, 15, 0⟩
def AX_FLD_IBRK : Fld := ⟨0x500468, 0x1000, 0x0, 23, 0⟩
def AX_FLD_ANGOFS : Fld := ⟨0x50046C, 0x1000, 0x0, 31, 0⟩
def AX_FLD_CPR : Fld := ⟨0x500470, 0x1000, 0x0, 31, 0⟩
def AX_FLD_HALLOFS : Fld := ⟨0x500474, 0x1000, 0x0, 15, 0⟩
def AX_FLD_HALLV : Fld := ⟨0x500478, 0x1000, 0x0, 31, 0⟩
def AX_FLD_ISTEP : Fld := ⟨0x50047C, 0x1000, 0x0, 23, 0⟩
def AX_FLD_IHOLD : Fld := ⟨0x500480, 0x1000, 0x0, 23, 0⟩
def AX_FLD_HOLD_STALLN : Fld := ⟨0x500484, 0x1000, 0x0, 23, 16⟩
def AX_FLD_HOLD_HOLDT : Fld := ⟨0x500484, 0x1000, 0x0, 15, 0⟩
def AX_FLD_STALLANG : Fld := ⟨0x500488, 0x1000, 0x0, 15, 0⟩
def AX_FLD_MSCALE : Wide := ⟨0x500490, 0x1000, 0x0, 2⟩
def AX_FLD_STATUS_STALL : Fld := ⟨0x5004C0, 0x1000, 0x0, 10, 10⟩
def AX_FLD_STATUS_STPLIM : Fld := ⟨0x5004C0, 0x1000, 0x0, 9, 9⟩
def AX_FLD_STATUS_LOCK : Fld := ⟨0x5004C0, 0x1000, 0x0, 8, 8⟩
def AX_FLD_STATUS_VDCLOW : Fld := ⟨0x5004C0, 0x1000, 0x0, 7, 7⟩
def AX_FLD_STATUS_ATTEMPT : Fld := ⟨0x5004C0, 0x1000, 0x0, 6, 4⟩
def AX_FLD_STATUS_FSTATE : Fld := ⟨0x5004C0, 0x1000, 0x0, 3, 0⟩
def AX_FLD_RELOCK : Fld := ⟨0x5004C4, 0x1000, 0x0, 31, 0⟩
def AX_FLD_STARTFAIL : Fld := ⟨0x5004C8, 0x1000, 0x0, 31, 0⟩
def AX_FLD_STALLS : Fld := ⟨0x5004CC, 0x1000, 0x0, 31, 0⟩
def AX_FLD_OBSW : Fld := ⟨0x5004D0, 0x1000, 0x0, 31, 0⟩
def AX_FLD_OBS_RESID : Fld := ⟨0x5004D4, 0x1000, 0x0, 31, 16⟩
def AX_FLD_OBS_OBSANG : Fld := ⟨0x5004D4, 0x1000, 0x0, 15, 0⟩
def AX_FLD_EANG : Wide := ⟨0x5004D8, 0x1000, 0x0, 2⟩
def AX_FLD_ID : Fld := ⟨0x5004E0, 0x1000, 0x0, 31, 0⟩
def AX_FLD_IQ : Fld := ⟨0x5004E4, 0x1000, 0x0, 31, 0⟩
def AX_FLD_VDC : Fld := ⟨0x5004E8, 0x1000, 0x0, 31, 0⟩
def AX_FLD_LOADANG : Fld := ⟨0x5004EC, 0x1000, 0x0, 15, 0⟩
def AX_FLD_MICRO : Wide := ⟨0x5004F0, 0x1000, 0x0, 2⟩
def AX_FLD_TBL_ADV : Fld := ⟨0x500500, 0x1000, 0x4, 31, 16⟩
def AX_FLD_TBL_IDREF : Fld := ⟨0x500500, 0x1000, 0x4, 15, 0⟩
def AX_FLD_PASTEP : Fld := ⟨0x500540, 0x1000, 0x0, 31, 0⟩
def AX_GRP_CTRL_STOP : Fld := ⟨0x500800, 0x1000, 0x0, 0, 0⟩
def AX_GRP_STATUS_BUSY : Fld := ⟨0x500804, 0x1000, 0x0, 8, 8⟩
def AX_GRP_STATUS_HELD : Fld := ⟨0x500804, 0x1000, 0x0, 7, 7⟩
def AX_GRP_STATUS_ABORT : Fld := ⟨0x500804, 0x1000, 0x0, 6, 6⟩
def AX_GRP_STATUS_REJ : Fld := ⟨0x500804, 0x1000, 0x0, 5, 5⟩
def AX_GRP_STATUS_LEVEL : Fld := ⟨0x500804, 0x1000, 0x0, 4, 0⟩
def AX_GRP_FEED : Wide := ⟨0x500808, 0x1000, 0x0, 2⟩
def AX_GRP_ACC : Wide := ⟨0x500810, 0x1000, 0x0, 2⟩
def AX_GRP_DEC : Wide := ⟨0x500818, 0x1000, 0x0, 2⟩
def AX_GRP_SIGMA : Wide := ⟨0x500820, 0x1000, 0x0, 2⟩
def AX_GRP_LAMBDA : Wide := ⟨0x500828, 0x1000, 0x0, 2⟩
def AX_GRP_SEGj : Wide := ⟨0x500840, 0x1000, 0x8, 2⟩
def AX_GRP_PUSH : Fld := ⟨0x500880, 0x1000, 0x0, 0, 0⟩
def GOUGE_CTRL_PLIM : Fld := ⟨0x600000, 0x1000, 0x0, 15, 8⟩
def GOUGE_CTRL_FORCE : Fld := ⟨0x600000, 0x1000, 0x0, 1, 1⟩
def GOUGE_CTRL_EN : Fld := ⟨0x600000, 0x1000, 0x0, 0, 0⟩
def GOUGE_STATUS_HOSTED : Fld := ⟨0x600004, 0x1000, 0x0, 15, 12⟩
def GOUGE_STATUS_CAUSE : Fld := ⟨0x600004, 0x1000, 0x0, 11, 8⟩
def GOUGE_STATUS_EVLOST : Fld := ⟨0x600004, 0x1000, 0x0, 7, 7⟩
def GOUGE_STATUS_SLIP : Fld := ⟨0x600004, 0x1000, 0x0, 6, 6⟩
def GOUGE_STATUS_STATE : Fld := ⟨0x600004, 0x1000, 0x0, 2, 0⟩
def GOUGE_REPLAYS : Fld := ⟨0x600008, 0x1000, 0x0, 31, 0⟩
def GOUGE_FPC : Fld := ⟨0x60000C, 0x1000, 0x0, 13, 0⟩
def GOUGE_CUR_INEVT : Fld := ⟨0x600010, 0x1000, 0x0, 15, 15⟩
def GOUGE_CUR_SLOT : Fld := ⟨0x600010, 0x1000, 0x0, 12, 8⟩
def GOUGE_CUR_EVT : Fld := ⟨0x600010, 0x1000, 0x0, 7, 0⟩
def GOUGE_EVMASK : Fld := ⟨0x600040, 0x1000, 0x4, 31, 0⟩
def GOUGE_EVPEND : Fld := ⟨0x600060, 0x1000, 0x4, 31, 0⟩
def GOUGE_SLOT_EN : Fld := ⟨0x600100, 0x1000, 0x8, 31, 31⟩
def GOUGE_SLOT_RATE : Fld := ⟨0x600100, 0x1000, 0x8, 30, 29⟩
def GOUGE_SLOT_CL : Fld := ⟨0x600100, 0x1000, 0x8, 28, 28⟩
def GOUGE_SLOT_PHASE : Fld := ⟨0x600100, 0x1000, 0x8, 27, 16⟩
def GOUGE_SLOT_START : Fld := ⟨0x600100, 0x1000, 0x8, 13, 0⟩
def GOUGE_SLOTCK_CKBASE : Fld := ⟨0x600104, 0x1000, 0x8, 31, 8⟩
def GOUGE_SLOTCK_CKWORDS : Fld := ⟨0x600104, 0x1000, 0x8, 7, 0⟩
def GOUGE_EVENT_START : Fld := ⟨0x600400, 0x1000, 0x4, 13, 0⟩
def BL_CTRL_CLRFLT : Fld := ⟨0x700000, 0x200, 0x0, 3, 3⟩
def BL_CTRL_AUTOTRN : Fld := ⟨0x700000, 0x200, 0x0, 2, 2⟩
def BL_CTRL_TRAIN : Fld := ⟨0x700000, 0x200, 0x0, 1, 1⟩
def BL_CTRL_EN : Fld := ⟨0x700000, 0x200, 0x0, 0, 0⟩
def BL_CFG_DS : Fld := ⟨0x700004, 0x200, 0x0, 31, 16⟩
def BL_CFG_MISSLIM : Fld := ⟨0x700004, 0x200, 0x0, 7, 4⟩
def BL_STATUS_UPSTAT : Fld := ⟨0x700008, 0x200, 0x0, 31, 16⟩
def BL_STATUS_LATCHG : Fld := ⟨0x700008, 0x200, 0x0, 7, 7⟩
def BL_STATUS_CFLT : Fld := ⟨0x700008, 0x200, 0x0, 6, 6⟩
def BL_STATUS_LOST : Fld := ⟨0x700008, 0x200, 0x0, 5, 5⟩
def BL_STATUS_GOFF : Fld := ⟨0x700008, 0x200, 0x0, 4, 4⟩
def BL_STATUS_STATE : Fld := ⟨0x700008, 0x200, 0x0, 2, 0⟩
def BL_LAT : Fld := ⟨0x70000C, 0x200, 0x0, 31, 0⟩
def BL_CODEERR : Fld := ⟨0x700010, 0x200, 0x0, 31, 0⟩
def BL_CRCERR : Fld := ⟨0x700014, 0x200, 0x0, 31, 0⟩
def BL_MISSUP : Fld := ⟨0x700018, 0x200, 0x0, 31, 0⟩
def BL_SEQERR : Fld := ⟨0x70001C, 0x200, 0x0, 31, 0⟩
def BL_RETRAIN : Fld := ⟨0x700020, 0x200, 0x0, 31, 0⟩
def BL_COMP_T1 : Fld := ⟨0x700024, 0x200, 0x0, 31, 24⟩
def BL_COMP_T0 : Fld := ⟨0x700024, 0x200, 0x0, 23, 16⟩
def BL_COMP_AUXIN : Fld := ⟨0x700024, 0x200, 0x0, 15, 8⟩
def BL_COMP_DNMISS : Fld := ⟨0x700024, 0x200, 0x0, 7, 0⟩
def BL_AUXOUT : Fld := ⟨0x700028, 0x200, 0x0, 7, 0⟩
def BL_VDC : Fld := ⟨0x70002C, 0x200, 0x0, 15, 0⟩
def STP_CFG_DSU : Fld := ⟨0x710000, 0x0, 0x20, 31, 16⟩
def STP_CFG_PW : Fld := ⟨0x710000, 0x0, 0x20, 15, 8⟩
def STP_CFG_PDIV : Fld := ⟨0x710000, 0x0, 0x20, 7, 4⟩
def STP_CFG_DPOL : Fld := ⟨0x710000, 0x0, 0x20, 2, 2⟩
def STP_CFG_SPOL : Fld := ⟨0x710000, 0x0, 0x20, 1, 1⟩
def STP_CFG_EN : Fld := ⟨0x710000, 0x0, 0x20, 0, 0⟩
def STP_COUNT : Fld := ⟨0x710004, 0x0, 0x20, 31, 0⟩
def STP_STATUS_DIRLVL : Fld := ⟨0x710008, 0x0, 0x20, 1, 1⟩
def STP_STATUS_STPLIM : Fld := ⟨0x710008, 0x0, 0x20, 0, 0⟩
def STP_PEND : Fld := ⟨0x71000C, 0x0, 0x20, 31, 0⟩
def STP_TAB_A : Fld := ⟨0x710400, 0x0, 0x8, 23, 0⟩
def STP_TAB_B : Fld := ⟨0x710404, 0x0, 0x8, 23, 0⟩
def CMD_CFG_TMO : Fld := ⟨0x720000, 0x20, 0x0, 31, 16⟩
def CMD_CFG_TC : Fld := ⟨0x720000, 0x20, 0x0, 15, 12⟩
def CMD_CFG_FILT : Fld := ⟨0x720000, 0x20, 0x0, 11, 8⟩
def CMD_CFG_LOSSEN : Fld := ⟨0x720000, 0x20, 0x0, 7, 7⟩
def CMD_CFG_DIRINV : Fld := ⟨0x720000, 0x20, 0x0, 6, 6⟩
def CMD_CFG_DIRPAIR : Fld := ⟨0x720000, 0x20, 0x0, 5, 5⟩
def CMD_CFG_BIPOLAR : Fld := ⟨0x720000, 0x20, 0x0, 4, 4⟩
def CMD_CFG_MODE : Fld := ⟨0x720000, 0x20, 0x0, 1, 0⟩
def CMD_SCALE_GAIN : Fld := ⟨0x720004, 0x20, 0x0, 31, 16⟩
def CMD_SCALE_OFS : Fld := ⟨0x720004, 0x20, 0x0, 15, 0⟩
def CMD_FMAX : Fld := ⟨0x720008, 0x20, 0x0, 23, 0⟩
def CMD_DB : Fld := ⟨0x72000C, 0x20, 0x0, 23, 0⟩
def CMD_VAL : Fld := ⟨0x720010, 0x20, 0x0, 31, 0⟩
def CMD_MEAS : Fld := ⟨0x720014, 0x20, 0x0, 31, 0⟩
def CMD_STATUS_LVL : Fld := ⟨0x720018, 0x20, 0x0, 3, 3⟩
def CMD_STATUS_RANGE : Fld := ⟨0x720018, 0x20, 0x0, 2, 2⟩
def CMD_STATUS_LOSSEVT : Fld := ⟨0x720018, 0x20, 0x0, 1, 1⟩
def CMD_STATUS_LOSS : Fld := ⟨0x720018, 0x20, 0x0, 0, 0⟩
def CMD_SNAP : Fld := ⟨0x72001C, 0x20, 0x0, 31, 0⟩
def SILL_CTRL_PHASE : Fld := ⟨0x730000, 0x0, 0x0, 31, 16⟩
def SILL_CTRL_LEN : Fld := ⟨0x730000, 0x0, 0x0, 13, 8⟩
def SILL_CTRL_RATE : Fld := ⟨0x730000, 0x0, 0x0, 3, 2⟩
def SILL_CTRL_EN : Fld := ⟨0x730000, 0x0, 0x0, 0, 0⟩
def SILL_STATUS_LIMCH : Fld := ⟨0x730004, 0x0, 0x0, 31, 16⟩
def SILL_STATUS_LIMIT : Fld := ⟨0x730004, 0x0, 0x0, 2, 2⟩
def SILL_STATUS_SKIP : Fld := ⟨0x730004, 0x0, 0x0, 1, 1⟩
def SILL_STATUS_BUSY : Fld := ⟨0x730004, 0x0, 0x0, 0, 0⟩
def SILL_SKIPS : Fld := ⟨0x730008, 0x0, 0x0, 31, 0⟩
def SILL_SEQ_CH : Fld := ⟨0x730040, 0x0, 0x4, 3, 0⟩
def SILL_RES_NEW : Fld := ⟨0x730100, 0x0, 0x8, 31, 31⟩
def SILL_RES_TAG : Fld := ⟨0x730100, 0x0, 0x8, 23, 16⟩
def SILL_RES_CODE : Fld := ⟨0x730100, 0x0, 0x8, 15, 0⟩
def SILL_RES_STAMP : Fld := ⟨0x730104, 0x0, 0x8, 31, 0⟩
def SILL_LIM_HI : Fld := ⟨0x730200, 0x0, 0x4, 31, 16⟩
def SILL_LIM_LO : Fld := ⟨0x730200, 0x0, 0x4, 15, 0⟩
def MT_MARK_CFG_DEAD : Fld := ⟨0x740000, 0x0, 0x10, 31, 16⟩
def MT_MARK_CFG_SKEW : Fld := ⟨0x740000, 0x0, 0x10, 8, 8⟩
def MT_MARK_CFG_FILT : Fld := ⟨0x740000, 0x0, 0x10, 7, 4⟩
def MT_MARK_CFG_EDGE : Fld := ⟨0x740000, 0x0, 0x10, 2, 1⟩
def MT_MARK_CFG_EN : Fld := ⟨0x740000, 0x0, 0x10, 0, 0⟩
def MT_MARK_STATUS_INLVL : Fld := ⟨0x740004, 0x0, 0x10, 31, 31⟩
def MT_MARK_STATUS_OVF : Fld := ⟨0x740004, 0x0, 0x10, 16, 16⟩
def MT_MARK_STATUS_LEVEL : Fld := ⟨0x740004, 0x0, 0x10, 8, 0⟩
def MT_MARK_DROP : Fld := ⟨0x740008, 0x0, 0x10, 31, 0⟩
def MT_MARK_POP : Fld := ⟨0x74000C, 0x0, 0x10, 0, 0⟩
def MT_TOUT_CFG_IDLE : Fld := ⟨0x740100, 0x0, 0x10, 2, 2⟩
def MT_TOUT_CFG_INV : Fld := ⟨0x740100, 0x0, 0x10, 1, 1⟩
def MT_TOUT_CFG_EN : Fld := ⟨0x740100, 0x0, 0x10, 0, 0⟩
def MT_TOUT_STATUS_LEVEL : Fld := ⟨0x740104, 0x0, 0x10, 0, 0⟩
def MT_TOUT_FORCE_OP : Fld := ⟨0x740108, 0x0, 0x10, 1, 0⟩
def MT_TOUT_MERGE : Fld := ⟨0x74010C, 0x0, 0x10, 31, 0⟩
def MT_VSEL_INPUT : Fld := ⟨0x740200, 0x0, 0x0, 3, 0⟩
def MT_REC_SEC : Fld := ⟨0x740300, 0x0, 0x0, 31, 0⟩
def MT_REC_NS : Fld := ⟨0x740304, 0x0, 0x0, 29, 0⟩
def MT_REC_VALID : Fld := ⟨0x740308, 0x0, 0x0, 31, 31⟩
def MT_REC_RISE : Fld := ⟨0x740308, 0x0, 0x0, 8, 8⟩
def MT_REC_SEQ : Fld := ⟨0x740308, 0x0, 0x0, 7, 0⟩
def MT_REC_POS : Wide := ⟨0x740310, 0x0, 0x8, 2⟩
def SKEW_CTRL_HORIZON : Fld := ⟨0x800000, 0x0, 0x0, 31, 16⟩
def SKEW_CTRL_SDIV : Fld := ⟨0x800000, 0x0, 0x0, 7, 4⟩
def SKEW_CTRL_EN : Fld := ⟨0x800000, 0x0, 0x0, 0, 0⟩
def SKEW_RINGBASE : Fld := ⟨0x800004, 0x0, 0x0, 31, 0⟩
def SKEW_WRIDX : Fld := ⟨0x800008, 0x0, 0x0, 5, 0⟩
def SKEW_UNMATCHED : Fld := ⟨0x80000C, 0x0, 0x0, 31, 0⟩
def SKEW_GRPDROP : Fld := ⟨0x800010, 0x0, 0x0, 31, 0⟩
def SKEW_MODH_THERM : Fld := ⟨0x800200, 0x0, 0x4, 31, 16⟩
def SKEW_MODH_TVALID : Fld := ⟨0x800200, 0x0, 0x4, 8, 8⟩
def SKEW_MODH_TEMP : Fld := ⟨0x800200, 0x0, 0x4, 7, 0⟩
def BAR_CFG_SMASK : Fld := ⟨0x801000, 0x100, 0x0, 31, 16⟩
def BAR_CFG_SPIN : Fld := ⟨0x801000, 0x100, 0x0, 11, 8⟩
def BAR_CFG_FITORD : Fld := ⟨0x801000, 0x100, 0x0, 5, 4⟩
def BAR_CFG_EST : Fld := ⟨0x801000, 0x100, 0x0, 3, 3⟩
def BAR_CFG_LATEACT : Fld := ⟨0x801000, 0x100, 0x0, 2, 2⟩
def BAR_CFG_ENDLESS : Fld := ⟨0x801000, 0x100, 0x0, 1, 1⟩
def BAR_CFG_EN : Fld := ⟨0x801000, 0x100, 0x0, 0, 0⟩
def BAR_STATUS_OUTLIER : Fld := ⟨0x801004, 0x100, 0x0, 12, 12⟩
def BAR_STATUS_LIMHIT : Fld := ⟨0x801004, 0x100, 0x0, 11, 11⟩
def BAR_STATUS_RLIM : Fld := ⟨0x801004, 0x100, 0x0, 10, 10⟩
def BAR_STATUS_SAT : Fld := ⟨0x801004, 0x100, 0x0, 9, 9⟩
def BAR_STATUS_SRCLOST : Fld := ⟨0x801004, 0x100, 0x0, 8, 8⟩
def BAR_STATUS_STATE : Fld := ⟨0x801004, 0x100, 0x0, 1, 0⟩
def BAR_LPITCH : Wide := ⟨0x801008, 0x100, 0x0, 2⟩
def BAR_ORIGIN : Wide := ⟨0x801010, 0x100, 0x0, 2⟩
def BAR_OFFS : Wide := ⟨0x801018, 0x100, 0x0, 2⟩
def BAR_OPOFS : Wide := ⟨0x801020, 0x100, 0x0, 2⟩
def BAR_OPE : Wide := ⟨0x801028, 0x100, 0x0, 2⟩
def BAR_OPSLEW : Fld := ⟨0x801030, 0x100, 0x0, 31, 0⟩
def BAR_VPRINT : Fld := ⟨0x801034, 0x100, 0x0, 31, 0⟩
def BAR_START : Fld := ⟨0x801038, 0x100, 0x0, 31, 0⟩
def BAR_COUNT : Fld := ⟨0x80103C, 0x100, 0x0, 31, 0⟩
def BAR_NEXTLINE : Fld := ⟨0x801040, 0x100, 0x0, 31, 0⟩
def BAR_PRINTED : Fld := ⟨0x801044, 0x100, 0x0, 31, 0⟩
def BAR_DOWN : Wide := ⟨0x801048, 0x100, 0x0, 2⟩
def BAR_XC : Fld := ⟨0x801050, 0x100, 0x0, 31, 0⟩
def BAR_XHALF : Fld := ⟨0x801054, 0x100, 0x0, 31, 0⟩
def BAR_MARKN0 : Fld := ⟨0x801058, 0x100, 0x0, 31, 0⟩
def BAR_MARKNP : Fld := ⟨0x80105C, 0x100, 0x0, 31, 0⟩
def BAR_GATE : Fld := ⟨0x801060, 0x100, 0x0, 31, 0⟩
def BAR_OUTLIM : Fld := ⟨0x801064, 0x100, 0x0, 31, 0⟩
def BAR_GAIN01_G1 : Fld := ⟨0x801068, 0x100, 0x0, 31, 16⟩
def BAR_GAIN01_G0 : Fld := ⟨0x801068, 0x100, 0x0, 15, 0⟩
def BAR_GAIN2_G2 : Fld := ⟨0x80106C, 0x100, 0x0, 15, 0⟩
def BAR_RL0 : Fld := ⟨0x801070, 0x100, 0x0, 31, 0⟩
def BAR_RL1 : Fld := ⟨0x801074, 0x100, 0x0, 31, 0⟩
def BAR_RL2 : Fld := ⟨0x801078, 0x100, 0x0, 31, 0⟩
def BAR_LIM0 : Fld := ⟨0x80107C, 0x100, 0x0, 31, 0⟩
def BAR_LIM1 : Fld := ⟨0x801080, 0x100, 0x0, 31, 0⟩
def BAR_LIM2 : Fld := ⟨0x801084, 0x100, 0x0, 31, 0⟩
def BAR_C0 : Wide := ⟨0x801088, 0x100, 0x0, 2⟩
def BAR_C1 : Wide := ⟨0x801090, 0x100, 0x0, 2⟩
def BAR_C2 : Wide := ⟨0x801098, 0x100, 0x0, 2⟩
def BAR_CRESET : Fld := ⟨0x8010A0, 0x100, 0x0, 0, 0⟩
def BAR_SKIPPED : Fld := ⟨0x8010A4, 0x100, 0x0, 31, 0⟩
def BAR_LATE : Fld := ⟨0x8010A8, 0x100, 0x0, 31, 0⟩
def BAR_MISSED : Fld := ⟨0x8010AC, 0x100, 0x0, 31, 0⟩
def BAR_SATCNT : Fld := ⟨0x8010B0, 0x100, 0x0, 31, 0⟩
def SENS_X : Fld := ⟨0x802000, 0x10, 0x0, 31, 0⟩
def SENS_DOWN : Wide := ⟨0x802008, 0x10, 0x0, 2⟩
def JL_CTRL_AUTOTRN : Fld := ⟨0x810000, 0x200, 0x0, 2, 2⟩
def JL_CTRL_TRAIN : Fld := ⟨0x810000, 0x200, 0x0, 1, 1⟩
def JL_CTRL_EN : Fld := ⟨0x810000, 0x200, 0x0, 0, 0⟩
def JL_CFG_EXPN : Fld := ⟨0x810004, 0x200, 0x0, 4, 0⟩
def JL_STATUS_MODOK : Fld := ⟨0x810008, 0x200, 0x0, 31, 16⟩
def JL_STATUS_NMOD : Fld := ⟨0x810008, 0x200, 0x0, 12, 8⟩
def JL_STATUS_MODLOST : Fld := ⟨0x810008, 0x200, 0x0, 7, 7⟩
def JL_STATUS_ENUMERR : Fld := ⟨0x810008, 0x200, 0x0, 6, 6⟩
def JL_STATUS_LOST : Fld := ⟨0x810008, 0x200, 0x0, 5, 5⟩
def JL_STATUS_STATE : Fld := ⟨0x810008, 0x200, 0x0, 2, 0⟩
def JL_DL_GO : Fld := ⟨0x81000C, 0x200, 0x0, 4, 4⟩
def JL_DL_POS : Fld := ⟨0x81000C, 0x200, 0x0, 3, 0⟩
def JL_DLSTAT_ERR : Fld := ⟨0x810010, 0x200, 0x0, 2, 2⟩
def JL_DLSTAT_DONE : Fld := ⟨0x810010, 0x200, 0x0, 1, 1⟩
def JL_DLSTAT_BUSY : Fld := ⟨0x810010, 0x200, 0x0, 0, 0⟩
def JL_DLCRC : Fld := ⟨0x810014, 0x200, 0x0, 31, 0⟩
def JL_CODEERR : Fld := ⟨0x810018, 0x200, 0x0, 31, 0⟩
def JL_CRCERR : Fld := ⟨0x81001C, 0x200, 0x0, 31, 0⟩
def JL_DISC : Fld := ⟨0x810020, 0x200, 0x0, 31, 0⟩
def JL_RETRAIN : Fld := ⟨0x810024, 0x200, 0x0, 31, 0⟩
def JL_D : Fld := ⟨0x810040, 0x200, 0x4, 31, 0⟩
def JL_MSTAT : Fld := ⟨0x810080, 0x200, 0x4, 15, 0⟩
def JL_MISSCOL : Fld := ⟨0x8100C0, 0x200, 0x4, 31, 0⟩
def JL_TBLCRC : Fld := ⟨0x810100, 0x200, 0x4, 31, 0⟩
def CEL_CFG_SEGSH : Fld := ⟨0x900000, 0x0, 0x0, 23, 20⟩
def CEL_CFG_LEVSEL : Fld := ⟨0x900000, 0x0, 0x0, 18, 16⟩
def CEL_CFG_SRATE : Fld := ⟨0x900000, 0x0, 0x0, 15, 14⟩
def CEL_CFG_SMODE : Fld := ⟨0x900000, 0x0, 0x0, 13, 12⟩
def CEL_CFG_RAFLINE : Fld := ⟨0x900000, 0x0, 0x0, 11, 10⟩
def CEL_CFG_RAFALIGN : Fld := ⟨0x900000, 0x0, 0x0, 9, 9⟩
def CEL_CFG_RAFOUT : Fld := ⟨0x900000, 0x0, 0x0, 8, 8⟩
def CEL_CFG_CYCMARK : Fld := ⟨0x900000, 0x0, 0x0, 7, 7⟩
def CEL_CFG_STAMP : Fld := ⟨0x900000, 0x0, 0x0, 6, 6⟩
def CEL_CFG_REQPRE : Fld := ⟨0x900000, 0x0, 0x0, 5, 5⟩
def CEL_CFG_REARM : Fld := ⟨0x900000, 0x0, 0x0, 4, 4⟩
def CEL_CFG_ARMMODE : Fld := ⟨0x900000, 0x0, 0x0, 3, 2⟩
def CEL_CFG_MODE : Fld := ⟨0x900000, 0x0, 0x0, 1, 0⟩
def CEL_CTRL_FORCE : Fld := ⟨0x900004, 0x0, 0x0, 2, 2⟩
def CEL_CTRL_STOP : Fld := ⟨0x900004, 0x0, 0x0, 1, 1⟩
def CEL_CTRL_ARM : Fld := ⟨0x900004, 0x0, 0x0, 0, 0⟩
def CEL_STATUS_TRIGD : Fld := ⟨0x900008, 0x0, 0x0, 18, 18⟩
def CEL_STATUS_OVR : Fld := ⟨0x900008, 0x0, 0x0, 17, 17⟩
def CEL_STATUS_OFFGRID : Fld := ⟨0x900008, 0x0, 0x0, 16, 16⟩
def CEL_STATUS_SEG : Fld := ⟨0x900008, 0x0, 0x0, 15, 8⟩
def CEL_STATUS_ARMERR : Fld := ⟨0x900008, 0x0, 0x0, 6, 4⟩
def CEL_STATUS_STATE : Fld := ⟨0x900008, 0x0, 0x0, 2, 0⟩
def CEL_PER : Fld := ⟨0x90000C, 0x0, 0x0, 23, 0⟩
def CEL_OFFS : Fld := ⟨0x900010, 0x0, 0x0, 15, 0⟩
def CEL_PRE : Fld := ⟨0x900014, 0x0, 0x0, 31, 0⟩
def CEL_POST : Fld := ⟨0x900018, 0x0, 0x0, 31, 0⟩
def CEL_AUTOTMO : Fld := ⟨0x90001C, 0x0, 0x0, 31, 0⟩
def CEL_SIDX : Wide := ⟨0x900020, 0x0, 0x0, 2⟩
def CEL_DEADLAST : Fld := ⟨0x900028, 0x0, 0x0, 31, 0⟩
def CEL_DEADMAX : Fld := ⟨0x90002C, 0x0, 0x0, 31, 0⟩
def CEL_TRIGMISS : Fld := ⟨0x900030, 0x0, 0x0, 31, 0⟩
def CEL_DROPROWS : Fld := ⟨0x900034, 0x0, 0x0, 31, 0⟩
def CEL_STREAM_FLUSH : Fld := ⟨0x900038, 0x0, 0x0, 31, 16⟩
def CEL_STREAM_MAXDG : Fld := ⟨0x900038, 0x0, 0x0, 15, 0⟩
def CEL_RECORDS : Fld := ⟨0x90003C, 0x0, 0x0, 31, 0⟩
def CEL_INFO_NP : Fld := ⟨0x900040, 0x0, 0x0, 31, 24⟩
def CEL_INFO_CAP : Fld := ⟨0x900040, 0x0, 0x0, 23, 0⟩
def CEL_AREA_ALEN : Fld := ⟨0x900044, 0x0, 0x0, 31, 16⟩
def CEL_AREA_ABASE : Fld := ⟨0x900044, 0x0, 0x0, 15, 0⟩
def CEL_TRIG_CFG_PROBE : Fld := ⟨0x900100, 0x0, 0x10, 21, 16⟩
def CEL_TRIG_CFG_SEL : Fld := ⟨0x900100, 0x0, 0x10, 11, 8⟩
def CEL_TRIG_CFG_OP : Fld := ⟨0x900100, 0x0, 0x10, 7, 4⟩
def CEL_TRIG_CFG_SIGNED : Fld := ⟨0x900100, 0x0, 0x10, 1, 1⟩
def CEL_TRIG_CFG_EN : Fld := ⟨0x900100, 0x0, 0x10, 0, 0⟩
def CEL_TRIG_LO : Fld := ⟨0x900104, 0x0, 0x10, 31, 0⟩
def CEL_TRIG_HI : Fld := ⟨0x900108, 0x0, 0x10, 31, 0⟩
def CEL_LASTTRIG : Fld := ⟨0x900180, 0x0, 0x0, 31, 0⟩
def CEL_LASTSRC_MASK : Fld := ⟨0x900184, 0x0, 0x0, 31, 24⟩
def CEL_LASTSRC_PRIMARY : Fld := ⟨0x900184, 0x0, 0x0, 23, 21⟩
def CEL_LASTSRC_FORCED : Fld := ⟨0x900184, 0x0, 0x0, 20, 20⟩
def CEL_LASTSRC_RAFTER : Fld := ⟨0x900184, 0x0, 0x0, 19, 19⟩
def CEL_PROBE_CFG_EN : Fld := ⟨0x900200, 0x0, 0x10, 31, 31⟩
def CEL_PROBE_CFG_SHIFT : Fld := ⟨0x900200, 0x0, 0x10, 29, 24⟩
def CEL_PROBE_CFG_KIND : Fld := ⟨0x900200, 0x0, 0x10, 23, 16⟩
def CEL_PROBE_CFG_INST : Fld := ⟨0x900200, 0x0, 0x10, 15, 8⟩
def CEL_PROBE_CFG_FIELD : Fld := ⟨0x900200, 0x0, 0x10, 7, 0⟩
def CEL_PROBE_ADDR : Fld := ⟨0x900204, 0x0, 0x10, 31, 0⟩
def CEL_PROBE_PSKEW : Fld := ⟨0x900208, 0x0, 0x10, 7, 0⟩
def CAN_CTRL_BORCV : Fld := ⟨0xA00000, 0x1000, 0x0, 5, 5⟩
def CAN_CTRL_MON : Fld := ⟨0xA00000, 0x1000, 0x0, 4, 4⟩
def CAN_CTRL_ROM : Fld := ⟨0xA00000, 0x1000, 0x0, 3, 3⟩
def CAN_CTRL_SLEEP : Fld := ⟨0xA00000, 0x1000, 0x0, 2, 2⟩
def CAN_CTRL_INIT : Fld := ⟨0xA00000, 0x1000, 0x0, 0, 0⟩
def CAN_CFG_EVT : Fld := ⟨0xA00004, 0x1000, 0x0, 15, 8⟩
def CAN_CFG_SSPEN : Fld := ⟨0xA00004, 0x1000, 0x0, 4, 4⟩
def CAN_CFG_SSHOT : Fld := ⟨0xA00004, 0x1000, 0x0, 3, 3⟩
def CAN_CFG_EXCERR : Fld := ⟨0xA00004, 0x1000, 0x0, 2, 2⟩
def CAN_CFG_FDEN : Fld := ⟨0xA00004, 0x1000, 0x0, 0, 0⟩
def CAN_NOMTIME_JUMP : Fld := ⟨0xA00008, 0x1000, 0x0, 30, 24⟩
def CAN_NOMTIME_SEGA : Fld := ⟨0xA00008, 0x1000, 0x0, 23, 16⟩
def CAN_NOMTIME_SEGB : Fld := ⟨0xA00008, 0x1000, 0x0, 15, 9⟩
def CAN_NOMTIME_PRE : Fld := ⟨0xA00008, 0x1000, 0x0, 8, 0⟩
def CAN_DATATIME_JUMP : Fld := ⟨0xA0000C, 0x1000, 0x0, 27, 24⟩
def CAN_DATATIME_SEGB : Fld := ⟨0xA0000C, 0x1000, 0x0, 19, 16⟩
def CAN_DATATIME_SEGA : Fld := ⟨0xA0000C, 0x1000, 0x0, 12, 8⟩
def CAN_DATATIME_PRE : Fld := ⟨0xA0000C, 0x1000, 0x0, 4, 0⟩
def CAN_SSP_OFF : Fld := ⟨0xA00010, 0x1000, 0x0, 6, 0⟩
def CAN_SSP_MIN : Fld := ⟨0xA00010, 0x1000, 0x0, 22, 16⟩
def CAN_STATUS_LOOPDLY : Fld := ⟨0xA00014, 0x1000, 0x0, 30, 24⟩
def CAN_STATUS_DATAERR : Fld := ⟨0xA00014, 0x1000, 0x0, 14, 12⟩
def CAN_STATUS_LASTERR : Fld := ⟨0xA00014, 0x1000, 0x0, 10, 8⟩
def CAN_STATUS_BOFEVT : Fld := ⟨0xA00014, 0x1000, 0x0, 7, 7⟩
def CAN_STATUS_EPEVT : Fld := ⟨0xA00014, 0x1000, 0x0, 6, 6⟩
def CAN_STATUS_EXC : Fld := ⟨0xA00014, 0x1000, 0x0, 5, 5⟩
def CAN_STATUS_RESTR : Fld := ⟨0xA00014, 0x1000, 0x0, 4, 4⟩
def CAN_STATUS_EWARN : Fld := ⟨0xA00014, 0x1000, 0x0, 3, 3⟩
def CAN_STATUS_STATE : Fld := ⟨0xA00014, 0x1000, 0x0, 2, 0⟩
def CAN_ERRCNT_TEC : Fld := ⟨0xA00018, 0x1000, 0x0, 8, 0⟩
def CAN_ERRCNT_REC : Fld := ⟨0xA00018, 0x1000, 0x0, 23, 16⟩
def CAN_NOACK : Fld := ⟨0xA0001C, 0x1000, 0x0, 31, 0⟩
def CAN_RXLOST : Fld := ⟨0xA00020, 0x1000, 0x0, 31, 0⟩
def CAN_TXREQ_LO : Fld := ⟨0xA00040, 0x1000, 0x0, 31, 0⟩
def CAN_TXREQ_HI : Fld := ⟨0xA00044, 0x1000, 0x0, 31, 0⟩
def CAN_TXCANCEL_LO : Fld := ⟨0xA00048, 0x1000, 0x0, 31, 0⟩
def CAN_TXCANCEL_HI : Fld := ⟨0xA0004C, 0x1000, 0x0, 31, 0⟩
def CAN_TXDONE_LO : Fld := ⟨0xA00050, 0x1000, 0x0, 31, 0⟩
def CAN_TXDONE_HI : Fld := ⟨0xA00054, 0x1000, 0x0, 31, 0⟩
def CAN_TXFAIL_LO : Fld := ⟨0xA00058, 0x1000, 0x0, 31, 0⟩
def CAN_TXFAIL_HI : Fld := ⟨0xA0005C, 0x1000, 0x0, 31, 0⟩
def CAN_NEWDAT_LO : Fld := ⟨0xA00060, 0x1000, 0x0, 31, 0⟩
def CAN_NEWDAT_HI : Fld := ⟨0xA00064, 0x1000, 0x0, 31, 0⟩
def CAN_MSGLOST_LO : Fld := ⟨0xA00068, 0x1000, 0x0, 31, 0⟩
def CAN_MSGLOST_HI : Fld := ⟨0xA0006C, 0x1000, 0x0, 31, 0⟩
def CAN_WAKE_CFG_WERRLIM : Fld := ⟨0xA00100, 0x1000, 0x0, 31, 24⟩
def CAN_WAKE_CFG_WFILT : Fld := ⟨0xA00100, 0x1000, 0x0, 23, 8⟩
def CAN_WAKE_CFG_DEVWK : Fld := ⟨0xA00100, 0x1000, 0x0, 2, 2⟩
def CAN_WAKE_CFG_WMODE : Fld := ⟨0xA00100, 0x1000, 0x0, 1, 1⟩
def CAN_WAKE_CFG_WEN : Fld := ⟨0xA00100, 0x1000, 0x0, 0, 0⟩
def CAN_WAKE_ID_IDE : Fld := ⟨0xA00104, 0x1000, 0x0, 31, 31⟩
def CAN_WAKE_ID_DLCIGN : Fld := ⟨0xA00104, 0x1000, 0x0, 30, 30⟩
def CAN_WAKE_ID_ID : Fld := ⟨0xA00104, 0x1000, 0x0, 28, 0⟩
def CAN_WAKE_DLC_WDLC : Fld := ⟨0xA00108, 0x1000, 0x0, 3, 0⟩
def CAN_IDMASK : Fld := ⟨0xA0010C, 0x1000, 0x0, 28, 0⟩
def CAN_WDMASK : Wide := ⟨0xA00110, 0x1000, 0x0, 2⟩
def CAN_WBT : Fld := ⟨0xA00118, 0x1000, 0x0, 31, 0⟩
def CAN_WAKE_STATUS_WCAUSE : Fld := ⟨0xA0011C, 0x1000, 0x0, 2, 1⟩
def CAN_WAKE_STATUS_WAKE : Fld := ⟨0xA0011C, 0x1000, 0x0, 0, 0⟩
def CAN_WAKE_RXID : Fld := ⟨0xA00120, 0x1000, 0x0, 31, 0⟩
def CAN_WAKE_RXDATA : Wide := ⟨0xA00124, 0x1000, 0x0, 2⟩
def THR_STATUS_CONFIG : Fld := ⟨0xB00000, 0x0, 0x0, 31, 31⟩
def THR_STATUS_SAFEREJ : Fld := ⟨0xB00000, 0x0, 0x0, 30, 30⟩
def THR_STATUS_ALLSTO : Fld := ⟨0xB00000, 0x0, 0x0, 26, 26⟩
def THR_STATUS_CLKLOSS : Fld := ⟨0xB00000, 0x0, 0x0, 25, 25⟩
def THR_STATUS_CHBFLT : Fld := ⟨0xB00000, 0x0, 0x0, 24, 24⟩
def THR_STATUS_CHAFLT : Fld := ⟨0xB00000, 0x0, 0x0, 23, 23⟩
def THR_STATUS_DEGR : Fld := ⟨0xB00000, 0x0, 0x0, 19, 16⟩
def THR_SAFECRC : Fld := ⟨0xB00004, 0x0, 0x0, 31, 0⟩
def THR_RSTREJ : Fld := ⟨0xB00008, 0x0, 0x0, 31, 0⟩
def THR_GRP_STATUS_CAUSE : Fld := ⟨0xB00010, 0x0, 0x10, 27, 24⟩
def THR_GRP_STATUS_SFBB : Fld := ⟨0xB00010, 0x0, 0x10, 19, 18⟩
def THR_GRP_STATUS_SFBA : Fld := ⟨0xB00010, 0x0, 0x10, 17, 16⟩
def THR_GRP_STATUS_LSWON : Fld := ⟨0xB00010, 0x0, 0x10, 11, 11⟩
def THR_GRP_STATUS_HSWON : Fld := ⟨0xB00010, 0x0, 0x10, 10, 10⟩
def THR_GRP_STATUS_CYCLED : Fld := ⟨0xB00010, 0x0, 0x10, 9, 9⟩
def THR_GRP_STATUS_TEST : Fld := ⟨0xB00010, 0x0, 0x10, 8, 8⟩
def THR_GRP_STATUS_INB : Fld := ⟨0xB00010, 0x0, 0x10, 7, 7⟩
def THR_GRP_STATUS_INA : Fld := ⟨0xB00010, 0x0, 0x10, 6, 6⟩
def THR_GRP_STATUS_STATE : Fld := ⟨0xB00010, 0x0, 0x10, 1, 0⟩
def THR_GRP_FAULT_LOCKGR : Fld := ⟨0xB00014, 0x0, 0x10, 5, 5⟩
def THR_GRP_FAULT_LOCK2 : Fld := ⟨0xB00014, 0x0, 0x10, 4, 4⟩
def THR_GRP_FAULT_RBFLT : Fld := ⟨0xB00014, 0x0, 0x10, 3, 3⟩
def THR_GRP_FAULT_LSFLT : Fld := ⟨0xB00014, 0x0, 0x10, 2, 2⟩
def THR_GRP_FAULT_HSFLT : Fld := ⟨0xB00014, 0x0, 0x10, 1, 1⟩
def THR_GRP_FAULT_DISC : Fld := ⟨0xB00014, 0x0, 0x10, 0, 0⟩
def THR_GRACE : Fld := ⟨0xB00018, 0x0, 0x10, 31, 0⟩
def THR_GRP_COUNT_ENTRIES : Fld := ⟨0xB0001C, 0x0, 0x10, 31, 16⟩
def THR_GRP_COUNT_TESTS : Fld := ⟨0xB0001C, 0x0, 0x10, 15, 0⟩
def THR_BLOCK : Fld := ⟨0xB00100, 0x0, 0x4, 31, 0⟩

end F
end Sys2Proof.Machine
end

