-- ==== Sys2Proof/Machine/RegTable.lean ====
section
/-! DEFINITION. The register tables of the chapters of spec/, as data: for every register its offset,
instances, words (R10, R11) and fields, and for every field its bits, access type (R3), retention class
(R12), world and reset value. -/
namespace Sys2Proof.Machine

/-- The access types of R3; SRW and SRO are `rw` and `ro` with the secure mark of the field. -/
inductive Access
  | rw | ro | wo | w1c | w1s | rc
  deriving DecidableEq, Repr

/-- The retention classes of R12. -/
inductive Class
  | p | w | s | a
  deriving DecidableEq, Repr

structure FieldD where
  hi : Nat
  lo : Nat
  ty : Access
  cls : Class
  secure : Bool
  reset : Nat
  deriving DecidableEq, Repr

/-- One row: offset in the block, stride and count of the instances inside the block, the index of this
word in its wide value and how many words that value has (1: not wide), and the fields. -/
structure RegD where
  off : Nat
  stride : Nat
  count : Nat
  word : Nat
  words : Nat
  fields : List FieldD
  deriving DecidableEq, Repr

/-- A block's registers: base address, instances of the block and their stride; and the size of the window in which its
chapter calls the offsets that its table does not list reserved (R147, R323, R382, R444, R552, R573, R598). -/
structure BlockD where
  base : Nat
  count : Nat
  stride : Nat
  regs : List RegD
  rsvd : Nat := 0
  deriving DecidableEq, Repr

def regsDEV : List RegD :=
  [⟨0x0, 0x0, 1, 0, 1, [⟨31, 0, .ro, .p, false, 0x4E546480⟩]⟩,
   ⟨0x4, 0x0, 1, 0, 1, [⟨7, 0, .ro, .p, false, 0xC0⟩]⟩,
   ⟨0x8, 0x0, 1, 0, 2, [⟨31, 0, .ro, .p, false, 0x0⟩]⟩,
   ⟨0xC, 0x0, 1, 1, 2, [⟨31, 0, .ro, .p, false, 0x0⟩]⟩,
   ⟨0x10, 0x0, 1, 0, 1, [⟨31, 16, .ro, .p, true, 0x0⟩, ⟨2, 2, .ro, .p, true, 0x0⟩, ⟨1, 1, .ro, .p, true, 0x0⟩, ⟨0, 0, .ro, .p, true, 0x0⟩]⟩,
   ⟨0x20, 0x4, 8, 0, 1, [⟨31, 0, .ro, .p, true, 0x0⟩]⟩,
   ⟨0x40, 0x0, 1, 0, 1, [⟨31, 16, .wo, .p, false, 0x0⟩, ⟨7, 2, .rw, .p, true, 0x0⟩, ⟨1, 1, .wo, .p, true, 0x0⟩, ⟨0, 0, .ro, .p, true, 0x0⟩]⟩,
   ⟨0x44, 0x0, 1, 0, 1, [⟨31, 0, .rw, .p, true, 0x0⟩]⟩]

def regsLODGE : List RegD :=
  [⟨0x0, 0x0, 1, 0, 1, [⟨1, 1, .rw, .p, true, 0x0⟩, ⟨0, 0, .w1s, .p, true, 0x0⟩]⟩,
   ⟨0x10, 0x4, 8, 0, 1, [⟨31, 0, .rw, .p, true, 0xFFFFFFFF⟩]⟩,
   ⟨0x40, 0x0, 1, 0, 1, [⟨15, 8, .ro, .w, true, 0x0⟩, ⟨6, 4, .ro, .w, true, 0x0⟩, ⟨3, 3, .ro, .w, true, 0x0⟩, ⟨1, 1, .w1c, .w, true, 0x0⟩, ⟨0, 0, .w1c, .w, true, 0x0⟩]⟩,
   ⟨0x44, 0x0, 1, 0, 1, [⟨31, 0, .ro, .w, true, 0x0⟩]⟩,
   ⟨0x48, 0x0, 1, 0, 1, [⟨31, 0, .ro, .w, true, 0x0⟩]⟩,
   ⟨0x4C, 0x0, 1, 0, 1, [⟨31, 0, .rc, .w, true, 0x0⟩]⟩,
   ⟨0x100, 0x10, 64, 0, 1, [⟨31, 12, .rw, .p, true, 0x0⟩]⟩,
   ⟨0x104, 0x10, 64, 0, 1, [⟨31, 12, .rw, .p, true, 0x0⟩]⟩,
   ⟨0x108, 0x10, 64, 0, 1, [⟨2, 2, .rw, .p, true, 0x0⟩, ⟨1, 1, .rw, .p, true, 0x1⟩, ⟨0, 0, .rw, .p, true, 0x0⟩]⟩,
   ⟨0x10C, 0x10, 64, 0, 1, []⟩]

def regsPWR : List RegD :=
  [⟨0x0, 0x0, 1, 0, 1, [⟨31, 16, .wo, .p, true, 0x0⟩, ⟨1, 0, .wo, .p, true, 0x0⟩]⟩,
   ⟨0x4, 0x0, 1, 0, 1, [⟨31, 31, .ro, .p, true, 0x0⟩, ⟨30, 30, .ro, .p, true, 0x0⟩, ⟨29, 29, .ro, .p, true, 0x0⟩, ⟨28, 28, .ro, .p, true, 0x0⟩, ⟨23, 20, .ro, .p, true, 0x0⟩, ⟨19, 16, .ro, .p, true, 0x0⟩, ⟨7, 7, .ro, .p, true, 0x0⟩, ⟨2, 0, .ro, .p, true, 0x0⟩]⟩,
   ⟨0x8, 0x0, 1, 0, 1, [⟨2, 2, .rw, .a, true, 0x0⟩, ⟨1, 1, .rw, .a, true, 0x0⟩, ⟨0, 0, .rw, .a, true, 0x0⟩]⟩,
   ⟨0xC, 0x0, 1, 0, 1, [⟨15, 0, .ro, .p, true, 0x0⟩]⟩,
   ⟨0x10, 0x0, 1, 0, 1, [⟨31, 0, .ro, .p, true, 0x0⟩]⟩,
   ⟨0x14, 0x0, 1, 0, 1, [⟨31, 0, .ro, .p, true, 0x0⟩]⟩,
   ⟨0x20, 0x0, 1, 0, 1, [⟨31, 16, .wo, .p, true, 0x0⟩, ⟨0, 0, .wo, .p, true, 0x0⟩]⟩,
   ⟨0x24, 0x0, 1, 0, 1, [⟨0, 0, .w1c, .p, true, 0x0⟩]⟩,
   ⟨0x28, 0x0, 1, 0, 1, [⟨31, 16, .rw, .s, true, 0x0⟩, ⟨0, 0, .rw, .s, true, 0x0⟩]⟩,
   ⟨0x2C, 0x0, 1, 0, 1, [⟨2, 0, .ro, .s, true, 0x0⟩]⟩,
   ⟨0x40, 0x0, 1, 0, 1, [⟨31, 16, .rw, .p, true, 0x3E8⟩, ⟨0, 0, .w1s, .p, true, 0x0⟩]⟩,
   ⟨0x44, 0x0, 1, 0, 1, [⟨15, 0, .wo, .p, true, 0x0⟩]⟩,
   ⟨0x48, 0x0, 1, 0, 1, [⟨15, 0, .ro, .p, true, 0x0⟩]⟩]

def regsCYC : List RegD :=
  [⟨0x0, 0x0, 1, 0, 1, [⟨1, 1, .rw, .p, false, 0x0⟩, ⟨0, 0, .rw, .p, false, 0x0⟩]⟩,
   ⟨0x4, 0x0, 1, 0, 1, [⟨9, 8, .rw, .p, false, 0x0⟩, ⟨5, 4, .rw, .p, false, 0x0⟩, ⟨2, 0, .rw, .p, false, 0x5⟩]⟩,
   ⟨0x8, 0x0, 1, 0, 1, [⟨29, 0, .rw, .p, false, 0x0⟩]⟩,
   ⟨0xC, 0x0, 1, 0, 1, [⟨5, 5, .ro, .p, false, 0x0⟩, ⟨4, 4, .ro, .p, false, 0x0⟩, ⟨3, 3, .w1c, .p, false, 0x0⟩, ⟨2, 2, .w1c, .p, false, 0x0⟩, ⟨1, 1, .w1c, .p, false, 0x0⟩, ⟨0, 0, .ro, .p, false, 0x0⟩]⟩,
   ⟨0x10, 0x0, 1, 0, 2, [⟨31, 0, .ro, .p, false, 0x0⟩]⟩,
   ⟨0x14, 0x0, 1, 1, 2, [⟨31, 0, .ro, .p, false, 0x0⟩]⟩,
   ⟨0x18, 0x0, 1, 0, 1, [⟨31, 0, .rc, .p, false, 0x0⟩]⟩,
   ⟨0x1C, 0x0, 1, 0, 1, [⟨31, 0, .rc, .p, false, 0x0⟩]⟩]

def regsGS : List RegD :=
  [⟨0x0, 0x0, 1, 0, 1, [⟨3, 0, .rw, .w, true, 0x9⟩]⟩,
   ⟨0x4, 0x0, 1, 0, 1, [⟨31, 31, .ro, .w, true, 0x0⟩, ⟨30, 30, .ro, .w, true, 0x0⟩, ⟨23, 20, .ro, .w, true, 0x0⟩, ⟨19, 16, .ro, .w, true, 0x0⟩, ⟨15, 0, .ro, .w, true, 0x0⟩]⟩,
   ⟨0x8, 0x0, 1, 0, 1, [⟨31, 0, .rw, .p, true, 0x0⟩]⟩,
   ⟨0xC, 0x0, 1, 0, 1, [⟨31, 0, .rw, .p, true, 0x0⟩]⟩,
   ⟨0x10, 0x0, 1, 0, 1, [⟨31, 0, .ro, .w, true, 0x0⟩]⟩]

def regsPAN : List RegD :=
  [⟨0x0, 0x0, 1, 0, 1, [⟨31, 0, .rw, .p, false, 0x0⟩]⟩,
   ⟨0x4, 0x0, 1, 0, 1, [⟨31, 0, .rc, .p, false, 0x0⟩]⟩,
   ⟨0x8, 0x0, 1, 0, 1, [⟨31, 0, .ro, .w, false, 0x0⟩]⟩,
   ⟨0xC, 0x0, 1, 0, 1, [⟨31, 0, .rc, .w, false, 0x0⟩]⟩,
   ⟨0x10, 0x0, 1, 0, 1, [⟨31, 24, .rw, .p, false, 0xA⟩, ⟨23, 8, .rw, .p, false, 0x3E8⟩, ⟨0, 0, .rw, .p, false, 0x0⟩]⟩,
   ⟨0x14, 0x0, 1, 0, 1, [⟨31, 31, .w1c, .p, false, 0x0⟩, ⟨20, 0, .ro, .p, false, 0x0⟩]⟩,
   ⟨0x18, 0x0, 1, 0, 1, [⟨31, 0, .ro, .p, false, 0x0⟩]⟩,
   ⟨0x1C, 0x0, 1, 0, 1, [⟨31, 0, .rc, .p, false, 0x0⟩]⟩]

def regsTHRQ : List RegD :=
  [⟨0x0, 0x0, 1, 0, 1, [⟨3, 0, .rw, .p, true, 0x0⟩]⟩,
   ⟨0x4, 0x0, 1, 0, 1, [⟨31, 16, .wo, .p, true, 0x0⟩, ⟨3, 0, .wo, .p, true, 0x0⟩]⟩]

def regsFLT : List RegD :=
  [⟨0x0, 0x0, 1, 0, 1, [⟨31, 28, .rw, .p, true, 0xE⟩, ⟨24, 24, .rw, .p, true, 0x0⟩, ⟨23, 16, .rw, .p, true, 0x0⟩, ⟨13, 8, .rw, .p, true, 0x3⟩, ⟨0, 0, .rw, .p, true, 0x0⟩]⟩,
   ⟨0x4, 0x0, 1, 0, 1, [⟨8, 8, .ro, .p, true, 0x0⟩, ⟨3, 0, .w1c, .a, true, 0x0⟩]⟩,
   ⟨0x8, 0x0, 1, 0, 1, [⟨31, 24, .ro, .a, true, 0x0⟩, ⟨23, 16, .ro, .a, true, 0x0⟩, ⟨15, 0, .ro, .a, true, 0x0⟩]⟩,
   ⟨0x10, 0x4, 4, 0, 1, [⟨31, 0, .rc, .a, true, 0x0⟩]⟩,
   ⟨0x20, 0x0, 1, 0, 1, [⟨31, 31, .ro, .a, true, 0x0⟩, ⟨30, 30, .w1c, .a, true, 0x0⟩, ⟨27, 16, .ro, .a, true, 0x0⟩, ⟨4, 0, .ro, .a, true, 0x0⟩]⟩,
   ⟨0x24, 0x0, 1, 0, 2, [⟨31, 0, .ro, .a, true, 0x0⟩]⟩,
   ⟨0x28, 0x0, 1, 1, 2, [⟨31, 0, .ro, .a, true, 0x0⟩]⟩,
   ⟨0x2C, 0x0, 1, 0, 2, [⟨31, 0, .ro, .a, true, 0x0⟩]⟩,
   ⟨0x30, 0x0, 1, 1, 2, [⟨31, 0, .ro, .a, true, 0x0⟩]⟩,
   ⟨0x34, 0x0, 1, 0, 1, [⟨31, 0, .rc, .a, true, 0x0⟩]⟩,
   ⟨0x38, 0x0, 1, 0, 1, [⟨31, 16, .wo, .p, true, 0x0⟩, ⟨0, 0, .wo, .p, true, 0x0⟩]⟩,
   ⟨0x3C, 0x0, 1, 0, 1, [⟨31, 0, .ro, .a, true, 0x0⟩]⟩,
   ⟨0x40, 0x4, 6, 0, 1, [⟨31, 0, .rw, .p, true, 0x0⟩]⟩,
   ⟨0x58, 0x0, 1, 0, 1, [⟨31, 24, .wo, .p, true, 0x0⟩, ⟨15, 0, .wo, .p, true, 0x0⟩]⟩]

def regsHEARTH : List RegD :=
  [⟨0x0, 0x0, 1, 0, 1, [⟨2, 2, .rw, .p, false, 0x0⟩, ⟨1, 1, .rw, .p, false, 0x0⟩, ⟨0, 0, .rw, .p, false, 0x0⟩]⟩,
   ⟨0x10, 0x0, 1, 0, 4, [⟨31, 0, .ro, .w, false, 0x0⟩]⟩,
   ⟨0x14, 0x0, 1, 1, 4, [⟨29, 0, .ro, .w, false, 0x0⟩]⟩,
   ⟨0x18, 0x0, 1, 2, 4, [⟨31, 0, .ro, .w, false, 0x0⟩]⟩,
   ⟨0x1C, 0x0, 1, 3, 4, [⟨15, 0, .ro, .w, false, 0x0⟩]⟩,
   ⟨0x20, 0x0, 1, 0, 1, [⟨31, 0, .ro, .w, false, 0x0⟩]⟩,
   ⟨0x24, 0x0, 1, 0, 3, [⟨29, 0, .wo, .p, false, 0x0⟩]⟩,
   ⟨0x28, 0x0, 1, 1, 3, [⟨31, 0, .wo, .p, false, 0x0⟩]⟩,
   ⟨0x2C, 0x0, 1, 2, 3, [⟨15, 0, .wo, .p, false, 0x0⟩]⟩,
   ⟨0x30, 0x0, 1, 0, 2, [⟨31, 0, .wo, .p, false, 0x0⟩]⟩,
   ⟨0x34, 0x0, 1, 1, 2, [⟨31, 0, .wo, .p, false, 0x0⟩]⟩,
   ⟨0x38, 0x0, 1, 0, 1, [⟨31, 0, .rw, .w, false, 0x0⟩]⟩,
   ⟨0x3C, 0x0, 1, 0, 1, [⟨31, 16, .rw, .p, false, 0x8000⟩, ⟨15, 0, .rw, .p, false, 0x1000⟩]⟩,
   ⟨0x40, 0x0, 1, 0, 1, [⟨31, 16, .rw, .p, false, 0xC8⟩, ⟨15, 0, .rw, .p, false, 0x64⟩]⟩,
   ⟨0x44, 0x0, 1, 0, 1, [⟨31, 0, .rw, .p, false, 0xF4240⟩]⟩,
   ⟨0x48, 0x0, 1, 0, 1, [⟨31, 24, .rw, .p, false, 0x2⟩, ⟨23, 16, .rw, .p, false, 0x8⟩, ⟨15, 0, .rw, .p, false, 0x64⟩]⟩,
   ⟨0x4C, 0x0, 1, 0, 1, [⟨31, 0, .ro, .p, false, 0x0⟩]⟩,
   ⟨0x50, 0x0, 1, 0, 1, [⟨31, 0, .ro, .p, false, 0x0⟩]⟩,
   ⟨0x54, 0x0, 1, 0, 1, [⟨10, 10, .w1c, .w, false, 0x0⟩, ⟨9, 9, .w1c, .w, false, 0x0⟩, ⟨8, 8, .w1c, .w, false, 0x0⟩, ⟨3, 3, .ro, .w, false, 0x0⟩, ⟨2, 2, .ro, .w, false, 0x0⟩, ⟨1, 1, .ro, .w, false, 0x0⟩, ⟨0, 0, .ro, .w, false, 0x0⟩]⟩,
   ⟨0x58, 0x0, 1, 0, 1, [⟨31, 0, .rc, .w, false, 0x0⟩]⟩,
   ⟨0x5C, 0x0, 1, 0, 2, [⟨31, 0, .ro, .w, false, 0x0⟩]⟩,
   ⟨0x60, 0x0, 1, 1, 2, [⟨31, 0, .ro, .w, false, 0x0⟩]⟩,
   ⟨0x64, 0x0, 1, 0, 1, [⟨31, 0, .ro, .w, false, 0x0⟩]⟩,
   ⟨0x68, 0x0, 1, 0, 1, [⟨31, 0, .ro, .w, false, 0x0⟩]⟩,
   ⟨0x80, 0x0, 1, 0, 1, [⟨23, 16, .rw, .p, false, 0x0⟩, ⟨13, 12, .rw, .p, false, 0x0⟩, ⟨11, 8, .rw, .p, false, 0x0⟩, ⟨6, 6, .rw, .p, false, 0x0⟩, ⟨5, 4, .rw, .p, false, 0x0⟩, ⟨3, 2, .rw, .p, false, 0x0⟩, ⟨1, 0, .rw, .p, false, 0x0⟩]⟩,
   ⟨0x84, 0x0, 1, 0, 1, [⟨23, 16, .rw, .p, false, 0x0⟩, ⟨15, 8, .rw, .p, false, 0x0⟩, ⟨7, 0, .rw, .p, false, 0xFD⟩]⟩,
   ⟨0x88, 0x0, 1, 0, 1, [⟨19, 16, .rw, .p, false, 0x4⟩, ⟨15, 8, .rw, .p, false, 0x3⟩, ⟨7, 0, .rw, .p, false, 0x3⟩]⟩,
   ⟨0x8C, 0x0, 1, 0, 1, [⟨31, 24, .rw, .p, false, 0xF8⟩, ⟨23, 16, .rw, .p, false, 0xF8⟩, ⟨15, 8, .rw, .p, false, 0x80⟩, ⟨7, 0, .rw, .p, false, 0x80⟩]⟩,
   ⟨0x90, 0x0, 1, 0, 2, [⟨31, 0, .ro, .p, false, 0x0⟩]⟩,
   ⟨0x94, 0x0, 1, 1, 2, [⟨31, 0, .ro, .p, false, 0x0⟩]⟩,
   ⟨0xC0, 0x10, 4, 0, 1, [⟨31, 16, .rw, .p, false, 0x0⟩, ⟨15, 0, .rw, .p, false, 0x0⟩]⟩,
   ⟨0xC4, 0x10, 4, 0, 1, [⟨31, 0, .rw, .p, false, 0x0⟩]⟩,
   ⟨0xC8, 0x10, 4, 0, 1, [⟨3, 0, .ro, .p, false, 0x0⟩]⟩,
   ⟨0xCC, 0x10, 4, 0, 1, [⟨31, 0, .ro, .p, false, 0x0⟩]⟩]

def regsRAFTER : List RegD :=
  [⟨0x0, 0x0, 1, 0, 1, [⟨25, 16, .rw, .p, false, 0x190⟩, ⟨5, 5, .rw, .p, false, 0x0⟩, ⟨4, 4, .rw, .p, false, 0x0⟩, ⟨3, 3, .rw, .p, false, 0x0⟩, ⟨2, 0, .rw, .p, false, 0x0⟩]⟩,
   ⟨0x10, 0x4, 4, 0, 1, [⟨15, 8, .rw, .p, false, 0x0⟩, ⟨2, 2, .rw, .p, false, 0x0⟩, ⟨1, 1, .rw, .p, false, 0x0⟩, ⟨0, 0, .rw, .p, false, 0x0⟩]⟩,
   ⟨0x20, 0x0, 1, 0, 1, [⟨3, 0, .wo, .p, false, 0x0⟩]⟩,
   ⟨0x30, 0x4, 8, 0, 1, [⟨9, 0, .rw, .p, false, 0x0⟩]⟩,
   ⟨0x50, 0x0, 1, 0, 1, [⟨6, 6, .wo, .p, false, 0x0⟩, ⟨5, 5, .rw, .p, false, 0x0⟩, ⟨4, 2, .rw, .p, false, 0x0⟩, ⟨1, 0, .rw, .p, false, 0x0⟩]⟩,
   ⟨0x54, 0x0, 1, 0, 1, [⟨31, 31, .ro, .p, false, 0x0⟩, ⟨30, 30, .ro, .p, false, 0x0⟩, ⟨29, 29, .ro, .p, false, 0x0⟩, ⟨9, 0, .ro, .p, false, 0x0⟩]⟩,
   ⟨0x60, 0x8, 4, 0, 1, [⟨31, 0, .ro, .p, false, 0x0⟩]⟩,
   ⟨0x64, 0x8, 4, 0, 1, [⟨8, 8, .ro, .p, false, 0x0⟩, ⟨2, 0, .ro, .p, false, 0x0⟩]⟩,
   ⟨0x80, 0x0, 1, 0, 1, [⟨31, 0, .rc, .p, false, 0x0⟩]⟩,
   ⟨0x84, 0x0, 1, 0, 1, [⟨31, 0, .rc, .p, false, 0x0⟩]⟩,
   ⟨0x88, 0x0, 1, 0, 1, [⟨31, 0, .rc, .p, false, 0x0⟩]⟩,
   ⟨0x8C, 0x0, 1, 0, 1, [⟨31, 0, .rc, .p, false, 0x0⟩]⟩,
   ⟨0x90, 0x0, 1, 0, 1, [⟨4, 4, .ro, .p, false, 0x0⟩, ⟨3, 0, .ro, .p, false, 0x0⟩]⟩]

def regsHW0 : List RegD :=
  [⟨0x0, 0x80, 4, 0, 1, [⟨27, 16, .rw, .p, false, 0x1⟩, ⟨10, 8, .rw, .p, false, 0x0⟩, ⟨3, 3, .rw, .p, false, 0x1⟩, ⟨2, 0, .rw, .p, false, 0x0⟩]⟩,
   ⟨0x4, 0x80, 4, 0, 1, [⟨5, 5, .w1c, .p, false, 0x0⟩, ⟨4, 4, .ro, .p, false, 0x0⟩, ⟨3, 1, .ro, .p, false, 0x0⟩, ⟨0, 0, .ro, .p, false, 0x0⟩]⟩,
   ⟨0x8, 0x80, 4, 0, 1, [⟨31, 0, .rc, .p, false, 0x0⟩]⟩,
   ⟨0xC, 0x80, 4, 0, 1, [⟨31, 0, .rc, .p, false, 0x0⟩]⟩,
   ⟨0x10, 0x80, 4, 0, 1, [⟨31, 0, .rc, .p, false, 0x0⟩]⟩,
   ⟨0x14, 0x80, 4, 0, 1, [⟨31, 0, .rc, .p, false, 0x0⟩]⟩,
   ⟨0x18, 0x80, 4, 0, 1, [⟨31, 0, .rc, .p, false, 0x0⟩]⟩,
   ⟨0x20, 0x80, 4, 0, 1, [⟨2, 2, .ro, .p, false, 0x0⟩, ⟨1, 1, .wo, .p, false, 0x0⟩, ⟨0, 0, .rw, .p, false, 0x0⟩]⟩,
   ⟨0x24, 0x80, 4, 0, 1, [⟨31, 0, .rw, .p, false, 0x0⟩]⟩,
   ⟨0x28, 0x80, 4, 0, 2, [⟨31, 0, .rw, .p, false, 0x0⟩]⟩,
   ⟨0x2C, 0x80, 4, 1, 2, [⟨31, 0, .rw, .p, false, 0x0⟩]⟩,
   ⟨0x30, 0x80, 4, 0, 1, [⟨6, 0, .rw, .p, false, 0x0⟩]⟩,
   ⟨0x400, 0x0, 1, 0, 1, [⟨31, 16, .rw, .p, false, 0x12C⟩, ⟨1, 1, .rw, .p, false, 0x1⟩, ⟨0, 0, .rw, .p, false, 0x0⟩]⟩,
   ⟨0x404, 0x0, 1, 0, 1, [⟨13, 0, .rw, .p, false, 0x5F2⟩]⟩,
   ⟨0x408, 0x0, 1, 0, 1, [⟨23, 0, .rw, .p, false, 0xFAC688⟩]⟩,
   ⟨0x410, 0x0, 1, 0, 2, [⟨31, 0, .rw, .p, false, 0x0⟩]⟩,
   ⟨0x414, 0x0, 1, 1, 2, [⟨15, 0, .rw, .p, false, 0x0⟩]⟩,
   ⟨0x420, 0x0, 1, 0, 1, [⟨7, 0, .rw, .p, false, 0x63⟩]⟩,
   ⟨0x424, 0x0, 1, 0, 1, [⟨31, 31, .wo, .p, false, 0x0⟩, ⟨30, 30, .ro, .p, false, 0x0⟩, ⟨29, 29, .rw, .p, false, 0x0⟩, ⟨28, 27, .rw, .p, false, 0x0⟩, ⟨26, 22, .rw, .p, false, 0x0⟩, ⟨21, 17, .rw, .p, false, 0x0⟩, ⟨15, 0, .rw, .p, false, 0x0⟩]⟩,
   ⟨0x428, 0x0, 1, 0, 1, [⟨31, 31, .ro, .p, false, 0x0⟩, ⟨15, 0, .ro, .p, false, 0x0⟩]⟩,
   ⟨0x800, 0x8, 64, 0, 1, [⟨15, 15, .rw, .p, false, 0x0⟩, ⟨11, 0, .rw, .p, false, 0x0⟩]⟩,
   ⟨0x804, 0x8, 64, 0, 1, [⟨13, 8, .rw, .p, false, 0x0⟩, ⟨5, 0, .rw, .p, false, 0x0⟩]⟩,
   ⟨0x1000, 0x8, 256, 0, 1, [⟨7, 0, .rw, .p, false, 0x0⟩]⟩,
   ⟨0x1004, 0x8, 256, 0, 1, [⟨31, 0, .rw, .p, false, 0x0⟩]⟩,
   ⟨0x2000, 0x0, 1, 0, 1, [⟨31, 24, .rw, .p, false, 0x3⟩, ⟨23, 20, .rw, .p, false, 0x0⟩, ⟨19, 8, .rw, .p, false, 0x0⟩, ⟨6, 4, .rw, .p, false, 0x7⟩, ⟨3, 3, .rw, .p, false, 0x0⟩, ⟨2, 2, .rw, .p, false, 0x0⟩, ⟨1, 1, .rw, .p, false, 0x0⟩, ⟨0, 0, .rw, .p, false, 0x0⟩]⟩,
   ⟨0x2004, 0x0, 1, 0, 1, [⟨23, 0, .rw, .p, false, 0x0⟩]⟩,
   ⟨0x2008, 0x0, 1, 0, 1, [⟨23, 0, .rw, .p, false, 0x0⟩]⟩,
   ⟨0x200C, 0x0, 1, 0, 1, [⟨15, 0, .rw, .p, false, 0x0⟩]⟩,
   ⟨0x2010, 0x0, 1, 0, 2, [⟨31, 0, .rw, .p, false, 0x0⟩]⟩,
   ⟨0x2014, 0x0, 1, 1, 2, [⟨31, 0, .rw, .p, false, 0x0⟩]⟩,
   ⟨0x2018, 0x0, 1, 0, 2, [⟨31, 0, .rw, .p, false, 0x0⟩]⟩,
   ⟨0x201C, 0x0, 1, 1, 2, [⟨31, 0, .rw, .p, false, 0x0⟩]⟩,
   ⟨0x2020, 0x0, 1, 0, 2, [⟨31, 0, .rw, .p, false, 0x0⟩]⟩,
   ⟨0x2024, 0x0, 1, 1, 2, [⟨31, 0, .rw, .p, false, 0x0⟩]⟩,
   ⟨0x2028, 0x0, 1, 0, 2, [⟨31, 0, .wo, .p, false, 0x0⟩]⟩,
   ⟨0x202C, 0x0, 1, 1, 2, [⟨31, 0, .wo, .p, false, 0x0⟩]⟩,
   ⟨0x2030, 0x0, 1, 0, 2, [⟨31, 0, .ro, .p, false, 0x0⟩]⟩,
   ⟨0x2034, 0x0, 1, 1, 2, [⟨31, 0, .ro, .p, false, 0x0⟩]⟩,
   ⟨0x2038, 0x0, 1, 0, 1, [⟨2, 2, .w1c, .p, false, 0x0⟩, ⟨1, 1, .w1c, .p, false, 0x0⟩, ⟨0, 0, .ro, .p, false, 0x0⟩]⟩,
   ⟨0x2040, 0x0, 1, 0, 1, [⟨31, 0, .rc, .p, false, 0x0⟩]⟩]

def regsHW1 : List RegD :=
  [⟨0x2044, 0x0, 1, 0, 1, [⟨31, 0, .rc, .p, false, 0x0⟩]⟩,
   ⟨0x2048, 0x0, 1, 0, 1, [⟨31, 0, .rc, .p, false, 0x0⟩]⟩,
   ⟨0x204C, 0x0, 1, 0, 1, [⟨31, 0, .rc, .p, false, 0x0⟩]⟩,
   ⟨0x2050, 0x0, 1, 0, 1, [⟨31, 0, .rc, .p, false, 0x0⟩]⟩,
   ⟨0x2400, 0x4, 256, 0, 1, [⟨31, 0, .rw, .p, false, 0x0⟩]⟩,
   ⟨0x2800, 0x4, 256, 0, 1, [⟨31, 0, .ro, .p, false, 0x0⟩]⟩,
   ⟨0x3000, 0x0, 1, 0, 1, [⟨2, 0, .ro, .p, false, 0x0⟩]⟩,
   ⟨0x3004, 0x0, 1, 0, 1, [⟨31, 0, .rc, .p, false, 0x0⟩]⟩,
   ⟨0x3008, 0x0, 1, 0, 1, [⟨31, 0, .rc, .p, false, 0x0⟩]⟩]

def regsHW : List RegD := regsHW0 ++ regsHW1

def regsCHUCK : List RegD :=
  [⟨0x0, 0x0, 1, 0, 1, [⟨31, 24, .rw, .w, false, 0x4⟩, ⟨23, 20, .rw, .w, false, 0x3⟩, ⟨19, 18, .rw, .w, false, 0x0⟩, ⟨17, 17, .rw, .w, false, 0x0⟩, ⟨16, 15, .rw, .w, false, 0x0⟩, ⟨11, 8, .rw, .w, false, 0x0⟩, ⟨4, 4, .rw, .w, false, 0x0⟩, ⟨1, 0, .rw, .w, false, 0x0⟩]⟩,
   ⟨0x4, 0x0, 1, 0, 1, [⟨31, 24, .rw, .w, false, 0x2⟩, ⟨23, 0, .rw, .w, false, 0x0⟩]⟩,
   ⟨0x8, 0x0, 1, 0, 1, [⟨31, 16, .rw, .w, false, 0x64⟩, ⟨2, 0, .rw, .w, false, 0x0⟩]⟩,
   ⟨0xC, 0x0, 1, 0, 1, [⟨31, 24, .rw, .w, false, 0x18⟩, ⟨23, 16, .rw, .w, false, 0x0⟩, ⟨15, 8, .rw, .w, false, 0x3⟩, ⟨3, 2, .rw, .w, false, 0x0⟩]⟩,
   ⟨0x10, 0x0, 1, 0, 1, [⟨25, 24, .rw, .w, false, 0x0⟩, ⟨23, 18, .rw, .w, false, 0x0⟩, ⟨17, 17, .rw, .w, false, 0x0⟩, ⟨16, 16, .rw, .w, false, 0x0⟩, ⟨15, 12, .rw, .w, false, 0x0⟩, ⟨11, 8, .rw, .w, false, 0x0⟩]⟩,
   ⟨0x14, 0x0, 1, 0, 1, [⟨15, 8, .rw, .w, false, 0x0⟩, ⟨7, 0, .rw, .w, false, 0x0⟩]⟩,
   ⟨0x18, 0x0, 1, 0, 1, [⟨31, 16, .rw, .w, false, 0x0⟩, ⟨15, 0, .rw, .w, false, 0x7D0⟩]⟩,
   ⟨0x1C, 0x0, 1, 0, 1, [⟨15, 0, .rw, .w, false, 0x0⟩]⟩,
   ⟨0x20, 0x0, 1, 0, 1, [⟨31, 0, .rw, .w, false, 0x0⟩]⟩,
   ⟨0x40, 0x0, 1, 0, 1, [⟨31, 0, .ro, .w, false, 0x0⟩]⟩,
   ⟨0x44, 0x0, 1, 0, 1, [⟨31, 0, .rw, .w, false, 0x0⟩]⟩,
   ⟨0x48, 0x0, 1, 0, 1, [⟨31, 0, .ro, .w, false, 0x0⟩]⟩,
   ⟨0x4C, 0x0, 1, 0, 1, [⟨31, 0, .ro, .p, false, 0x0⟩]⟩,
   ⟨0x50, 0x0, 1, 0, 1, [⟨31, 0, .ro, .w, false, 0x0⟩]⟩,
   ⟨0x54, 0x0, 1, 0, 1, [⟨31, 0, .ro, .w, false, 0x0⟩]⟩,
   ⟨0x58, 0x0, 1, 0, 1, [⟨31, 0, .ro, .w, false, 0x0⟩]⟩,
   ⟨0x5C, 0x0, 1, 0, 1, [⟨31, 28, .ro, .w, false, 0x0⟩, ⟨18, 16, .ro, .w, false, 0x0⟩, ⟨9, 9, .ro, .w, false, 0x0⟩, ⟨8, 8, .ro, .w, false, 0x0⟩, ⟨5, 5, .w1c, .w, false, 0x0⟩, ⟨4, 4, .w1c, .w, false, 0x0⟩, ⟨2, 0, .ro, .w, false, 0x0⟩]⟩,
   ⟨0x60, 0x0, 1, 0, 1, [⟨31, 0, .rc, .w, false, 0x0⟩]⟩,
   ⟨0x64, 0x0, 1, 0, 1, [⟨31, 0, .ro, .w, false, 0x0⟩]⟩,
   ⟨0x68, 0x0, 1, 0, 1, [⟨31, 0, .ro, .w, false, 0x0⟩]⟩,
   ⟨0x6C, 0x0, 1, 0, 1, [⟨31, 24, .rc, .w, false, 0x0⟩, ⟨23, 16, .rc, .w, false, 0x0⟩, ⟨15, 8, .rc, .w, false, 0x0⟩, ⟨7, 0, .rc, .w, false, 0x0⟩]⟩,
   ⟨0x70, 0x0, 1, 0, 1, [⟨4, 4, .w1c, .w, false, 0x0⟩, ⟨3, 3, .w1c, .w, false, 0x0⟩, ⟨2, 2, .w1c, .w, false, 0x0⟩, ⟨1, 1, .w1c, .w, false, 0x0⟩, ⟨0, 0, .ro, .w, false, 0x0⟩]⟩]

def regsSP : List RegD :=
  [⟨0x0, 0x0, 1, 0, 1, [⟨13, 8, .rw, .p, false, 0x0⟩, ⟨3, 1, .rw, .p, false, 0x0⟩, ⟨0, 0, .rw, .p, false, 0x0⟩]⟩,
   ⟨0x4, 0x0, 1, 0, 1, [⟨27, 24, .rw, .p, false, 0x4⟩, ⟨23, 8, .rw, .p, false, 0x2710⟩, ⟨7, 0, .rw, .p, false, 0x14⟩]⟩,
   ⟨0x8, 0x0, 1, 0, 2, [⟨31, 0, .rw, .p, false, 0x0⟩]⟩,
   ⟨0xC, 0x0, 1, 1, 2, [⟨31, 0, .rw, .p, false, 0x1⟩]⟩,
   ⟨0x10, 0x0, 1, 0, 2, [⟨31, 0, .wo, .p, false, 0x0⟩]⟩,
   ⟨0x14, 0x0, 1, 1, 2, [⟨31, 0, .wo, .p, false, 0x0⟩]⟩,
   ⟨0x18, 0x0, 1, 0, 2, [⟨31, 0, .ro, .p, false, 0x0⟩]⟩,
   ⟨0x1C, 0x0, 1, 1, 2, [⟨31, 0, .ro, .p, false, 0x0⟩]⟩,
   ⟨0x20, 0x0, 1, 0, 2, [⟨31, 0, .ro, .p, false, 0x0⟩]⟩,
   ⟨0x24, 0x0, 1, 1, 2, [⟨31, 0, .ro, .p, false, 0x0⟩]⟩,
   ⟨0x28, 0x0, 1, 0, 2, [⟨31, 0, .ro, .p, false, 0x0⟩]⟩,
   ⟨0x2C, 0x0, 1, 1, 2, [⟨31, 0, .ro, .p, false, 0x0⟩]⟩,
   ⟨0x30, 0x0, 1, 0, 1, [⟨31, 0, .rw, .p, false, 0x10000⟩]⟩,
   ⟨0x34, 0x0, 1, 0, 1, [⟨31, 0, .rw, .p, false, 0x10000⟩]⟩,
   ⟨0x38, 0x0, 1, 0, 1, [⟨10, 10, .w1c, .p, false, 0x0⟩, ⟨9, 9, .w1c, .p, false, 0x0⟩, ⟨8, 8, .w1c, .p, false, 0x0⟩, ⟨2, 2, .ro, .p, false, 0x0⟩, ⟨1, 1, .ro, .p, false, 0x0⟩, ⟨0, 0, .ro, .p, false, 0x1⟩]⟩,
   ⟨0x40, 0x0, 1, 0, 2, [⟨31, 0, .ro, .p, false, 0x0⟩]⟩,
   ⟨0x44, 0x0, 1, 1, 2, [⟨31, 0, .ro, .p, false, 0x0⟩]⟩]

def regsLED : List RegD :=
  [⟨0x0, 0x0, 1, 0, 1, [⟨0, 0, .rw, .p, false, 0x0⟩]⟩,
   ⟨0x4, 0x0, 1, 0, 1, [⟨20, 16, .wo, .p, false, 0x0⟩, ⟨14, 0, .wo, .p, false, 0x0⟩]⟩,
   ⟨0x8, 0x0, 1, 0, 1, [⟨14, 0, .wo, .p, false, 0x0⟩]⟩,
   ⟨0xC, 0x0, 1, 0, 1, [⟨31, 0, .rc, .p, false, 0x0⟩]⟩,
   ⟨0x10, 0x0, 1, 0, 1, [⟨31, 0, .rc, .p, false, 0x0⟩]⟩,
   ⟨0x14, 0x0, 1, 0, 1, [⟨31, 0, .rc, .p, false, 0x0⟩]⟩,
   ⟨0x18, 0x0, 1, 0, 1, [⟨31, 31, .ro, .p, false, 0x0⟩, ⟨28, 24, .ro, .p, false, 0x0⟩, ⟨23, 21, .ro, .p, false, 0x0⟩, ⟨20, 20, .ro, .p, false, 0x0⟩, ⟨14, 0, .ro, .p, false, 0x0⟩]⟩,
   ⟨0x1C, 0x0, 1, 0, 1, [⟨31, 0, .ro, .p, false, 0x0⟩]⟩,
   ⟨0x20, 0x0, 1, 0, 1, [⟨16, 16, .w1c, .p, false, 0x0⟩, ⟨9, 0, .ro, .p, false, 0x0⟩]⟩,
   ⟨0x24, 0x0, 1, 0, 1, [⟨0, 0, .wo, .p, false, 0x0⟩]⟩,
   ⟨0x40, 0x4, 17, 0, 1, [⟨15, 0, .ro, .p, false, 0x0⟩]⟩]

def regsAX0 : List RegD :=
  [⟨0x0, 0x0, 1, 0, 1, [⟨29, 24, .rw, .p, false, 0x0⟩, ⟨21, 16, .rw, .p, false, 0x0⟩, ⟨7, 7, .rw, .p, false, 0x0⟩, ⟨4, 4, .rw, .p, false, 0x0⟩, ⟨1, 0, .rw, .p, false, 0x0⟩]⟩,
   ⟨0x4, 0x0, 1, 0, 1, [⟨3, 0, .wo, .p, false, 0x0⟩]⟩,
   ⟨0x8, 0x0, 1, 0, 1, [⟨11, 11, .w1c, .p, false, 0x0⟩, ⟨10, 10, .w1c, .p, false, 0x0⟩, ⟨9, 9, .w1c, .p, false, 0x0⟩, ⟨8, 8, .ro, .p, false, 0x0⟩, ⟨7, 7, .ro, .p, false, 0x0⟩, ⟨6, 6, .ro, .p, false, 0x0⟩, ⟨5, 5, .ro, .p, false, 0x0⟩, ⟨4, 4, .ro, .p, false, 0x0⟩, ⟨3, 0, .ro, .p, false, 0x0⟩]⟩,
   ⟨0x10, 0x0, 1, 0, 2, [⟨31, 0, .rw, .p, false, 0x0⟩]⟩,
   ⟨0x14, 0x0, 1, 1, 2, [⟨31, 0, .rw, .p, false, 0x0⟩]⟩,
   ⟨0x18, 0x0, 1, 0, 2, [⟨31, 0, .rw, .p, false, 0x0⟩]⟩,
   ⟨0x1C, 0x0, 1, 1, 2, [⟨31, 0, .rw, .p, false, 0x0⟩]⟩,
   ⟨0x20, 0x0, 1, 0, 2, [⟨31, 0, .rw, .p, false, 0x0⟩]⟩,
   ⟨0x24, 0x0, 1, 1, 2, [⟨31, 0, .rw, .p, false, 0x0⟩]⟩,
   ⟨0x28, 0x0, 1, 0, 2, [⟨31, 0, .rw, .p, false, 0x0⟩]⟩,
   ⟨0x2C, 0x0, 1, 1, 2, [⟨31, 0, .rw, .p, false, 0x0⟩]⟩,
   ⟨0x30, 0x0, 1, 0, 2, [⟨31, 0, .rw, .p, false, 0x0⟩]⟩,
   ⟨0x34, 0x0, 1, 1, 2, [⟨31, 0, .rw, .p, false, 0x0⟩]⟩,
   ⟨0x38, 0x0, 1, 0, 2, [⟨31, 0, .rw, .p, false, 0x0⟩]⟩,
   ⟨0x3C, 0x0, 1, 1, 2, [⟨31, 0, .rw, .p, false, 0x0⟩]⟩,
   ⟨0x40, 0x0, 1, 0, 2, [⟨31, 0, .ro, .p, false, 0x0⟩]⟩,
   ⟨0x44, 0x0, 1, 1, 2, [⟨31, 0, .ro, .p, false, 0x0⟩]⟩,
   ⟨0x48, 0x0, 1, 0, 2, [⟨31, 0, .ro, .p, false, 0x0⟩]⟩,
   ⟨0x4C, 0x0, 1, 1, 2, [⟨31, 0, .ro, .p, false, 0x0⟩]⟩,
   ⟨0x50, 0x0, 1, 0, 2, [⟨31, 0, .ro, .p, false, 0x0⟩]⟩,
   ⟨0x54, 0x0, 1, 1, 2, [⟨31, 0, .ro, .p, false, 0x0⟩]⟩,
   ⟨0x58, 0x0, 1, 0, 2, [⟨31, 0, .ro, .p, false, 0x0⟩]⟩,
   ⟨0x5C, 0x0, 1, 1, 2, [⟨31, 0, .ro, .p, false, 0x0⟩]⟩,
   ⟨0x60, 0x0, 1, 0, 2, [⟨31, 0, .rw, .p, false, 0x0⟩]⟩,
   ⟨0x64, 0x0, 1, 1, 2, [⟨31, 0, .rw, .p, false, 0x0⟩]⟩,
   ⟨0x68, 0x0, 1, 0, 2, [⟨31, 0, .rw, .w, false, 0x0⟩]⟩,
   ⟨0x6C, 0x0, 1, 1, 2, [⟨31, 0, .rw, .w, false, 0x0⟩]⟩,
   ⟨0x70, 0x0, 1, 0, 2, [⟨31, 0, .rw, .p, false, 0x0⟩]⟩,
   ⟨0x74, 0x0, 1, 1, 2, [⟨31, 0, .rw, .p, false, 0x0⟩]⟩,
   ⟨0x100, 0x0, 1, 0, 1, [⟨5, 5, .rw, .p, false, 0x0⟩, ⟨3, 0, .rw, .p, false, 0x0⟩]⟩,
   ⟨0x108, 0x0, 1, 0, 2, [⟨31, 0, .rw, .p, false, 0x0⟩]⟩,
   ⟨0x10C, 0x0, 1, 1, 2, [⟨31, 0, .rw, .p, false, 0x0⟩]⟩,
   ⟨0x110, 0x0, 1, 0, 2, [⟨31, 0, .rw, .p, false, 0x0⟩]⟩,
   ⟨0x114, 0x0, 1, 1, 2, [⟨31, 0, .rw, .p, false, 0x0⟩]⟩,
   ⟨0x118, 0x0, 1, 0, 2, [⟨31, 0, .rw, .p, false, 0x0⟩]⟩,
   ⟨0x11C, 0x0, 1, 1, 2, [⟨31, 0, .rw, .p, false, 0x0⟩]⟩,
   ⟨0x120, 0x0, 1, 0, 1, [⟨31, 0, .rw, .p, false, 0x0⟩]⟩,
   ⟨0x128, 0x0, 1, 0, 2, [⟨31, 0, .ro, .p, false, 0x0⟩]⟩,
   ⟨0x12C, 0x0, 1, 1, 2, [⟨31, 0, .ro, .p, false, 0x0⟩]⟩,
   ⟨0x140, 0x0, 1, 0, 1, [⟨4, 4, .rw, .p, false, 0x0⟩, ⟨3, 0, .rw, .p, false, 0x0⟩]⟩]

def regsAX1 : List RegD :=
  [⟨0x144, 0x0, 1, 0, 1, [⟨31, 0, .rw, .p, false, 0x0⟩]⟩,
   ⟨0x148, 0x0, 1, 0, 1, [⟨31, 0, .rw, .p, false, 0x0⟩]⟩,
   ⟨0x150, 0x0, 1, 0, 2, [⟨31, 0, .rw, .p, false, 0x0⟩]⟩,
   ⟨0x154, 0x0, 1, 1, 2, [⟨31, 0, .rw, .p, false, 0x0⟩]⟩,
   ⟨0x158, 0x0, 1, 0, 2, [⟨31, 0, .rw, .p, false, 0x0⟩]⟩,
   ⟨0x15C, 0x0, 1, 1, 2, [⟨31, 0, .rw, .p, false, 0x0⟩]⟩,
   ⟨0x160, 0x0, 1, 0, 2, [⟨31, 0, .ro, .p, false, 0x0⟩]⟩,
   ⟨0x164, 0x0, 1, 1, 2, [⟨31, 0, .ro, .p, false, 0x0⟩]⟩,
   ⟨0x168, 0x0, 1, 0, 1, [⟨31, 0, .ro, .p, false, 0x0⟩]⟩,
   ⟨0x180, 0x0, 1, 0, 2, [⟨31, 0, .wo, .p, false, 0x0⟩]⟩,
   ⟨0x184, 0x0, 1, 1, 2, [⟨31, 0, .wo, .p, false, 0x0⟩]⟩,
   ⟨0x188, 0x0, 1, 0, 2, [⟨31, 0, .rw, .p, false, 0x0⟩]⟩,
   ⟨0x18C, 0x0, 1, 1, 2, [⟨31, 0, .rw, .p, false, 0x0⟩]⟩,
   ⟨0x190, 0x0, 1, 0, 2, [⟨31, 0, .rw, .p, false, 0x0⟩]⟩,
   ⟨0x194, 0x0, 1, 1, 2, [⟨31, 0, .rw, .p, false, 0x0⟩]⟩,
   ⟨0x198, 0x0, 1, 0, 2, [⟨31, 0, .ro, .p, false, 0x0⟩]⟩,
   ⟨0x19C, 0x0, 1, 1, 2, [⟨31, 0, .ro, .p, false, 0x0⟩]⟩,
   ⟨0x200, 0x0, 1, 0, 1, [⟨29, 29, .rw, .p, false, 0x0⟩, ⟨28, 24, .rw, .p, false, 0x0⟩, ⟨23, 22, .rw, .p, false, 0x0⟩, ⟨21, 21, .rw, .p, false, 0x0⟩, ⟨20, 16, .rw, .p, false, 0x0⟩, ⟨15, 14, .rw, .p, false, 0x0⟩, ⟨13, 8, .rw, .p, false, 0x0⟩, ⟨6, 4, .rw, .p, false, 0x0⟩, ⟨3, 2, .rw, .p, false, 0x0⟩, ⟨1, 0, .rw, .p, false, 0x0⟩]⟩,
   ⟨0x204, 0x0, 1, 0, 1, [⟨2, 2, .wo, .p, false, 0x0⟩, ⟨1, 1, .wo, .p, false, 0x0⟩, ⟨0, 0, .rw, .p, false, 0x0⟩]⟩,
   ⟨0x208, 0x0, 1, 0, 1, [⟨9, 9, .w1c, .p, false, 0x0⟩, ⟨8, 8, .ro, .p, false, 0x0⟩, ⟨7, 7, .w1c, .p, false, 0x0⟩, ⟨6, 6, .ro, .p, false, 0x0⟩, ⟨5, 5, .ro, .p, false, 0x0⟩, ⟨2, 0, .ro, .p, false, 0x0⟩]⟩,
   ⟨0x20C, 0x0, 1, 0, 1, [⟨23, 8, .rw, .p, false, 0x2710⟩, ⟨7, 0, .rw, .p, false, 0x14⟩]⟩,
   ⟨0x210, 0x0, 1, 0, 1, [⟨31, 0, .rw, .p, false, 0x0⟩]⟩,
   ⟨0x214, 0x0, 1, 0, 1, [⟨31, 0, .rw, .p, false, 0x0⟩]⟩,
   ⟨0x218, 0x0, 1, 0, 1, [⟨31, 0, .rw, .p, false, 0x0⟩]⟩,
   ⟨0x21C, 0x0, 1, 0, 1, [⟨31, 0, .rw, .p, false, 0x0⟩]⟩,
   ⟨0x220, 0x0, 1, 0, 1, [⟨31, 0, .rw, .p, false, 0x0⟩]⟩,
   ⟨0x224, 0x0, 1, 0, 1, [⟨23, 0, .rw, .p, false, 0x0⟩]⟩,
   ⟨0x228, 0x0, 1, 0, 2, [⟨31, 0, .rw, .p, false, 0x0⟩]⟩,
   ⟨0x22C, 0x0, 1, 1, 2, [⟨31, 0, .rw, .p, false, 0x0⟩]⟩,
   ⟨0x230, 0x0, 1, 0, 2, [⟨31, 0, .rw, .p, false, 0xFFFFFFFF⟩]⟩,
   ⟨0x234, 0x0, 1, 1, 2, [⟨31, 0, .rw, .p, false, 0xFFFFFFFF⟩]⟩,
   ⟨0x238, 0x0, 1, 0, 2, [⟨31, 0, .rw, .p, false, 0x0⟩]⟩,
   ⟨0x23C, 0x0, 1, 1, 2, [⟨31, 0, .rw, .p, false, 0x0⟩]⟩,
   ⟨0x240, 0x0, 1, 0, 2, [⟨31, 0, .rw, .p, false, 0x0⟩]⟩,
   ⟨0x244, 0x0, 1, 1, 2, [⟨31, 0, .rw, .p, false, 0x0⟩]⟩,
   ⟨0x248, 0x0, 1, 0, 2, [⟨31, 0, .ro, .p, false, 0x0⟩]⟩,
   ⟨0x24C, 0x0, 1, 1, 2, [⟨31, 0, .ro, .p, false, 0x0⟩]⟩,
   ⟨0x250, 0x0, 1, 0, 2, [⟨31, 0, .ro, .p, false, 0x0⟩]⟩,
   ⟨0x254, 0x0, 1, 1, 2, [⟨31, 0, .ro, .p, false, 0x0⟩]⟩,
   ⟨0x258, 0x0, 1, 0, 1, [⟨31, 0, .ro, .p, false, 0x0⟩]⟩]

def regsAX2 : List RegD :=
  [⟨0x260, 0x0, 1, 0, 2, [⟨31, 0, .ro, .p, false, 0x0⟩]⟩,
   ⟨0x264, 0x0, 1, 1, 2, [⟨31, 0, .ro, .p, false, 0x0⟩]⟩,
   ⟨0x268, 0x0, 1, 0, 2, [⟨31, 0, .ro, .p, false, 0x0⟩]⟩,
   ⟨0x26C, 0x0, 1, 1, 2, [⟨31, 0, .ro, .p, false, 0x0⟩]⟩,
   ⟨0x270, 0x0, 1, 0, 2, [⟨31, 0, .rw, .p, false, 0x0⟩]⟩,
   ⟨0x274, 0x0, 1, 1, 2, [⟨31, 0, .rw, .p, false, 0x0⟩]⟩,
   ⟨0x278, 0x0, 1, 0, 2, [⟨31, 0, .rw, .p, false, 0x0⟩]⟩,
   ⟨0x27C, 0x0, 1, 1, 2, [⟨31, 0, .rw, .p, false, 0x0⟩]⟩,
   ⟨0x280, 0x0, 1, 0, 1, [⟨23, 0, .rw, .p, false, 0x0⟩]⟩,
   ⟨0x284, 0x0, 1, 0, 1, [⟨2, 0, .rw, .p, false, 0x0⟩]⟩,
   ⟨0x288, 0x0, 1, 0, 2, [⟨31, 0, .rw, .p, false, 0x0⟩]⟩,
   ⟨0x28C, 0x0, 1, 1, 2, [⟨31, 0, .rw, .p, false, 0x0⟩]⟩,
   ⟨0x300, 0x20, 3, 0, 1, [⟨31, 16, .rw, .p, false, 0x0⟩, ⟨15, 2, .rw, .p, false, 0x0⟩, ⟨1, 0, .rw, .p, false, 0x0⟩]⟩,
   ⟨0x304, 0x20, 3, 0, 1, [⟨15, 0, .rw, .p, false, 0x0⟩]⟩,
   ⟨0x308, 0x20, 3, 0, 1, [⟨31, 0, .rw, .p, false, 0x0⟩]⟩,
   ⟨0x30C, 0x20, 3, 0, 1, [⟨31, 0, .rw, .p, false, 0x0⟩]⟩,
   ⟨0x310, 0x20, 3, 0, 1, [⟨31, 0, .rw, .p, false, 0x0⟩]⟩,
   ⟨0x314, 0x20, 3, 0, 1, [⟨31, 0, .rw, .p, false, 0x0⟩]⟩,
   ⟨0x318, 0x20, 3, 0, 1, [⟨31, 0, .rw, .p, false, 0x0⟩]⟩,
   ⟨0x380, 0x0, 1, 0, 1, [⟨31, 31, .ro, .p, false, 0x0⟩, ⟨26, 24, .ro, .p, false, 0x0⟩, ⟨7, 0, .w1c, .p, false, 0x0⟩]⟩,
   ⟨0x384, 0x0, 1, 0, 1, [⟨14, 12, .rw, .p, false, 0x4⟩, ⟨11, 9, .rw, .p, false, 0x4⟩, ⟨8, 6, .rw, .p, false, 0x4⟩, ⟨5, 3, .rw, .p, false, 0x4⟩, ⟨2, 0, .rw, .p, false, 0x4⟩]⟩,
   ⟨0x400, 0x0, 1, 0, 1, [⟨19, 16, .rw, .p, false, 0x0⟩, ⟨15, 13, .rw, .p, false, 0x3⟩, ⟨12, 8, .rw, .p, false, 0x0⟩, ⟨6, 6, .rw, .p, false, 0x0⟩, ⟨5, 5, .rw, .p, false, 0x0⟩, ⟨4, 4, .rw, .p, false, 0x0⟩, ⟨3, 3, .rw, .p, false, 0x0⟩, ⟨2, 2, .rw, .w, false, 0x0⟩, ⟨1, 0, .rw, .p, false, 0x0⟩]⟩,
   ⟨0x404, 0x0, 1, 0, 1, [⟨31, 0, .rw, .p, false, 0x0⟩]⟩,
   ⟨0x408, 0x0, 1, 0, 1, [⟨31, 0, .rw, .p, false, 0x0⟩]⟩,
   ⟨0x410, 0x0, 1, 0, 1, [⟨31, 0, .rw, .p, false, 0x0⟩]⟩,
   ⟨0x414, 0x0, 1, 0, 1, [⟨31, 0, .rw, .p, false, 0x0⟩]⟩,
   ⟨0x418, 0x0, 1, 0, 1, [⟨31, 0, .rw, .p, false, 0x0⟩]⟩,
   ⟨0x41C, 0x0, 1, 0, 1, [⟨31, 0, .rw, .p, false, 0x0⟩]⟩,
   ⟨0x420, 0x0, 1, 0, 1, [⟨31, 0, .rw, .p, false, 0x0⟩]⟩,
   ⟨0x424, 0x0, 1, 0, 1, [⟨31, 0, .rw, .p, false, 0x0⟩]⟩,
   ⟨0x428, 0x0, 1, 0, 1, [⟨31, 0, .rw, .p, false, 0x0⟩]⟩,
   ⟨0x42C, 0x0, 1, 0, 1, [⟨31, 0, .rw, .p, false, 0x0⟩]⟩,
   ⟨0x430, 0x0, 1, 0, 1, [⟨31, 0, .rw, .p, false, 0x0⟩]⟩,
   ⟨0x434, 0x0, 1, 0, 1, [⟨31, 0, .rw, .p, false, 0x0⟩]⟩,
   ⟨0x438, 0x0, 1, 0, 1, [⟨23, 0, .rw, .p, false, 0x0⟩]⟩,
   ⟨0x43C, 0x0, 1, 0, 1, [⟨31, 16, .rw, .p, false, 0x0⟩, ⟨15, 0, .rw, .p, false, 0xF000⟩]⟩,
   ⟨0x440, 0x0, 1, 0, 1, [⟨31, 16, .rw, .p, false, 0x0⟩, ⟨15, 0, .rw, .p, false, 0x0⟩]⟩,
   ⟨0x444, 0x0, 1, 0, 1, [⟨31, 0, .rw, .p, false, 0x0⟩]⟩,
   ⟨0x448, 0x0, 1, 0, 1, [⟨31, 0, .rw, .p, false, 0x0⟩]⟩,
   ⟨0x44C, 0x0, 1, 0, 1, [⟨31, 24, .rw, .p, false, 0x10⟩, ⟨23, 16, .rw, .p, false, 0x20⟩, ⟨15, 0, .rw, .p, false, 0x1000⟩]⟩]

def regsAX3 : List RegD :=
  [⟨0x450, 0x0, 1, 0, 1, [⟨23, 0, .rw, .p, false, 0x0⟩]⟩,
   ⟨0x454, 0x0, 1, 0, 1, [⟨31, 16, .rw, .p, false, 0x0⟩, ⟨15, 0, .rw, .p, false, 0x64⟩]⟩,
   ⟨0x458, 0x0, 1, 0, 1, [⟨23, 0, .rw, .p, false, 0x0⟩]⟩,
   ⟨0x45C, 0x0, 1, 0, 1, [⟨31, 0, .rw, .p, false, 0x0⟩]⟩,
   ⟨0x460, 0x0, 1, 0, 1, [⟨31, 0, .rw, .p, false, 0x0⟩]⟩,
   ⟨0x464, 0x0, 1, 0, 1, [⟨31, 16, .rw, .p, false, 0x4000⟩, ⟨15, 0, .rw, .p, false, 0x64⟩]⟩,
   ⟨0x468, 0x0, 1, 0, 1, [⟨23, 0, .rw, .p, false, 0x0⟩]⟩,
   ⟨0x46C, 0x0, 1, 0, 1, [⟨31, 0, .rw, .w, false, 0x0⟩]⟩,
   ⟨0x470, 0x0, 1, 0, 1, [⟨31, 0, .rw, .p, false, 0x0⟩]⟩,
   ⟨0x474, 0x0, 1, 0, 1, [⟨15, 0, .rw, .p, false, 0x0⟩]⟩,
   ⟨0x478, 0x0, 1, 0, 1, [⟨31, 0, .rw, .p, false, 0x0⟩]⟩,
   ⟨0x47C, 0x0, 1, 0, 1, [⟨23, 0, .rw, .p, false, 0x0⟩]⟩,
   ⟨0x480, 0x0, 1, 0, 1, [⟨23, 0, .rw, .p, false, 0x0⟩]⟩,
   ⟨0x484, 0x0, 1, 0, 1, [⟨23, 16, .rw, .p, false, 0x8⟩, ⟨15, 0, .rw, .p, false, 0x64⟩]⟩,
   ⟨0x488, 0x0, 1, 0, 1, [⟨15, 0, .rw, .p, false, 0x4000⟩]⟩,
   ⟨0x490, 0x0, 1, 0, 2, [⟨31, 0, .rw, .p, false, 0x0⟩]⟩,
   ⟨0x494, 0x0, 1, 1, 2, [⟨31, 0, .rw, .p, false, 0x0⟩]⟩,
   ⟨0x4C0, 0x0, 1, 0, 1, [⟨10, 10, .w1c, .p, false, 0x0⟩, ⟨9, 9, .w1c, .p, false, 0x0⟩, ⟨8, 8, .ro, .p, false, 0x0⟩, ⟨7, 7, .ro, .p, false, 0x0⟩, ⟨6, 4, .ro, .p, false, 0x0⟩, ⟨3, 0, .ro, .p, false, 0x0⟩]⟩,
   ⟨0x4C4, 0x0, 1, 0, 1, [⟨31, 0, .rc, .p, false, 0x0⟩]⟩,
   ⟨0x4C8, 0x0, 1, 0, 1, [⟨31, 0, .rc, .p, false, 0x0⟩]⟩,
   ⟨0x4CC, 0x0, 1, 0, 1, [⟨31, 0, .rc, .p, false, 0x0⟩]⟩,
   ⟨0x4D0, 0x0, 1, 0, 1, [⟨31, 0, .ro, .p, false, 0x0⟩]⟩,
   ⟨0x4D4, 0x0, 1, 0, 1, [⟨31, 16, .ro, .p, false, 0x0⟩, ⟨15, 0, .ro, .p, false, 0x0⟩]⟩,
   ⟨0x4D8, 0x0, 1, 0, 2, [⟨31, 0, .ro, .w, false, 0x0⟩]⟩,
   ⟨0x4DC, 0x0, 1, 1, 2, [⟨31, 0, .ro, .w, false, 0x0⟩]⟩,
   ⟨0x4E0, 0x0, 1, 0, 1, [⟨31, 0, .ro, .p, false, 0x0⟩]⟩,
   ⟨0x4E4, 0x0, 1, 0, 1, [⟨31, 0, .ro, .p, false, 0x0⟩]⟩,
   ⟨0x4E8, 0x0, 1, 0, 1, [⟨31, 0, .ro, .p, false, 0x0⟩]⟩,
   ⟨0x4EC, 0x0, 1, 0, 1, [⟨15, 0, .ro, .p, false, 0x0⟩]⟩,
   ⟨0x4F0, 0x0, 1, 0, 2, [⟨31, 0, .ro, .w, false, 0x0⟩]⟩,
   ⟨0x4F4, 0x0, 1, 1, 2, [⟨31, 0, .ro, .w, false, 0x0⟩]⟩,
   ⟨0x500, 0x4, 16, 0, 1, [⟨31, 16, .rw, .p, false, 0x0⟩, ⟨15, 0, .rw, .p, false, 0x0⟩]⟩,
   ⟨0x540, 0x0, 1, 0, 1, [⟨31, 0, .rw, .p, false, 0x0⟩]⟩,
   ⟨0x800, 0x0, 1, 0, 1, [⟨0, 0, .wo, .p, false, 0x0⟩]⟩,
   ⟨0x804, 0x0, 1, 0, 1, [⟨8, 8, .ro, .p, false, 0x0⟩, ⟨7, 7, .ro, .p, false, 0x0⟩, ⟨6, 6, .w1c, .p, false, 0x0⟩, ⟨5, 5, .w1c, .p, false, 0x0⟩, ⟨4, 0, .ro, .p, false, 0x0⟩]⟩,
   ⟨0x808, 0x0, 1, 0, 2, [⟨31, 0, .rw, .p, false, 0x0⟩]⟩,
   ⟨0x80C, 0x0, 1, 1, 2, [⟨31, 0, .rw, .p, false, 0x0⟩]⟩,
   ⟨0x810, 0x0, 1, 0, 2, [⟨31, 0, .rw, .p, false, 0x0⟩]⟩,
   ⟨0x814, 0x0, 1, 1, 2, [⟨31, 0, .rw, .p, false, 0x0⟩]⟩,
   ⟨0x818, 0x0, 1, 0, 2, [⟨31, 0, .rw, .p, false, 0x0⟩]⟩]

def regsAX4 : List RegD :=
  [⟨0x81C, 0x0, 1, 1, 2, [⟨31, 0, .rw, .p, false, 0x0⟩]⟩,
   ⟨0x820, 0x0, 1, 0, 2, [⟨31, 0, .ro, .p, false, 0x0⟩]⟩,
   ⟨0x824, 0x0, 1, 1, 2, [⟨31, 0, .ro, .p, false, 0x0⟩]⟩,
   ⟨0x828, 0x0, 1, 0, 2, [⟨31, 0, .ro, .p, false, 0x0⟩]⟩,
   ⟨0x82C, 0x0, 1, 1, 2, [⟨31, 0, .ro, .p, false, 0x0⟩]⟩,
   ⟨0x840, 0x8, 8, 0, 2, [⟨31, 0, .rw, .p, false, 0x0⟩]⟩,
   ⟨0x844, 0x8, 8, 1, 2, [⟨31, 0, .rw, .p, false, 0x0⟩]⟩,
   ⟨0x880, 0x0, 1, 0, 1, [⟨0, 0, .wo, .p, false, 0x0⟩]⟩]

def regsAX : List RegD := regsAX0 ++ regsAX1 ++ regsAX2 ++ regsAX3 ++ regsAX4

def regsGOUGE : List RegD :=
  [⟨0x0, 0x0, 1, 0, 1, [⟨15, 8, .rw, .p, false, 0x10⟩, ⟨1, 1, .wo, .p, false, 0x0⟩, ⟨0, 0, .rw, .p, false, 0x0⟩]⟩,
   ⟨0x4, 0x0, 1, 0, 1, [⟨15, 12, .ro, .w, false, 0x0⟩, ⟨11, 8, .ro, .w, false, 0x0⟩, ⟨7, 7, .w1c, .p, false, 0x0⟩, ⟨6, 6, .w1c, .p, false, 0x0⟩, ⟨2, 0, .ro, .w, false, 0x0⟩]⟩,
   ⟨0x8, 0x0, 1, 0, 1, [⟨31, 0, .rc, .p, false, 0x0⟩]⟩,
   ⟨0xC, 0x0, 1, 0, 1, [⟨13, 0, .ro, .w, false, 0x0⟩]⟩,
   ⟨0x10, 0x0, 1, 0, 1, [⟨15, 15, .ro, .p, false, 0x0⟩, ⟨12, 8, .ro, .p, false, 0x0⟩, ⟨7, 0, .ro, .p, false, 0x0⟩]⟩,
   ⟨0x40, 0x4, 8, 0, 1, [⟨31, 0, .rw, .p, false, 0x0⟩]⟩,
   ⟨0x60, 0x4, 8, 0, 1, [⟨31, 0, .ro, .p, false, 0x0⟩]⟩,
   ⟨0x100, 0x8, 32, 0, 1, [⟨31, 31, .rw, .p, false, 0x0⟩, ⟨30, 29, .rw, .p, false, 0x0⟩, ⟨28, 28, .rw, .p, false, 0x0⟩, ⟨27, 16, .rw, .p, false, 0x0⟩, ⟨13, 0, .rw, .p, false, 0x0⟩]⟩,
   ⟨0x104, 0x8, 32, 0, 1, [⟨31, 8, .rw, .p, false, 0x0⟩, ⟨7, 0, .rw, .p, false, 0x0⟩]⟩,
   ⟨0x400, 0x4, 256, 0, 1, [⟨13, 0, .rw, .p, false, 0x0⟩]⟩]

def regsBL : List RegD :=
  [⟨0x0, 0x0, 1, 0, 1, [⟨3, 3, .wo, .p, false, 0x0⟩, ⟨2, 2, .rw, .p, false, 0x1⟩, ⟨1, 1, .wo, .p, false, 0x0⟩, ⟨0, 0, .rw, .p, false, 0x0⟩]⟩,
   ⟨0x4, 0x0, 1, 0, 1, [⟨31, 16, .rw, .p, false, 0x0⟩, ⟨7, 4, .rw, .p, false, 0x2⟩]⟩,
   ⟨0x8, 0x0, 1, 0, 1, [⟨31, 16, .ro, .p, false, 0x0⟩, ⟨7, 7, .w1c, .p, false, 0x0⟩, ⟨6, 6, .ro, .p, false, 0x0⟩, ⟨5, 5, .w1c, .p, false, 0x0⟩, ⟨4, 4, .ro, .p, false, 0x0⟩, ⟨2, 0, .ro, .p, false, 0x0⟩]⟩,
   ⟨0xC, 0x0, 1, 0, 1, [⟨31, 0, .ro, .p, false, 0x0⟩]⟩,
   ⟨0x10, 0x0, 1, 0, 1, [⟨31, 0, .rc, .p, false, 0x0⟩]⟩,
   ⟨0x14, 0x0, 1, 0, 1, [⟨31, 0, .rc, .p, false, 0x0⟩]⟩,
   ⟨0x18, 0x0, 1, 0, 1, [⟨31, 0, .rc, .p, false, 0x0⟩]⟩,
   ⟨0x1C, 0x0, 1, 0, 1, [⟨31, 0, .rc, .p, false, 0x0⟩]⟩,
   ⟨0x20, 0x0, 1, 0, 1, [⟨31, 0, .rc, .p, false, 0x0⟩]⟩,
   ⟨0x24, 0x0, 1, 0, 1, [⟨31, 24, .ro, .p, false, 0x0⟩, ⟨23, 16, .ro, .p, false, 0x0⟩, ⟨15, 8, .ro, .p, false, 0x0⟩, ⟨7, 0, .ro, .p, false, 0x0⟩]⟩,
   ⟨0x28, 0x0, 1, 0, 1, [⟨7, 0, .rw, .p, false, 0x0⟩]⟩,
   ⟨0x2C, 0x0, 1, 0, 1, [⟨15, 0, .ro, .p, false, 0x0⟩]⟩]

def regsSTP : List RegD :=
  [⟨0x0, 0x20, 16, 0, 1, [⟨31, 16, .rw, .p, false, 0x32⟩, ⟨15, 8, .rw, .p, false, 0x19⟩, ⟨7, 4, .rw, .p, false, 0x0⟩, ⟨2, 2, .rw, .p, false, 0x0⟩, ⟨1, 1, .rw, .p, false, 0x1⟩, ⟨0, 0, .rw, .p, false, 0x0⟩]⟩,
   ⟨0x4, 0x20, 16, 0, 1, [⟨31, 0, .ro, .p, false, 0x0⟩]⟩,
   ⟨0x8, 0x20, 16, 0, 1, [⟨1, 1, .ro, .p, false, 0x0⟩, ⟨0, 0, .w1c, .p, false, 0x0⟩]⟩,
   ⟨0xC, 0x20, 16, 0, 1, [⟨31, 0, .ro, .p, false, 0x0⟩]⟩,
   ⟨0x400, 0x8, 256, 0, 1, [⟨23, 0, .rw, .p, false, 0x0⟩]⟩,
   ⟨0x404, 0x8, 256, 0, 1, [⟨23, 0, .rw, .p, false, 0x0⟩]⟩]

def regsCMD : List RegD :=
  [⟨0x0, 0x0, 1, 0, 1, [⟨31, 16, .rw, .p, false, 0x3E8⟩, ⟨15, 12, .rw, .p, false, 0x0⟩, ⟨11, 8, .rw, .p, false, 0x0⟩, ⟨7, 7, .rw, .p, false, 0x0⟩, ⟨6, 6, .rw, .p, false, 0x0⟩, ⟨5, 5, .rw, .p, false, 0x0⟩, ⟨4, 4, .rw, .p, false, 0x0⟩, ⟨1, 0, .rw, .p, false, 0x0⟩]⟩,
   ⟨0x4, 0x0, 1, 0, 1, [⟨31, 16, .rw, .p, false, 0x4000⟩, ⟨15, 0, .rw, .p, false, 0x8000⟩]⟩,
   ⟨0x8, 0x0, 1, 0, 1, [⟨23, 0, .rw, .p, false, 0x989680⟩]⟩,
   ⟨0xC, 0x0, 1, 0, 1, [⟨23, 0, .rw, .p, false, 0x0⟩]⟩,
   ⟨0x10, 0x0, 1, 0, 1, [⟨31, 0, .ro, .p, false, 0x0⟩]⟩,
   ⟨0x14, 0x0, 1, 0, 1, [⟨31, 0, .ro, .p, false, 0x0⟩]⟩,
   ⟨0x18, 0x0, 1, 0, 1, [⟨3, 3, .ro, .p, false, 0x0⟩, ⟨2, 2, .w1c, .p, false, 0x0⟩, ⟨1, 1, .w1c, .p, false, 0x0⟩, ⟨0, 0, .ro, .p, false, 0x0⟩]⟩,
   ⟨0x1C, 0x0, 1, 0, 1, [⟨31, 0, .ro, .p, false, 0x0⟩]⟩]

def regsSILL : List RegD :=
  [⟨0x0, 0x0, 1, 0, 1, [⟨31, 16, .rw, .p, false, 0x0⟩, ⟨13, 8, .rw, .p, false, 0x0⟩, ⟨3, 2, .rw, .p, false, 0x0⟩, ⟨0, 0, .rw, .p, false, 0x0⟩]⟩,
   ⟨0x4, 0x0, 1, 0, 1, [⟨31, 16, .ro, .p, false, 0x0⟩, ⟨2, 2, .w1c, .p, false, 0x0⟩, ⟨1, 1, .w1c, .p, false, 0x0⟩, ⟨0, 0, .ro, .p, false, 0x0⟩]⟩,
   ⟨0x8, 0x0, 1, 0, 1, [⟨31, 0, .rc, .p, false, 0x0⟩]⟩,
   ⟨0x40, 0x4, 32, 0, 1, [⟨3, 0, .rw, .p, false, 0x0⟩]⟩,
   ⟨0x100, 0x8, 16, 0, 1, [⟨31, 31, .rc, .p, false, 0x0⟩, ⟨23, 16, .ro, .p, false, 0x0⟩, ⟨15, 0, .ro, .p, false, 0x0⟩]⟩,
   ⟨0x104, 0x8, 16, 0, 1, [⟨31, 0, .ro, .p, false, 0x0⟩]⟩,
   ⟨0x200, 0x4, 16, 0, 1, [⟨31, 16, .rw, .p, false, 0xFFFF⟩, ⟨15, 0, .rw, .p, false, 0x0⟩]⟩]

def regsMT : List RegD :=
  [⟨0x0, 0x10, 16, 0, 1, [⟨31, 16, .rw, .p, false, 0x0⟩, ⟨8, 8, .rw, .p, false, 0x0⟩, ⟨7, 4, .rw, .p, false, 0x0⟩, ⟨2, 1, .rw, .p, false, 0x0⟩, ⟨0, 0, .rw, .p, false, 0x0⟩]⟩,
   ⟨0x4, 0x10, 16, 0, 1, [⟨31, 31, .ro, .p, false, 0x0⟩, ⟨16, 16, .w1c, .p, false, 0x0⟩, ⟨8, 0, .ro, .p, false, 0x0⟩]⟩,
   ⟨0x8, 0x10, 16, 0, 1, [⟨31, 0, .rc, .p, false, 0x0⟩]⟩,
   ⟨0xC, 0x10, 16, 0, 1, [⟨0, 0, .wo, .p, false, 0x0⟩]⟩,
   ⟨0x100, 0x10, 16, 0, 1, [⟨2, 2, .rw, .p, false, 0x0⟩, ⟨1, 1, .rw, .p, false, 0x0⟩, ⟨0, 0, .rw, .p, false, 0x0⟩]⟩,
   ⟨0x104, 0x10, 16, 0, 1, [⟨0, 0, .ro, .p, false, 0x0⟩]⟩,
   ⟨0x108, 0x10, 16, 0, 1, [⟨1, 0, .wo, .p, false, 0x0⟩]⟩,
   ⟨0x10C, 0x10, 16, 0, 1, [⟨31, 0, .rc, .p, false, 0x0⟩]⟩,
   ⟨0x200, 0x0, 1, 0, 1, [⟨3, 0, .rw, .p, false, 0x0⟩]⟩,
   ⟨0x300, 0x0, 1, 0, 1, [⟨31, 0, .ro, .p, false, 0x0⟩]⟩,
   ⟨0x304, 0x0, 1, 0, 1, [⟨29, 0, .ro, .p, false, 0x0⟩]⟩,
   ⟨0x308, 0x0, 1, 0, 1, [⟨31, 31, .ro, .p, false, 0x0⟩, ⟨8, 8, .ro, .p, false, 0x0⟩, ⟨7, 0, .ro, .p, false, 0x0⟩]⟩,
   ⟨0x30C, 0x0, 1, 0, 1, []⟩,
   ⟨0x310, 0x8, 16, 0, 2, [⟨31, 0, .ro, .p, false, 0x0⟩]⟩,
   ⟨0x314, 0x8, 16, 1, 2, [⟨31, 0, .ro, .p, false, 0x0⟩]⟩]

def regsSKEW : List RegD :=
  [⟨0x0, 0x0, 1, 0, 1, [⟨31, 16, .rw, .p, false, 0x4E20⟩, ⟨7, 4, .rw, .p, false, 0x0⟩, ⟨0, 0, .rw, .p, false, 0x0⟩]⟩,
   ⟨0x4, 0x0, 1, 0, 1, [⟨31, 0, .rw, .p, false, 0x0⟩]⟩,
   ⟨0x8, 0x0, 1, 0, 1, [⟨5, 0, .ro, .p, false, 0x0⟩]⟩,
   ⟨0xC, 0x0, 1, 0, 1, [⟨31, 0, .rc, .p, false, 0x0⟩]⟩,
   ⟨0x10, 0x0, 1, 0, 1, [⟨31, 0, .rc, .p, false, 0x0⟩]⟩,
   ⟨0x200, 0x4, 128, 0, 1, [⟨31, 16, .ro, .p, false, 0x0⟩, ⟨8, 8, .ro, .p, false, 0x0⟩, ⟨7, 0, .ro, .p, false, 0x0⟩]⟩]

def regsBAR0 : List RegD :=
  [⟨0x0, 0x0, 1, 0, 1, [⟨31, 16, .rw, .p, false, 0x0⟩, ⟨11, 8, .rw, .p, false, 0x0⟩, ⟨5, 4, .rw, .p, false, 0x0⟩, ⟨3, 3, .rw, .p, false, 0x0⟩, ⟨2, 2, .rw, .p, false, 0x0⟩, ⟨1, 1, .rw, .p, false, 0x0⟩, ⟨0, 0, .rw, .p, false, 0x0⟩]⟩,
   ⟨0x4, 0x0, 1, 0, 1, [⟨12, 12, .w1c, .p, false, 0x0⟩, ⟨11, 11, .w1c, .p, false, 0x0⟩, ⟨10, 10, .w1c, .p, false, 0x0⟩, ⟨9, 9, .w1c, .p, false, 0x0⟩, ⟨8, 8, .w1c, .p, false, 0x0⟩, ⟨1, 0, .ro, .p, false, 0x0⟩]⟩,
   ⟨0x8, 0x0, 1, 0, 2, [⟨31, 0, .rw, .p, false, 0x0⟩]⟩,
   ⟨0xC, 0x0, 1, 1, 2, [⟨31, 0, .rw, .p, false, 0x0⟩]⟩,
   ⟨0x10, 0x0, 1, 0, 2, [⟨31, 0, .rw, .p, false, 0x0⟩]⟩,
   ⟨0x14, 0x0, 1, 1, 2, [⟨31, 0, .rw, .p, false, 0x0⟩]⟩,
   ⟨0x18, 0x0, 1, 0, 2, [⟨31, 0, .rw, .p, false, 0x0⟩]⟩,
   ⟨0x1C, 0x0, 1, 1, 2, [⟨31, 0, .rw, .p, false, 0x0⟩]⟩,
   ⟨0x20, 0x0, 1, 0, 2, [⟨31, 0, .rw, .p, false, 0x0⟩]⟩,
   ⟨0x24, 0x0, 1, 1, 2, [⟨31, 0, .rw, .p, false, 0x0⟩]⟩,
   ⟨0x28, 0x0, 1, 0, 2, [⟨31, 0, .ro, .p, false, 0x0⟩]⟩,
   ⟨0x2C, 0x0, 1, 1, 2, [⟨31, 0, .ro, .p, false, 0x0⟩]⟩,
   ⟨0x30, 0x0, 1, 0, 1, [⟨31, 0, .rw, .p, false, 0x0⟩]⟩,
   ⟨0x34, 0x0, 1, 0, 1, [⟨31, 0, .rw, .p, false, 0x3E8⟩]⟩,
   ⟨0x38, 0x0, 1, 0, 1, [⟨31, 0, .rw, .p, false, 0x0⟩]⟩,
   ⟨0x3C, 0x0, 1, 0, 1, [⟨31, 0, .rw, .p, false, 0x0⟩]⟩,
   ⟨0x40, 0x0, 1, 0, 1, [⟨31, 0, .ro, .p, false, 0x0⟩]⟩,
   ⟨0x44, 0x0, 1, 0, 1, [⟨31, 0, .ro, .p, false, 0x0⟩]⟩,
   ⟨0x48, 0x0, 1, 0, 2, [⟨31, 0, .rw, .p, false, 0x0⟩]⟩,
   ⟨0x4C, 0x0, 1, 1, 2, [⟨31, 0, .rw, .p, false, 0x0⟩]⟩,
   ⟨0x50, 0x0, 1, 0, 1, [⟨31, 0, .rw, .p, false, 0x0⟩]⟩,
   ⟨0x54, 0x0, 1, 0, 1, [⟨31, 0, .rw, .p, false, 0x0⟩]⟩,
   ⟨0x58, 0x0, 1, 0, 1, [⟨31, 0, .rw, .p, false, 0x0⟩]⟩,
   ⟨0x5C, 0x0, 1, 0, 1, [⟨31, 0, .rw, .p, false, 0x0⟩]⟩,
   ⟨0x60, 0x0, 1, 0, 1, [⟨31, 0, .rw, .p, false, 0x0⟩]⟩,
   ⟨0x64, 0x0, 1, 0, 1, [⟨31, 0, .rw, .p, false, 0x0⟩]⟩,
   ⟨0x68, 0x0, 1, 0, 1, [⟨31, 16, .rw, .p, false, 0x4000⟩, ⟨15, 0, .rw, .p, false, 0x4000⟩]⟩,
   ⟨0x6C, 0x0, 1, 0, 1, [⟨15, 0, .rw, .p, false, 0x4000⟩]⟩,
   ⟨0x70, 0x0, 1, 0, 1, [⟨31, 0, .rw, .p, false, 0x10000⟩]⟩,
   ⟨0x74, 0x0, 1, 0, 1, [⟨31, 0, .rw, .p, false, 0x10000⟩]⟩,
   ⟨0x78, 0x0, 1, 0, 1, [⟨31, 0, .rw, .p, false, 0x10000⟩]⟩,
   ⟨0x7C, 0x0, 1, 0, 1, [⟨31, 0, .rw, .p, false, 0x640000⟩]⟩,
   ⟨0x80, 0x0, 1, 0, 1, [⟨31, 0, .rw, .p, false, 0x640000⟩]⟩,
   ⟨0x84, 0x0, 1, 0, 1, [⟨31, 0, .rw, .p, false, 0x640000⟩]⟩,
   ⟨0x88, 0x0, 1, 0, 2, [⟨31, 0, .ro, .p, false, 0x0⟩]⟩,
   ⟨0x8C, 0x0, 1, 1, 2, [⟨31, 0, .ro, .p, false, 0x0⟩]⟩,
   ⟨0x90, 0x0, 1, 0, 2, [⟨31, 0, .ro, .p, false, 0x0⟩]⟩,
   ⟨0x94, 0x0, 1, 1, 2, [⟨31, 0, .ro, .p, false, 0x0⟩]⟩,
   ⟨0x98, 0x0, 1, 0, 2, [⟨31, 0, .ro, .p, false, 0x0⟩]⟩,
   ⟨0x9C, 0x0, 1, 1, 2, [⟨31, 0, .ro, .p, false, 0x0⟩]⟩]

def regsBAR1 : List RegD :=
  [⟨0xA0, 0x0, 1, 0, 1, [⟨0, 0, .wo, .p, false, 0x0⟩]⟩,
   ⟨0xA4, 0x0, 1, 0, 1, [⟨31, 0, .rc, .p, false, 0x0⟩]⟩,
   ⟨0xA8, 0x0, 1, 0, 1, [⟨31, 0, .rc, .p, false, 0x0⟩]⟩,
   ⟨0xAC, 0x0, 1, 0, 1, [⟨31, 0, .rc, .p, false, 0x0⟩]⟩,
   ⟨0xB0, 0x0, 1, 0, 1, [⟨31, 0, .rc, .p, false, 0x0⟩]⟩]

def regsBAR : List RegD := regsBAR0 ++ regsBAR1

def regsSENS : List RegD :=
  [⟨0x0, 0x0, 1, 0, 1, [⟨31, 0, .rw, .p, false, 0x0⟩]⟩,
   ⟨0x4, 0x0, 1, 0, 1, []⟩,
   ⟨0x8, 0x0, 1, 0, 2, [⟨31, 0, .rw, .p, false, 0x0⟩]⟩,
   ⟨0xC, 0x0, 1, 1, 2, [⟨31, 0, .rw, .p, false, 0x0⟩]⟩]

def regsJL : List RegD :=
  [⟨0x0, 0x0, 1, 0, 1, [⟨2, 2, .rw, .p, false, 0x1⟩, ⟨1, 1, .wo, .p, false, 0x0⟩, ⟨0, 0, .rw, .p, false, 0x0⟩]⟩,
   ⟨0x4, 0x0, 1, 0, 1, [⟨4, 0, .rw, .p, false, 0x0⟩]⟩,
   ⟨0x8, 0x0, 1, 0, 1, [⟨31, 16, .ro, .p, false, 0x0⟩, ⟨12, 8, .ro, .p, false, 0x0⟩, ⟨7, 7, .w1c, .p, false, 0x0⟩, ⟨6, 6, .w1c, .p, false, 0x0⟩, ⟨5, 5, .w1c, .p, false, 0x0⟩, ⟨2, 0, .ro, .p, false, 0x0⟩]⟩,
   ⟨0xC, 0x0, 1, 0, 1, [⟨4, 4, .wo, .p, false, 0x0⟩, ⟨3, 0, .rw, .p, false, 0x0⟩]⟩,
   ⟨0x10, 0x0, 1, 0, 1, [⟨2, 2, .ro, .p, false, 0x0⟩, ⟨1, 1, .ro, .p, false, 0x0⟩, ⟨0, 0, .ro, .p, false, 0x0⟩]⟩,
   ⟨0x14, 0x0, 1, 0, 1, [⟨31, 0, .ro, .p, false, 0x0⟩]⟩,
   ⟨0x18, 0x0, 1, 0, 1, [⟨31, 0, .rc, .p, false, 0x0⟩]⟩,
   ⟨0x1C, 0x0, 1, 0, 1, [⟨31, 0, .rc, .p, false, 0x0⟩]⟩,
   ⟨0x20, 0x0, 1, 0, 1, [⟨31, 0, .rc, .p, false, 0x0⟩]⟩,
   ⟨0x24, 0x0, 1, 0, 1, [⟨31, 0, .rc, .p, false, 0x0⟩]⟩,
   ⟨0x40, 0x4, 16, 0, 1, [⟨31, 0, .ro, .p, false, 0x0⟩]⟩,
   ⟨0x80, 0x4, 16, 0, 1, [⟨15, 0, .ro, .p, false, 0x0⟩]⟩,
   ⟨0xC0, 0x4, 16, 0, 1, [⟨31, 0, .rc, .p, false, 0x0⟩]⟩,
   ⟨0x100, 0x4, 16, 0, 1, [⟨31, 0, .ro, .p, false, 0x0⟩]⟩]

def regsCEL : List RegD :=
  [⟨0x0, 0x0, 1, 0, 1, [⟨23, 20, .rw, .p, false, 0x0⟩, ⟨18, 16, .rw, .p, false, 0x0⟩, ⟨15, 14, .rw, .p, false, 0x0⟩, ⟨13, 12, .rw, .p, false, 0x0⟩, ⟨11, 10, .rw, .p, false, 0x0⟩, ⟨9, 9, .rw, .p, false, 0x0⟩, ⟨8, 8, .rw, .p, false, 0x0⟩, ⟨7, 7, .rw, .p, false, 0x0⟩, ⟨6, 6, .rw, .p, false, 0x0⟩, ⟨5, 5, .rw, .p, false, 0x0⟩, ⟨4, 4, .rw, .p, false, 0x0⟩, ⟨3, 2, .rw, .p, false, 0x0⟩, ⟨1, 0, .rw, .p, false, 0x0⟩]⟩,
   ⟨0x4, 0x0, 1, 0, 1, [⟨2, 2, .wo, .p, false, 0x0⟩, ⟨1, 1, .wo, .p, false, 0x0⟩, ⟨0, 0, .wo, .p, false, 0x0⟩]⟩,
   ⟨0x8, 0x0, 1, 0, 1, [⟨18, 18, .w1c, .p, false, 0x0⟩, ⟨17, 17, .w1c, .p, false, 0x0⟩, ⟨16, 16, .w1c, .p, false, 0x0⟩, ⟨15, 8, .ro, .p, false, 0x0⟩, ⟨6, 4, .ro, .p, false, 0x0⟩, ⟨2, 0, .ro, .p, false, 0x0⟩]⟩,
   ⟨0xC, 0x0, 1, 0, 1, [⟨23, 0, .rw, .p, false, 0x0⟩]⟩,
   ⟨0x10, 0x0, 1, 0, 1, [⟨15, 0, .rw, .p, false, 0x0⟩]⟩,
   ⟨0x14, 0x0, 1, 0, 1, [⟨31, 0, .rw, .p, false, 0x0⟩]⟩,
   ⟨0x18, 0x0, 1, 0, 1, [⟨31, 0, .rw, .p, false, 0x0⟩]⟩,
   ⟨0x1C, 0x0, 1, 0, 1, [⟨31, 0, .rw, .p, false, 0x3E8⟩]⟩,
   ⟨0x20, 0x0, 1, 0, 2, [⟨31, 0, .ro, .p, false, 0x0⟩]⟩,
   ⟨0x24, 0x0, 1, 1, 2, [⟨31, 0, .ro, .p, false, 0x0⟩]⟩,
   ⟨0x28, 0x0, 1, 0, 1, [⟨31, 0, .ro, .p, false, 0x0⟩]⟩,
   ⟨0x2C, 0x0, 1, 0, 1, [⟨31, 0, .ro, .p, false, 0x0⟩]⟩,
   ⟨0x30, 0x0, 1, 0, 1, [⟨31, 0, .rc, .p, false, 0x0⟩]⟩,
   ⟨0x34, 0x0, 1, 0, 1, [⟨31, 0, .rc, .p, false, 0x0⟩]⟩,
   ⟨0x38, 0x0, 1, 0, 1, [⟨31, 16, .rw, .p, false, 0x64⟩, ⟨15, 0, .rw, .p, false, 0x5C0⟩]⟩,
   ⟨0x3C, 0x0, 1, 0, 1, [⟨31, 0, .ro, .p, false, 0x0⟩]⟩,
   ⟨0x40, 0x0, 1, 0, 1, [⟨31, 24, .ro, .p, false, 0x0⟩, ⟨23, 0, .ro, .p, false, 0x0⟩]⟩,
   ⟨0x44, 0x0, 1, 0, 1, [⟨31, 16, .rw, .p, false, 0x40⟩, ⟨15, 0, .rw, .p, false, 0x0⟩]⟩,
   ⟨0x100, 0x10, 8, 0, 1, [⟨21, 16, .rw, .p, false, 0x0⟩, ⟨11, 8, .rw, .p, false, 0x0⟩, ⟨7, 4, .rw, .p, false, 0x0⟩, ⟨1, 1, .rw, .p, false, 0x0⟩, ⟨0, 0, .rw, .p, false, 0x0⟩]⟩,
   ⟨0x104, 0x10, 8, 0, 1, [⟨31, 0, .rw, .p, false, 0x0⟩]⟩,
   ⟨0x108, 0x10, 8, 0, 1, [⟨31, 0, .rw, .p, false, 0x0⟩]⟩,
   ⟨0x180, 0x0, 1, 0, 1, [⟨31, 0, .ro, .p, false, 0x0⟩]⟩,
   ⟨0x184, 0x0, 1, 0, 1, [⟨31, 24, .ro, .p, false, 0x0⟩, ⟨23, 21, .ro, .p, false, 0x0⟩, ⟨20, 20, .ro, .p, false, 0x0⟩, ⟨19, 19, .ro, .p, false, 0x0⟩]⟩,
   ⟨0x200, 0x10, 64, 0, 1, [⟨31, 31, .rw, .p, false, 0x0⟩, ⟨29, 24, .rw, .p, false, 0x0⟩, ⟨23, 16, .rw, .p, false, 0x0⟩, ⟨15, 8, .rw, .p, false, 0x0⟩, ⟨7, 0, .rw, .p, false, 0x0⟩]⟩,
   ⟨0x204, 0x10, 64, 0, 1, [⟨31, 0, .rw, .p, false, 0x0⟩]⟩,
   ⟨0x208, 0x10, 64, 0, 1, [⟨7, 0, .rw, .p, false, 0x0⟩]⟩]

def regsCAN : List RegD :=
  [⟨0x0, 0x0, 1, 0, 1, [⟨5, 5, .wo, .p, false, 0x0⟩, ⟨4, 4, .rw, .p, false, 0x0⟩, ⟨3, 3, .rw, .p, false, 0x0⟩, ⟨2, 2, .rw, .p, false, 0x0⟩, ⟨0, 0, .rw, .p, false, 0x1⟩]⟩,
   ⟨0x4, 0x0, 1, 0, 1, [⟨15, 8, .rw, .p, false, 0x0⟩, ⟨4, 4, .rw, .p, false, 0x0⟩, ⟨3, 3, .rw, .p, false, 0x0⟩, ⟨2, 2, .rw, .p, false, 0x0⟩, ⟨0, 0, .rw, .p, false, 0x0⟩]⟩,
   ⟨0x8, 0x0, 1, 0, 1, [⟨30, 24, .rw, .p, false, 0x7⟩, ⟨23, 16, .rw, .p, false, 0x1E⟩, ⟨15, 9, .rw, .p, false, 0x7⟩, ⟨8, 0, .rw, .p, false, 0x0⟩]⟩,
   ⟨0xC, 0x0, 1, 0, 1, [⟨27, 24, .rw, .p, false, 0x0⟩, ⟨19, 16, .rw, .p, false, 0x0⟩, ⟨12, 8, .rw, .p, false, 0x2⟩, ⟨4, 0, .rw, .p, false, 0x0⟩]⟩,
   ⟨0x10, 0x0, 1, 0, 1, [⟨6, 0, .rw, .p, false, 0x0⟩, ⟨22, 16, .rw, .p, false, 0x0⟩]⟩,
   ⟨0x14, 0x0, 1, 0, 1, [⟨30, 24, .ro, .p, false, 0x0⟩, ⟨14, 12, .ro, .p, false, 0x0⟩, ⟨10, 8, .ro, .p, false, 0x0⟩, ⟨7, 7, .w1c, .p, false, 0x0⟩, ⟨6, 6, .w1c, .p, false, 0x0⟩, ⟨5, 5, .w1c, .p, false, 0x0⟩, ⟨4, 4, .ro, .p, false, 0x0⟩, ⟨3, 3, .ro, .p, false, 0x0⟩, ⟨2, 0, .ro, .p, false, 0x0⟩]⟩,
   ⟨0x18, 0x0, 1, 0, 1, [⟨8, 0, .ro, .p, false, 0x0⟩, ⟨23, 16, .ro, .p, false, 0x0⟩]⟩,
   ⟨0x1C, 0x0, 1, 0, 1, [⟨31, 0, .rc, .p, false, 0x0⟩]⟩,
   ⟨0x20, 0x0, 1, 0, 1, [⟨31, 0, .rc, .p, false, 0x0⟩]⟩,
   ⟨0x40, 0x0, 1, 0, 1, [⟨31, 0, .w1s, .p, false, 0x0⟩]⟩,
   ⟨0x44, 0x0, 1, 0, 1, [⟨31, 0, .w1s, .p, false, 0x0⟩]⟩,
   ⟨0x48, 0x0, 1, 0, 1, [⟨31, 0, .wo, .p, false, 0x0⟩]⟩,
   ⟨0x4C, 0x0, 1, 0, 1, [⟨31, 0, .wo, .p, false, 0x0⟩]⟩,
   ⟨0x50, 0x0, 1, 0, 1, [⟨31, 0, .w1c, .p, false, 0x0⟩]⟩,
   ⟨0x54, 0x0, 1, 0, 1, [⟨31, 0, .w1c, .p, false, 0x0⟩]⟩,
   ⟨0x58, 0x0, 1, 0, 1, [⟨31, 0, .w1c, .p, false, 0x0⟩]⟩,
   ⟨0x5C, 0x0, 1, 0, 1, [⟨31, 0, .w1c, .p, false, 0x0⟩]⟩,
   ⟨0x60, 0x0, 1, 0, 1, [⟨31, 0, .w1c, .p, false, 0x0⟩]⟩,
   ⟨0x64, 0x0, 1, 0, 1, [⟨31, 0, .w1c, .p, false, 0x0⟩]⟩,
   ⟨0x68, 0x0, 1, 0, 1, [⟨31, 0, .w1c, .p, false, 0x0⟩]⟩,
   ⟨0x6C, 0x0, 1, 0, 1, [⟨31, 0, .w1c, .p, false, 0x0⟩]⟩,
   ⟨0x100, 0x0, 1, 0, 1, [⟨31, 24, .rw, .s, false, 0x20⟩, ⟨23, 8, .rw, .s, false, 0x5⟩, ⟨2, 2, .rw, .s, false, 0x0⟩, ⟨1, 1, .rw, .s, false, 0x0⟩, ⟨0, 0, .rw, .s, false, 0x0⟩]⟩,
   ⟨0x104, 0x0, 1, 0, 1, [⟨31, 31, .rw, .s, false, 0x0⟩, ⟨30, 30, .rw, .s, false, 0x1⟩, ⟨28, 0, .rw, .s, false, 0x0⟩]⟩,
   ⟨0x108, 0x0, 1, 0, 1, [⟨3, 0, .rw, .s, false, 0x0⟩]⟩,
   ⟨0x10C, 0x0, 1, 0, 1, [⟨28, 0, .rw, .s, false, 0x0⟩]⟩,
   ⟨0x110, 0x0, 1, 0, 2, [⟨31, 0, .rw, .s, false, 0x0⟩]⟩,
   ⟨0x114, 0x0, 1, 1, 2, [⟨31, 0, .rw, .s, false, 0x0⟩]⟩,
   ⟨0x118, 0x0, 1, 0, 1, [⟨31, 0, .rw, .s, false, 0x4120800⟩]⟩,
   ⟨0x11C, 0x0, 1, 0, 1, [⟨2, 1, .ro, .s, false, 0x0⟩, ⟨0, 0, .w1c, .s, false, 0x0⟩]⟩,
   ⟨0x120, 0x0, 1, 0, 1, [⟨31, 0, .ro, .s, false, 0x0⟩]⟩,
   ⟨0x124, 0x0, 1, 0, 2, [⟨31, 0, .ro, .s, false, 0x0⟩]⟩,
   ⟨0x128, 0x0, 1, 1, 2, [⟨31, 0, .ro, .s, false, 0x0⟩]⟩]

def regsTHR : List RegD :=
  [⟨0x0, 0x0, 1, 0, 1, [⟨31, 31, .ro, .a, false, 0x0⟩, ⟨30, 30, .ro, .a, false, 0x0⟩, ⟨26, 26, .ro, .a, false, 0x1⟩, ⟨25, 25, .ro, .a, false, 0x0⟩, ⟨24, 24, .ro, .a, false, 0x0⟩, ⟨23, 23, .ro, .a, false, 0x0⟩, ⟨19, 16, .ro, .a, false, 0x0⟩]⟩,
   ⟨0x4, 0x0, 1, 0, 1, [⟨31, 0, .ro, .a, false, 0x0⟩]⟩,
   ⟨0x8, 0x0, 1, 0, 1, [⟨31, 0, .ro, .a, false, 0x0⟩]⟩,
   ⟨0x10, 0x10, 4, 0, 1, [⟨27, 24, .ro, .a, false, 0x0⟩, ⟨19, 18, .ro, .a, false, 0x0⟩, ⟨17, 16, .ro, .a, false, 0x0⟩, ⟨11, 11, .ro, .a, false, 0x0⟩, ⟨10, 10, .ro, .a, false, 0x0⟩, ⟨9, 9, .ro, .a, false, 0x0⟩, ⟨8, 8, .ro, .a, false, 0x0⟩, ⟨7, 7, .ro, .a, false, 0x0⟩, ⟨6, 6, .ro, .a, false, 0x0⟩, ⟨1, 0, .ro, .a, false, 0x0⟩]⟩,
   ⟨0x14, 0x10, 4, 0, 1, [⟨5, 5, .ro, .a, false, 0x0⟩, ⟨4, 4, .ro, .a, false, 0x0⟩, ⟨3, 3, .ro, .a, false, 0x0⟩, ⟨2, 2, .ro, .a, false, 0x0⟩, ⟨1, 1, .ro, .a, false, 0x0⟩, ⟨0, 0, .ro, .a, false, 0x0⟩]⟩,
   ⟨0x18, 0x10, 4, 0, 1, [⟨31, 0, .ro, .a, false, 0xFFFFFFFF⟩]⟩,
   ⟨0x1C, 0x10, 4, 0, 1, [⟨31, 16, .ro, .a, false, 0x0⟩, ⟨15, 0, .ro, .a, false, 0x0⟩]⟩,
   ⟨0x100, 0x4, 32, 0, 1, [⟨31, 0, .ro, .a, false, 0x0⟩]⟩]

/-- Every block of registers, by rising base address. -/
def blockTable : List BlockD :=
  [⟨0x10000, 1, 0x0, regsDEV, 0⟩,
   ⟨0x20000, 1, 0x0, regsLODGE, 0⟩,
   ⟨0x30000, 1, 0x0, regsPWR, 0x400⟩,
   ⟨0x30400, 1, 0x0, regsCYC, 0⟩,
   ⟨0x30600, 1, 0x0, regsGS, 0⟩,
   ⟨0x30800, 1, 0x0, regsPAN, 0⟩,
   ⟨0x30A00, 1, 0x0, regsTHRQ, 0⟩,
   ⟨0x30C00, 1, 0x0, regsFLT, 0⟩,
   ⟨0x100000, 1, 0x0, regsHEARTH, 0⟩,
   ⟨0x110000, 1, 0x0, regsRAFTER, 0⟩,
   ⟨0x200000, 1, 0x0, regsHW, 0x10000⟩,
   ⟨0x300000, 32, 0x400, regsCHUCK, 0x400⟩,
   ⟨0x400000, 16, 0x100, regsSP, 0⟩,
   ⟨0x410000, 1, 0x0, regsLED, 0⟩,
   ⟨0x500000, 64, 0x1000, regsAX, 0⟩,
   ⟨0x600000, 10, 0x1000, regsGOUGE, 0x1000⟩,
   ⟨0x700000, 16, 0x200, regsBL, 0x200⟩,
   ⟨0x710000, 1, 0x0, regsSTP, 0⟩,
   ⟨0x720000, 8, 0x20, regsCMD, 0⟩,
   ⟨0x730000, 1, 0x0, regsSILL, 0⟩,
   ⟨0x740000, 1, 0x0, regsMT, 0⟩,
   ⟨0x800000, 1, 0x0, regsSKEW, 0⟩,
   ⟨0x801000, 16, 0x100, regsBAR, 0⟩,
   ⟨0x802000, 16, 0x10, regsSENS, 0⟩,
   ⟨0x810000, 8, 0x200, regsJL, 0x200⟩,
   ⟨0x900000, 1, 0x0, regsCEL, 0⟩,
   ⟨0xA00000, 2, 0x1000, regsCAN, 0x1000⟩,
   ⟨0xB00000, 1, 0x0, regsTHR, 0⟩]

end Sys2Proof.Machine
end

