-- ==== Sys2Proof/Machine/Trig.lean ====
section
/-! DEFINITION. π, sine, cosine, tangent and square root (R231, R266, R272, R291): exact where the value is rational, else
within 2⁻⁶⁴ of it, the remainder being the implementation's. -/
namespace Sys2Proof.Machine

/-- The fraction bits carried. -/
def trigBits : Nat := 96

/-- π·2⁹⁶ rounded down. -/
def piScaled : Int := 0x3243F6A8885A308D313198A2E

/-- An irrational value known to far better than 2⁻⁶⁵: the device's differs by less than 2⁻⁶⁵. `f` names the function. -/
def blur (f : Nat) (x v : Rat) : Rat := v + (((Config.part f x).toNat : Int) - 2 ^ 31 : Int) / ((2 ^ 97 : Nat) : Int)

/-- `k` terms of the alternating series from the term `t` of order `n`; `z2` is the square of the argument. -/
def series (z2 : Int) : Nat → Nat → Int → Int
  | 0, _, _ => 0
  | k + 1, n, t => t + series z2 k (n + 2) (-(t * z2 / 2 ^ trigBits) / ((n + 1) * (n + 2) : Nat))

/-- Sine and cosine of `d` revolutions, at most 1/8 in magnitude. -/
def smallSin (d : Rat) : Rat :=
  let z : Int := 2 * piScaled * d.num / d.den
  (series (z * z / 2 ^ trigBits) 14 1 z : Int) / ((2 ^ trigBits : Nat) : Int)

def smallCos (d : Rat) : Rat :=
  let z : Int := 2 * piScaled * d.num / d.den
  (series (z * z / 2 ^ trigBits) 14 0 (2 ^ trigBits) : Int) / ((2 ^ trigBits : Nat) : Int)

/-- The sine of `k` twelfths of a revolution, where it is rational. -/
def exactSin (k : Nat) : Option Rat :=
  match k % 12 with
  | 0 => some 0
  | 1 => some (1 / 2)
  | 3 => some 1
  | 5 => some (1 / 2)
  | 6 => some 0
  | 7 => some (-(1 / 2))
  | 9 => some (-1)
  | 11 => some (-(1 / 2))
  | _ => none

/-- The sine of `x` revolutions. -/
def sinRev (x : Rat) : Rat :=
  let y := x - (x.floor : Rat)
  let w := 12 * y
  match (if w.den = 1 then exactSin w.num.toNat else none) with
  | some v => v
  | none =>
    let k := (4 * y + 1 / 2).floor
    let d := y - (k : Rat) / (4 : Int)
    blur 0 y (match (k % 4).toNat with
      | 0 => smallSin d
      | 1 => smallCos d
      | 2 => -smallSin d
      | _ => -smallCos d)

def cosRev (x : Rat) : Rat := sinRev (x + 1 / 4)

/-- The tangent of π·x. -/
def tanHalf (x : Rat) : Rat := sinRev (x / 2) / cosRev (x / 2)

def piR : Rat := blur 1 0 ((piScaled : Rat) / ((2 ^ trigBits : Nat) : Int))

/-- The square root; 0 of a negative number. -/
def sqrtR (q : Rat) : Rat :=
  let a := isqrt q.num.toNat
  let b := isqrt q.den
  if a * a = q.num.toNat ∧ b * b = q.den then (a : Int) / (b : Int)
  else blur 2 q (((isqrt (q.num.toNat * 2 ^ (2 * trigBits) / q.den) : Nat) : Int) / ((2 ^ trigBits : Nat) : Int))

/-- The reset value of an entry of the microstep table, Q1.23: the cosine or (true) the sine of j·π/512 (R291), rounded to a
neighbour of the implementation's choice; 1 saturates. -/
def stpTable (j : Nat) (sine : Bool) : Word :=
  let x : Rat := (j : Int) / (1024 : Int)
  let v := (if sine then sinRev x else cosRev x) * (2 ^ 23 : Int)
  let f := v.floor
  let r := if v.den = 1 then f else if Config.roundUp v.den v.num then f + 1 else f
  BitVec.ofNat 32 (ofS 24 (satS 24 r))

end Sys2Proof.Machine
end

