-- ==== Sys2Proof/Machine/RegFile.lean ====
section
/-! DEFINITION. The register file: a list of (address, word) pairs in one canonical form (addresses strictly
rising, no entry equal to the register's reset value), and what an unlisted register holds: its reset value. -/
namespace Sys2Proof.Machine

/-- The row `r` holds the register at offset `rel` of its block. -/
def RegD.covers (r : RegD) (rel : Nat) : Bool :=
  r.off ≤ rel && (if r.stride = 0 then rel == r.off
    else (rel - r.off) % r.stride == 0 && decide ((rel - r.off) / r.stride < r.count))

/-- A reserved word: it reads zero, and zero may be written to it (R8). -/
def reservedRow (o : Nat) : RegD := ⟨o, 0, 1, 0, 1, []⟩

/-- The row of a block for an address, if the block lists it; where the chapter calls the offsets it does not list reserved,
a reserved word (R8). -/
def BlockD.find (b : BlockD) (a : Nat) : Option RegD :=
  if a < b.base then none
  else
    let o := a - b.base
    let rel := if b.stride = 0 then o else o % b.stride
    if (if b.stride = 0 then decide (o < 0x10000) else decide (o / b.stride < b.count)) then
      match b.regs.find? (fun r => r.covers rel) with
      | some r => some r
      | none => if decide (rel < b.rsvd) && a % 4 == 0 then some (reservedRow rel) else none
    else none

/-- The register table's row for an address; none where no block chapter lists the address (R9). -/
def regAt (a : Nat) : Option RegD := blockTable.findSome? (fun b => b.find a)

/-- The reset value of a register that the tables give as a number. -/
def RegD.resetNat (r : RegD) : Nat := r.fields.foldl (fun w f => w ||| (f.reset <<< f.lo)) 0

/-- LODGE.BWORLD[j] after reset: ones, but zero for fixed entries, the terminator and beyond (R55, R66). -/
def bworldMask (j : Nat) : Nat :=
  if j = 0 then 0xFFFF_FFF8 else if j < 5 then 0xFFFF_FFFF else if j = 5 then 0xFFF else 0

/-- What a register holds while nothing has written it: its reset value. -/
def resetWord (a : Nat) : Word :=
  if 0x20010 ≤ a ∧ a < 0x20030 then BitVec.ofNat 32 (bworldMask ((a - 0x20010) / 4))
  else if 0x710400 ≤ a ∧ a < 0x710C00 then
    stpTable ((a - 0x710400) / 8) (decide (a % 8 = 4))
  else match regAt a with
    | some r => BitVec.ofNat 32 r.resetNat
    | none => 0

/-- The stored registers, by address. -/
abbrev RegFile := List (Nat × Word)

def lookupWord : RegFile → Nat → Option Word
  | [], _ => none
  | (k, v) :: r, a => if k = a then some v else lookupWord r a

/-- Take the entry of an address out. -/
def eraseKey (a : Nat) : RegFile → RegFile
  | [] => []
  | (k, v) :: r => if k = a then r else (k, v) :: eraseKey a r

/-- Put an entry in its place in the rising order, replacing one that is there. -/
def insertKey (a : Nat) (w : Word) : RegFile → RegFile
  | [] => [(a, w)]
  | (k, v) :: r => if a < k then (a, w) :: (k, v) :: r
      else if k = a then (a, w) :: r else (k, v) :: insertKey a w r

/-- Keys strictly rising. -/
def keysRise : RegFile → Bool
  | [] => true
  | [_] => true
  | (k, _) :: (k', v') :: r => decide (k < k') && keysRise ((k', v') :: r)

def RegFile.get (r : RegFile) (a : Nat) : Word := (lookupWord r a).getD (resetWord a)

def RegFile.set (r : RegFile) (a : Nat) (w : Word) : RegFile :=
  if w = resetWord a then eraseKey a r else insertKey a w r

/-- The canonical form. -/
def RegFile.wf (r : RegFile) : Bool := keysRise r && r.all (fun p => decide (p.2 ≠ resetWord p.1))

/-- The mask of the bits of a row's fields that satisfy `p`. -/
def RegD.mask (r : RegD) (p : FieldD → Bool) : Nat :=
  r.fields.foldl (fun w f => if p f then w ||| ((2 ^ (f.hi + 1 - f.lo) - 1) <<< f.lo) else w) 0

end Sys2Proof.Machine
end

