-- ==== Sys2Proof/Machine/State.lean ====
section
/-! DEFINITION. The whole state of the part, as plain data, and its value right after reset. -/
namespace Sys2Proof.Machine

/-- A spindle (R70 to R82): the source accumulator `S` and the offset `O` in units of 2⁻³², the count changes
since it was enabled (stamp and count, newest first), the instant interpolation is anchored at, and what it
holds while disabled or while its source is in fault. -/
structure Spindle where
  S : Int := 0
  O : Int := 0
  count : Int := 0
  changes : List (Nat × Int) := []
  anchor : Nat := 0
  held : Int := 0
  heldVel : Int := 0
  acc : Int := 0
  prevVel : Option Int := none
  frozen : Option Int := none
  srcPos : Int := 0
  srcVel : Int := 0
  /-- the sum of all jumps of position (loads, OFFSET writes, recoveries, re-enables), which gearing excludes (R199) -/
  jumps : Int := 0
  deriving DecidableEq, Repr

/-- What a spindle shows at one instant: position, velocity and acceleration in units of 2⁻³². -/
structure SpinSnap where
  pos : Int := 0
  vel : Int := 0
  acc : Int := 0
  deriving DecidableEq, Repr

/-- The cycle snapshot (R35): LCLK, the spindles, the Chuck counts and the cycle index. -/
structure Snapshot where
  lclk : Nat := 0
  spin : Vector SpinSnap 16 := Vector.replicate 16 {}
  chuck : Vector Int 32 := Vector.replicate 32 0
  k : Nat := 0
  deriving DecidableEq, Repr

/-- The cycle sequencer (R20 to R30): the configuration taken at the start, the scheduled next start, the
start of the cycle in progress, the cycle index, the walk error still to remove (R27) and what is pending. -/
structure Sequencer where
  fisel : Nat := 5
  nDiv : Nat := 1
  mDiv : Nat := 1
  phase : Nat := 0
  next : Option Nat := none
  start : Nat := 0
  k : Nat := 0
  walk : Int := 0
  /-- the move of a walk that `next` already contains (R27) -/
  moved : Int := 0
  starting : Option Nat := none
  stopEnd : Option Nat := none
  restart : Option Nat := none
  predict : Bool := false
  firstTick : Bool := false
  missDone : Bool := false
  dutyDone : Bool := false
  deriving DecidableEq, Repr

/-- What an armed entry of a spindle lane waits for: crossing `pos` in direction `dir` (true forward, none
either), once the spindle has gone HYST away from it (R96, R97) in direction `away`. -/
structure Target where
  pos : Int
  dir : Option Bool
  ready : Bool
  away : Option Bool
  /-- predicted crossings (R92, R93): instant in the step-free timescale, direction -/
  due : List (Nat × Bool)
  deriving DecidableEq, Repr

/-- The contents of a Ledger entry (R83): POS as its 64 bits. -/
structure Entry where
  pos : Nat
  action : Nat
  target : Nat
  dir : Nat
  notify : Bool
  count : Nat
  period : Nat
  deriving DecidableEq, Repr

/-- An armed Ledger entry: its lane and slot, its contents as they stand, the order of its arming (R103), its targets,
whether R97 is still to be evaluated, and the position at its arming while no tick has compared it yet. -/
structure Armed where
  lane : Nat
  slot : Nat
  e : Entry
  order : Nat
  targets : List Target
  eval : Bool
  since : Option Int
  deriving DecidableEq, Repr

/-- A completion record (R105). -/
structure DoneRec where
  lane : Nat
  slot : Nat
  code : Nat
  last : Bool
  ns32 : Nat
  deriving DecidableEq, Repr

/-- An ARM or CANCEL write that has not taken effect: the physical instant in ns at which it does (R85, R90). -/
structure LedOp where
  cancel : Bool
  lane : Nat
  slot : Nat
  due : Nat
  deriving DecidableEq, Repr

/-- The Ledger's own state: ARM and CANCEL writes waiting and when the last one took effect, the armed entries in arming
order, the completion FIFO, and for each spindle lane the last tick's position, the bases of the last two ticks and whether
they predicted, and the firings scheduled since. -/
structure Ledger where
  ops : List LedOp := []
  opAt : Option Nat := none
  armed : List Armed := []
  seq : Nat := 0
  done : List DoneRec := []
  lastPos : Vector (Option Int) 16 := Vector.replicate 16 none
  basis : Vector SpinSnap 16 := Vector.replicate 16 {}
  basisAt : Nat := 0
  nextAt : Nat := 0
  predicted : Vector Bool 16 := Vector.replicate 16 false
  /-- the tick before: it governs until 500 ns after the last one (R93) -/
  oldBasis : Vector SpinSnap 16 := Vector.replicate 16 {}
  oldAt : Nat := 0
  oldPredicted : Vector Bool 16 := Vector.replicate 16 false
  scheduled : Vector Nat 16 := Vector.replicate 16 0
  deriving DecidableEq, Repr

/-- A MARK record (R107). -/
structure MarkRec where
  lclk : Nat
  pos : List Int
  rise : Bool
  seq : Nat
  deriving DecidableEq, Repr

structure Mark where
  fifo : List MarkRec := []
  seq : Nat := 0
  deadEnd : Nat := 0
  deriving DecidableEq, Repr

/-- A force write to a TOUT output (R112): its FCLK cycle and instant, OP, what the output was before it, and whether its own
edge was moved. -/
structure Forced where
  cycle : Nat
  at' : Nat
  op : Nat
  level : Bool
  lastEdge : Option Nat
  merged : Bool
  deriving DecidableEq, Repr

/-- A TOUT output: the instant of its last edge in the step-free timescale, the edges moved to later instants with the level
before each (R104), and the last force write (R112). -/
structure Tout where
  lastEdge : Option Nat := none
  moved : List (Nat × Bool) := []
  force : Option Forced := none
  deriving DecidableEq, Repr

/-- A Rafter burst launched or to be launched: line, TYPE and ID (R169). -/
structure Burst where
  line : Nat
  kind : Nat
  id : Nat
  deriving DecidableEq, Repr

/-- A burst the device has driven: launch instant in the step-free timescale, FCLK cycle, line, its seven bits (R169). -/
structure Sent where
  at' : Nat
  cycle : Nat
  line : Nat
  bits : BitVec 7
  deriving DecidableEq, Repr

/-- A burst being received: when it is decoded, line, bits, whether every bit was stable, stamp (R170). -/
structure RxBurst where
  due : Nat
  line : Fin 4
  bits : BitVec 7
  stable : Bool
  stamp : Nat
  deriving DecidableEq, Repr

/-- A Rafter action pending (R174): line, the effective instant E and the instant A, both in the step-free timescale, and
the sender. -/
structure RafAct where
  line : Nat
  e : Nat
  a : Nat
  id : Nat
  deriving DecidableEq, Repr

/-- A delay measurement in progress (R177): line, target and launch instant. -/
structure RafMeas where
  line : Nat
  target : Nat
  at' : Nat
  deriving DecidableEq, Repr

/-- The Rafter bus, instants in the step-free timescale: until when each line is busy, launches deferred, actions pending,
responses due, the measurement in progress, the bursts the device has launched, oldest first, bursts not yet decoded, and
whether RAFCLK of a unit strapped to it has stopped. -/
structure Rafter where
  busy : Vector Nat 4 := Vector.replicate 4 0
  waiting : List Burst := []
  actions : List RafAct := []
  responses : List (Nat × Nat) := []
  meas : Option RafMeas := none
  sent : List Sent := []
  rx : List RxBurst := []
  noEdges : Bool := false
  deriving DecidableEq, Repr

/-- A trapezoidal generator (R192): position, velocity, acceleration and the latched deceleration. -/
structure Traj where
  p : Rat := 0
  v : Rat := 0
  a : Rat := 0
  d : Rat := 0
  deriving DecidableEq, Repr

/-- A running group segment (R217): the generator of σ, the length Λ, and for each member its axis, start
and displacement. After an abort (R219) it is `braking`, and `left` are the members that have left the path. -/
structure Segment where
  path : Traj := {}
  length : Rat := 0
  members : List (Nat × Rat × Rat) := []
  braking : Bool := false
  left : List Nat := []
  deriving DecidableEq, Repr

/-- The 64-bit extension of a 32-bit value, and the value it last added (R185). -/
structure Extension where
  sum : Int
  last : Int
  deriving DecidableEq, Repr

/-- The Headstock state of an axis (R186 to R219): its generator, the command written, the reaction's own
QSTOP, the gear ratio and its ramp, the master coordinate, the shift, and, in a leader, the group. -/
structure Axis where
  t : Traj := {}
  cmd : Option Nat := none
  qstop : Bool := false
  hardBrake : Bool := false
  joining : Bool := false
  gearWait : Option Nat := none
  ratio : Rat := 0
  ratio0 : Rat := 0
  newRamp : Bool := false
  release : Bool := false
  master : Rat := 0
  masterSpin : Nat := 0
  masterJumps : Int := 0
  shift : Traj := {}
  shiftGoal : Rat := 0
  queue : List (List Int) := []
  seg : Option Segment := none
  deriving DecidableEq, Repr

/-- An Attic record not yet committed (R519): what is fixed when the fault is raised, and the FCLK cycle of that (R508). -/
structure AtticRec where
  cycle : Nat
  cls : Nat
  src : Nat
  inst : Nat
  detail : Nat
  data : List Nat
  ns : Nat
  k : Nat
  repeats : Nat
  deriving DecidableEq, Repr

/-- The Attic's queue of 16, the store of records that bypass it, and for each SRC and INST pair until when a further record is
suppressed and how many have been (R518, R520). -/
structure Attic where
  queue : List AtticRec := []
  urgent : List AtticRec := []
  pairs : List (Nat × Nat × Nat × Nat) := []
  /-- when the halt in force began, in ns of physical time (R509) -/
  haltAt : Option Nat := none
  deriving DecidableEq, Repr

/-- A biquad's state (R230): x₁, x₂, y₁, y₂ in units of 2⁻⁴⁷. -/
structure Biquad where
  x1 : Int := 0
  x2 : Int := 0
  y1 : Int := 0
  y2 : Int := 0
  deriving DecidableEq, Repr

/-- The loops of an axis (R222 to R247): integrator, position-loop term and its tick, filters, what is pending
for the next tick, the current command computed and the one in effect, the reaction in progress. -/
structure Loop where
  xi : Rat := 0
  vpl : Rat := 0
  tp : Nat := 0
  filt : Vector Biquad 3 := Vector.replicate 3 {}
  recompute : Vector Bool 3 := Vector.replicate 3 false
  rawCommit : Vector Bool 3 := Vector.replicate 3 false
  rawHeld : List (Nat × Word) := []
  icmd : Int := 0
  enPending : Bool := false
  resetI : Bool := false
  feSince : Option Nat := none
  react : Nat := 0
  reactAt : Nat := 0
  /-- the FCLK cycle in which FAULT.ACTIVE last rose (R241) -/
  activeAt : Nat := 0
  /-- position and velocity feedback channels' count changes are the Chuck's own (R227) -/
  v : Rat := 0
  deriving DecidableEq, Repr

/-- The registers, the axes and the loops as they stood before the outer-loop tasks of the cycle in progress; `on` where it has
any (R31). -/
structure Outer where
  on : Bool := false
  regs : RegFile := []
  ax : Vector Axis 64 := Vector.replicate 64 {}
  lp : Vector Loop 64 := Vector.replicate 64 {}
  deriving DecidableEq, Repr

/-- Field control, observer, start machine and stepper of an axis (R263 to R298). -/
structure Field where
  xd : Rat := 0
  xq : Rat := 0
  iPrev : Rat × Rat := (0, 0)
  /-- θ0 and ω of an encoder or Hall sensors at the cycle start (R265) -/
  source : Rat × Rat := (0, 0)
  /-- the voltage of the period just ended, and the one commanded for the period in progress -/
  vApplied : Rat × Rat := (0, 0)
  vQueued : Rat × Rat := (0, 0)
  wi : Rat := 0
  w : Rat := 0
  th : Rat := 0
  rho : Rat := 0
  emag : Rat := 0
  lockRun : Nat := 0
  lossRun : Nat := 0
  highRun : Nat := 0
  lowRun : Nat := 0
  entered : Nat := 0
  thf : Rat := 0
  wf : Rat := 0
  ifendAt : Option Nat := none
  dir : Int := 1
  mu : Int := 0
  muAt : Nat := 0
  /-- set-points in force and the cycle start from which they are (R290) -/
  spAt : Nat := 0
  spPos : Int := 0
  spVel : Int := 0
  holding : Bool := false
  stallRun : Nat := 0
  stalled : Bool := false
  deriving DecidableEq, Repr

/-- A bridge link (R302 to R322): training and latency measurement, the frame of the cycle, and the last
upstream frame. -/
structure Bridge where
  tag : Nat := 0
  pings : List (Nat × Nat) := []
  delays : List Int := []
  pingsSent : Nat := 0
  /-- when the last PING left, in ns -/
  pingAt : Nat := 0
  frames : Nat := 0
  latSet : Nat := 0
  given : Bool × Bool := (false, false)
  duty : List Nat × List Nat := ([0, 0, 0], [0, 0, 0])
  departed : Bool := false
  closed : Bool := false
  /-- what went down the line since the cycle began or the link last entered ALIGN, newest first: the instant of the leading edge in ns and the code groups -/
  line : List (Nat × List CodeGroup) := []
  /-- until when a SYNC, GOFF or PING and a frame are in progress on the line, in ns -/
  setTill : Nat := 0
  frameTill : Nat := 0
  /-- CFG as in force since the last downstream frame, and as the companion sampled by in this cycle (R315, R322) -/
  cfgNow : Nat := 0x20
  cfgHere : Nat := 0x20
  clrPending : Bool := false
  codeErrs : Nat := 0
  missRun : Nat := 0
  arrived : Bool := false
  up : List Nat := List.replicate 40 0
  /-- words 0 to 15 of R416 as the frame arrived -/
  words : List Nat := []
  lastFrame : List Nat := []
  lastFrameAt : Nat := 0
  /-- the last SYNC launched: physical instant in ns and FINE, and the cycle start it announced -/
  sync : Option (Nat × Nat) := none
  syncFor : Nat := 0
  /-- after a loss with AUTOTRN = 0 the link waits for TRAIN (R318) -/
  needTrain : Bool := false
  pingDue : Bool := false
  deriving DecidableEq, Repr

/-- A step/direction output (R294 to R296): the pulses of this cycle's plan, how many of them have started, the
direction, the first pulse's instant (in `run`), spacing and width in ns. -/
structure StpPlan where
  pulses : Nat := 0
  emitted : Nat := 0
  forward : Bool := true
  first : Nat := 0
  spacing : Nat := 0
  width : Nat := 0
  deriving DecidableEq, Repr

/-- A Chuck channel (R116 to R146). -/
structure ChuckCh where
  /-- the 64-bit extension of POS, once it has begun (R185) -/
  ext : Option Extension := none
  /-- count changes, newest first: stamp and COUNT (R76, R122, R227) -/
  changes : List (Nat × Int) := []
  /-- stamps of the QERR events of the last 1 ms (R126) -/
  errs : List Nat := []
  /-- IDXPOS of the index that is the reference of the next comparison (R129, R130) -/
  idxRef : Option Int := none
  idxReversed : Bool := false
  lastDir : Int := 0
  /-- the last valid raw Hall sector, and since when the state is invalid (R133, R134) -/
  sector : Option Nat := none
  invalidSince : Option Nat := none
  /-- stamps and directions of the last sector changes, newest first (R276) -/
  edges : List (Nat × Int) := []
  /-- the stamp of the last edge on A or B (R123) -/
  lastEdge : Option Nat := none
  /-- an index edge of Z waits for its gate (R127) -/
  idxPend : Bool := false
  /-- SSI: the requests due, oldest first, the frame in progress (its request instant), until when a frame or its monoflop
  time runs, the previous good position, the run of bad frames, and that it has reached ERRLIM (R136 to R146) -/
  ssiDue : List Nat := []
  ssiFrame : Option Nat := none
  ssiBusy : Nat := 0
  ssiPrev : Option Nat := none
  ssiBad : Nat := 0
  ssiHeld : Bool := false
  deriving DecidableEq, Repr

/-- A CMD input (R250 to R255): rising edges newest first (stamp and edge count, signed by the direction), the stamp of the
last falling edge, and when the last measurement arrived or the input was configured. -/
structure CmdIn where
  edges : List (Nat × Int) := []
  fell : Nat := 0
  lastMeas : Nat := 0
  deriving DecidableEq, Repr

/-- A bank of a Gouge core's registers (R386, R390). D8 to D15 of the main bank lie in the window file. -/
structure GBank where
  d : Vector (BitVec 24) 16 := Vector.replicate 16 0
  a : Vector (BitVec 56) 4 := Vector.replicate 4 0
  p : Vector (BitVec 18) 8 := Vector.replicate 8 0
  deriving DecidableEq, Repr

/-- The registers of a Gouge core (the table before R386). `inEvt`: the shadow bank is in use. -/
structure GRegs where
  main : GBank := {}
  shadow : GBank := {}
  win : Vector (BitVec 24) 32 := Vector.replicate 32 0
  m : Vector (BitVec 32) 8 := Vector.replicate 8 0
  lc : Vector (BitVec 16) 2 := Vector.replicate 2 0
  ls : Vector (BitVec 14) 2 := Vector.replicate 2 0
  le : Vector (BitVec 14) 2 := Vector.replicate 2 0
  sr : BitVec 32 := 0
  rb : BitVec 5 := 0
  esr : BitVec 32 := 0
  epc : BitVec 14 := 0
  inEvt : Bool := false
  deriving DecidableEq, Repr

/-- Where a D register name leads when its bundle issues (R386, R390). -/
inductive DLoc
  | main (i : Fin 8)
  | shadow (i : Fin 16)
  | win (i : Fin 32)
  deriving DecidableEq, Repr

/-- A register a slot of the bundle in progress has written: a D register or an accumulator (R406). -/
inductive GDst
  | d (l : DLoc)
  | a (shadow : Bool) (i : Fin 4)
  deriving DecidableEq, Repr

/-- An outstanding Pantry access (R405, R407, R435). -/
inductive PanAcc
  | load (addr : Nat) (high : Bool) (dst : DLoc) (at' : Nat)
  | store (addr : Nat) (value : BitVec 32)
  | xadd (addr : Nat) (value : BitVec 24) (dst : DLoc)
  | xswp (addr : Nat) (value : BitVec 24) (dst : DLoc)
  deriving DecidableEq, Repr

/-- A Gouge core: registers, and as they stood before the bundle in progress while its L slot has run and its M
slot has not; the bundle address, a branch taken, the call stack, Pantry accesses outstanding and results on
their way, a FENCE waiting, delayed loop-register writes (bundles left, register, value); and the task
controller: slots of the cycle not yet started, the running slot, its axes, held slot-table writes, recent
replays, and where CCNT counts from. -/
structure GCore where
  regs : GRegs := {}
  base : Option GRegs := none
  wrote : List GDst := []
  pc : BitVec 14 := 0
  nextPc : Option (BitVec 14) := none
  stack : List (BitVec 14) := []
  outst : List PanAcc := []
  arrivals : List (DLoc × BitVec 24) := []
  fence : Bool := false
  loopWrites : List (Nat × Nat × Nat) := []
  endTask : Bool := false
  todo : List Nat := []
  running : Option Nat := none
  axes : List (Fin 64) := []
  event : Option Nat := none
  held : List (Nat × Word) := []
  replays : List Nat := []
  ccnt0 : Nat := 0
  /-- Pantry accesses issued by the L slot of the bundle in progress -/
  own : Nat := 0
  /-- slots to replay from their checkpoints (R431), and the axes each current-loop slot serves -/
  replay : List Nat := []
  served : List (Nat × List (Fin 64)) := []
  /-- current-loop slots whose task has started in this cycle, and the cycle in which the core took another over (R30, R431) -/
  ran : List Nat := []
  tookOver : Option Nat := none
  deriving DecidableEq, Repr

/-- The March engine (R440 to R442): the next slice, the slice under test and until when, a back-off and a pause. -/
structure March where
  slice : Nat := 0
  under : Option (Nat × Nat) := none
  backoff : Option Nat := none
  pause : Option Nat := none
  deriving DecidableEq, Repr

/-- What a downstream jet-link frame carries (R360 to R365): instants of line words in `run`. -/
inductive JetBody
  | stepMark (delta : Int)
  | stave (ng : Nat) (vals : List Int) (first now : Bool)
  | line (words : List (Nat × Nat))
  | req (tag : Nat)
  | set (val : Nat)
  | enum
  | timeIdle
  | tableData (first : Nat) (vals : List Nat)
  | tableCommit (ncol : Nat)
  deriving DecidableEq, Repr

/-- A frame queued on a jet link; position 16 is ALL (R357). -/
structure JetFrame where
  pos : Nat
  body : JetBody
  deriving DecidableEq, Repr

/-- A jet link (R353 to R380), instants in ns of physical time: the queue; until when the frame, ECHO frame or step
mark in progress lasts; the last frame sent; the last TMARK (LCLK microsecond and FINE); REQs sent and when the
last; those unanswered (tag, position, instant); the d of MEASURE; ENUM sent; code errors; STATs heard; D_p last
sent; positions whose first stave update is due; the download in progress and when its COMMIT left. -/
structure Jet where
  queue : List JetFrame := []
  busy : Nat := 0
  echoTill : Nat := 0
  stepTill : Nat := 0
  last : List Nat := []
  lastAt : Nat := 0
  /-- the code groups of the last frame and of the last TMARK -/
  line : List CodeGroup := []
  tmark : List CodeGroup := []
  mark : Nat := 0
  fine : Nat := 0
  reqs : Nat := 0
  reqAt : Nat := 0
  tag : Nat := 0
  outst : List (Nat × Nat × Nat) := []
  sums : List (Nat × Int) := []
  enumAt : Nat := 0
  errs : List Nat := []
  heard : List (Nat × Nat) := []
  sets : List (Nat × Nat) := []
  nowDue : Nat := 0
  dl : Option (Nat × Option Nat) := none
  needTrain : Bool := false
  deriving DecidableEq, Repr

/-- An expectation of a mark group: sensor, E_k, and the captured position (R341, R342). -/
structure Expect where
  sensor : Nat
  e : Int
  got : Option Int
  missed : Bool
  deriving DecidableEq, Repr

/-- A mark group (R341): bar, line, C0 to C2 in force when the line was printed, expectations. -/
structure MarkGroup where
  bar : Nat
  line : Nat
  c : List Int
  exps : List Expect
  deriving DecidableEq, Repr

/-- A completed group record not yet consumed by the estimator (R346): bar, REJECT, and (x̃_k, ê_k) of the matched
sensors. -/
structure GroupRec where
  bar : Nat
  reject : Bool
  pts : List (Rat × Rat)
  deriving DecidableEq, Repr

/-- A bar (R330, R336): running, waiting for its first F_P tick, NEXTLINE, CRESET due, and the stave updates sent
(n_g, C1, C2), newest first. -/
structure Bar where
  on : Bool := false
  fresh : Bool := false
  next : Nat := 0
  creset : Bool := false
  updates : List (Nat × Int × Int) := []
  deriving DecidableEq, Repr

/-- The Skew engine's own state: groups pending, oldest first, SEQ, and records to consume. -/
structure Skew where
  groups : List MarkGroup := []
  seq : Nat := 0
  recs : List GroupRec := []
  deriving DecidableEq, Repr

/-- The extensions of ACTPOS and SETPT of a record (R226, R536). -/
structure RecExt where
  rec' : Nat
  act : Extension
  set' : Extension
  deriving DecidableEq, Repr

/-- The Joist engine (R534 to R544): records accepted since reset and their extensions, what the outer loops have written for
the next tick and what they had not written at the tick in progress (R538), frames to depart (cycle, departure in `run`, NS32),
SEQ, FLTRST requests, a step since the previous frame, sources (SRCID, last SEQ, records), ticks without a record,
records accepted since the previous tick. -/
structure Joist where
  seen : Nat := 0
  ext : List RecExt := []
  txNext : List (Nat × List Nat) := []
  txLate : List (Nat × List Nat) := []
  txHeld : Bool := false
  late : Bool := false
  due : List (Nat × Nat × Nat) := []
  seq : Nat := 0
  fltrst : Nat := 0
  stepped : Bool := false
  sources : List (Nat × Nat × Nat) := []
  counts : List (Nat × Nat) := []
  got : Nat := 0
  deriving DecidableEq, Repr

/-- A trigger taken by a record (R460, R461): sample index, LCLK in ns, MASK, FORCED, RAFTER, rows kept before it, its
row and the POST rows still to come. -/
structure CelTrig where
  idx : Nat
  ns : Nat
  mask : Nat
  forced : Bool
  rafter : Bool
  npre : Nat
  row : Nat
  left : Nat
  deriving DecidableEq, Repr

/-- An item of the stream (R465): a row with its sample index, or a mark with its kind and body. -/
inductive CelItem
  | row (idx : Nat) (words : List Nat)
  | mark (kind : Nat) (words : List Nat)
  deriving DecidableEq, Repr

/-- An outside event (R456): the condition it meets as OP names it, the line or input, its instant in `run`; of a Rafter
action the sender and E, of a cycle start k. -/
structure CelEvent where
  op : Nat
  sel : Nat
  at' : Nat
  num : Nat := 0
  from' : Nat := 0
  deriving DecidableEq, Repr

/-- The Cellar's own state (R447 to R469), instants in `run`: the probes and row width of the arm, the sample instants
due, the previous sample, the previous row; the record being collected (rows taken, next row, dead time, trigger,
triggers missed, steps); a trigger forced; launches waiting for their own Rafter action, with their instants (R468); the
latest cycle starts with their tick flags; and the stream's FIFO with the instants of queuing. -/
structure Cellar where
  probes : List Nat := []
  /-- memory-word probes whose read at the arm the Lodge denied: they show 0 while the word keeps this value (R450) -/
  denied : List (Nat × Int) := []
  w : Nat := 0
  cap : Nat := 0
  nextAt : Option Nat := none
  due : List Nat := []
  lastAt : Option Nat := none
  prev : List (Nat × Nat) := []
  filled : Nat := 0
  pos : Nat := 0
  able : Bool := false
  autoFrom : Option Nat := none
  deadFrom : Option Nat := none
  dead : Nat := 0
  trig : Option CelTrig := none
  missed : Nat := 0
  stepSum : Int := 0
  stepped : Bool := false
  force : Bool := false
  auto : Bool := false
  waiting : List (Nat × Bool × Nat) := []
  starts : List (Nat × Bool × Bool) := []
  fifo : List (Nat × CelItem) := []
  dseq : Nat := 0
  lost : Nat := 0
  stepMarks : List Int := []
  sent : Nat := 0
  deriving DecidableEq, Repr

/-- The registers, the memories, the spindles, the timed outputs and the link words as they stood from an instant of physical
time on; probes look back at most 510 ns (R449). -/
structure Past where
  at' : Nat
  lclk : Nat
  run : Nat
  regs : RegFile
  mem : Memory
  sp : Vector Spindle 16
  tout : Vector Tout 16
  words : Vector (List Nat) 16
  deriving DecidableEq, Repr

/-- What has happened to registers in one FCLK cycle (R5 to R7), as addresses and masks: the bits the device set, and the bits
a write set. -/
structure Strobe where
  cycle : Nat := 0
  set : List (Nat × Nat) := []
  wrote : List (Nat × Nat) := []
  deriving DecidableEq, Repr

/-- A Zensor session (R548, R549): SID, secure, key K, last SEQ accepted, the response to it, and when it came. -/
structure Session where
  sid : Nat
  secure : Bool
  key : List Nat
  seq : Option Nat := none
  resp : List Nat := []
  at' : Nat := 0
  deriving DecidableEq, Repr

/-- Where the Cellar stream goes (R551): port, PCP, VID, address family, address, MAC address, and its session. -/
structure StreamTo where
  eport : Nat
  pcp : Nat
  vid : Nat
  family : Nat
  addr : List Nat
  mac : Nat
  sid : Nat
  deriving DecidableEq, Repr

/-- A channel of the Threshold island (R471, R476): faulty; its start-up test has ended; its waves cannot run; its
clock has stopped; the filtered level of each input and the run of samples that differ from it (STOAg at 2·g, STOBg at 2·g + 1); the band of
each SFB; the runs of ticks with unequal inputs, of an unexpected band and of INVALID; its decisions, and the other
channel's as last heard, with when. -/
structure ThrCh where
  faulty : Bool := false
  started : Bool := false
  mute : Bool := false
  stopped : Bool := false
  level : Vector Bool 8 := Vector.replicate 8 false
  run : Vector Nat 8 := Vector.replicate 8 0
  band : Vector Nat 4 := Vector.replicate 4 0
  diff : Vector Nat 4 := Vector.replicate 4 0
  mis : Vector Nat 4 := Vector.replicate 4 0
  inv : Vector Nat 4 := Vector.replicate 4 0
  dec : Vector Bool 4 := Vector.replicate 4 false
  heard : Vector Bool 4 := Vector.replicate 4 false
  msgAt : Nat := 0
  deriving DecidableEq, Repr

/-- A dark test in progress (R487): of the low side, when the switch opened, what channels A and B have seen. -/
structure DarkTest where
  low : Bool
  at' : Nat
  seenA : Bool
  seenB : Bool
  deriving DecidableEq, Repr

/-- An STO group (R479 to R495): STATE and CAUSE as their codes; latched faults and the low half of R484; degraded, since
when; the cycle of R489; counters; the waves running, the switches commanded closed and those whose state a fault has
made known; until when SFB is ignored; ticks at which the channels' bands differ; the dark test, its low half due, the
next test; a reset request. -/
structure ThrGrp where
  state : Nat := 0
  cause : Nat := 0
  disc : Bool := false
  discLow : Bool := false
  hs : Bool := false
  ls : Bool := false
  rb : Bool := false
  lock2 : Bool := false
  lockGr : Bool := false
  degr : Bool := false
  graceFrom : Option Nat := none
  cycled : Bool := false
  entries : Nat := 0
  tests : Nat := 0
  hsw : Bool := false
  lsw : Bool := false
  wantH : Bool := false
  wantL : Bool := false
  knownH : Option Bool := none
  knownL : Option Bool := none
  settle : Nat := 0
  cross : Nat := 0
  test : Option DarkTest := none
  testGood : Bool := false
  lowAt : Option Nat := none
  nextTest : Nat := 0
  req : Bool := false
  deriving DecidableEq, Repr

/-- The Threshold island (R471 to R505): block A in force, a SAFE section offered and not yet judged. -/
structure Thr where
  ch : Vector ThrCh 2 := Vector.replicate 2 {}
  grp : Vector ThrGrp 4 := Vector.replicate 4 {}
  block : Option (List Nat) := none
  offer : Option (List Nat) := none
  saferej : Bool := false
  clkloss : Bool := false
  rstrej : Nat := 0
  deriving DecidableEq, Repr

/-- A frame waiting at an egress port (R528): its bytes without the FCS, its TC, and how it is rewritten as it leaves
(R160): originated with t2, or forwarded with the ingress stamp and port. -/
inductive TxRewrite
  | none
  | own (t2 : Nat)
  | forwarded (stamp port : Nat)
  deriving DecidableEq, Repr

structure EFrame where
  bytes : List Nat
  tc : Nat
  rewrite : TxRewrite
  deriving DecidableEq, Repr

/-- A frame in the management receive queue with its TC and its descriptor (R528, R533); STAMP in ns. -/
structure HRx where
  bytes : List Nat
  tc : Nat
  inport : Nat
  flags : Nat
  stamp : Nat
  deriving DecidableEq, Repr

/-- An operational gate list (R529): CYCLE, BASE and the entries' GATES and INTERVAL. -/
structure QbvList where
  cycle : Nat := 0
  base : Nat := 0
  entries : List (Nat × Nat) := []
  deriving DecidableEq, Repr

/-- The Hallway switch (R524 to R533): learned addresses (MAC address, port, when last seen, in ns of physical time), the
egress queues, until when each port sends, the management receive queue, the last frame each port sent and when, the
gate lists in force, the starts of committed ones (LCLK in ns), the gate states applied, the MDIO frame in progress. -/
structure Hallway where
  table : List (Nat × Nat × Nat) := []
  q : Vector (List EFrame) 4 := Vector.replicate 4 []
  busy : Vector Nat 4 := Vector.replicate 4 0
  rx : List HRx := []
  sent : Vector (Nat × List Nat) 4 := Vector.replicate 4 (0, [])
  ops : Vector QbvList 4 := Vector.replicate 4 {}
  start : Vector Nat 4 := Vector.replicate 4 0
  gates : Vector Nat 4 := Vector.replicate 4 0xFF
  mdio : Option Nat := none
  deriving DecidableEq, Repr

/-- A FLASH_WRITE in progress (R546): SID, SEQ, the flash offset, whether the sector is erased, the data. -/
structure FlashOp where
  sid : Nat
  seq : Nat
  slot : Nat
  at' : Nat
  erase : Bool
  data : List Nat
  deriving DecidableEq, Repr

/-- The Zensor server's own state (R545 to R551): the last response sent, the count of SIDs given, a FLASH_WRITE in
progress, a STREAM_OPEN whose address is being resolved (SEQ and since when), and NETCFG in force. -/
structure Zensor where
  answer : List Nat := []
  opened : Nat := 0
  flashOp : Option FlashOp := none
  resolving : Option (StreamTo × Nat × Nat) := none
  netcfg : List Nat := []
  deriving DecidableEq, Repr

/-- A CAN transmission in progress (R563): the buffer, the STAMP of its SOF, the frame as read at its start and the bits that
go out. -/
structure CanTx where
  buf : Nat
  stamp : Nat
  frame : CanFrame
  bits : List Bool
  deriving DecidableEq, Repr

/-- A CAN controller (R557 to R572): changes of INIT, ROM, MON and SLEEP in force, whether INIT was entered from BUSOFF,
waiting for 11 recessive bits, the transmission in progress, buffers to cancel, the last
store (buffer and when it began), and the wake logic's error count. -/
structure Can where
  rom : Bool := false
  mon : Bool := false
  pend : Bool := false
  fromBusoff : Bool := false
  waiting : Bool := false
  tx : Option CanTx := none
  cancel : List Nat := []
  store : Option (Nat × Nat) := none
  werr : Nat := 0
  deriving DecidableEq, Repr

/-- A load in progress (R583 to R587): the reset kind whose load it is, the slot of the attempt, the preferred slot, the
slot to try next, when the reset was released; once pass 2 runs, the image's VERSION, GEN and whether it is signed, the
REGS records left as (A, VALUE, MASK), and since when the first of them, a POLL or a DELAY, waits. -/
structure Load where
  kind : Nat
  slot : Nat
  preferred : Nat
  next : Option Nat
  release : Nat
  pass2 : Bool := false
  version : Nat := 0
  gen : Nat := 0
  signed : Bool := false
  recs : List (Nat × Nat × Nat) := []
  wait : Option Nat := none
  deriving DecidableEq, Repr

/-- Power and boot (R574 to R597): the load in progress; held in power-on reset; BOOTFAIL; in Sleep, since when; a Sleep
entry under way; a wake event kept during it; when the watchdog expires; the PLLs run from RAFCLK (REFSEL as sampled);
the reference clock is lost. -/
structure Boot where
  load : Option Load := none
  held : Bool := false
  failed : Bool := false
  asleep : Option Nat := none
  entering : Bool := false
  wake : Option Nat := none
  wdt : Option Nat := none
  refsel : Bool := false
  refLost : Bool := false
  deriving DecidableEq, Repr

/-- The fuses (R67 to R69): bits programmed since manufacture, those that the registers show since the last power-on
reset, and the word and data of a programming in progress. -/
structure Fuses where
  burnt : List (Nat × Nat) := []
  shown : List (Nat × Nat) := []
  prog : Option (Nat × Nat) := none
  deriving DecidableEq, Repr

/-- The PTP servo (R163 to R167): rate f and slew p as fractions of one; started, successive big offsets, measurements
within and beyond LOCKTHR in a row, the parent of the last measurement, measured since reset, when holdover began. -/
structure Servo where
  f : Rat := 0
  p : Rat := 0
  started : Bool := false
  big : Nat := 0
  inRun : Nat := 0
  outRun : Nat := 0
  parent : Option Nat := none
  slave : Option (Fin 4) := none
  heard : Option Nat := none
  syncAt : Nat := 0
  syncIvl : Nat := 0
  annAt : Nat := 0
  measured : Bool := false
  holdFrom : Option Nat := none
  delays : List Nat := []
  deriving DecidableEq, Repr


/-- The reasons a step stops with a fault: none; no command of this block ends in one. -/
inductive Fault
  deriving DecidableEq, Repr

/-- The reasons a command is refused, each a result that the spec calls unpredictable. -/
inductive Refusal
  /-- A command whose meaning has not been written. Raised by `exec` only; safe. -/
  | notModelled (mnemonic : String)
  /-- A write of a nonzero value to a reserved field (R8: unpredictable). Raised by every register write; safe. -/
  | reservedField
  /-- An access to an address no block chapter lists (R9: unpredictable). Raised by fabric writes; safe. -/
  | unlistedAddress
  /-- A misaligned access (R50: unpredictable). Raised by fabric accesses; safe. -/
  | unaligned
  /-- A reserved encoding, or a host error, whose result a rule calls unpredictable (R14, R15). Safe. -/
  | unpredictable
  deriving DecidableEq, Repr

structure State where
  pending : List Instr
  /-- physical time in ns since power-on -/
  phys : Nat
  /-- LCLK, SEC·10⁹ + NS, in units of 2⁻³⁹ ns (R148) -/
  lclk : Nat
  /-- what LCLK would read had it never been stepped, in units of 2⁻³⁹ ns -/
  run : Nat
  /-- the steps of LCLK in the last second: physical instant in ns and change in units of 2⁻³⁹ ns, newest first -/
  steps : List (Nat × Int)
  freeCtr : Nat
  rdata : Word
  regs : RegFile
  /-- the register bits set in the present FCLK cycle (R5 to R7) -/
  strobe : Strobe
  /-- snapshots of the higher words of wide values (R10) -/
  snaps : RegFile
  /-- held writes of the lower words of wide values (R11) -/
  held : RegFile
  mem : Memory
  /-- addresses of words with bad parity (R428) -/
  badPar : List Nat
  sp : Vector Spindle 16
  snap : Snapshot
  seq : Sequencer
  led : Ledger
  mark : Vector Mark 16
  tout : Vector Tout 16
  raf : Rafter
  /-- outside events not yet attached to a Cellar sample, oldest first (R456) -/
  evs : List CelEvent
  ax : Vector Axis 64
  /-- every spindle at the previous F_P tick (R199) -/
  prevTick : Vector SpinSnap 16
  prevJumps : Vector Int 16
  attic : Attic
  lp : Vector Loop 64
  outer : Outer
  fld : Vector Field 64
  bl : Vector Bridge 16
  stp : Vector StpPlan 16
  /-- microstep table entries written since the cycle start, as they were at it (R291) -/
  stpOld : RegFile
  /-- the links on which Threshold requests gate disable, one bit each (R317, R475) -/
  gateLinks : Nat
  /-- gate disable requested by the preparation of Sleep (R594) -/
  sleepGate : Bool
  chuck : Vector ChuckCh 32
  cmdIn : Vector CmdIn 8
  /-- the Sill sequences started or to be started, oldest first: next entry, the start of the first, the cycle (R256) -/
  sill : List (Nat × Nat × Nat)
  core : Vector GCore 10
  march : March
  /-- a HOST master has accessed the Pantry since the last cycle start (R436, R439) -/
  hostPan : Bool
  jet : Vector Jet 8
  bar : Vector Bar 16
  skew : Skew
  jo : Joist
  cel : Cellar
  past : List Past
  /-- the external flash: 255 less each byte, so that an unlisted byte is an erased one, 0xFF (R574) -/
  flash : Memory
  /-- a reset requested by PWR_RESET or RELOAD and not yet begun: 3 Zensor soft reset, 4 warm reload (R546, R590) -/
  resetReq : Option Nat
  /-- the FCLK cycle in which the violation on record was captured (R63) -/
  violAt : Option Nat
  /-- open Zensor sessions, and the Cellar stream (R548 to R551) -/
  sessions : List Session
  stream : Option StreamTo
  thr : Thr
  hw : Hallway
  zen : Zensor
  can : Vector Can 2
  boot : Boot
  fuses : Fuses
  servo : Servo
  deriving DecidableEq, Repr

def State.reset : State where
  pending := []
  phys := 0
  lclk := 0
  run := 0
  steps := []
  freeCtr := 0
  rdata := 0
  regs := []
  strobe := {}
  snaps := []
  held := []
  mem := []
  badPar := []
  sp := Vector.replicate 16 {}
  snap := {}
  seq := {}
  led := {}
  mark := Vector.replicate 16 {}
  tout := Vector.replicate 16 {}
  raf := {}
  evs := []
  ax := Vector.replicate 64 {}
  prevTick := Vector.replicate 16 {}
  prevJumps := Vector.replicate 16 0
  attic := {}
  lp := Vector.replicate 64 {}
  outer := {}
  fld := Vector.replicate 64 {}
  bl := Vector.replicate 16 {}
  stp := Vector.replicate 16 {}
  stpOld := []
  gateLinks := 0
  sleepGate := false
  chuck := Vector.replicate 32 {}
  cmdIn := Vector.replicate 8 {}
  sill := []
  core := Vector.replicate 10 {}
  march := {}
  hostPan := false
  jet := Vector.replicate 8 {}
  bar := Vector.replicate 16 {}
  skew := {}
  jo := {}
  cel := {}
  past := []
  flash := []
  resetReq := none
  violAt := none
  sessions := []
  stream := none
  thr := {}
  hw := {}
  zen := {}
  can := Vector.replicate 2 {}
  boot := {}
  fuses := {}
  servo := {}

end Sys2Proof.Machine
end

