-- ==== Sys2Proof/Machine/Ops.lean ====
section
/-! DEFINITION. The named operations over the state: register fields, wide values, memory, time and free
values. -/
namespace Sys2Proof.Machine

/-! ### Registers -/

/-- The stored word of a register. -/
def State.reg (s : State) (a : Nat) : Word := s.regs.get a

/-- The device puts a whole word into a register. -/
def State.setReg (s : State) (a : Nat) (w : Word) : State := { s with regs := s.regs.set a w }

/-- The address of a field's register in instance `n` of the block, instance `j` inside it. -/
def Fld.addr (f : Fld) (n j : Nat) : Nat := f.base + f.stride * n + f.inner * j

/-- A field's value. -/
def State.fget (s : State) (f : Fld) (n : Nat := 0) (j : Nat := 0) : Nat :=
  bitsOf (s.reg (f.addr n j)).toNat f.hi f.lo

/-- A field's value in two's complement. -/
def State.fgetS (s : State) (f : Fld) (n : Nat := 0) (j : Nat := 0) : Int :=
  toS (f.hi + 1 - f.lo) (s.fget f n j)

/-- A one-bit field. -/
def State.flag (s : State) (f : Fld) (n : Nat := 0) (j : Nat := 0) : Bool := s.fget f n j != 0

/-- The device sets a field, whatever its access type. -/
def State.fset (s : State) (f : Fld) (v : Nat) (n : Nat := 0) (j : Nat := 0) : State :=
  s.setReg (f.addr n j) (BitVec.ofNat 32 (putBits (s.reg (f.addr n j)).toNat f.hi f.lo v))

def State.fsetS (s : State) (f : Fld) (v : Int) (n : Nat := 0) (j : Nat := 0) : State :=
  s.fset f (ofS (f.hi + 1 - f.lo) v) n j

def State.setFlag (s : State) (f : Fld) (b : Bool) (n : Nat := 0) (j : Nat := 0) : State :=
  s.fset f (b2n b) n j

/-! #### What the device sets in the cycle of an access (R5 to R7) -/

/-- The mask of a field in its register. -/
def Fld.mask (f : Fld) : Nat := (2 ^ (f.hi + 1 - f.lo) - 1) <<< f.lo

/-- The strobe of the present FCLK cycle: an older cycle's is over. -/
def State.strobeNow (s : State) : Strobe := if s.strobe.cycle = s.phys / 2 then s.strobe else { cycle := s.phys / 2 }

/-- The device sets the bits `m` of the register at `a` in this FCLK cycle. -/
def State.noteSet (s : State) (a m : Nat) : State :=
  { s with strobe := { s.strobeNow with set := (a, m) :: s.strobeNow.set } }

/-- A write sets the bits `m` of the register at `a` in this FCLK cycle. -/
def State.noteWrote (s : State) (a m : Nat) : State :=
  { s with strobe := { s.strobeNow with wrote := (a, m) :: s.strobeNow.wrote } }

/-- The bits that a list of (address, mask) gives one register. -/
def bitsAt (a : Nat) (l : List (Nat × Nat)) : Nat := l.foldl (fun m x => if x.1 = a then m ||| x.2 else m) 0

/-- The bits of a register that the device has set in this FCLK cycle, whether or not they were 1 before. -/
def State.justSet (s : State) (a : Nat) : Nat := bitsAt a s.strobeNow.set

/-- The W1S bits of a register that a write has set in this FCLK cycle. -/
def State.justWrote (s : State) (a : Nat) : Nat := bitsAt a s.strobeNow.wrote

/-- The device sets a flag that software clears: a write or a read of the same FCLK cycle does not undo it (R5, R7). -/
def State.raise (s : State) (f : Fld) (n : Nat := 0) (j : Nat := 0) : State :=
  (s.setFlag f true n j).noteSet (f.addr n j) f.mask

/-- The same for the bits `m` of a field. -/
def State.raiseBits (s : State) (f : Fld) (m : Nat) (n : Nat := 0) (j : Nat := 0) : State :=
  (s.fset f (s.fget f n j ||| m) n j).noteSet (f.addr n j) (m <<< f.lo)

/-- Count up, holding at the field's largest value; the count is set in this FCLK cycle (R7). -/
def State.finc (s : State) (f : Fld) (n : Nat := 0) (j : Nat := 0) (by' : Nat := 1) : State :=
  (s.fset f (min (s.fget f n j + by') (2 ^ (f.hi + 1 - f.lo) - 1)) n j).noteSet (f.addr n j) f.mask

/-- Count up modulo the field's range. -/
def State.fincWrap (s : State) (f : Fld) (n : Nat := 0) (j : Nat := 0) : State :=
  s.fset f (s.fget f n j + 1) n j

def Wide.addr (w : Wide) (n j : Nat) : Nat := w.base + w.stride * n + w.inner * j

/-- `k` consecutive registers as one number, the lowest address least significant. -/
def State.words (s : State) (a : Nat) : Nat → Nat
  | 0 => 0
  | k + 1 => (s.reg a).toNat + 2 ^ 32 * State.words s (a + 4) k

def State.setWords (s : State) (a : Nat) : Nat → Nat → State
  | 0, _ => s
  | k + 1, v => State.setWords (s.setReg a (BitVec.ofNat 32 v)) (a + 4) k (v / 2 ^ 32)

/-- The committed value of a wide register. -/
def State.wget (s : State) (w : Wide) (n : Nat := 0) (j : Nat := 0) : Nat := s.words (w.addr n j) w.words

def State.wgetS (s : State) (w : Wide) (n : Nat := 0) (j : Nat := 0) : Int :=
  toS (32 * w.words) (s.wget w n j)

def State.wset (s : State) (w : Wide) (v : Nat) (n : Nat := 0) (j : Nat := 0) : State :=
  s.setWords (w.addr n j) w.words v

def State.wsetS (s : State) (w : Wide) (v : Int) (n : Nat := 0) (j : Nat := 0) : State :=
  s.wset w (ofS (32 * w.words) v) n j

/-! ### Memory -/

def State.readN (s : State) (a k : Nat) : Nat := s.mem.readN a k

def State.writeN (s : State) (a k v : Nat) : State := { s with mem := s.mem.writeN a k v }

/-- A 32-bit word of memory. -/
def State.mem32 (s : State) (a : Nat) : Nat := s.readN a 4

def State.setMem32 (s : State) (a v : Nat) : State := s.writeN a 4 v

/-- A 24-bit word of a Gouge local memory, held in the low three bytes of its slot (R413). -/
def State.mem24 (s : State) (a : Nat) : Nat := s.readN a 3

def State.setMem24 (s : State) (a v : Nat) : State := s.writeN a 3 v

/-- The word at `a` shows bad parity (R415, R625): one of its byte addresses is marked. -/
def State.parityBad (s : State) (a : Nat) : Bool := s.badPar.any (fun b => b / 4 == a / 4)

/-- Good parity for bytes `a` to `a + k - 1`. -/
def State.parityCure (s : State) (a k : Nat) : State :=
  if s.badPar.isEmpty then s
  else { s with badPar := s.badPar.filter (fun b => !(decide (a ≤ b) && decide (b < a + k))) }

/-- A whole local word is written, with good parity (R428). -/
def State.localPut (s : State) (a v : Nat) : State := (s.setMem24 a v).parityCure a 4

/-- The fabric address of a core's X or Y word: X at 0 to 0x3FFF, Y at 0x4000 to 0x7FFF (R393, R413). -/
def localAddr (core w : Nat) : Nat :=
  0x1000_0000 + 0x10_0000 * core +
    (if w < 0x4000 then 0x2_0000 + 4 * (w % 0x4000) else 0x3_0000 + 4 * ((w - 0x4000) % 0x4000))

/-- The core GOUGE_BLMAP names for a link (R417, R445). -/
def State.blCore (s : State) (l : Nat) : Nat :=
  bitsOf (if l < 8 then s.fget F.GS_BLMAP0 else s.fget F.GS_BLMAP1) (4 * (l % 8) + 3) (4 * (l % 8))

/-- The fixed Y word of a link: 0x7E00 + 32·l + i (R416). -/
def State.linkWord (s : State) (l i : Nat) : Nat := localAddr (s.blCore l) (0x7E00 + 32 * l + i)

/-! ### Input filters (R107, R121, R251) -/

/-- The filtered level of a line: bit 0 of `w` is its raw level at the present sample of 4 ns, bit i that of i samples ago. A
new raw level shows at the sample after it has held for `filt` samples (R121). -/
def filtered (filt : Nat) (old : Bool) (w : BitVec 16) : Bool :=
  if filt = 0 then w.getLsbD 0
  else if (List.range filt).all (fun i => w.getLsbD (i + 1) == w.getLsbD 1) then w.getLsbD 1 else old

/-! ### Iteration over instances -/

/-- Do something for each instance, in rising order. -/
def forFin (k : Nat) (f : Fin k → State → State) (s : State) : State :=
  (List.finRange k).foldl (fun t i => f i t) s

def forList {α : Type} (l : List α) (f : α → State → State) (s : State) : State :=
  l.foldl (fun t a => f a t) s

/-! ### Free values -/

/-- Take the next free value: nothing constrains it. -/
def State.takeFree (s : State) : BitVec 64 × State :=
  (Config.freeValue s.freeCtr, { s with freeCtr := s.freeCtr + 1 })

/-- A quotient in the units of a register: exact where it is representable, else one of the two
neighbours (the spec states no rounding). -/
def quo (n : Int) (d : Nat) : Int :=
  let f := n / d
  if n % d = 0 then f else if Config.roundUp d n then f + 1 else f

/-- The nearest whole number; which of two equally near ones is the implementation's. -/
def nearest (x : Rat) : Int :=
  let y := x + 1 / 2
  if y.den = 1 then (if Config.roundUp 2 (2 * x).floor then y.num else y.num - 1) else y.floor

/-- A quotient truncated toward zero (R70). -/
def truncDiv (n : Int) (d : Nat) : Int := Int.tdiv n d

/-- A rational in units of 2⁻³². -/
def ratQ (x : Rat) : Int := quo (x.num * 2 ^ 32) x.den

/-- A value in units of 2⁻³² as a rational. -/
def ofQ (x : Int) : Rat := (x : Rat) / (2 ^ 32 : Int)

/-- A quotient of rationals; by zero a free value. -/
def divR (x y : Rat) : Rat := if y = 0 then Config.overZero x else x / y

def absR (x : Rat) : Rat := if x < 0 then -x else x
def signR (x : Rat) : Rat := if x < 0 then -1 else if x = 0 then 0 else 1
def maxR (x y : Rat) : Rat := if x < y then y else x
def minR (x y : Rat) : Rat := if x < y then x else y
def clampR (lo hi x : Rat) : Rat := if x < lo then lo else if hi < x then hi else x

/-! ### Time (R148, R149) -/

/-- One ns in the units of `lclk` and `run`. -/
def unitNs : Nat := 2 ^ 39

/-- LCLK in whole ns: SEC·10⁹ + NS. -/
def State.nowNs (s : State) : Nat := s.lclk / unitNs

/-- The step-free timescale in whole ns. -/
def State.runNs (s : State) : Nat := s.run / unitNs

/-- The compact stamp (R2). -/
def ns32 (t : Nat) : Nat := t % 2 ^ 32

def State.stamp32 (s : State) : Nat := ns32 s.nowNs

/-- The LCLK instant, in ns, of a moment of the step-free timescale. -/
def State.runToLclk (s : State) (r : Nat) : Nat := s.lclk + r - s.run

def State.lclkToRun (s : State) (t : Nat) : Nat := s.run + t - s.lclk

/-- LCLK's rate: what one FCLK cycle adds, 2 ns·(1 + ADJ·2⁻⁴⁰) (R149). -/
def State.rate (s : State) : Nat := ((2 ^ 40 : Int) + s.fgetS F.HEARTH_ADJ).toNat

/-- What LCLK advances in 2 ns of physical time from an instant on: R149's rate; on the clock monitor's oscillator, up to 5 %
off (R511). -/
def State.pace (s : State) (t : Nat) : Nat :=
  if s.boot.refLost then s.rate * 19 / 20 + Config.oscSpeed t % (s.rate / 10 + 1) else s.rate

/-- The entries of the past that some instant of the last 510 ns still needs. -/
def keepPast (now : Nat) : List Past → List Past
  | [] => []
  | p :: ps => p :: (if p.at' + 510 < now then [] else keepPast now ps)

/-- Let `dt` ns of physical time pass: LCLK advances at each FCLK cycle, every 2 ns (R17, R149). -/
def State.elapse (s : State) (dt : Nat) : State :=
  let n := (s.phys + dt) / 2 - s.phys / 2
  let adv := n * s.pace s.phys
  { s with
    phys := s.phys + dt, lclk := s.lclk + adv, run := s.run + adv
    past := if dt = 0 then s.past
      else keepPast (s.phys + dt) (⟨s.phys, s.lclk, s.run, s.regs, s.mem, s.sp, s.tout, s.bl.map (fun b => b.words)⟩ :: s.past) }

/-- By how much LCLK has been stepped in the last `ago` ns, in units of 2⁻³⁹ ns. -/
def State.stepsSince (s : State) (ago : Nat) : Int :=
  ((s.steps.filter (fun x => decide (s.phys < x.1 + ago))).map (·.2)).sum

/-- The registers as they stood at the start of the present FCLK cycle (R5, R7, R57): what changed since then changed in
this cycle. -/
def State.cycleRegs (s : State) : RegFile :=
  match s.past.find? (fun p => decide (p.at' / 2 < s.phys / 2)) with
  | some p => p.regs
  | none => s.regs

/-- The state as a probe delayed by `c` FCLK cycles sees it (R449). -/
def State.backTo (s : State) (c : Nat) : State :=
  if c = 0 then s else
  let t := s.phys - 2 * c
  match s.past.find? (fun p => decide (p.at' ≤ t)) with
  | none => s
  | some p =>
    let adv := (t / 2 - p.at' / 2) * s.pace p.at'
    { s with phys := t, lclk := p.lclk + adv, run := p.run + adv, regs := p.regs, mem := p.mem, sp := p.sp, tout := p.tout
             bl := Vector.ofFn (fun i => { s.bl[i] with words := p.words[i] }) }

/-- Every block but Threshold is without power or in reset: power-on reset asserted, BOOTFAIL, or Sleep (R588, R595,
R608). -/
def State.off (s : State) : Bool := s.boot.held || s.boot.failed || s.boot.asleep.isSome

/-! ### The blocks' parts of the state -/

def State.modSp (s : State) (n : Fin 16) (f : Spindle → Spindle) : State :=
  { s with sp := s.sp.set n (f s.sp[n]) }

def State.modMark (s : State) (n : Fin 16) (f : Mark → Mark) : State :=
  { s with mark := s.mark.set n (f s.mark[n]) }

def State.modAx (s : State) (n : Fin 64) (f : Axis → Axis) : State :=
  { s with ax := s.ax.set n (f s.ax[n]) }

def State.modLp (s : State) (n : Fin 64) (f : Loop → Loop) : State :=
  { s with lp := s.lp.set n (f s.lp[n]) }

def State.modFld (s : State) (n : Fin 64) (f : Field → Field) : State :=
  { s with fld := s.fld.set n (f s.fld[n]) }

def State.modBl (s : State) (n : Fin 16) (f : Bridge → Bridge) : State :=
  { s with bl := s.bl.set n (f s.bl[n]) }

/-- An extension adds the signed 32-bit difference; the first value is taken as it stands (R185). -/
def Extension.add (x : Option Extension) (v : Int) : Extension :=
  match x with
  | none => ⟨v, v⟩
  | some e => ⟨e.sum + toS 32 (ofS 32 (v - e.last)), v⟩

def State.modCh (s : State) (n : Fin 32) (f : ChuckCh → ChuckCh) : State :=
  { s with chuck := s.chuck.set n (f s.chuck[n]) }

def State.modCore (s : State) (n : Fin 10) (f : GCore → GCore) : State :=
  { s with core := s.core.set n (f s.core[n]) }

def State.modCmd (s : State) (n : Fin 8) (f : CmdIn → CmdIn) : State :=
  { s with cmdIn := s.cmdIn.set n (f s.cmdIn[n]) }

def State.modJet (s : State) (n : Fin 8) (f : Jet → Jet) : State :=
  { s with jet := s.jet.set n (f s.jet[n]) }

def State.modBar (s : State) (n : Fin 16) (f : Bar → Bar) : State :=
  { s with bar := s.bar.set n (f s.bar[n]) }

end Sys2Proof.Machine
end

