-- ==== Sys2Proof/Machine/Events.lean ====
section
/-! DEFINITION. Gouge events (R423) and the outside events of the Cellar (R456). -/
namespace Sys2Proof.Machine

/-- Raise Gouge event `e`: every core whose EVMASK selects it gets its EVPEND bit; an event already pending
there is counted in EVLOST and not queued (R423). -/
def State.gougeEvent (s : State) (e : Nat) : State :=
  let w := e % 256 / 32
  let b := e % 32
  forFin 10 (fun n t =>
    if bit (t.fget F.GOUGE_EVMASK n w) b then
      let p := t.fget F.GOUGE_EVPEND n w
      if bit p b then t.raise F.GOUGE_STATUS_EVLOST n
      else t.fset F.GOUGE_EVPEND (p ||| 2 ^ b) n w
    else t) s

/-- An outside event of instant `at'` waits for a sample of the Cellar while an acquisition runs (R456). -/
def State.celEvent (s : State) (op sel at' num from' : Nat) : State :=
  let st := s.fget F.CEL_STATUS_STATE
  if st = 1 ∨ st = 2 ∨ st = 4 then { s with evs := s.evs ++ [⟨op, sel, at', num, from'⟩] } else s

end Sys2Proof.Machine
end

