-- ==== Sys2Proof/Machine/Attic.lean ====
section
/-! DEFINITION. Faults and the Attic log (R506 to R523). -/
namespace Sys2Proof.Machine

/-- DEVFLT.HALT: a halt is in force (R509). -/
def State.halted (s : State) : Bool := s.flag F.FLT_DEVFLT_HALT

/-- A record as it stands when the fault is raised (R519). -/
def State.atticRec (s : State) (cls src inst detail : Nat) (data : List Nat) : AtticRec :=
  { cycle := s.phys / 2, cls := cls, src := src, inst := inst % 256, detail := detail % 65536, data := data.take 6
    ns := s.nowNs, k := (s.wget F.CYC_COUNT) % 2 ^ 32, repeats := 0 }

/-- The records of one FCLK cycle stand in ascending SRC, then ascending INST (R508): whether `r` goes before `x`. -/
def AtticRec.before (r x : AtticRec) : Bool :=
  r.cycle == x.cycle && (decide (r.src < x.src) || (r.src == x.src && decide (r.inst < x.inst)))

/-- Put a record into its place. -/
def atticInsert (r : AtticRec) (l : List AtticRec) : List AtticRec :=
  l.filter (fun x => !r.before x) ++ r :: l.filter (fun x => r.before x)

/-- Until when a further record of a SRC and INST pair is suppressed, and how many have been (R520). -/
def Attic.pair (a : Attic) (src inst : Nat) : Nat × Nat :=
  match a.pairs.find? (fun p => p.1 == src && p.2.1 == inst) with
  | some p => p.2.2
  | none => (0, 0)

def Attic.setPair (a : Attic) (src inst : Nat) (v : Nat × Nat) : Attic :=
  { a with pairs := (src, inst, v) :: a.pairs.filter (fun p => !(p.1 == src && p.2.1 == inst)) }

/-- Queue an ordinary record (R508, R520): at most one per SRC and INST in any 1 ms, 16 in all. A record that does not fit is
dropped, and counts as never queued. -/
def State.atticQueue (s : State) (r : AtticRec) : State :=
  let p := s.attic.pair r.src r.inst
  if s.phys < p.1 then
    { s with attic := s.attic.setPair r.src r.inst (p.1, min (p.2 + 1) 0xFFFF) }
  else
    let q := atticInsert { r with repeats := p.2 } s.attic.queue
    let a := { s.attic with queue := q.take 16 }.setPair r.src r.inst (s.phys + 1000000, 0)
    match q[16]? with
    | some x => ({ s with attic := a.setPair x.src x.inst (0, x.repeats) }).finc F.FLT_LOST
    | none => ({ s with attic := a }).fset F.FLT_ATTIC_STATUS_QLEVEL q.length

/-- RESET and F3 records bypass the queue; before READY a store of four holds them (R518, R520). -/
def State.atticUrgent (s : State) (r : AtticRec) : State :=
  if !s.flag F.FLT_ATTIC_STATUS_READY ∧ 4 ≤ s.attic.urgent.length then s.finc F.FLT_LOST
  else { s with attic := { s.attic with urgent := atticInsert r s.attic.urgent } }

/-- Whether a fault is recorded (R506): RESET, USER, CLEAR and F3 always, LODGE by its own bit, else by REC. -/
def State.atticWanted (s : State) (cls src : Nat) : Bool :=
  src == 1 || src == 2 || src == 0x0E || src == 0x0F || cls == 3 || bit (s.fget F.FLT_FAULT_CFG_REC) cls

/-- A fault of a class has occurred (R506, R523). -/
def State.countFault (s : State) (cls : Nat) : State :=
  (s.finc F.FLT_FCOUNT 0 cls).raiseBits F.FLT_DEVFLT_F (2 ^ cls)

/-- Count, mark and record a fault of a class (R506, R507), with the Gouge event of F2. -/
def State.raiseFault (s : State) (cls src inst detail : Nat) (data : List Nat) : State :=
  let s3 := (((s.countFault cls).fset F.FLT_LASTFLT_SRC src).fset F.FLT_LASTFLT_INST inst).fset F.FLT_LASTFLT_DETAIL detail
  let s4 := if cls = 2 ∧ s.flag F.FLT_FAULT_CFG_FEVTEN then s3.gougeEvent (s.fget F.FLT_FAULT_CFG_FEVT) else s3
  if !s.atticWanted cls src then s4
  else if src = 1 ∨ cls = 3 then s4.atticUrgent (s.atticRec cls src inst detail data)
  else s4.atticQueue (s.atticRec cls src inst detail data)

/-- The bytes of a record with its SEQ (R519). -/
def AtticRec.bytes (r : AtticRec) (seq boot : Nat) : List Nat :=
  let sec := r.ns / 10 ^ 9
  let ns := r.ns % 10 ^ 9
  let head := 0xA71C * 2 ^ 16 + 0x1000 + r.cls * 2 ^ 10 + r.src
  let d := fun i => (r.data[i]?).getD 0
  let ws := [head, seq % 2 ^ 32, seq / 2 ^ 32, sec % 2 ^ 32, r.repeats * 2 ^ 16 + sec / 2 ^ 32 % 2 ^ 16, ns, boot,
    r.inst * 2 ^ 24 + r.detail, d 0, d 1, d 2, d 3, d 4, d 5, r.k]
  let bs := ws.flatMap (bytesLE 4)
  bs ++ bytesLE 4 (crc32 bs)

def atticSlot (i : Nat) : Nat := 0x00C0_0000 + 64 * (i % 4096)

/-- What the next slot then holds; HEAD goes on (R517). -/
def State.atticPut (s : State) (bs : List Nat) : State :=
  let head := s.fget F.FLT_ATTIC_STATUS_HEAD
  ({ s with mem := s.mem.writeBytes (atticSlot head) bs }).fset F.FLT_ATTIC_STATUS_HEAD ((head + 1) % 4096)

/-- Write the bytes of a record to the next slot and read them back (R517): `slots` are what the slots of the attempts that do not
read back the same then hold. Each of them sets ERR, and the record is written again in the slot after it. -/
def State.atticTry (s : State) (bs : List Nat) : List (List Nat) → State
  | [] => s.atticPut bs
  | x :: xs => if x = bs then s.atticPut bs
      else State.atticTry ((s.atticPut (x.take 64)).raise F.FLT_ATTIC_STATUS_ERR) bs xs

/-- Commit one record (R517, R522). -/
def State.atticWrite (s : State) (r : AtticRec) (slots : List (List Nat)) : State :=
  let seq := s.wget F.FLT_NEXTSEQ
  let s1 := (s.atticTry (r.bytes seq (s.fget F.FLT_BOOTS)) slots).wset F.FLT_NEXTSEQ (seq + 1)
  if r.src = 0x0F then s1.wset F.FLT_FIRST seq else s1

/-- ATTIC_COMMIT: the next waiting record, urgent ones first (R520). Nothing is committed before READY. -/
def State.atticCommit (s : State) (slots : List (List Nat)) : State :=
  if !s.flag F.FLT_ATTIC_STATUS_READY then s else
  match s.attic.urgent, s.attic.queue with
  | r :: rs, _ => ({ s with attic := { s.attic with urgent := rs } }).atticWrite r slots
  | [], r :: rs =>
    let s1 := { s with attic := { s.attic with queue := rs } }
    (s1.fset F.FLT_ATTIC_STATUS_QLEVEL rs.length).atticWrite r slots
  | [], [] => s

/-- Power is lost while a record may be on its way to its slot (R518, R608): which of its words have been written is free, the
CRC's only after all others (R517). -/
def State.atticCut (s : State) : State :=
  match (s.attic.urgent ++ s.attic.queue).head? with
  | none => s
  | some r =>
    if !s.flag F.FLT_ATTIC_STATUS_READY then s else
    let x := s.takeFree
    let done := x.1.toNat
    let a := atticSlot (s.fget F.FLT_ATTIC_STATUS_HEAD)
    let bs := r.bytes (s.wget F.FLT_NEXTSEQ) (s.fget F.FLT_BOOTS)
    let whole := done % 2 ^ 15 == 2 ^ 15 - 1
    let put := (List.range 16).filter (fun i => bit done i && (decide (i < 15) || whole))
    { x.2 with mem := put.foldl (fun m i => m.writeBytes (a + 4 * i) ((bs.drop (4 * i)).take 4)) x.2.mem }

/-- A valid record of a slot: TAG and CRC are correct (R517). Its SEQ, BOOT and SRC. -/
def State.atticValid (s : State) (i : Nat) : Option (Nat × Nat × Nat) :=
  let a := atticSlot i
  let bs := (List.range 60).map (fun k => s.readN (a + k) 1)
  if s.readN (a + 2) 2 = 0xA71C ∧ s.readN (a + 60) 4 = crc32 bs then
    some (s.readN (a + 4) 8, s.readN (a + 0x18) 4, s.readN a 1)
  else none

/-- ATTIC_SCAN_DONE: HEAD, BOOTS, NEXTSEQ and FIRST from the valid records, then READY (R518, R522). -/
def State.atticScan (s : State) : State :=
  if s.flag F.FLT_ATTIC_STATUS_READY then s else
  let found := (List.range 4096).filterMap (fun i => (s.atticValid i).map (fun r => (i, r)))
  let newest := found.foldl (fun (b : Option (Nat × Nat × Nat × Nat)) x =>
    match b with
    | none => some x
    | some y => if y.2.1 < x.2.1 then some x else b) none
  let clear := (found.filter (fun x => x.2.2.2 == 0x0F)).foldl (fun b x => max b (x.2.1 + 1)) 0
  let lowest := found.foldl (fun (b : Option Nat) x => match b with
    | none => some x.2.1
    | some y => some (min y x.2.1)) none
  let s1 := match newest with
    | none => (((s.fset F.FLT_ATTIC_STATUS_HEAD 0).fset F.FLT_BOOTS 0).wset F.FLT_NEXTSEQ 0).wset F.FLT_FIRST 0
    | some (i, seq, boot, _) =>
      let t := (s.fset F.FLT_ATTIC_STATUS_HEAD ((i + 1) % 4096)).fset F.FLT_BOOTS (boot + 1)
      (t.wset F.FLT_NEXTSEQ (seq + 1)).wset F.FLT_FIRST (if clear = 0 then lowest.getD 0 else clear - 1)
  s1.setFlag F.FLT_ATTIC_STATUS_READY true

/-- A write to ATTIC_UWRITE queues a USER record (R521). -/
def State.atticUser (s : State) (inst detail : Nat) : State :=
  s.raiseFault 0 0x0E inst detail ((List.range 6).map (fun i => s.fget F.FLT_UDATA 0 i))

/-- A keyed write to ATTIC_CLEAR writes a CLEAR record (R522). -/
def State.atticClear (s : State) (key : Nat) (go : Bool) : State :=
  if key = 0xA5C3 ∧ go then s.raiseFault 0 0x0F 0 0 [] else s

end Sys2Proof.Machine
end

