-- ==== Sys2Proof/Machine/Spindle.lean ====
section
/-! DEFINITION. Spindles (R70 to R82): position, velocity, acceleration, and what moves them. -/
namespace Sys2Proof.Machine

/-- Whether the source counts edges: Chuck, CMD frequency and Rafter (R71, R80). -/
def countingSrc (src : Nat) : Bool := src == 0 || src == 4 || src == 5

/-- The changes in the velocity window measured back from the newest one, with at least the two newest (R76);
the answer is the newest, the one before it, and the oldest of the window. -/
def window (vwin : Nat) : List (Nat × Int) → Option ((Nat × Int) × (Nat × Int) × (Nat × Int))
  | n :: p :: r =>
    let old := ((n :: p :: r).filter (fun c => decide (n.1 ≤ c.1 + vwin * 1000 * unitNs))).getLast?.getD p
    some (n, p, if old = n then p else old)
  | _ => none

/-- Velocity of a counting source before R77: counts and the time in units of 2⁻³⁹ ns they took (R76). -/
def windowVel (vwin : Nat) (changes : List (Nat × Int)) : Option (Int × Nat) :=
  match window vwin changes with
  | none => none
  | some (n, _, o) => if n.1 ≤ o.1 then none else some (n.2 - o.2, n.1 - o.1)

/-- Velocity of a counting source at instant `r`: counts and the time in units of 2⁻³⁹ ns they took (R76,
R77); none when it is zero. -/
def countVel (stillt vwin : Nat) (changes : List (Nat × Int)) (r : Nat) : Option (Int × Nat) :=
  match window vwin changes with
  | none => none
  | some (n, p, o) =>
    let since := r - n.1
    if stillt * 1000 * unitNs ≤ since then none
    else if n.1 ≤ o.1 then none
    else
      let num := n.2 - o.2
      let den := n.1 - o.1
      if n.1 - p.1 < since ∧ (den : Int) < absI num * since then some (signI num, since) else some (num, den)

def State.spinEn (s : State) (n : Fin 16) : Bool := s.flag F.SP_CTRL_EN n

def State.spinScale (s : State) (n : Fin 16) : Int := s.wgetS F.SP_SCALE n

/-- Velocity of an enabled, healthy counting spindle. -/
def State.spinCountVel (s : State) (n : Fin 16) (r : Nat) : Option (Int × Nat) :=
  countVel (s.fget F.SP_EST_STILLT n) (s.fget F.SP_EST_VWIN n) s.sp[n].changes r

/-- Velocity in su/s, units of 2⁻³² (R76, R77, R80). -/
def State.spinVel (s : State) (n : Fin 16) (r : Nat) : Int :=
  let p := s.sp[n]
  if !s.spinEn n then p.heldVel
  else if p.frozen.isSome then 0
  else
    let src := s.fget F.SP_CTRL_SRC n
    if countingSrc src then
      match s.spinCountVel n r with
      | none => 0
      | some (num, den) => quo (s.spinScale n * num * (10 ^ 9 * unitNs : Nat)) den
    else if src = 1 then s.spinScale n * 10 ^ 9
    else quo (s.spinScale n * p.srcVel) (2 ^ 32)

/-- The interpolated part of the source accumulator as a fraction: numerator and denominator (R78). It
stays short of one count in the direction of motion. -/
def interp (v : Option (Int × Nat)) (anchor r : Nat) : Int × Nat :=
  match v with
  | none => (0, 1)
  | some (num, den) =>
    let x := num * ((r - anchor : Nat) : Int)
    if absI x < den then (x, den) else (signI num * (2 ^ 32 - 1), 2 ^ 32)

/-- Position in su, units of 2⁻³², at instant `r` of the step-free timescale: O + SCALE·S, the product
truncated toward zero (R70), interpolated between changes (R78, R80). -/
def State.spinPos (s : State) (n : Fin 16) (r : Nat) : Int :=
  let p := s.sp[n]
  if !s.spinEn n then p.held
  else match p.frozen with
    | some x => x
    | none =>
      let src := s.fget F.SP_CTRL_SRC n
      let later := p.changes.filter (fun c => decide (r < c.1))
      if countingSrc src then
        let back : Int := match later.getLast? with
          | none => 0
          | some _ => p.count - (match (p.changes.filter (fun c => decide (c.1 ≤ r))).head? with
              | some c => c.2
              | none => 0)
        let anchor := if later.isEmpty then p.anchor else
          match (p.changes.filter (fun c => decide (c.1 ≤ r))).head? with
          | some c => c.1
          | none => r
        let i := interp (s.spinCountVel n r) anchor r
        p.O + truncDiv (s.spinScale n * ((p.S - back * 2 ^ 32) * i.2 + i.1 * 2 ^ 32)) (2 ^ 32 * i.2)
      else if src = 1 then
        p.O + truncDiv (s.spinScale n * (p.S + ((r - p.anchor) / 2 ^ 7 : Nat))) (2 ^ 32)
      else
        let moved := p.srcVel * ((r - p.anchor : Nat) : Int) / (10 ^ 9 * unitNs : Nat)
        p.O + truncDiv (s.spinScale n * (p.S + moved)) (2 ^ 32)

/-- Acceleration in su/s², units of 2⁻³² (R79, R80). -/
def State.spinAcc (s : State) (n : Fin 16) : Int :=
  if s.spinEn n && s.fget F.SP_CTRL_SRC n == 1 then 0 else s.sp[n].acc

/-- Wrap a position to 64 bits (R75). -/
def wrap64 (x : Int) : Int := toS 64 (ofS 64 x)

/-- Keep the position in range; passing ±2³¹ su sets WRAP (R75). -/
def State.spinNorm (s : State) (n : Fin 16) : State :=
  let x := s.spinPos n s.run
  let w := wrap64 x
  if w = x then s
  else (s.modSp n (fun p => { p with O := p.O + (w - x), held := wrap64 p.held,
                                     frozen := p.frozen.map wrap64 })).raise F.SP_STATUS_WRAP n

/-- Make the position, interpolated part included, exactly `x` now (R72, R73, R74, R78). -/
def State.spinSet (s : State) (n : Fin 16) (x : Int) : State :=
  if !s.spinEn n then s.modSp n (fun p => { p with held := wrap64 x })
  else s.modSp n (fun p => { p with S := 0, O := wrap64 x, anchor := s.run,
                                    frozen := p.frozen.map (fun _ => wrap64 x) })

/-- A write to LOAD_HI (R74): a jump of position. -/
def State.spinLoad (s : State) (n : Fin 16) (x : Int) : State :=
  let d := x - s.spinPos n s.run
  (s.spinSet n x).modSp n (fun p => { p with jumps := p.jumps + d })

/-- A time spindle moves with its SCALE from its enable and from each rescale on (R80, R113). -/
def State.spinTimeDir (s : State) (n : Fin 16) : State :=
  if s.spinEn n && s.fget F.SP_CTRL_SRC n == 1 && s.spinScale n != 0 then
    s.setFlag F.SP_STATUS_DIRN (decide (s.spinScale n < 0)) n else s

/-- EN from 0 to 1 (R72). The stored EN is already 1. -/
def State.spinEnable (s : State) (n : Fin 16) (srcPos : Int) (bad : Bool) : State :=
  let s1 := s.modSp n (fun p => { p with
      S := 0, O := 0, count := 0, changes := [], anchor := s.run,
      heldVel := 0, acc := 0, prevVel := none, frozen := if bad then some 0 else none,
      srcPos := srcPos, srcVel := 0, jumps := p.jumps - p.held })
  let time : Bool := s.fget F.SP_CTRL_SRC n == 1
  ((s1.setFlag F.SP_STATUS_STILL (!time) n).setFlag F.SP_STATUS_SRCBAD bad n).spinTimeDir n

/-- EN from 1 to 0: position, velocity and acceleration hold (R72). `s` still has EN = 1. -/
def State.spinHold (s : State) (n : Fin 16) : State :=
  let x := s.spinPos n s.run
  let v := s.spinVel n s.run
  let a := s.spinAcc n
  s.modSp n (fun p => { p with held := x, heldVel := v, acc := a })

/-- A count change of `d` source units stamped at `stamp` (R71, R76, R78). -/
def State.spinCount (s : State) (n : Fin 16) (d : Int) (stamp : Nat) : State :=
  if d = 0 ∨ !s.spinEn n then s else
  let keep := fun (c : Nat × Int) => decide (stamp ≤ c.1 + 255000 * unitNs)
  let s1 := s.modSp n (fun p =>
    let c := p.count + d
    let old := p.changes
    { p with S := p.S + d * 2 ^ 32, count := c, anchor := stamp,
             changes := (stamp, c) :: (old.take 1 ++ (old.drop 1).filter keep) })
  let s2 := s1.setFlag F.SP_STATUS_STILL (s1.spinCountVel n stamp).isNone n
  let s3 := s2.setFlag F.SP_STATUS_DIRN (decide (d * s.spinScale n < 0)) n
  s3.spinNorm n

/-- A change of the source that is no count change: the position jumps (R76, R81, R119). -/
def State.spinJump (s : State) (n : Fin 16) (d : Int) : State :=
  if d = 0 ∨ !s.spinEn n then s else
  let x := s.spinPos n s.run
  let s0 := s.modSp n (fun p => { p with S := p.S + d * 2 ^ 32 })
  let s1 := s0.modSp n (fun p => { p with jumps := p.jumps + (s0.spinPos n s.run - x) })
  (s1.setFlag F.SP_STATUS_DIRN (decide (d * s.spinScale n < 0)) n).spinNorm n

/-- Spindles of source kind `src` and instance `sel`. -/
def State.spinFollows (s : State) (n : Fin 16) (src sel : Nat) : Bool :=
  s.spinEn n && s.fget F.SP_CTRL_SRC n == src && s.fget F.SP_CTRL_SEL n == sel

/-- A counted change of a source reaches every spindle that follows it (R71). -/
def State.spinSource (s : State) (src sel : Nat) (d : Int) (stamp : Nat) : State :=
  forFin 16 (fun n t => if t.spinFollows n src sel then t.spinCount n d stamp else t) s

/-- An axis source has a new position and velocity (R71, R80), in axis units of 2⁻³². -/
def State.spinAxis (s : State) (src sel : Nat) (pos vel acc : Int) : State :=
  forFin 16 (fun n t => if t.spinFollows n src sel then
      let t1 := t.modSp n (fun p => { p with
          S := p.S + (pos - p.srcPos), srcPos := pos, srcVel := vel,
          anchor := t.run, acc := if src = 2 then quo (t.spinScale n * acc) (2 ^ 32) else p.acc })
      let t2 := if vel = 0 then t1 else t1.setFlag F.SP_STATUS_DIRN (decide (vel * t.spinScale n < 0)) n
      (t2.setFlag F.SP_STATUS_STILL (decide (vel = 0)) n).spinNorm n
    else t) s

/-- The spindle's source is the Chuck channel `ch`, whether or not it is enabled. -/
def State.spinOnChuck (s : State) (n : Fin 16) (ch : Nat) : Bool :=
  s.fget F.SP_CTRL_SRC n == 0 && s.fget F.SP_CTRL_SEL n == ch

/-- A Chuck channel reports or ends a feedback fault (R81): its spindles freeze, or follow again. -/
def State.spinFault (s : State) (ch : Nat) (bad : Bool) : State :=
  forFin 16 (fun n t0 => if !t0.spinOnChuck n ch then t0 else
    let t := t0.setFlag F.SP_STATUS_SRCBAD bad n
    if !t.spinEn n then t
    else
      let x := t.spinPos n t.run
      if bad then
        (t.modSp n (fun p => { p with frozen := some (p.frozen.getD x), acc := 0 })).raise F.SP_STATUS_SRCERR n
      else
        let t1 := t.modSp n (fun p => { p with frozen := none })
        (t1.modSp n (fun p => { p with jumps := p.jumps + (t1.spinPos n t.run - x) })).spinNorm n) s

/-- Standstill (R77): no count change for STILLT µs. -/
def State.spinStandstill (s : State) (n : Fin 16) : State :=
  let due := match s.sp[n].changes with
    | c :: _ => decide (s.fget F.SP_EST_STILLT n * 1000 * unitNs ≤ s.run - c.1)
    | [] => true
  if s.spinEn n && countingSrc (s.fget F.SP_CTRL_SRC n) && due then s.setFlag F.SP_STATUS_STILL true n else s

/-- A write commits SCALE (R73): the position does not jump. `old` is the state before the write. -/
def State.spinRescale (s old : State) (n : Fin 16) : State :=
  if s.spinEn n then (s.spinSet n (old.spinPos n old.run)).spinTimeDir n else s

/-- The acceleration update of an F_P tick (R79), with the tick's velocity and 1/T_P. `tp` in ns. -/
def State.spinAccTick (s : State) (n : Fin 16) (tp : Nat) : State :=
  if !s.spinEn n || s.fget F.SP_CTRL_SRC n == 1 || s.fget F.SP_CTRL_SRC n == 2 then s else
  let v := s.spinVel n s.run
  let v0 := s.sp[n].prevVel.getD v
  let c := s.fget F.SP_EST_ACCTC n
  let a := s.sp[n].acc
  let a' := match s.sp[n].prevVel with
    | none => a
    | some _ => a + quo ((v - v0) * 10 ^ 9 - a * tp) (tp * 2 ^ c)
  s.modSp n (fun p => { p with acc := if p.frozen.isSome then 0 else a', prevVel := some v })

/-- What the snapshot latches of a spindle (R35). -/
def State.spinSnap (s : State) (n : Fin 16) : SpinSnap :=
  { pos := s.spinPos n s.run, vel := s.spinVel n s.run, acc := s.spinAcc n }

/-- An LCLK step of `d` ns as time spindles see it (R82): S does not change. -/
def State.spinStep (s : State) (d : Int) : State :=
  forFin 16 (fun n t => if t.spinEn n && t.fget F.SP_CTRL_SRC n == 1 then
      (t.wsetS F.SP_STEPADJ (t.spinScale n * d) n).raise F.SP_STATUS_STEP n
    else t) s

end Sys2Proof.Machine
end

