-- ==== Sys2Proof/Machine/Headstock.lean ====
section
/-! DEFINITION. Headstock (R183 to R219): trapezoidal profiles, jogging, external set-points, gearing, cams,
phase shift and interpolation groups. -/
namespace Sys2Proof.Machine

/-- Limits of a trapezoidal move, read afresh at each tick (R188). -/
structure Limits where
  vmax : Rat
  acc : Rat
  dec : Rat
  decMax : Rat
  deriving DecidableEq, Repr

/-- step_brake of R192. -/
def Traj.brake (x : Traj) (d T : Rat) : Traj :=
  let vn0 := x.v - signR x.v * d * T
  let vn := if x.v ≠ 0 ∧ signR vn0 ≠ signR x.v then 0 else vn0
  { p := x.p + (x.v + vn) / 2 * T, v := vn, a := (vn - x.v) / T, d := d }

/-- move_tick of R192; the Bool is DONE. -/
def Traj.move (x : Traj) (target : Rat) (l : Limits) (T : Rat) : Traj × Bool :=
  let e := target - x.p
  if e = 0 ∧ x.v = 0 then ({ x with a := 0, d := 0 }, true)
  else
    let sg := if x.v ≠ 0 then signR x.v else signR e
    let cap := maxR l.dec l.decMax
    if sg * e < 0 then (x.brake (maxR l.dec x.d) T, false)
    else
      let vc := if l.vmax < absR x.v then sg * maxR (absR x.v - l.dec * T) l.vmax
        else sg * minR (absR x.v + l.acc * T) l.vmax
      let ec := absR e - (absR x.v + absR vc) / 2 * T
      if 0 < ec ∧ vc * vc / (2 * ec) ≤ l.dec then
        ({ p := x.p + (x.v + vc) / 2 * T, v := vc, a := (vc - x.v) / T, d := 0 }, false)
      else
        let d := if e = 0 then cap else minR (x.v * x.v / (2 * absR e)) cap
        if 0 < d ∧ absR x.v ≤ d * T then ({ p := target, v := 0, a := 0, d := 0 }, true)
        else (x.brake d T, false)

/-- limit_velocity of R196. -/
def limitVelocity (v vd : Rat) (l : Limits) (T : Rat) : Rat :=
  let vd := clampR (-l.vmax) l.vmax vd
  let lim := if v = 0 ∨ (signR vd = signR v ∧ absR v ≤ absR vd) then l.acc else l.dec
  let vn := v + clampR (-(lim * T)) (lim * T) (vd - v)
  if v ≠ 0 ∧ signR vn = -signR v then 0 else vn

/-! ### Axis registers -/

def State.axQ (s : State) (w : Wide) (n : Nat) : Rat := ofQ (s.wgetS w n)

/-- An unsigned Q32.32 register. -/
def State.axU (s : State) (w : Wide) (n : Nat) : Rat := ofQ (s.wget w n)

def State.axLimits (s : State) (n : Nat) : Limits :=
  { vmax := s.axU F.AX_VMAX n, acc := s.axU F.AX_ACC n, dec := s.axU F.AX_DEC n, decMax := s.axU F.AX_DEC_MAX n }

def State.axState (s : State) (n : Nat) : Nat := s.fget F.AX_STATUS_STATE n

def State.setAxState (s : State) (n : Nat) (c : Nat) : State := s.fset F.AX_STATUS_STATE c n

def State.axKind (s : State) (n : Nat) : Nat := s.fget F.AX_CFG_KIND n

/-- Show p, v and a in SP_POS, SP_VEL and SP_ACC (R186). A virtual axis's actual values are its set-point's; that its
measured velocity is, too, is DEDUCED. -/
def State.axPublish (s : State) (n : Fin 64) : State :=
  let t := s.ax[n].t
  let s1 := ((s.wsetS F.AX_SP_POS (ratQ t.p) n).wsetS F.AX_SP_VEL (ratQ t.v) n).wsetS F.AX_SP_ACC (ratQ t.a) n
  if s.axKind n = 0 then (s1.wsetS F.AX_ACT_POS (ratQ t.p) n).wsetS F.AX_VACT (ratQ t.v) n else s1

/-- Leaving GEAR or CAM abandons the shift; the part done stays in p (R214). -/
def State.shiftDrop (s : State) (n : Fin 64) : State :=
  let s1 := s.modAx n (fun x => { x with shift := {}, shiftGoal := 0, gearWait := none, release := false })
  let s2 := (s1.wsetS F.AX_SHIFTREM 0 n).setFlag F.AX_STATUS_SHIFTING false n
  (s2.setFlag F.AX_STATUS_RAMPING false n).setFlag F.AX_STATUS_CAMEND false n

/-- SYNC (R190): p takes the actual position, v = a = 0, state HOLD. -/
def State.axSync (s : State) (n : Fin 64) : State :=
  ((s.shiftDrop n).modAx n (fun x => { x with
    t := { p := s.axQ F.AX_ACT_POS n }, joining := false, hardBrake := false })).setAxState n 0

/-! ### The master coordinate (R199) -/

def State.axMaster (s : State) (n : Nat) (spin : Fin 16) : Rat :=
  let b := s.snap.spin[spin]
  let L : Rat := (s.fgetS F.AX_GEAR_LEAD n : Rat) / (10 ^ 9 : Int)
  ofQ b.pos + ofQ b.vel * L + ofQ b.acc * L * L / 2

/-- A signed 64-bit difference in units of su (R199). -/
def wrapQ (x : Rat) : Rat :=
  let k := ((x + (2 ^ 31 : Int)) / (2 ^ 32 : Int)).floor
  x - (k : Rat) * (2 ^ 32 : Int)

/-- The previous tick's master coordinate: what the axis kept, or the new spindle's at the previous tick. -/
def State.axMasterPrev (s : State) (n : Fin 64) (spin : Fin 16) (kept : Bool) : Rat :=
  if kept && s.ax[n].masterSpin == spin.val then s.ax[n].master
  else
    let b := s.prevTick[spin]
    let L : Rat := (s.fgetS F.AX_GEAR_LEAD n : Rat) / (10 ^ 9 : Int)
    ofQ b.pos + ofQ b.vel * L + ofQ b.acc * L * L / 2

/-- Δm without the spindle's jumps (R199). -/
def State.axDelta (s : State) (n : Fin 64) (spin : Fin 16) (from' : Rat) (kept : Bool) : Rat :=
  let j : Int := if kept && s.ax[n].masterSpin == spin.val then s.sp[spin].jumps - s.ax[n].masterJumps
    else s.sp[spin].jumps - s.prevJumps[spin]
  wrapQ (s.axMaster n spin - from' - ofQ j)

def State.axKeepMaster (s : State) (n : Fin 64) (spin : Fin 16) : State :=
  let m := s.axMaster n spin
  s.modAx n (fun x => { x with master := m, masterSpin := spin, masterJumps := s.sp[spin].jumps })

/-- The spindle that GEAR.CTRL selects. -/
def State.gearSpin (s : State) (n : Nat) : Fin 16 := Fin.ofNat 16 (s.fget F.AX_GEAR_CTRL_SPIN n)

/-- The spindle of a geared or cammed axis has failed (R200). -/
def State.masterBad (s : State) (spin : Fin 16) : Bool :=
  s.flag F.SP_STATUS_SRCBAD spin || !s.spinEn spin

/-- From ENGPOS to the present m, where m has passed it since the previous tick, in either direction (R201). -/
def State.gearPasses (s : State) (n : Fin 64) : Option Rat :=
  let spin := s.gearSpin n
  let m0 := s.axMasterPrev n spin true
  let before := wrapQ (s.axQ F.AX_GEAR_ENGPOS n - m0)
  let moved := s.axDelta n spin m0 true
  let passed := (decide (0 < before) && decide (before ≤ moved)) || (decide (before < 0) && decide (moved ≤ before)) ||
    (decide (before = 0) && decide (moved ≠ 0))
  if passed then some (wrapQ (moved - before)) else none

/-! ### Groups (R215 to R219) -/

/-- The members of the group a leader leads, in ascending order (R215). -/
def State.grpMembers (s : State) (leader : Nat) : List (Fin 64) :=
  (List.finRange 64).filter (fun m => s.flag F.AX_CFG_GRPEN m && s.fget F.AX_CFG_GROUP m == leader)

def State.isLeader (s : State) (n : Nat) : Bool :=
  s.flag F.AX_CFG_GRPEN n && s.fget F.AX_CFG_GROUP n == n

/-- An abort (R219): the path brakes at its DEC, the queue is flushed, ABORT is set. -/
def State.grpAbort (s : State) (leader : Fin 64) : State :=
  let s1 := s.modAx leader (fun x => { x with
    queue := [], seg := x.seg.map (fun g => { g with braking := true }) })
  (s1.raise F.AX_GRP_STATUS_ABORT leader).fset F.AX_GRP_STATUS_LEVEL 0 leader

/-- The axis is no longer moved by the path of its group. -/
def State.grpOff (s : State) (n : Fin 64) : State :=
  if s.flag F.AX_CFG_GRPEN n then
    s.modAx (Fin.ofNat 64 (s.fget F.AX_CFG_GROUP n)) (fun x => { x with
      seg := x.seg.map (fun g => { g with left := n.val :: g.left.filter (fun m => m != n.val) }) })
  else s

/-- The group of a member aborts, and the member leaves its path (R219). -/
def State.grpLeave (s : State) (n : Fin 64) : State :=
  if s.flag F.AX_CFG_GRPEN n then (s.grpAbort (Fin.ofNat 64 (s.fget F.AX_CFG_GROUP n))).grpOff n else s

/-- A write to GRP.PUSH (R216). -/
def State.grpPush (s : State) (leader : Fin 64) : State :=
  if !s.isLeader leader then s
  else if 16 ≤ s.ax[leader].queue.length then s.raise F.AX_GRP_STATUS_REJ leader
  else
    let k := (s.grpMembers leader).length
    let seg := (List.range k).map (fun j => s.wgetS F.AX_GRP_SEGj leader j)
    let s1 := s.modAx leader (fun x => { x with queue := x.queue ++ [seg] })
    s1.fset F.AX_GRP_STATUS_LEVEL s1.ax[leader].queue.length leader

/-- Path limits: minima over the members with Δ ≠ 0 (R217). -/
def State.grpLimits (s : State) (leader : Nat) (g : Segment) : Limits :=
  g.members.foldl (fun l m =>
    if m.2.2 = 0 then l else
    let f := g.length / absR m.2.2
    { vmax := minR l.vmax (s.axU F.AX_VMAX m.1 * f), acc := minR l.acc (s.axU F.AX_ACC m.1 * f)
      dec := minR l.dec (s.axU F.AX_DEC m.1 * f), decMax := minR l.decMax (s.axU F.AX_DEC m.1 * f) })
    { vmax := s.axU F.AX_GRP_FEED leader, acc := s.axU F.AX_GRP_ACC leader
      dec := s.axU F.AX_GRP_DEC leader, decMax := s.axU F.AX_GRP_DEC leader }

/-- Λ = √(ΣΔ²) to Q32.32. -/
def pathLength (ds : List Rat) : Rat :=
  let q := ds.foldl (fun a d => a + d * d) 0
  let scaled : Int := (q.num * 2 ^ 64) / (q.den : Int)
  let r := isqrt scaled.toNat
  let exact := decide (((r * r : Nat) : Rat) = q * (2 ^ 64 : Int))
  ofQ (if exact then r else if Config.roundUp q.den q.num then r + 1 else r)

/-- An axis follows the law of GROUP: in that state, or waiting for its gear from there (R201). -/
def State.inGroup (s : State) (n : Fin 64) : Bool :=
  s.axState n == 6 || (s.axState n == 4 && s.ax[n].gearWait == some 6 &&
    !s.masterBad (s.gearSpin n) && (s.gearPasses n).isNone)

/-- Place the members of a segment on the path (R218); at the last tick each takes its target exactly. -/
def State.grpPlace (s : State) (g : Segment) (last : Bool) : State :=
  forList g.members (fun m t =>
    let n : Fin 64 := Fin.ofNat 64 m.1
    if !t.inGroup n || g.left.contains m.1 then t else
    let f := if g.length = 0 then 0 else m.2.2 / g.length
    t.modAx n (fun x => { x with
      t := if last then { p := m.2.1 + m.2.2 }
        else { p := m.2.1 + f * g.path.p, v := f * g.path.v, a := f * g.path.a } })) s

/-- A group at an F_P tick (R217 to R219). -/
def State.grpTick (s : State) (leader : Fin 64) (T : Rat) : State :=
  if !s.isLeader leader then s else
  let mem := s.grpMembers leader
  let ready := mem.all (fun m => s.axState m == 6 && decide (s.ax[m].t.v = 0))
  let s0 := match s.ax[leader].seg, s.ax[leader].queue with
    | none, q :: qs =>
      if ready then
        let ms := (mem.zip q).map (fun (x : Fin 64 × Int) => (x.1.val, s.ax[x.1].t.p, ofQ x.2 - s.ax[x.1].t.p))
        let g : Segment := { length := pathLength (ms.map (fun (m : Nat × Rat × Rat) => m.2.2)), members := ms }
        s.modAx leader (fun x => { x with queue := qs, seg := some g })
      else s
    | _, _ => s
  let away := fun (n : Fin 64) => match s0.ax[leader].seg with
    | none => true
    | some g => g.left.contains n.val || !g.members.any (fun m => m.1 == n.val)
  let s0 := forList (mem.filter (fun n => s0.inGroup n && away n)) (fun n t =>
    t.modAx n (fun x => { x with t := { p := x.t.p } })) s0
  let s1 := match s0.ax[leader].seg with
    | none => s0
    | some g =>
      let l := s0.grpLimits leader g
      if g.braking then
        let pth := g.path.brake l.dec T
        let g' := { g with path := pth }
        let s2 := s0.grpPlace g' false
        s2.modAx leader (fun x => { x with seg := if pth.v = 0 then none else some g' })
      else if g.length = 0 then
        (s0.grpPlace g true).modAx leader (fun x => { x with seg := none })
      else
        let r := g.path.move g.length l T
        let g' := { g with path := r.1 }
        (s0.grpPlace g' r.2).modAx leader (fun x => { x with seg := if r.2 then none else some g' })
  let shown := match s0.ax[leader].seg with
    | some g => (match s1.ax[leader].seg with
        | some g' => (g'.path.p, g'.length)
        | none => (g.length, g.length))
    | none => (ofQ (s.wgetS F.AX_GRP_SIGMA leader), ofQ (s.wgetS F.AX_GRP_LAMBDA leader))
  (s1.wsetS F.AX_GRP_SIGMA (ratQ shown.1) leader).wsetS F.AX_GRP_LAMBDA (ratQ shown.2) leader

/-- What the STATUS of a group shows after the tick; HELD while members are missing (R217). -/
def State.grpShow (s : State) (leader : Fin 64) : State :=
  if !s.isLeader leader then s else
  let s1 := s.setFlag F.AX_GRP_STATUS_BUSY s.ax[leader].seg.isSome leader
  let s2 := s1.fset F.AX_GRP_STATUS_LEVEL s.ax[leader].queue.length leader
  s2.setFlag F.AX_GRP_STATUS_HELD ((s.grpMembers leader).any (fun m => s.axState m != 6)) leader

/-! ### Cams (R206 to R213) -/

structure CamTable where
  n : Nat
  cyclic : Bool
  auto : Bool
  len : Rat
  base : Nat
  deriving DecidableEq, Repr

def State.camTable (s : State) (base : Nat) : CamTable :=
  { n := s.readN base 2, cyclic := bit (s.readN (base + 2) 1) 0, auto := bit (s.readN (base + 2) 1) 1
    len := ofQ (s.readN (base + 8) 8), base := base }

def State.camY (s : State) (c : CamTable) (i : Nat) : Rat :=
  ofQ (toS 64 (s.readN (c.base + 32 + 16 * i) 8))

def State.camLift (s : State) (c : CamTable) : Rat := s.camY c c.n - s.camY c 0

/-- The slope at point i (R206, R207). -/
def State.camSlope (s : State) (c : CamTable) (i : Nat) : Rat :=
  if !c.auto then ofQ (toS 64 (s.readN (c.base + 40 + 16 * i) 8))
  else
    let h := c.len / (c.n : Int)
    let y := s.camY c
    if c.cyclic then
      let prev := if i = 0 then y (c.n - 1) - s.camLift c else y (i - 1)
      let next := if i = c.n then y 1 + s.camLift c else y (i + 1)
      (next - prev) / (2 * h)
    else if i = 0 then (y 1 - y 0) / h
    else if i = c.n then (y c.n - y (c.n - 1)) / h
    else (y (i + 1) - y (i - 1)) / (2 * h)

/-- y, y′ and y″ at x (R208, R210). -/
def State.camEval (s : State) (c : CamTable) (x : Rat) : Rat × Rat × Rat :=
  if !c.cyclic ∧ x < 0 then (s.camY c 0, 0, 0)
  else if !c.cyclic ∧ c.len < x then (s.camY c c.n, 0, 0)
  else
    let h := c.len / (c.n : Int)
    let i := min (x / h).floor.toNat (c.n - 1)
    let t := ofQ (ratQ ((x - (i : Int) * h) / h))
    let y0 := s.camY c i
    let y1 := s.camY c (i + 1)
    let m0 := s.camSlope c i
    let m1 := s.camSlope c (i + 1)
    let t2 := t * t
    let t3 := t2 * t
    let y := (2 * t3 - 3 * t2 + 1) * y0 + (t3 - 2 * t2 + t) * h * m0 + (3 * t2 - 2 * t3) * y1 + (t3 - t2) * h * m1
    let d1 := ((6 * t2 - 6 * t) * y0 + (3 * t2 - 4 * t + 1) * h * m0 + (6 * t - 6 * t2) * y1
      + (3 * t2 - 2 * t) * h * m1) / h
    let d2 := ((12 * t - 6) * y0 + (6 * t - 4) * h * m0 + (6 - 12 * t) * y1 + (6 * t - 2) * h * m1) / (h * h)
    (y, d1, d2)

/-- `k` wraps of a cyclic table: CAMOFS and CYCLES follow (R209). -/
def State.camTurn (s : State) (n : Nat) (c : CamTable) (k : Int) : State :=
  (s.wsetS F.AX_CAM_CAMOFS (s.wgetS F.AX_CAM_CAMOFS n + k * ratQ (s.camLift c)) n).fsetS F.AX_CAM_CYCLES
    (s.fgetS F.AX_CAM_CYCLES n + k) n

/-- x brought into [0, L) of the table in use, if that is cyclic (R209). -/
def State.camRound (s : State) (n : Nat) (x : Rat) : Rat × State :=
  let c := s.camTable (s.fget F.AX_CAM_BASE n)
  if !c.cyclic ∨ c.n = 0 ∨ c.len = 0 then (x, s)
  else
    let k := (x / c.len).floor
    (x - (k : Rat) * c.len, if k = 0 then s else s.camTurn n c k)

/-- Wrap x, switching to NEXT at the first forward wrap (R209, R212). -/
def State.camWrap (s : State) (n : Nat) (x : Rat) : Rat × State :=
  let c := s.camTable (s.fget F.AX_CAM_BASE n)
  let nxt := s.fget F.AX_CAM_NEXT n
  if c.cyclic ∧ c.n ≠ 0 ∧ c.len ≠ 0 ∧ c.len ≤ x ∧ nxt ≠ 0 then
    (((s.camTurn n c 1).fset F.AX_CAM_BASE nxt n).fset F.AX_CAM_NEXT 0 n).camRound n (x - c.len)
  else s.camRound n x

/-- Round to Q32.32, to nearest (R208). -/
def roundQ (x : Rat) : Rat := ofQ (nearest (x * (2 ^ 32 : Int)))

/-! ### One axis at a tick -/

/-- The superimposed shift's next step; its displacement this tick (R214). -/
def State.shiftTick (s : State) (n : Fin 64) (T : Rat) : State × Rat :=
  let x := s.ax[n]
  let a := s.axU F.AX_SHIFTA n
  let r := x.shift.move x.shiftGoal { vmax := s.axU F.AX_SHIFTV n, acc := a, dec := a, decMax := a } T
  let s1 := s.modAx n (fun x => { x with shift := r.1 })
  let rem := x.shiftGoal - r.1.p
  ((s1.wsetS F.AX_SHIFTREM (ratQ rem) n).setFlag F.AX_STATUS_SHIFTING (decide (rem ≠ 0)) n, r.1.p - x.shift.p)

/-- The shift rests until engagement (R214). -/
def State.shiftPause (s : State) (n : Fin 64) : State := s.modAx n (fun x => { x with shift := { p := x.shift.p } })

/-- An axis that engages again keeps the shift that remains; the part done is in p (R214). -/
def State.shiftKeep (s : State) (n : Fin 64) : State :=
  s.modAx n (fun x => { x with
    shift := { x.shift with p := 0 }, shiftGoal := x.shiftGoal - x.shift.p, gearWait := none, release := false })

/-- Begin to brake (R191): `hard` for QSTOP. -/
def State.axBrake (s : State) (n : Fin 64) (hard : Bool) : State :=
  ((s.shiftDrop n).modAx n (fun x => { x with hardBrake := hard, joining := false })).setAxState n 7

/-- VLIM of gear and cam output (R205). -/
def State.axVlim (s : State) (n : Fin 64) : State :=
  let l := s.axLimits n
  let t := s.ax[n].t
  if l.vmax < absR t.v ∨ maxR l.acc l.decMax < absR t.a then s.raise F.AX_STATUS_VLIM n else s

/-- Engage or follow the gear with increment Δm (R202 to R204). An axis that waits for its engagement and follows this law has
its shift `paused`. -/
def State.gearStep (s : State) (n : Fin 64) (spin : Fin 16) (dm : Rat) (first paused : Bool) (T : Rat) : State :=
  let b := s.snap.spin[spin]
  let vs := ofQ b.vel
  let ratio := if s.ax[n].release then 0 else s.axQ F.AX_GEAR_RATIO n
  let vmin : Int := (s.fget F.SP_VMIN spin : Int) * 2 ^ 16
  let s0 := if first then
      let r0 := if vmin ≤ absI b.vel ∧ vs ≠ 0 then s.ax[n].t.v / vs else 0
      s.modAx n (fun x => { x with ratio := r0, ratio0 := r0, newRamp := false })
    else if s.ax[n].newRamp then s.modAx n (fun x => { x with ratio0 := x.ratio, newRamp := false })
    else s
  let x := s0.ax[n]
  let ramp := s.axU F.AX_GEAR_RAMP n
  let r := if ramp = 0 then ratio
    else
      let lim := absR (ratio - x.ratio0) * absR dm / ramp
      x.ratio + clampR (-lim) lim (ratio - x.ratio)
  let sh := if paused then (s0.shiftPause n, 0) else s0.shiftTick n T
  let s1 := sh.1.modAx n (fun x => { x with
    t := { p := x.t.p + (x.ratio + r) * dm / 2 + sh.2, v := r * vs + x.shift.v
           a := r * ofQ b.acc + x.shift.a }
    ratio := r })
  let s2 := (s1.setFlag F.AX_STATUS_RAMPING (decide (r ≠ ratio)) n).wsetS F.AX_GEAR_REFF (ratQ r) n
  if s.ax[n].release ∧ r = 0 then
    let s3 := ((s2.shiftDrop n).setAxState n 0).setFlag F.AX_STATUS_DONE true n
    s3.modAx n (fun x => { x with t := { p := x.t.p } })
  else s2.axVlim n

/-- Follow the cam with increment Δm (R208 to R213). -/
def State.camStep (s : State) (n : Fin 64) (spin : Fin 16) (dm : Rat) (first paused : Bool) (T : Rat) : State :=
  let x0 := if first then s.axQ F.AX_CAM_PHASE n else s.axQ F.AX_CAM_X n + ofQ (ratQ dm)
  let w := s.camWrap n x0
  let c := w.2.camTable (w.2.fget F.AX_CAM_BASE n)
  let s1 := w.2.wsetS F.AX_CAM_X (ratQ w.1) n
  let sh := if paused then (s1.shiftPause n, 0) else s1.shiftTick n T
  if c.n = 0 ∨ c.len = 0 then
    (sh.1.modAx n (fun x => { x with t := { p := x.t.p } })).setFlag F.AX_STATUS_CAMEND true n
  else
    let b := s.snap.spin[spin]
    let y := sh.1.camEval c w.1
    let s2 := if first ∧ s.flag F.AX_CAM_CTRL_REL n then
        sh.1.wsetS F.AX_CAM_CAMOFS (ratQ (s.ax[n].t.p - y.1)) n else sh.1
    let vs := ofQ b.vel
    let s3 := s2.modAx n (fun x => { x with
      t := { p := roundQ (s2.axQ F.AX_CAM_CAMOFS n + y.1) + x.shift.p, v := y.2.1 * vs + x.shift.v
             a := y.2.2 * vs * vs + y.2.1 * ofQ b.acc + x.shift.a } })
    (s3.setFlag F.AX_STATUS_CAMEND (!c.cyclic && (decide (w.1 < 0) || decide (c.len < w.1))) n).axVlim n

/-- The law of a state that needs no master: HOLD, MOVE, JOG, EXT, STOPPING (R191 to R198). The Bool says that
the state's law is finished. -/
def State.plainLaw (s : State) (n : Fin 64) (law : Nat) (T : Rat) : State × Bool :=
  let x := s.ax[n].t
  let l := s.axLimits n
  match law with
  | 1 =>
    let r := x.move (s.axQ F.AX_TARGET n) l T
    ((s.modAx n (fun y => { y with t := r.1 })).setFlag F.AX_STATUS_DONE r.2 n, r.2)
  | 2 =>
    let vn := limitVelocity x.v (s.axQ F.AX_VTGT n) l T
    (s.modAx n (fun y => { y with
      t := { p := x.p + (x.v + vn) / 2 * T, v := vn, a := (vn - x.v) / T, d := x.d } }), false)
  | 3 =>
    let vd := (s.axQ F.AX_EXTPOS n - x.p) / T
    let vn := limitVelocity x.v vd l T
    ((s.modAx n (fun y => { y with
      t := { p := x.p + vn * T, v := vn, a := (vn - x.v) / T, d := x.d } })).setFlag
        F.AX_STATUS_LIMITED (decide (vn ≠ vd)) n, false)
  | 7 =>
    let d := if s.ax[n].hardBrake then maxR l.dec l.decMax else l.dec
    let r := x.brake d T
    (s.modAx n (fun y => { y with t := r }), decide (r.v = 0))
  | _ => (s.modAx n (fun y => { y with t := { p := x.p } }), false)

/-- Take the command of the period (R187, R191). `op` is the command that governs. -/
def State.axCommand (s : State) (n : Fin 64) (op : Nat) : State :=
  let waits := decide (op = 5) && s.flag F.AX_GEAR_CTRL_ENGAT n
  let s0 := if op = 0 then s
    else if op = 7 then (if s.axState n = 6 then s else s.grpOff n)
    else if waits && s.inGroup n && s.flag F.AX_CFG_GRPEN n then s.grpAbort (Fin.ofNat 64 (s.fget F.AX_CFG_GROUP n))
    else s.grpLeave n
  let was := s.axState n
  let again (st : Nat) : Bool := was == st && (st == 4 || st == 5)
  let enter (st : Nat) : State := (if again st then s0.shiftKeep n else s0.shiftDrop n).setAxState n st
  match op with
  | 1 => s0.axSync n
  | 2 => enter 1
  | 3 => enter 2
  | 4 => enter 3
  | 5 =>
    let spin := s.gearSpin n
    let law := match was, s.ax[n].gearWait with
      | 4, some w => if w = 8 then 0 else w
      | w, _ => w
    let s1 := enter 4
    if waits then
      let prev := s1.axMasterPrev n spin (was == 4)
      let jumps := if was == 4 && s.ax[n].masterSpin == spin.val then s.ax[n].masterJumps else s1.prevJumps[spin]
      s1.modAx n (fun x => { x with gearWait := some law, master := prev, masterSpin := spin, masterJumps := jumps })
    else s1.modAx n (fun x => { x with gearWait := some 8 })
  | 6 => (enter 5).modAx n (fun x => { x with gearWait := some 8 })
  | 7 => if s.axState n = 6 then s
    else if s.ax[n].t.v = 0 then enter 6
    else (s0.axBrake n false).modAx n (fun x => { x with joining := true })
  | 8 => s0.axBrake n false
  | 9 => s0.axBrake n true
  | 10 =>
    if s0.axState n = 4 ∧ s0.ax[n].gearWait = none then s0.modAx n (fun x => { x with release := true, newRamp := true })
    else s0.axBrake n false
  | _ => s0

/-- The spindle that CAM.CTRL selects. -/
def State.camSpin (s : State) (n : Nat) : Fin 16 := Fin.ofNat 16 (s.fget F.AX_CAM_CTRL_SPIN n)

/-- The master is lost: the axis brakes as for QSTOP, and its group aborts (R200, R219). -/
def State.masterLost (s : State) (n : Fin 64) (T : Rat) : State :=
  ((((s.grpLeave n).raise F.AX_STATUS_MSTRLOST n).axBrake n true).plainLaw n 7 T).1

/-- An axis waits for ENGPOS and follows the law in which the command found it (R201); the path of a group has moved it. -/
def State.gearWaits (s : State) (n : Fin 64) (law : Nat) (T : Rat) : State :=
  let spin := s.gearSpin n
  match law with
  | 4 => s.gearStep n spin (s.axDelta n spin (s.axMasterPrev n spin true) true) false true T
  | 5 =>
    let c := s.camSpin n
    if s.masterBad c then s.masterLost n T
    else s.camStep n c (s.axDelta n c (s.axMasterPrev n c false) false) false true T
  | 6 => s
  | _ =>
    let r := s.plainLaw n law T
    r.1.modAx n (fun x => { x with gearWait := some (if r.2 && (law == 1 || law == 7) then 0 else law) })

/-- One axis computes its set-point at an F_P tick (R186); a group has moved its members already. -/
def State.axLaw (s : State) (n : Fin 64) (T : Rat) : State :=
  match s.axState n with
  | 4 =>
    let spin := s.gearSpin n
    if s.masterBad spin then s.masterLost n T
    else match s.ax[n].gearWait with
      | some 8 =>
        let dm := s.axDelta n spin (s.axMasterPrev n spin false) false
        ((s.modAx n (fun x => { x with gearWait := none })).gearStep n spin dm true false T).axKeepMaster n spin
      | some law =>
        match s.gearPasses n with
        | some dm =>
          (((s.grpOff n).modAx n (fun x => { x with gearWait := none })).gearStep n spin dm true false T).axKeepMaster n spin
        | none => (s.gearWaits n law T).axKeepMaster n spin
      | none =>
        let dm := s.axDelta n spin (s.axMasterPrev n spin true) true
        (s.gearStep n spin dm false false T).axKeepMaster n spin
  | 5 =>
    let spin := s.camSpin n
    if s.masterBad spin then s.masterLost n T
    else match s.ax[n].gearWait with
      | some _ =>
        ((s.modAx n (fun x => { x with gearWait := none })).camStep n spin 0 true false T).axKeepMaster n spin
      | none =>
        let dm := s.axDelta n spin (s.axMasterPrev n spin true) true
        (s.camStep n spin dm false false T).axKeepMaster n spin
  | 6 => if s.flag F.AX_CFG_GRPEN n then s else (s.plainLaw n 0 T).1
  | 7 =>
    let r := s.plainLaw n 7 T
    if r.2 then
      let s1 := r.1.setAxState n (if s.ax[n].joining then 6 else 0)
      s1.modAx n (fun x => { x with joining := false })
    else r.1
  | law =>
    -- a MOVE that is finished keeps its state; the law goes on holding the target
    (s.plainLaw n law T).1

end Sys2Proof.Machine
end

