-- ==== Sys2Proof/Machine/Lodge.lean ====
section
/-! DEFINITION. The Floorplan (R41 to R47), worlds and the Lodge (R53 to R65). -/
namespace Sys2Proof.Machine

/-- A row of the C0 map (R47): first entry, TYPE, instances, base, stride, size, world after reset (0b01 secure,
0b10 shared), and whether the Lodge cannot change it. -/
structure FloorRow where
  entry : Nat
  type : Nat
  count : Nat
  base : Nat
  stride : Nat
  size : Nat
  shared : Bool
  fixed : Bool
  deriving DecidableEq, Repr

def floorplan : List FloorRow :=
  [⟨0, 0x0001, 1, 0x0, 0, 0x1000, true, true⟩, ⟨1, 0x0002, 1, 0x10000, 0, 0x1000, true, true⟩,
   ⟨2, 0x0003, 1, 0x20000, 0, 0x1000, false, true⟩, ⟨3, 0x0004, 1, 0x30000, 0, 0x1000, false, false⟩,
   ⟨4, 0x0010, 1, 0x100000, 0, 0x1000, false, false⟩, ⟨5, 0x0011, 1, 0x110000, 0, 0x1000, false, false⟩,
   ⟨6, 0x0020, 1, 0x200000, 0, 0x10000, false, false⟩, ⟨7, 0x0030, 32, 0x300000, 0x400, 0x400, false, false⟩,
   ⟨39, 0x0040, 16, 0x400000, 0x100, 0x100, false, false⟩, ⟨55, 0x0041, 1, 0x410000, 0, 0x1000, false, false⟩,
   ⟨56, 0x0050, 64, 0x500000, 0x1000, 0x1000, false, false⟩, ⟨120, 0x0060, 10, 0x600000, 0x1000, 0x1000, false, false⟩,
   ⟨130, 0x0070, 16, 0x700000, 0x200, 0x200, false, false⟩, ⟨146, 0x0071, 1, 0x710000, 0, 0x1000, false, false⟩,
   ⟨147, 0x0072, 1, 0x720000, 0, 0x1000, false, false⟩, ⟨148, 0x0073, 1, 0x730000, 0, 0x1000, false, false⟩,
   ⟨149, 0x0074, 1, 0x740000, 0, 0x1000, false, false⟩, ⟨150, 0x0080, 1, 0x800000, 0, 0x10000, false, false⟩,
   ⟨151, 0x0081, 1, 0x810000, 0, 0x1000, false, false⟩, ⟨152, 0x0090, 1, 0x900000, 0, 0x1000, false, false⟩,
   ⟨153, 0x00A0, 2, 0xA00000, 0x1000, 0x1000, false, false⟩, ⟨155, 0x00A1, 1, 0xA04000, 0, 0x4000, false, false⟩,
   ⟨156, 0x00B0, 1, 0xB00000, 0, 0x1000, false, false⟩, ⟨157, 0x00C0, 1, 0xC00000, 0, 0x40000, false, false⟩,
   ⟨158, 0x0400, 1, 0x4000000, 0, 0x80000, false, false⟩, ⟨159, 0x0500, 1, 0x5000000, 0, 0x100000, false, false⟩,
   ⟨160, 0x0600, 1, 0x6000000, 0, 0x400000, false, false⟩, ⟨161, 0x0800, 1, 0x8000000, 0, 0x200000, false, false⟩,
   ⟨162, 0x1000, 10, 0x10000000, 0x100000, 0x40000, false, false⟩]

/-- The instance of a row that an address falls in. -/
def FloorRow.inst (r : FloorRow) (a : Nat) : Option Nat :=
  if a < r.base then none else
  let i := if r.stride = 0 then 0 else (a - r.base) / r.stride
  if i < r.count ∧ a - r.base - i * r.stride < r.size then some i else none

/-- The Floorplan entry of an address. -/
def entryOf (a : Nat) : Option Nat := floorplan.findSome? (fun r => (r.inst a).map (fun i => r.entry + i))

/-- The world of an entry as the Lodge assigns it (R55): 0b00 non-secure, 0b01 secure, 0b10 shared. -/
def State.entryWorld (s : State) (e : Nat) : Nat :=
  if e < 2 then 2 else if e = 2 then 1 else b2n (bit (s.fget F.LODGE_BWORLD 0 (e / 32)) (e % 32))

/-- The configuration of worlds that checks an access: that of the start of its FCLK cycle (R57). -/
def State.asOfCycle (s : State) : State := { s with regs := s.cycleRegs }

/-- A word of the Floorplan table (R41 to R45). -/
def State.floorWord (s : State) (a : Nat) : Nat :=
  match a / 4 with
  | 0 => 0x524F_4C46
  | 1 => 16 * 2 ^ 16 + 1
  | 2 => 172
  | 3 => 0x4E54_6480
  | w =>
    let e := w / 4 - 1
    match floorplan.find? (fun r => decide (r.entry ≤ e) && decide (e < r.entry + r.count)) with
    | none => 0
    | some r =>
      let i := e - r.entry
      match w % 4 with
      | 0 => b2n r.fixed * 2 ^ 26 + s.entryWorld e * 2 ^ 24 + i * 2 ^ 16 + r.type
      | 1 => r.base + i * r.stride
      | 2 => r.size
      | _ => 2 ^ 16 + 0x0100

/-! ### Masters (R53) -/

def masterId : Master → Nat
  | .session _ => 0
  | .loader => 1
  | .mgmt => 2
  | .gouge n => 0x10 + n
  | .skew => 0x20
  | .cellar => 0x21
  | .ledger => 0x22

/-- The world of a master's accesses: true secure. -/
def State.masterSecure (s : State) : Master → Bool
  | .session b => b
  | .loader => true
  | .mgmt => true
  | .gouge n => s.asOfCycle.entryWorld (120 + n) == 1
  | .skew => s.asOfCycle.entryWorld 150 == 1
  | .cellar => s.asOfCycle.entryWorld 152 == 1
  | .ledger => s.asOfCycle.entryWorld 55 == 1

/-! ### Violations (R62 to R64) -/

inductive Viol
  | wread
  | wwrite
  | ro
  | size
  deriving DecidableEq, Repr

def Viol.num : Viol → Nat
  | .wread => 0
  | .wwrite => 1
  | .ro => 2
  | .size => 3

/-- The record of an access: master, kind, world, address and stamp, and VALID (R62). -/
def State.violCapture (s : State) (m : Master) (k : Viol) (a : Nat) : State :=
  let s2 := (s.fset F.LODGE_VIOL_STATUS_MASTER (masterId m)).fset F.LODGE_VIOL_STATUS_KIND k.num
  let s3 := (s2.setFlag F.LODGE_VIOL_STATUS_WORLD (s.masterSecure m)).raise F.LODGE_VIOL_STATUS_VALID
  (s3.fset F.LODGE_VIOL_ADDR a).fset F.LODGE_VIOL_STAMP s.stamp32

/-- What the Attic record of a violation holds. -/
def State.violData (s : State) (m : Master) (a : Nat) : List Nat := [a, s.stamp32, b2n (s.masterSecure m)]

/-- The Attic record still queued for the violation captured in this FCLK cycle becomes that of the lower master's
(R63, R64). -/
def State.violRequeue (s : State) (old : Nat) (m : Master) (k : Viol) (a : Nat) : State :=
  let r := s.atticRec 0 0x02 (masterId m) k.num (s.violData m a)
  let f := fun (x : AtticRec) => if x.src = 2 ∧ x.inst = old ∧ x.ns = s.nowNs then r else x
  let s1 := { s with attic := { s.attic with queue := s.attic.queue.map f } }
  if s.flag F.LODGE_CTRL_ATTIC then
    (s1.fset F.FLT_LASTFLT_INST (masterId m)).fset F.FLT_LASTFLT_DETAIL k.num else s1

/-- A violation (R62 to R64): the first one is recorded; of several in one FCLK cycle, the lowest master's. -/
def State.violate (s : State) (m : Master) (k : Viol) (a : Nat) : State :=
  let s1 := s.finc F.LODGE_VIOL_COUNT
  if s.flag F.LODGE_VIOL_STATUS_VALID then
    let s2 := s1.raise F.LODGE_VIOL_STATUS_OVF
    let old := s.fget F.LODGE_VIOL_STATUS_MASTER
    if s.violAt = some (s.phys / 2) ∧ masterId m < old then (s2.violCapture m k a).violRequeue old m k a else s2
  else
    let s2 := { s1.violCapture m k a with violAt := some (s.phys / 2) }
    if s.flag F.LODGE_CTRL_ATTIC then s2.raiseFault 0 0x02 (masterId m) k.num (s.violData m a) else s2

/-! ### Region descriptors (R58 to R61) -/

/-- The memories the descriptors refine. -/
def refined (a : Nat) : Bool :=
  match entryOf a with
  | some e => decide (158 ≤ e)
  | none => false

/-- The descriptors that apply to an address. -/
def State.regions (s : State) (a : Nat) : List Nat :=
  if !refined a then [] else
  (List.range 64).filter (fun i => s.flag F.LODGE_REGION_CTRL_EN 0 i &&
    decide (s.fget F.LODGE_REGION_BASE 0 i ≤ a / 4096) && decide (a / 4096 ≤ s.fget F.LODGE_REGION_LIMIT 0 i))

/-- The governing descriptor: with more than one, each access obeys one of them, a free choice (R61). -/
def State.region (s : State) (a : Nat) : Option Nat × State :=
  match s.regions a with
  | [] => (none, s)
  | [i] => (some i, s)
  | is =>
    let r := s.takeFree
    (is[r.1.toNat % is.length]?, r.2)

/-- The verdict on an access: allowed, or refused with the violation already recorded (R56, R57, R59, R60). -/
def State.lodge (s : State) (m : Master) (write : Bool) (a : Nat) : Bool × State :=
  match entryOf a with
  | none => (true, s)
  | some e =>
    let q := s.asOfCycle
    let r := q.region a
    let t := { s with freeCtr := r.2.freeCtr }
    let secure : Bool := match r.1 with
      | some i => q.flag F.LODGE_REGION_CTRL_WORLD 0 i
      | none => q.entryWorld e == 1
    if secure ∧ !s.masterSecure m then (false, t.violate m (if write then .wwrite else .wread) a)
    else match r.1 with
      | some i =>
        if write ∧ q.flag F.LODGE_REGION_CTRL_RO 0 i ∧ m ≠ .loader then (false, t.violate m .ro a) else (true, t)
      | none => (true, t)

/-- A block's own access as a master (R53): a denied read gives zeros, a denied write is ignored (R56, R60). What the check
records stays. -/
def State.readAs (s : State) (m : Master) (a k : Nat) : Nat × State :=
  let l := s.lodge m false a
  (if l.1 then s.readN a k else 0, l.2)

def State.writeAs (s : State) (m : Master) (a : Nat) (f : State → State) : State :=
  let l := s.lodge m true a
  if l.1 then f l.2 else l.2

end Sys2Proof.Machine
end

