-- ==== Sys2Proof/Machine/Tout.lean ====
section
/-! DEFINITION. TOUT outputs: the logical level, edges at least 4 ns apart, force writes (R104, R111, R112). -/
namespace Sys2Proof.Machine

/-- The level that the edges given so far lead to. -/
def State.toutLevel (s : State) (n : Fin 16) : Bool := s.flag F.MT_TOUT_STATUS_LEVEL 0 n

/-- The logical level now: an edge moved to a later instant has not come (R104). -/
def State.toutShown (s : State) (n : Fin 16) : Bool :=
  match s.tout[n].moved.find? (fun m => decide (s.run < m.1)) with
  | some m => m.2
  | none => s.toutLevel n

/-- The level at the ball (R111). -/
def State.toutBall (s : State) (n : Fin 16) : Bool := s.toutShown n != s.flag F.MT_TOUT_CFG_INV 0 n

def State.modTout (s : State) (n : Fin 16) (f : Tout → Tout) : State := { s with tout := s.tout.set n (f s.tout[n]) }

/-- The first instant at which the output may have its next edge (R104). -/
def Tout.free (o : Tout) : Nat :=
  match o.lastEdge with
  | none => 0
  | some t => t + 4 * unitNs

/-- Bring the logical level to `b` at instant `r` of the step-free timescale; an edge sooner than 4 ns after
the previous one moves to 4 ns after it (R104). Ignored while CFG.EN is 0 (R111). -/
def State.toutDrive (s : State) (n : Fin 16) (b : Bool) (r : Nat) : State :=
  if !s.flag F.MT_TOUT_CFG_EN 0 n || s.toutLevel n == b then s else
  let s1 := s.setFlag F.MT_TOUT_STATUS_LEVEL b 0 n
  let free := s.tout[n].free
  if r < free then
    (s1.modTout n (fun o => { o with
      lastEdge := some free, moved := o.moved.filter (fun m => decide (s.run < m.1)) ++ [(free, !b)] })).finc F.MT_TOUT_MERGE 0 n
  else s1.modTout n (fun o => { o with lastEdge := some r })

/-- What a set (1), clear (2) or toggle (3) makes of a level. -/
def levelOp (op : Nat) (l : Bool) : Bool := if op = 1 then true else if op = 2 then false else if op = 3 then !l else l

/-- A change of CFG (R111): with EN = 0 the level is IDLE; when EN rises it starts from IDLE. -/
def State.toutConfig (s : State) (n : Fin 16) (wasEn : Bool) : State :=
  if s.flag F.MT_TOUT_CFG_EN 0 n && wasEn then s
  else (s.setFlag F.MT_TOUT_STATUS_LEVEL (s.flag F.MT_TOUT_CFG_IDLE 0 n) 0 n).modTout n (fun o => { o with
    moved := [], force := none })

/-- A write to FORCE (R112): 1 set, 2 clear, 3 toggle. It acts at once. -/
def State.toutForce (s : State) (n : Fin 16) (op : Nat) : State :=
  if op = 0 ∨ !s.flag F.MT_TOUT_CFG_EN 0 n then s else
  let b := levelOp op (s.toutLevel n)
  let f : Forced := { cycle := s.phys / 2, at' := s.run, op := op, level := s.toutLevel n, lastEdge := s.tout[n].lastEdge
                      merged := b != s.toutLevel n && decide (s.run < s.tout[n].free) }
  (s.toutDrive n b s.run).modTout n (fun o => { o with force := some f })

/-- The FCLK cycle of an instant of the step-free timescale that has come. -/
def State.cycleOf (s : State) (r : Nat) : Nat := s.phys / 2 - (s.run - r + s.rate - 1) / s.rate

/-- A Ledger edge at instant `r`. A force of the same FCLK cycle acts after it (R112): the force is undone, the edge made,
and the force made again. -/
def State.toutEdge (s : State) (n : Fin 16) (op r : Nat) : State :=
  let plain := s.toutDrive n (levelOp op (s.toutLevel n)) r
  match s.tout[n].force with
  | none => plain
  | some f =>
    if f.cycle ≠ s.cycleOf r then plain else
    let s1 := (s.setFlag F.MT_TOUT_STATUS_LEVEL f.level 0 n).modTout n (fun o => { o with
      lastEdge := f.lastEdge, moved := if f.merged then o.moved.dropLast else o.moved })
    let s2 := if f.merged then s1.fset F.MT_TOUT_MERGE (s1.fget F.MT_TOUT_MERGE 0 n - 1) 0 n else s1
    let s3 := s2.toutDrive n (levelOp op f.level) r
    let at' := max r f.at'
    let g : Forced := { f with level := s3.toutLevel n, lastEdge := s3.tout[n].lastEdge
                               merged := levelOp f.op (s3.toutLevel n) != s3.toutLevel n && decide (at' < s3.tout[n].free) }
    (s3.toutDrive n (levelOp f.op (s3.toutLevel n)) at').modTout n (fun o => { o with force := some g })

end Sys2Proof.Machine
end

