-- ==== Sys2Proof/Machine/Rafter.lean ====
section
/-! DEFINITION. The Rafter bus (R169 to R178): launches, deferral, received bursts, actions and the delay
measurement. Instants are those of the step-free timescale. -/
namespace Sys2Proof.Machine

/-! ### Bursts (R169, R170) -/

/-- The seven bits of a burst: start, TYPE, ID, and parity, so that bits 1 to 6 hold an odd number of ones. -/
def burstBits (kind id : Nat) : BitVec 7 :=
  let body := [kind / 2 % 2, kind % 2, id / 4 % 2, id / 2 % 2, id % 2]
  let ones := body.foldl (· + ·) 0
  BitVec.ofNat 7 (1 + 2 * body.foldr (fun b v => b + 2 * v) 0 + 64 * (1 - ones % 2))

/-- Odd parity over bits 1 to 6 (R169). -/
def burstParity (b : BitVec 7) : Bool :=
  ((List.range 6).foldl (fun p i => p != b.getLsbD (i + 1)) false)

/-- TYPE, bits 1 and 2, the first the more significant; ID, bits 3 to 5, most significant first (R169). -/
def burstType (b : BitVec 7) : Nat := 2 * b2n (b.getLsbD 1) + b2n (b.getLsbD 2)
def burstId (b : BitVec 7) : Nat := 4 * b2n (b.getLsbD 3) + 2 * b2n (b.getLsbD 4) + b2n (b.getLsbD 5)

/-! ### Launches (R171, R172) -/

/-- The line is busy at instant `t`: some unit drives it, or did less than 120 ns before. -/
def State.rafBusyAt (s : State) (l : Fin 4) (t : Nat) : Bool := decide (t < s.raf.busy[l])

def State.rafBusy (s : State) (l : Fin 4) : Bool := s.rafBusyAt l s.run

/-- Drive a burst from instant `t`: 280 ns of bits and 120 ns of busy time after them (R169, R172). -/
def State.rafDrive (s : State) (l : Fin 4) (kind id t : Nat) : State :=
  let r := { s.raf with
    busy := s.raf.busy.set l (t + 400 * unitNs)
    sent := s.raf.sent ++ [⟨t, s.cycleOf t, l, burstBits kind id⟩] }
  let s1 := { s with raf := r }
  if kind = 0 then
    { s1 with raf := { r with actions := r.actions ++ [⟨l, t, t + s.fget F.RAFTER_CFG_ACTLAT * unitNs, id⟩] } }
  else if kind = 1 then { s1 with raf := { r with meas := some ⟨l, id, t⟩ } }
  else s1

/-- A launch in the same FCLK cycle as another on the line merges with it (R172). -/
def State.rafMerges (s : State) (l : Fin 4) (t : Nat) : Bool :=
  s.raf.sent.any (fun x => x.line == l.val && x.cycle == s.cycleOf t)

/-- The measurement waits for an MRSP from instant `t` on (R177, R178). -/
def State.rafAwait (s : State) (l : Fin 4) (id t : Nat) : State :=
  { s with raf := { s.raf with meas := some ⟨l, id, t⟩ } }

/-- A launch falls due at instant `t` (R171, R172): merged, made, or deferred to the end of the busy time. -/
def State.rafLaunch (s : State) (l : Fin 4) (kind id t : Nat) : State :=
  if !s.flag F.RAFTER_CFG_EN then s
  else if kind = 0 ∧ !s.flag F.RAFTER_LINE_CFG_TXEN 0 l then s
  else if s.rafMerges l t then if kind = 1 then s.rafAwait l id t else s
  else if s.rafBusyAt l t then
    let s1 := s.finc F.RAFTER_DEFER
    if s.raf.waiting.any (fun b => b.line == l.val && b.kind == kind) then s1
    else { s1 with raf := { s1.raf with waiting := s1.raf.waiting ++ [⟨l, kind, id⟩] } }
  else s.rafDrive l kind id t

/-- A TRIG with the unit's own number at instant `t` (R171). -/
def State.rafTrig (s : State) (l : Fin 4) (t : Nat) : State := s.rafLaunch l 0 (s.fget F.RAFTER_CFG_UNIT) t

/-- The deferred launches of a line at the end of its busy time, merged into one burst (R172). -/
def State.rafDeferred (s : State) (l : Fin 4) : State :=
  if s.rafBusy l then s else
  match s.raf.waiting.find? (fun b => b.line == l.val) with
  | none => s
  | some b =>
    let t := s.raf.busy[l]
    let s1 := { s with raf := { s.raf with waiting := s.raf.waiting.filter (fun b => b.line != l.val) } }
    let s2 := if s.flag F.RAFTER_CFG_EN then s1.rafDrive l b.kind b.id t else s1
    match s.raf.waiting.find? (fun b => b.line == l.val && b.kind == 1) with
    | none => s2
    | some c => s2.rafAwait l c.id t

/-! ### Actions (R174, R175) -/

/-- What a TRIG does at A on a line with RXEN = 1 (R175). -/
def State.rafAct (s : State) (a : RafAct) : State :=
  if !s.flag F.RAFTER_LINE_CFG_RXEN 0 a.line then s else
  let s1 := s.spinSource 5 a.line 1 a.a
  let s2 := if s.flag F.RAFTER_LINE_CFG_EVTEN 0 a.line
    then s1.gougeEvent (s.fget F.RAFTER_LINE_CFG_EVT 0 a.line) else s1
  let s3 := s2.celEvent 9 a.line a.a a.id a.e
  let s4 := s3.fset F.RAFTER_LAST_STAMP (ns32 (s.runToLclk a.e / unitNs)) 0 a.line
  (s4.setFlag F.RAFTER_LAST_SRC_VALID true 0 a.line).fset F.RAFTER_LAST_SRC_ID a.id 0 a.line

/-- Every pending action of a line whose instant A has come acts (R175). -/
def State.rafActions (s : State) (l : Fin 4) : State :=
  let due := fun (a : RafAct) => a.line == l.val && decide (a.a ≤ s.run)
  let s1 := { s with raf := { s.raf with actions := s.raf.actions.filter (fun a => !due a) } }
  forList (s.raf.actions.filter due) (fun a t => t.rafAct a) s1

/-! ### Reception (R170, R173, R174, R177) -/

/-- A received MRSP ends the measurement that waits for it (R177). -/
def State.rafResult (s : State) (l : Fin 4) (id stamp : Nat) : State :=
  match s.raf.meas with
  | none => s
  | some m =>
    if m.line = l ∧ m.target = id ∧ stamp ≤ m.at' + 4000 * unitNs then
      let one := ((((stamp / unitNs : Nat) : Int) - (m.at' / unitNs : Nat) - 999) / 2)
      let s1 := { s with raf := { s.raf with meas := none } }
      let s2 := s1.fset F.RAFTER_MEAS_RES_ONEWAY (ofS 10 one)
      let s3 := (s2.setFlag F.RAFTER_MEAS_RES_DONE true).setFlag F.RAFTER_MEAS_RES_BUSY false
      if s.flag F.RAFTER_MEAS_LOAD then s3.fset F.RAFTER_DLY (ofS 10 one) 0 m.target else s3
    else s

/-- The device drives a burst on the line at the stamp, and reads back other bits than its own (R173). -/
def State.rafCollides (s : State) (b : RxBurst) : Bool :=
  s.raf.sent.any (fun x => x.line == b.line.val && decide (x.at' ≤ b.stamp) && decide (b.stamp < x.at' + 280 * unitNs) &&
    (x.bits != b.bits || !b.stable))

/-- A burst is decoded (R170, R174, R177): 320 ns after its start edge at the earliest (R176). -/
def State.rafDecode (s : State) (b : RxBurst) : State :=
  let l := b.line
  let s1 := if s.rafCollides b then s.finc F.RAFTER_COLL else s
  let kind := burstType b.bits
  let id := burstId b.bits
  if !burstParity b.bits || kind == 3 || !b.stable then s1.finc F.RAFTER_BAD
  else if kind = 0 then
    if id = s.fget F.RAFTER_CFG_UNIT then s1 else
    let e := b.stamp - s.fget F.RAFTER_DLY 0 id * unitNs
    let a := e + s.fget F.RAFTER_CFG_ACTLAT * unitNs
    if a < s.run then (s1.finc F.RAFTER_LATE).rafAct ⟨l, e, a, id⟩
    else { s1 with raf := { s1.raf with actions := s1.raf.actions ++ [⟨l, e, a, id⟩] } }
  else if kind = 1 then
    if id = s.fget F.RAFTER_CFG_UNIT ∧ s.flag F.RAFTER_CFG_MRSPEN then
      { s1 with raf := { s1.raf with responses := s1.raf.responses ++ [(l.val, b.stamp + 1000 * unitNs)] } }
    else s1
  else s1.rafResult l id b.stamp

/-- The bursts whose decoding is due are decoded. -/
def State.rafSettle (s : State) : State :=
  let due := fun (b : RxBurst) => decide (b.due ≤ s.run)
  if !s.raf.rx.any due then s else
  forList (s.raf.rx.filter due) (fun b t => if t.flag F.RAFTER_CFG_EN then t.rafDecode b else t)
    { s with raf := { s.raf with rx := s.raf.rx.filter (fun b => !due b) } }

/-- A burst whose start edge came `ago` ns ago (R170): the line is busy from that edge on (R172), and the burst is decoded
once its bits have come. `stable` is false when a bit changed within ±10 ns of its sampling point. -/
def State.rafReceive (s : State) (l : Fin 4) (bits : BitVec 7) (stable : Bool) (ago : Nat) : State :=
  if !s.flag F.RAFTER_CFG_EN then s else
  let stamp := s.run - ago * unitNs
  let b : RxBurst := ⟨stamp + 320 * unitNs, l, bits, stable, stamp⟩
  ({ s with raf := { s.raf with
      busy := s.raf.busy.set l (max s.raf.busy[l] (stamp + 400 * unitNs))
      rx := s.raf.rx ++ [b] } }).rafSettle

/-! ### The delay measurement (R177, R178) -/

/-- The MRSP of a line at its instant; a target busy on the line then does not respond (R177, R178). -/
def State.rafRespond (s : State) (l : Fin 4) : State :=
  let due := fun (x : Nat × Nat) => x.1 == l.val && decide (x.2 ≤ s.run)
  match s.raf.responses.find? due with
  | none => s
  | some x =>
    let s1 := { s with raf := { s.raf with responses := s.raf.responses.filter (fun x => !due x) } }
    if s.rafBusyAt l x.2 || !s.flag F.RAFTER_CFG_EN then s1
    else s1.rafDrive l 2 (s.fget F.RAFTER_CFG_UNIT) x.2

/-- A write of GO (R177, R178): ignored while a measurement runs. -/
def State.rafMeasure (s : State) : State :=
  if s.flag F.RAFTER_MEAS_RES_BUSY || !s.flag F.RAFTER_CFG_EN then s else
  let s1 := (s.setFlag F.RAFTER_MEAS_RES_DONE false).setFlag F.RAFTER_MEAS_RES_TIMEOUT false
  (s1.setFlag F.RAFTER_MEAS_RES_BUSY true).rafLaunch
    (Fin.ofNat 4 (s.fget F.RAFTER_MEAS_LINE)) 1 (s.fget F.RAFTER_MEAS_TARGET) s.run

/-- 4 µs without an MRSP (R178): one whose start edge came in time may still be in decoding. -/
def State.rafTimeout (s : State) : State :=
  match s.raf.meas with
  | none => s
  | some m =>
    let coming := s.raf.rx.any (fun b => b.line == m.line && burstType b.bits == 2 && decide (b.stamp ≤ m.at' + 4000 * unitNs))
    if m.at' + 4000 * unitNs ≤ s.run ∧ coming = false then
      let s1 := { s with raf := { s.raf with meas := none } }
      (s1.setFlag F.RAFTER_MEAS_RES_TIMEOUT true).setFlag F.RAFTER_MEAS_RES_BUSY false
    else s

/-- A write to RAFTER.FIRE (R171). -/
def State.rafFire (s : State) (lines : Nat) : State :=
  forFin 4 (fun l t => if bit lines l then t.rafTrig l s.run else t) s

end Sys2Proof.Machine
end

