-- ==== Sys2Proof/Machine/Ledger.lean ====
section
/-! DEFINITION. The Ledger (R83 to R106): entries, arming, prediction, firing and completion records. -/
namespace Sys2Proof.Machine

/-! ### Entries in memory (R83) -/

def slotAddr (slot : Nat) : Nat := 0x0400_0000 + 16 * slot

def entryOfWords (pos w period : Nat) : Entry :=
  { pos := pos, action := bitsOf w 31 28, target := bitsOf w 27 20, dir := bitsOf w 19 18
    notify := bit w 17, count := bitsOf w 15 0, period := period }

/-- A slot's contents as the memory holds them. -/
def State.entry (s : State) (slot : Nat) : Entry :=
  entryOfWords (s.mem32 (slotAddr slot) + 2 ^ 32 * s.mem32 (slotAddr slot + 4)) (s.mem32 (slotAddr slot + 8))
    (s.mem32 (slotAddr slot + 12))

/-- A slot as the Ledger reads it (R53): one access; zeros where the Lodge denies it. -/
def State.entryRead (s : State) (slot : Nat) : Entry × State :=
  let l := s.lodge .ledger false (slotAddr slot)
  (if l.1 then s.entry slot else entryOfWords 0 0 0, l.2)

/-- The device writes POS, REPEAT and ARMED back (R83, R87), as a master of its own (R53, R60). -/
def State.entryBack (s : State) (slot pos rep : Nat) (armed : Bool) : State :=
  s.writeAs .ledger (slotAddr slot) (fun t =>
    let w := t.mem32 (slotAddr slot + 8)
    let w1 := putBits (putBits w 15 0 rep) 16 16 (b2n armed)
    (t.writeN (slotAddr slot) 8 pos).setMem32 (slotAddr slot + 8) w1)

/-- A signed 64-bit position difference (R75). -/
def posDiff (a b : Int) : Int := wrap64 (a - b)

/-! ### Completion records (R105) -/

def State.ledDone (s : State) (r : DoneRec) : State :=
  if s.led.done.length < 512 then
    { s with led := { s.led with done := s.led.done ++ [r] } }
  else s.raise F.LED_DONE_STATUS_OVF

/-- A pop removes the shown record (R106). -/
def State.ledPop (s : State) : State := { s with led := { s.led with done := s.led.done.drop 1 } }

/-! ### Actions (R84) -/

/-- What an entry does at instant `r` of the step-free timescale. -/
def State.ledAct (s : State) (e : Entry) (r : Nat) : State :=
  let n : Fin 16 := Fin.ofNat 16 e.target
  match e.action with
  | 1 => s.toutEdge n 1 r
  | 2 => s.toutEdge n 2 r
  | 3 => s.toutEdge n 3 r
  | 4 => s.gougeEvent e.target
  | 5 => s.rafTrig (Fin.ofNat 4 e.target) r
  | 6 => s.celEvent 8 (e.target % 8) r 0 0
  | _ => s

/-! ### Lanes -/

/-- The sequencer runs at instant `r`: the cycle that a stop lets complete has not ended (R25, R99). -/
def State.runsAt (s : State) (r : Nat) : Bool :=
  s.flag F.CYC_STATUS_RUNNING && (match s.seq.stopEnd with
    | some e => decide (r < e)
    | none => true)

/-- A spindle lane can fire at instant `r` (R72, R99). -/
def State.laneLiveAt (s : State) (n : Fin 16) (r : Nat) : Bool := s.runsAt r && s.flag F.LED_CTRL_EN && s.spinEn n

/-- A spindle lane can fire now. -/
def State.laneLive (s : State) (n : Fin 16) : Bool := s.laneLiveAt n s.run

/-- HYST in units of 2⁻³² su. -/
def State.hyst (s : State) (n : Fin 16) : Int := (s.fget F.SP_HYST n : Int) * 2 ^ 16

/-- `p` has reached `pos` in a direction (R97). -/
def reached (fwd : Bool) (p pos : Int) : Bool :=
  if fwd then decide (0 ≤ posDiff p pos) else decide (posDiff p pos ≤ 0)

/-- The spindle went from `a` to `b` past `pos`: some direction when it crossed (R91). -/
def crossed (a b pos : Int) (dir : Option Bool) : Option Bool :=
  let up := decide (posDiff a pos < 0) && decide (0 ≤ posDiff b pos)
  let down := decide (0 < posDiff a pos) && decide (posDiff b pos ≤ 0)
  match dir with
  | some true => if up then some true else none
  | some false => if down then some false else none
  | none => if up then some true else if down then some false else none

/-! ### Prediction (R92 to R94) -/

/-- The square root of v0² + 2a0·d with 40 more binary places, where the discriminant is not negative. -/
def discRoot (d v a : Int) : Option Int :=
  let disc := v * v + 2 * a * d
  if disc < 0 then none else some (isqrt (disc.toNat * 2 ^ 80) : Nat)

/-- The root of p0 + v0·τ + ½a0·τ² = pos after the turning point (R93), in units of 2⁻³⁹ ns after the tick: `d` is pos − p0,
all in units of 2⁻³², `sgn` the sign of v0. The two roots add up to −2v0/a0. -/
def rootBeyond (d v a : Int) (sgn : Int) : Option Int :=
  if a = 0 then none else
  (discRoot d v a).map (fun r => -(v * 2 ^ 40 + sgn * r) * (10 ^ 9 * unitNs : Nat) / (a * 2 ^ 40))

/-- The root that R92 gives, in the same units. -/
def rootAfter (d v a : Int) (sgn : Int) : Option Int :=
  let den (r : Int) : Int := v * 2 ^ 40 + sgn * r
  if a = 0 then
    if v = 0 then none else some (d * (10 ^ 9 * unitNs : Nat) / v)
  else
    match discRoot d v a with
    | none => none
    | some r =>
      if den r = 0 then none
      else some ((2 * d * 2 ^ 40 * (10 ^ 9 * unitNs : Nat)) / den r)

/-- Round an instant to 1 ns (R92). -/
def roundNs (t : Nat) : Nat := (2 * t + unitNs) / (2 * unitNs) * unitNs

/-- The crossings of `pos` that a tick's basis predicts inside [lo, hi), with their directions: the first
root, and the one after the turning point when v0 and a0 have opposite signs (R92, R93). -/
def predict (b : SpinSnap) (at' lo hi : Nat) (pos : Int) (dir : Option Bool) (hyst : Int) :
    List (Nat × Bool) :=
  let d := posDiff pos b.pos
  let sg := if b.vel ≠ 0 then signI b.vel else signI b.acc
  let fwd := decide (0 < sg)
  let inside (t : Option Int) : Option Nat :=
    match t with
    | some x => if x ≤ 0 then none else
        let y := roundNs (at' + x.toNat)
        if lo ≤ y ∧ y < hi then some y else none
    | none => none
  let ok (f : Bool) : Bool := dir == none || dir == some f
  let one := if ok fwd then
      match inside (rootAfter d b.vel b.acc sg) with
      | some t => [(t, fwd)]
      | none => []
    else []
  let turns := decide (b.vel * b.acc < 0)
  let turnAt : Nat := if b.acc = 0 then 0 else at' + (-(b.vel * (10 ^ 9 * unitNs : Nat)) / b.acc).toNat
  -- the turning point lies v²/(2|a|) beyond p0
  let beyond := if b.acc = 0 then false else
      one.isEmpty || decide (hyst * 2 * absI b.acc ≤ absI (b.vel * b.vel - 2 * absI b.acc * absI d))
  let two := if turns && decide (lo ≤ turnAt) && decide (turnAt < hi) && ok (!fwd) && beyond then
      match inside (rootBeyond d b.vel b.acc sg) with
      | some t => [(t, !fwd)]
      | none => []
    else []
  one ++ two

/-- What the bases in force predict for a target of lane `n`: the tick before governs until 500 ns after the last tick, and the
last tick until 500 ns after the next (R93, R94). -/
def State.predictions (s : State) (n : Fin 16) (t : Target) (fresh : Bool) : List (Nat × Bool) :=
  let l := s.led
  let mid := l.basisAt + 500 * unitNs
  let before := if fresh || !l.oldPredicted[n] then [] else
    predict l.oldBasis[n] l.oldAt (l.oldAt + 500 * unitNs) mid t.pos t.dir (s.hyst n)
  let after := if !l.predicted[n] then [] else
    predict l.basis[n] l.basisAt mid (l.nextAt + 500 * unitNs) t.pos t.dir (s.hyst n)
  (before ++ after).filter (fun p => fresh || decide (s.run ≤ p.1))

/-- Predict a ready target of lane `n`, at most 256 firings (R93, R98): at a tick (`fresh`) for the interval that the tick
governs, keeping what falls before it. -/
def State.predictTarget (s : State) (n : Fin 16) (t : Target) (fresh : Bool) : Target × State :=
  if !t.ready then (t, s) else
  let ps := s.predictions n t fresh
  let kept := t.due.filter (fun p => decide (p.1 < s.led.basisAt + 500 * unitNs))
  let room := 256 - s.led.scheduled[n]
  let ps' := ps.take room
  let s1 := { s with led := { s.led with scheduled := s.led.scheduled.set n (s.led.scheduled[n] + ps'.length) } }
  ({ t with due := kept ++ ps' }, s1.finc F.LED_DEFER 0 0 (ps.length - ps'.length))

/-! ### Arming, firing, retiring -/

def State.isArmed (s : State) (slot : Nat) : Bool := s.led.armed.any (fun e => e.slot == slot)

def State.armedAt (s : State) (slot : Nat) : Option Armed := s.led.armed.find? (fun e => e.slot == slot)

def State.dropArmed (s : State) (slot : Nat) : State :=
  { s with led := { s.led with armed := s.led.armed.filter (fun e => e.slot != slot) } }

/-- Retire an entry, with a record when NOTIFY is 1 (R88, R89, R90). -/
def State.ledRetire (s : State) (lane slot : Nat) (e : Entry) (code stamp : Nat) (pos rep : Nat) : State :=
  let s1 := (s.dropArmed slot).entryBack slot pos rep false
  if e.notify then s1.ledDone ⟨lane, slot, code, true, stamp⟩ else s1

/-- The directions of an entry (R83). -/
def entryDir (d : Nat) : Option Bool := if d = 0 then some true else if d = 1 then some false else none

/-- What a re-armed entry waits for after firing at `p` in direction `fwd` (R96). -/
def rearmTargets (dir : Option Bool) (period : Nat) (p : Int) (fwd : Bool) (hyst : Int) : List Target :=
  let step : Int := (if fwd then 1 else -1) * (period * 2 ^ 16 : Nat)
  let nextPos := wrap64 (p + step)
  match dir with
  | some _ =>
    if period ≠ 0 then [⟨nextPos, some fwd, true, none, []⟩]
    else [⟨p, some fwd, hyst == 0, some (!fwd), []⟩]
  | none =>
    let back : Target := ⟨p, some (!fwd), hyst == 0, some fwd, []⟩
    if period ≠ 0 then [⟨nextPos, some fwd, true, none, []⟩, back] else [back]

/-- Fire the entry `e` of a spindle lane at `p` in direction `fwd`, at instant `r`, with a code; re-arm or retire;
a position already reached at the re-arming fires at once with code LATE (R89, R96). The fuel is REPEAT. -/
def State.spinFire (s : State) (n : Fin 16) (slot : Nat) (e : Entry) (p : Int) (fwd : Bool) (code : Nat) (r : Nat)
    (keep : List (Nat × Bool)) : Nat → State
  | 0 => s
  | fuel + 1 =>
    let stamp := ns32 (s.runToLclk r / unitNs)
    let s1 := s.ledAct e r
    let s2 := if code = 1 then s1.finc F.LED_LATE else s1
    let rep := e.count - 1
    if rep = 0 then s2.ledRetire n slot e code stamp (ofS 64 p) 0
    else
      let s3 := if e.notify then s2.ledDone ⟨n, slot, code, false, stamp⟩ else s2
      let ts := (rearmTargets (entryDir e.dir) e.period p fwd (s.hyst n)).map
        (fun t => if t.dir == some (!fwd) then { t with due := keep, ready := t.ready || !keep.isEmpty } else t)
      let pos' := match ts with
        | t :: _ => t.pos
        | [] => p
      let e' : Entry := { e with pos := ofS 64 pos', count := rep }
      let s4 := s3.entryBack slot e'.pos rep true
      let late := match ts with
        | t :: _ => t.ready && t.dir == some fwd && reached fwd (s4.spinPos n (max r s4.run)) t.pos
        | [] => false
      if late then s4.spinFire n slot e' pos' fwd 1 s4.run [] fuel
      else
        let preds := ts.foldl (fun (acc : List Target × State) t =>
            if t.due.isEmpty then
              let q := acc.2.predictTarget n t false
              (acc.1 ++ [q.1], q.2)
            else (acc.1 ++ [t], acc.2)) (([] : List Target), s4)
        let s5 := preds.2.dropArmed slot
        let a : Armed := { lane := n, slot := slot, e := e', order := s5.led.seq, targets := preds.1, eval := false,
                           since := none }
        { s5 with led := { s5.led with armed := s5.led.armed ++ [a], seq := s5.led.seq + 1 } }

/-- Evaluate an armed entry by R97 against the present position. One that does not fire is predicted on the tick's
basis in force, so that it fires at its crossing (R91; DEDUCED). -/
def State.evalArm (s : State) (n : Fin 16) (a : Armed) : State :=
  let e := a.e
  let p := s.spinPos n s.run
  let pos := toS 64 e.pos
  let arm (t : Target) : State :=
    let q := s.predictTarget n t false
    let f := fun (x : Armed) => { x with eval := false, since := some p, targets := [q.1] }
    { q.2 with led := { q.2.led with armed := q.2.led.armed.map (fun x => if x.slot = a.slot then f x else x) } }
  match entryDir e.dir with
  | some fwd =>
    if reached fwd p pos then s.spinFire n a.slot e pos fwd 1 s.run [] e.count
    else arm ⟨pos, some fwd, true, none, []⟩
  | none =>
    let near := decide (absI (posDiff p pos) < s.hyst n)
    arm ⟨pos, none, !near, none, []⟩

/-- Fire a lane-16 entry (R100, R101): with `late` it was found past, and the firings missed apart from this
one are dropped. -/
def State.lclkFire (s : State) (slot : Nat) (e : Entry) (late : Bool) : State :=
  let r := if late then s.run else s.lclkToRun (e.pos * unitNs)
  let stamp := if late then s.stamp32 else ns32 e.pos
  let code := b2n late
  let s1 := s.ledAct e r
  let s2 := if late then s1.finc F.LED_LATE else s1
  let skip := if late ∧ e.period ≠ 0 ∧ e.pos * unitNs < s.lclk
    then (s.lclk - e.pos * unitNs - 1) / (e.period * unitNs) else 0
  let rep := e.count - 1 - skip
  if e.period = 0 ∨ rep = 0 then s2.ledRetire 16 slot e code stamp e.pos (if e.period = 0 then 0 else rep)
  else
    let s3 := if e.notify then s2.ledDone ⟨16, slot, code, false, stamp⟩ else s2
    let e' : Entry := { e with pos := (e.pos + (skip + 1) * e.period) % 2 ^ 64, count := rep }
    let s4 := (s3.entryBack slot e'.pos rep true).dropArmed slot
    let a : Armed := { lane := 16, slot := slot, e := e', order := s4.led.seq, targets := [], eval := false, since := none }
    { s4 with led := { s4.led with armed := s4.led.armed ++ [a], seq := s4.led.seq + 1 } }

/-- Lane-16 entries whose instant is past fire at once with code LATE (R101). -/
def State.lclkLate (s : State) (strict : Bool) : State :=
  if !s.flag F.LED_CTRL_EN then s else
  forList (s.led.armed.filter (fun a => a.lane == 16)) (fun a t =>
    let at' := a.e.pos * unitNs
    if t.isArmed a.slot && (if strict then decide (at' < t.lclk) else decide (at' ≤ t.lclk))
    then t.lclkFire a.slot a.e true else t) s

/-- An ARM takes effect (R85 to R88, R97, R101). R97 waits while the lane's spindle has EN = 0 and while R99
holds the lane; on a lane that can fire it is applied at once, before the first tick too (DEDUCED). -/
def State.ledArm (s0 : State) (lane slot : Nat) : State :=
  if s0.isArmed slot then s0.finc F.LED_REJECT
  else
    let e := (s0.entryRead slot).1
    let s := (s0.entryRead slot).2
    if e.count = 0 then
      if e.notify then s.ledDone ⟨lane, slot, 3, true, s.stamp32⟩ else s
    else
      let s1 := s.entryBack slot e.pos e.count true
      let a : Armed := { lane := lane, slot := slot, e := e, order := s1.led.seq, targets := [], eval := lane < 16,
                         since := none }
      let s2 := { s1 with led := { s1.led with armed := s1.led.armed ++ [a], seq := s1.led.seq + 1 } }
      if lane = 16 then
        if s.flag F.LED_CTRL_EN && decide (e.pos * unitNs < s.lclk) then s2.lclkFire slot e true else s2
      else
        let n : Fin 16 := Fin.ofNat 16 lane
        if s2.laneLive n then s2.evalArm n a else s2

/-- A CANCEL takes effect (R90). -/
def State.ledCancel (s : State) (slot : Nat) : State :=
  match s.armedAt slot with
  | none => s.finc F.LED_REJECT
  | some a => s.ledRetire a.lane slot a.e 4 s.stamp32 a.e.pos a.e.count

/-- The first instant at which an armed entry is due to fire, if it has come. -/
def State.dueAt (s : State) (a : Armed) : Option Nat :=
  if a.lane = 16 then
    let p := a.e.pos * unitNs
    if s.flag F.LED_CTRL_EN && decide (p ≤ s.lclk) then some (s.lclkToRun p) else none
  else
    (a.targets.filterMap (fun t => (t.due.head?).map (fun d => d.1))).foldl (fun b r =>
      if s.laneLiveAt (Fin.ofNat 16 a.lane) r && decide (r ≤ s.run) then
        match b with
        | none => some r
        | some m => some (min m r)
      else b) none

/-! ### ARM and CANCEL writes (R85, R90) -/

/-- A cancel waits for a firing of its entry that came due before it: that firing still takes place (R90). -/
def State.ledHeld (s : State) (o : LedOp) : Bool :=
  o.cancel && (match (s.armedAt o.slot).bind s.dueAt with
    | some r => decide (r ≤ s.run - (s.phys - o.due) / 2 * s.rate)
    | none => false)

/-- The writes that are due take effect, in order. -/
def State.ledServe (s : State) : List LedOp → State
  | [] => s
  | o :: os =>
    if s.phys < o.due || s.ledHeld o then { s with led := { s.led with ops := o :: os } }
    else
      let t := { s with led := { s.led with ops := os, opAt := some o.due } }
      State.ledServe (if o.cancel then t.ledCancel o.slot else t.ledArm o.lane o.slot) os

def State.ledSettle (s : State) : State := if s.led.ops.isEmpty then s else s.ledServe s.led.ops

/-- `dt` ns pass: what falls due in them and no command names takes place (R90, R170, R174). -/
def State.wait (s : State) (dt : Nat) : State := ((s.elapse dt).rafSettle).ledSettle

/-- A write to LEDGER.ARM or LEDGER.CANCEL: writes take effect in order and at least 20 ns apart, an ARM as soon as it can, a
CANCEL 200 ns after it was written, since a firing within those 200 ns still takes place (R85, R90; DESIGN CHOICE). -/
def State.ledSubmit (s : State) (cancel : Bool) (lane slot : Nat) : State :=
  let last : Option Nat := match s.led.ops.getLast? with
    | some o => some o.due
    | none => s.led.opAt
  let from' := match last with
    | some t => t + 20
    | none => 0
  let o : LedOp := ⟨cancel, lane, slot, max (s.phys + (if cancel then 200 else 0)) from'⟩
  ({ s with led := { s.led with ops := s.led.ops ++ [o] } }).ledSettle

/-! ### Firing -/

/-- The firings due by now: their ns, lane, order of arming and slot. -/
def State.ledDue (s : State) : List (Nat × Nat × Nat × Nat) :=
  s.led.armed.filterMap (fun a => (s.dueAt a).map (fun r => (r / unitNs, a.lane, a.order, a.slot)))

/-- A slot's firing comes first: by instant, then by lane, then by order of arming (R103). -/
def State.ledFirst (s : State) (slot : Nat) : Bool :=
  let d := s.ledDue
  match d with
  | [] => false
  | x :: xs =>
    let before (a b : Nat × Nat × Nat × Nat) : Bool :=
      a.1 < b.1 || (a.1 == b.1 && (a.2.1 < b.2.1 || (a.2.1 == b.2.1 && a.2.2.1 < b.2.2.1)))
    (xs.foldl (fun m y => if before y m then y else m) x).2.2.2 == slot

/-- LEDGER_FIRE: an armed entry of a lane that can fire has reached a predicted instant (R91, R93). -/
def State.ledFireNow (s : State) (n : Fin 16) (slot : Nat) : State :=
  match s.armedAt slot with
  | none => s
  | some a =>
    if a.lane ≠ n ∨ !s.ledFirst slot then s else
    let cand := a.targets.filterMap (fun t =>
      match t.due with
      | (r, f) :: rest => if s.laneLiveAt n r && decide (r ≤ s.run) then some (r, f, t.pos, rest) else none
      | [] => none)
    match cand with
    | [] => s
    | c :: cs =>
      let best := cs.foldl (fun b x => if x.1 < b.1 then x else b) c
      s.spinFire n slot a.e best.2.2.1 best.2.1 0 best.1 best.2.2.2 a.e.count

/-- LCLK_LANE_FIRE: LCLK has reached the entry's POS (R100). -/
def State.ledLclkFireNow (s : State) (slot : Nat) : State :=
  match s.armedAt slot with
  | none => s
  | some a =>
    if a.lane = 16 ∧ (s.dueAt a).isSome ∧ s.ledFirst slot then s.lclkFire slot a.e false else s

/-! ### Ticks (R92 to R95, R99) -/

/-- A pause of lanes: predictions are lost, no comparison spans it, and entries not waiting for hysteresis
are evaluated afresh by R97 when the lane can fire again (R72, R99). -/
def State.ledPause (s : State) (p : Nat → Bool) : State :=
  let waits (a : Armed) : Bool := !a.targets.isEmpty && a.targets.any (fun t => !t.ready)
  let armed := s.led.armed.map (fun a =>
    if p a.lane && a.lane < 16 then
      { a with eval := a.eval || !waits a, since := none
               targets := a.targets.map (fun t => { t with due := [] }) }
    else a)
  let lp := Vector.ofFn (fun (i : Fin 16) => if p i then none else s.led.lastPos[i])
  let pr := Vector.ofFn (fun (i : Fin 16) => if p i then false else s.led.predicted[i])
  let op := Vector.ofFn (fun (i : Fin 16) => if p i then false else s.led.oldPredicted[i])
  { s with led := { s.led with armed := armed, lastPos := lp, predicted := pr, oldPredicted := op } }

/-- The hysteresis travel of a waiting target at position `x` (R96, R97). -/
def Target.travel (t : Target) (x h : Int) : Target :=
  if t.ready then t else
  let d := posDiff x t.pos
  let done := match t.away with
    | some true => decide (h ≤ d)
    | some false => decide (d ≤ -h)
    | none => decide (h ≤ absI d)
  { t with ready := done }

/-- The tick comparison of one entry (R95): the first of its targets that was crossed fires now. -/
def State.compareEntry (s : State) (n : Fin 16) (prev cur : Int) (code : Nat) (a : Armed) : State :=
  let from' := a.since.getD prev
  let hit := a.targets.findSome? (fun t => if t.ready
    then (crossed from' cur t.pos t.dir).map (fun f => (t.pos, f)) else none)
  match hit with
  | some (p, f) => s.spinFire n a.slot a.e p f code s.run [] a.e.count
  | none =>
    let upd (x : Armed) : Armed := if x.slot = a.slot then
        { x with since := none, targets := x.targets.map (fun t => t.travel cur (s.hyst n)) } else x
    { s with led := { s.led with armed := s.led.armed.map upd } }

/-- Predict every armed entry of a lane on a new basis (R92). -/
def State.predictLane (s : State) (n : Fin 16) : State :=
  forList (s.led.armed.filter (fun a => a.lane == n.val && !a.eval)) (fun a t =>
    let q := a.targets.foldl (fun (acc : List Target × State) x =>
      let r := acc.2.predictTarget n x true
      (acc.1 ++ [r.1], r.2)) (([] : List Target), t)
    { q.2 with led := { q.2.led with
        armed := q.2.led.armed.map (fun x => if x.slot = a.slot then { x with targets := q.1 } else x) } }) s

/-- A tick gives a lane its new basis (R36, R94). -/
def State.newBasis (s : State) (n : Fin 16) (snap : SpinSnap) : State :=
  let vmin : Int := (s.fget F.SP_VMIN n : Int) * 2 ^ 16
  let ok := !(decide (absI snap.vel < vmin) || (snap.vel == 0 && snap.acc == 0))
  { s with led := { s.led with
    lastPos := s.led.lastPos.set n (some snap.pos)
    basis := s.led.basis.set n snap
    oldBasis := s.led.oldBasis.set n s.led.basis[n]
    oldPredicted := s.led.oldPredicted.set n s.led.predicted[n]
    predicted := s.led.predicted.set n ok } }

/-- The entries of a lane at a tick that has given it its basis: evaluation by R97 or comparison with position `prev`, then
prediction (R92, R95, R99). -/
def State.laneEntries (s : State) (n : Fin 16) (snap : SpinSnap) (prev : Int) (code : Nat) : State :=
  let s1 := forList (s.led.armed.filter (fun a => a.lane == n.val)) (fun a t =>
    if a.eval then t.evalArm n a else t.compareEntry n prev snap.pos code a) s
  { s1 with led := { s1.led with scheduled := s1.led.scheduled.set n 0 } }.predictLane n

/-- One spindle lane at a tick. The first F_P tick after a pause compares nothing (R72, R99). -/
def State.ledLaneTick (s : State) (n : Fin 16) (snap : SpinSnap) (fpTick : Bool) : State :=
  if !s.laneLive n then s else
  match s.led.lastPos[n] with
  | none => if !fpTick then s else (s.newBasis n snap).laneEntries n snap snap.pos 2
  | some prev => (s.newBasis n snap).laneEntries n snap prev (if s.led.predicted[n] then 1 else 2)

/-- The Ledger at an F_P tick or a prediction tick (R38, R92 to R95). -/
def State.ledTick (s : State) (nextAt : Nat) (fpTick : Bool) : State :=
  let l := { s.led with oldAt := s.led.basisAt, basisAt := s.run, nextAt := nextAt }
  forFin 16 (fun n t => t.ledLaneTick n s.snap.spin[n] fpTick) { s with led := l }

end Sys2Proof.Machine
end

