-- ==== Sys2Proof/Machine/AxisFault.lean ====
section
/-! DEFINITION. Axis faults and their reactions, the removal of torque, gate disable and the halt (R236, R241
to R247, R296, R317, R509). -/
namespace Sys2Proof.Machine

/-! ### Attachments (R183) -/

/-- A local servo, or a stepper on a bridge link: the link and its half. -/
def State.axLink (s : State) (n : Nat) : Option (Fin 16 × Bool) :=
  let k := s.axKind n
  if k = 1 ∨ (k = 3 ∧ !s.flag F.AX_CFG_STPPIN n) then
    let a := s.fget F.AX_CFG_ATT n
    some (Fin.ofNat 16 (a / 2 % 16), a % 2 == 1)
  else none

/-- The step/direction output of an STP stepper. -/
def State.axStp (s : State) (n : Nat) : Option (Fin 16) :=
  if s.axKind n = 3 ∧ s.flag F.AX_CFG_STPPIN n then some (Fin.ofNat 16 (s.fget F.AX_CFG_ATT n)) else none

/-- The axes attached to a link, in ascending order. -/
def State.blAxes (s : State) (l : Fin 16) : List (Fin 64) :=
  (List.finRange 64).filter (fun n => match s.axLink n with
    | some (k, _) => k == l
    | none => false)

/-! ### Gate disable (R317) -/

/-- A gate-disable request is in force on a link: Threshold's, a halt, or the preparation
of Sleep (R317, R509, R594). -/
def State.gateOff (s : State) (l : Fin 16) : Bool :=
  s.halted || s.sleepGate || bit s.gateLinks l

/-- Δs, in ns, of the sampling that this cycle's upstream frame reports (R315, R322). -/
def State.blDs (s : State) (l : Fin 16) : Int := toS 16 (bitsOf s.bl[l].cfgHere 31 16)

/-- The instant at which the line is free for the next ordered set: at once, or after the set in progress. -/
def State.blFree (s : State) (l : Fin 16) : Nat := max s.phys s.bl[l].setTill

/-- Send an ordered set of two symbols with its leading edge at `at'`; it lengthens a frame it falls into (R303). -/
def State.blPut (s : State) (l : Fin 16) (at' : Nat) (syms : List Sym) : State :=
  s.modBl l (fun b => { b with
    line := (at', lineGroups (Config.lineDisparity l.val at') syms) :: b.line
    setTill := at' + 16
    frameTill := if at' < b.frameTill then b.frameTill + 16 else b.frameTill })

/-- SYNC with its leading edge at `at'`; `fine` in unit intervals (R302, R312). -/
def State.blPutSync (s : State) (l : Fin 16) (at' fine : Nat) : State :=
  (s.blPut l at' [.k kMark, .d fine]).modBl l (fun b => { b with sync := some (at', fine) })

/-- Send GOFF (R302, R317). It goes before a SYNC of the same symbol boundary (R303), which then leaves one set, 20 unit
intervals, later and says so in FINE (R312). -/
def State.blGoff (s : State) (l : Fin 16) : State :=
  match s.bl[l].sync with
  | some (t, fine) =>
    if t = s.phys then
      ((s.modBl l (fun b => { b with line := b.line.drop 1, setTill := t })).blPut l t [.k kGoff, .k kGoff]).blPutSync l
        (t + 16) (fine - 20)
    else s.blPut l (s.blFree l) [.k kGoff, .k kGoff]
  | none => s.blPut l (s.blFree l) [.k kGoff, .k kGoff]

/-- Bring STATUS.GOFF of every link up to date; a new request sends GOFF on a link that is UP (R317). -/
def State.gateUpdate (s : State) : State :=
  forFin 16 (fun l t =>
    let want := s.gateOff l
    let was := t.flag F.BL_STATUS_GOFF l
    let t1 := t.setFlag F.BL_STATUS_GOFF want l
    if want && !was && t.fget F.BL_STATUS_STATE l == 3 then
      t1.blGoff l
    else t1) s

/-! ### Step pulses (R294, R296) -/

/-- The level at a STPn_DIR ball: inactive while the output is not enabled (R300). -/
def State.stpDir (s : State) (o : Nat) : Bool :=
  if s.flag F.STP_CFG_EN 0 o then s.flag F.STP_STATUS_DIRLVL 0 o else Config.dirIdle

/-- Count the pulses of output `o`, which steps axis `n`, that have started by now. -/
def State.stpSettle (s : State) (n : Fin 64) (o : Fin 16) : State :=
  let p := s.stp[o]
  let due := if s.run < p.first then 0 else min p.pulses ((s.run - p.first) / (max 1 p.spacing * unitNs) + 1)
  let k := due - p.emitted
  if k = 0 then s else
  let d : Int := if p.forward then k else -k
  let per : Int := (2 ^ s.fget F.STP_CFG_PDIV 0 o : Nat)
  let s1 := (s.fset F.STP_COUNT (ofS 32 (s.fgetS F.STP_COUNT 0 o + d)) 0 o).wsetS F.AX_FLD_MICRO
    (s.fld[n].mu + d * per) n
  let s2 := s1.modFld n (fun f => { f with mu := f.mu + d * per, muAt := s.run, holding := false })
  { s2 with stp := s2.stp.set o { p with emitted := due } }

/-! ### Torque (R236, R244, R288, R296) -/

/-- Remove torque from an axis: EN clears, the field machine goes OFF, an STP stepper's pulses stop. -/
def State.removeTorque (s : State) (n : Fin 64) : State :=
  let s1 := (s.setFlag F.AX_LOOP_CTRL_EN false n).fset F.AX_LOOP_STATUS_RSTATE 0 n
  let s2 := (s1.fset F.AX_FLD_STATUS_FSTATE 0 n).modLp n (fun l => { l with
    xi := 0, icmd := 0, enPending := false, react := if s.flag F.AX_FAULT_ACTIVE n then l.react else 0 })
  let s3 := (s2.modFld n (fun f => { f with entered := s.run })).modAx n (fun x => { x with qstop := false })
  match s.axStp n with
  | some o =>
    let s4 := s3.stpSettle n o
    ({ s4 with stp := s4.stp.set o {} }).fset F.STP_PEND 0 0 o
  | none => s3

/-! ### Faults -/

/-- The reaction code of a cause (R241). -/
def State.reactCode (s : State) (n : Nat) (cause : Nat) : Nat :=
  match cause with
  | 0 => s.fget F.AX_REACT_FOLLOW n
  | 1 => s.fget F.AX_REACT_OVERSPEED n
  | 2 => s.fget F.AX_REACT_FEEDBACK n
  | 3 => s.fget F.AX_REACT_SPLOSS n
  | 4 => s.fget F.AX_REACT_DRIVE n
  | _ => 4

/-- RSTATE: `c`, but 5 on a local servo that has not come to RUN (R277). -/
def State.runState (s : State) (n c : Nat) : Nat :=
  let f := s.fget F.AX_FLD_STATUS_FSTATE n
  if s.axKind n = 1 ∧ f ≠ 5 ∧ f ≠ 8 then 5 else c

/-- Start a reaction, or change to a stronger one (R242). -/
def State.react (s : State) (n : Fin 64) (code : Nat) : State :=
  if code = 0 ∨ code ≤ s.lp[n].react then s else
  let s1 := s.modLp n (fun l => { l with react := code, reactAt := s.phys })
  if code = 1 ∨ code = 2 then
    if s.axKind n ≠ 0 ∧ !s.flag F.AX_LOOP_CTRL_EN n then s1
    else ((s1.grpLeave n).modAx n (fun x => { x with qstop := true })).fset F.AX_LOOP_STATUS_RSTATE (s.runState n 2) n
  else if code = 3 ∧ s.axKind n = 1 ∧ s.fget F.AX_FLD_STATUS_FSTATE n ≠ 0 then
    ((s1.fset F.AX_FLD_STATUS_FSTATE 8 n).fset F.AX_LOOP_STATUS_RSTATE 4 n).modFld n
      (fun f => { f with entered := s.run })
  else s1.removeTorque n

/-- The lowest bit of a mask that lies below `b`, or `b`. -/
def minBit (k m b : Nat) : Nat := ((setBits k m).filter (fun i => decide (i < b))).headD b

/-- FIRST is the lowest-numbered cause set in the FCLK cycle in which ACTIVE rose (R241). -/
def State.firstCause (s : State) (n : Fin 64) (cause : Nat) : State :=
  if s.flag F.AX_FAULT_ACTIVE n && s.lp[n].activeAt == s.phys / 2 && decide (cause < s.fget F.AX_FAULT_FIRST n) then
    s.fset F.AX_FAULT_FIRST cause n
  else s

/-- Record a cause (R241): only while its bit is 0. `code` is the reaction that governs this occurrence. -/
def State.axisCause (s : State) (n : Fin 64) (cause code : Nat) : State :=
  let c := s.fget F.AX_FAULT_CAUSE n
  if bit c cause then s else
  let s1 := s.raiseBits F.AX_FAULT_CAUSE (2 ^ cause) n
  if code = 0 then s1.firstCause n cause else
  let s2 := if s.flag F.AX_FAULT_ACTIVE n then s1.firstCause n cause
    else
      let low := minBit 8 (s.justSet (F.AX_FAULT_CAUSE.addr n 0)) cause
      let t := ((s1.setFlag F.AX_FAULT_ACTIVE true n).fset F.AX_FAULT_FIRST low n).modLp n (fun l => { l with
        activeAt := s.phys / 2 })
      t.raiseFault 1 0x03 n cause [c ||| 2 ^ cause, (s.reg (F.AX_REACT_DRIVE.addr n 0)).toNat]
  s2.react n code

/-- A cause with its own reaction code (R241). -/
def State.axisFault (s : State) (n : Fin 64) (cause : Nat) : State := s.axisCause n cause (s.reactCode n cause)

/-- The axis uses a Chuck channel as PFB, VFB or CFB (R241). -/
def State.usesPfb (s : State) (n ch : Nat) : Bool :=
  (s.flag F.AX_LOOP_CFG_PFBEN n && s.fget F.AX_LOOP_CFG_PFB n == ch) ||
  (s.fget F.AX_LOOP_CFG_VSRC n == 1 && s.fget F.AX_LOOP_CFG_VFB n == ch)

def State.usesCfb (s : State) (n ch : Nat) : Bool :=
  decide (s.fget F.AX_FLD_CFG_ANGSRC n < 2) && s.axKind n == 1 && s.fget F.AX_FLD_CFG_CFB n == ch

/-- A feedback fault of a channel reaches an axis that uses it (R241, R243). -/
def State.feedbackFault (s : State) (n : Fin 64) (ch : Nat) : State :=
  if s.axKind n = 0 then s else
  let code := s.reactCode n 2
  if s.usesCfb n ch then s.axisCause n 2 (if 1 ≤ code ∧ code ≤ 3 then 4 else code)
  else if s.usesPfb n ch then s.axisCause n 2 (if code = 1 ∨ code = 2 then 4 else code)
  else s

/-- A reaction that has not done its work yet: a ramp that moves, RAMP_OFF and ZVEC with torque still on (R242). -/
def State.reacting (s : State) (n : Fin 64) : Bool :=
  let r := s.lp[n].react
  let on := s.axKind n == 0 || s.flag F.AX_LOOP_CTRL_EN n
  on && (r == 2 || r == 3 || (r == 1 && (s.ax[n].qstop || s.ax[n].t.v != 0)))

/-- ACTIVE clears when no cause with a reaction other than REPORT remains; a reaction in progress is completed (R242, R247). -/
def State.faultRelease (s : State) (n : Fin 64) : State :=
  let c := s.fget F.AX_FAULT_CAUSE n
  if !s.flag F.AX_FAULT_ACTIVE n || (setBits 8 c).any (fun i => s.reactCode n i != 0) then s
  else
    let s1 := s.setFlag F.AX_FAULT_ACTIVE false n
    if s.reacting n then s1 else
    let s2 := s1.modLp n (fun l => { l with react := 0 })
    if s.flag F.AX_LOOP_CTRL_EN n then
      s2.fset F.AX_LOOP_STATUS_RSTATE (s.runState n 1) n
    else s2

/-! ### The halt (R509) -/

/-- A bar is enabled while SKEW.CTRL.EN and its own EN are 1 (R330): a newly enabled one waits for its first F_P
tick, a disabled one is OFF. -/
def State.skewConfig (s : State) : State :=
  forFin 16 (fun b t =>
    if t.flag F.SKEW_CTRL_EN && t.flag F.BAR_CFG_EN b then
      if t.bar[b].on then t else t.modBar b (fun x => { x with on := true, fresh := true })
    else if t.bar[b].on then
      (t.modBar b (fun x => { x with on := false, fresh := false, updates := [] })).fset F.BAR_STATUS_STATE 0 b
    else t) s

/-- An F3 fault: recorded, and, unless a halt is in force, the halt (R508, R509). -/
def State.raiseF3 (s : State) (src inst detail : Nat) (data : List Nat) : State :=
  let s1 := s.raiseFault 3 src inst detail data
  if s.halted then s1 else
  let s2 := { (s1.setFlag F.FLT_DEVFLT_HALT true) with attic := { s1.attic with haltAt := some s.phys } }
  let s3 := ((s2.setFlag F.LED_CTRL_EN false).ledPause (fun _ => true)).setFlag F.SKEW_CTRL_EN false |>.skewConfig
  (forFin 64 (fun n t => t.removeTorque n) s3).gateUpdate

end Sys2Proof.Machine
end

