-- ==== Sys2Proof/Machine/Hallway.lean ====
section
/-! DEFINITION. The Hallway switch (R524 to R533) and PTP event frames at its ports (R158 to R162). Frames are bytes from
the destination address on; the layouts of Ethernet, IPv4, IPv6, UDP and PTP messages are PRESUMED from IEEE 802.3,
802.1Q, 1588-2019 and the RFCs that the spec names by protocol. -/
namespace Sys2Proof.Machine

def State.modHw (s : State) (f : Hallway → Hallway) : State := { s with hw := f s.hw }

/-! ### Frames -/

def be (bs : List Nat) (o k : Nat) : Nat := ofBytesBE ((bs.drop o).take k)

def frTagged (b : List Nat) : Bool := be b 12 2 == 0x8100
def frDst (b : List Nat) : Nat := be b 0 6
def frSrc (b : List Nat) : Nat := be b 6 6

/-- The EtherType and what follows it. -/
def frRest (b : List Nat) : List Nat := b.drop (if frTagged b then 16 else 12)

def frType (b : List Nat) : Nat := be (frRest b) 0 2

/-- Put a tag in, or leave it out (R527). -/
def frWith (b : List Nat) (tagged : Bool) (pcp vid : Nat) : List Nat :=
  b.take 12 ++ (if tagged then [0x81, 0x00] ++ bytesBE 2 (pcp * 2 ^ 13 + vid) else []) ++ frRest b

/-- A UDP frame: the offset of the UDP header, and whether it is IPv6. -/
def frUdp (b : List Nat) : Option (Nat × Bool) :=
  let o := if frTagged b then 18 else 14
  if frType b = 0x0800 ∧ be b (o + 9) 1 = 17 then some (o + 4 * (be b o 1 % 16), false)
  else if frType b = 0x86DD ∧ be b (o + 6) 1 = 17 then some (o + 40, true)
  else none

/-- The offset of a PTP message (R159): EtherType 0x88F7, or UDP to destination port 319. -/
def frPtp (b : List Nat) : Option Nat :=
  if frType b = 0x88F7 then some (if frTagged b then 18 else 14)
  else match frUdp b with
    | some (u, _) => if be b (u + 2) 2 = 319 then some (u + 8) else none
    | none => none

/-- The offset of a PTP message of either UDP port (R155). -/
def frPtpAny (b : List Nat) : Option Nat :=
  match frPtp b, frUdp b with
  | some o, _ => some o
  | none, some (u, _) => if be b (u + 2) 2 = 320 then some (u + 8) else none
  | none, none => none

/-- messageType of a PTP message: 0 Sync, 1 Delay_Req, 2 Pdelay_Req, 3 Pdelay_Resp are event messages. -/
def ptpType (b : List Nat) (o : Nat) : Nat := be b o 1 % 16

/-- Replace `k` bytes at `o`, most significant first. -/
def putBE (b : List Nat) (o k v : Nat) : List Nat := b.take o ++ bytesBE k v ++ b.drop (o + k)

/-- Padded to the shortest Ethernet frame. -/
def frPad (b : List Nat) : List Nat := b ++ List.replicate (60 - b.length) 0

/-- Length with the FCS. -/
def frLen (b : List Nat) : Nat := (frPad b).length + 4

/-! ### Ports (R524, R525) -/

/-- The table of R524. -/
def modeAllowed (p mode : Nat) : Bool :=
  mode == 0 || (mode == 1 && decide (p < 2)) || mode == 2 || mode == 3 || (mode == 4 && decide (2 ≤ p))

def State.portUp (s : State) (p : Nat) : Bool := s.flag F.HW_PORT_STATUS_LINK 0 p

/-- A write to PORT[p].CFG takes the port down (R524). -/
def State.portDown (s : State) (p : Nat) : State :=
  if s.portUp p then
    (s.setFlag F.HW_PORT_STATUS_LINK false 0 p).raise F.HW_PORT_STATUS_LINKCHG 0 p
  else s

/-- The link of a port comes up or goes down; `sgmii` is the SPEED code of the SGMII control word, `half` half duplex
reported by the PHY (R524). -/
def State.linkChange (s : State) (p : Nat) (up : Bool) (sgmii : Nat) (half : Bool) : State :=
  let mode := s.fget F.HW_PORT_CFG_MODE 0 p
  if mode = 0 ∨ !up ∨ half then s.portDown p
  else
    let speed := match mode with
      | 1 => 4
      | 2 => 3
      | 3 => 2
      | _ => sgmii
    let s1 := (s.fset F.HW_PORT_STATUS_SPEED speed 0 p).setFlag F.HW_PORT_STATUS_FDX true 0 p
    if s.portUp p then s1
    else (s1.setFlag F.HW_PORT_STATUS_LINK true 0 p).raise F.HW_PORT_STATUS_LINKCHG 0 p

/-- A write to MDIO_CMD (R525): ignored while BUSY. -/
def State.mdioWrite (s : State) (w : Nat) : State :=
  if s.flag F.HW_MDIO_CMD_BUSY then s else
  let a := F.HW_MDIO_CMD_GO.addr 0 0
  let s1 := s.setReg a (BitVec.ofNat 32 (w &&& 0x3FFE_FFFF))
  if bit w 31 then
    ((s1.setFlag F.HW_MDIO_CMD_BUSY true).setFlag F.HW_MDIO_DATA_DONE false).modHw (fun h => { h with
      mdio := some (w &&& 0x3FFE_FFFF) })
  else s1

/-- The MDIO frame ends; on a read the PHY has given `data` (R525). -/
def State.mdioEnd (s : State) (data : Nat) : State :=
  match s.hw.mdio with
  | none => s
  | some w =>
    let s1 := (s.setFlag F.HW_MDIO_CMD_BUSY false).modHw (fun h => { h with mdio := none })
    if bitsOf w 28 27 = 2 then (s1.fset F.HW_MDIO_DATA_DATA data).setFlag F.HW_MDIO_DATA_DONE true else s1

/-! ### Gates (R529 to R532) -/

/-- The segments of one cycle: GATES and length in ns. -/
def qbvCut : Nat → List (Nat × Nat) → List (Nat × Nat)
  | _, [] => []
  | left, (g, n) :: r =>
    if n = 0 ∨ left = 0 then qbvCut left r
    else
      let k := min n left
      (g, k) :: qbvCut (left - k) r

/-- The last segment holds to the end of the cycle. -/
def qbvSegs (l : QbvList) : List (Nat × Nat) :=
  let cut := qbvCut l.cycle l.entries
  match cut.reverse with
  | [] => []
  | (g, n) :: r => (r.reverse) ++ [(g, n + (l.cycle - (cut.foldl (fun a x => a + x.2) 0)))]

/-- The phase of an LCLK instant in ns within the cycle. -/
def qbvPhase (l : QbvList) (t : Nat) : Nat := (((t : Int) - (l.base : Int)) % (l.cycle : Int)).toNat

/-- The segments from a phase on, the first shortened. -/
def qbvFrom : Nat → List (Nat × Nat) → List (Nat × Nat)
  | _, [] => []
  | ph, (g, n) :: r => if ph < n then (g, n - ph) :: r else qbvFrom (ph - n) r

/-- The gate states at an LCLK instant; all open without a list. -/
def qbvGates (l : QbvList) (t : Nat) : Nat :=
  match qbvFrom (qbvPhase l t) (qbvSegs l) with
  | [] => 0xFF
  | (g, _) :: _ => g

/-- How long a TC's gate stays open along a list of segments. -/
def openRun (tc : Nat) : List (Nat × Nat) → Nat
  | [] => 0
  | (g, n) :: r => if bit g tc then n + openRun tc r else 0

/-- The longest open interval of a TC along a list of segments. -/
def longestRun (tc : Nat) : List (Nat × Nat) → Nat
  | [] => 0
  | x :: r => max (openRun tc (x :: r)) (longestRun tc r)

/-- Bring a port's gate states up to date (R529, R532). -/
def State.qbvApply (s : State) (p : Fin 4) : State :=
  s.modHw (fun h => { h with gates := h.gates.set p (qbvGates h.ops[p] s.nowNs) })

/-- The administrative list of a port (R530). -/
def State.qbvAdmin (s : State) (p : Fin 4) : QbvList :=
  { cycle := s.fget F.HW_QBV_CYCLE 0 p
    base := s.words (F.HW_QBV_BASE.addr 0 p) 2
    entries := (List.range (s.fget F.HW_QBV_LEN 0 p)).map (fun i =>
      (s.fget F.HW_GATE_GATES 0 (64 * p.val + i), s.fget F.HW_GATE_INTERVAL 0 (64 * p.val + i))) }

/-- COMMIT (R530): the new list starts at its first cycle start at or after BASE and the write. -/
def State.qbvCommit (s : State) (p : Fin 4) : State :=
  if s.flag F.HW_QBV_CTRL_PEND 0 p then s else
  let l := s.qbvAdmin p
  let now := s.nowNs + (if s.lclk % unitNs = 0 then 0 else 1)
  let start := if now ≤ l.base then l.base
    else if l.cycle = 0 then now
    else l.base + (now - l.base + l.cycle - 1) / l.cycle * l.cycle
  (s.setFlag F.HW_QBV_CTRL_PEND true 0 p).modHw (fun h => { h with start := h.start.set p start })

/-- The committed list becomes operational (R530). -/
def State.qbvStart (s : State) (p : Fin 4) : State :=
  if s.flag F.HW_QBV_CTRL_PEND 0 p && decide (s.hw.start[p] ≤ s.nowNs) then
    let l := s.qbvAdmin p
    ((s.setFlag F.HW_QBV_CTRL_PEND false 0 p).modHw (fun h => { h with ops := h.ops.set p l })).qbvApply p
  else s

/-- Gates govern a port: EN = 1 and the list has an entry (R529). -/
def State.gated (s : State) (p : Fin 4) : Bool :=
  s.flag F.HW_QBV_CTRL_EN 0 p && !(qbvSegs s.hw.ops[p]).isEmpty

/-! ### Queues (R528, R533) -/

def State.tcOf (s : State) (pcp : Nat) : Nat := bitsOf (s.fget F.HW_TCMAP) (3 * pcp + 2) (3 * pcp)

def bytesHeld (l : List EFrame) : Nat := l.foldl (fun a f => a + frLen f.bytes) 0

def State.bufferHeld (s : State) : Nat :=
  (s.hw.q.toList.foldl (fun a l => a + bytesHeld l) 0) + s.hw.rx.foldl (fun a f => a + frLen f.bytes) 0

/-- Queue a frame at an egress port (R528): 256 KiB a port, 16 KiB of them kept for TC 7, 1 MiB in all. -/
def State.enqueue (s : State) (p : Fin 4) (f : EFrame) : State :=
  let n := frLen f.bytes
  let held := bytesHeld s.hw.q[p]
  let low := bytesHeld (s.hw.q[p].filter (fun x => x.tc != 7))
  if held + n ≤ 0x4_0000 ∧ (f.tc = 7 ∨ low + n ≤ 0x3_C000) ∧ s.bufferHeld + n ≤ 0x10_0000 then
    s.modHw (fun h => { h with q := h.q.set p (h.q[p] ++ [f]) })
  else s.finc F.HW_DROPS 0 p

/-- Deliver a frame to port H: 256 descriptors (R533), and the limits of every port (R528). -/
def State.toMgmt (s : State) (f : HRx) : State :=
  let sum := fun (l : List HRx) => l.foldl (fun a x => a + frLen x.bytes) (frLen f.bytes)
  if s.hw.rx.length < 256 ∧ sum s.hw.rx ≤ 0x4_0000 ∧ (f.tc = 7 ∨ sum (s.hw.rx.filter (fun x => x.tc != 7)) ≤ 0x3_C000) ∧
      sum [] + s.bufferHeld ≤ 0x10_0000 then
    s.modHw (fun h => { h with rx := h.rx ++ [f] })
  else s

/-- The management core takes the oldest frame. -/
def State.mgmtTake (s : State) : State := s.modHw (fun h => { h with rx := h.rx.drop 1 })

/-! ### Reception (R526, R527, R158, R159) -/

/-- Entries of the VLAN table for a VID; two are an image error, and either may govern (R527). -/
def State.vlan (s : State) (vid : Nat) : Option Nat × State :=
  match (List.range 64).filter (fun v => s.flag F.HW_VLAN_EN 0 v && s.fget F.HW_VLAN_VID 0 v == vid) with
  | [] => (none, s)
  | [v] => (some v, s)
  | vs =>
    let r := s.takeFree
    (vs[r.1.toNat % vs.length]?, r.2)

def hwMac (s : State) : Nat := s.wget F.HW_MAC % 2 ^ 48

/-- An entry of the address table has been seen in the last AGE seconds (R526). -/
def State.macLive (s : State) (x : Nat × Nat × Nat) : Bool := decide (s.phys < x.2.2 + s.fget F.HW_CTRL_AGE * 10 ^ 9)

/-- Learn a source address (R526). -/
def State.learn (s : State) (mac : Nat) (p : Fin 4) : State :=
  if !s.flag F.HW_CTRL_LEARN || decide (mac / 2 ^ 40 % 2 = 1) then s else
  let others := s.hw.table.filter (fun x => x.1 != mac && s.macLive x)
  if others.length < 2048 then s.modHw (fun h => { h with table := others ++ [(mac, p.val, s.phys)] }) else s

/-- A learned address not seen for AGE seconds is removed (R526). -/
def State.macAge (s : State) (mac : Nat) : State :=
  s.modHw (fun h => { h with table := h.table.filter (fun x => x.1 != mac || s.macLive x) })

/-- Where an address was learned, unless that has aged out. -/
def State.macPort (s : State) (mac : Nat) : Option Nat :=
  (s.hw.table.find? (fun x => x.1 == mac && s.macLive x)).map (fun x => x.2.1)

/-- Corrected receive stamp (R158): LCLK `ago` ns before now, by the timescale of then (R168), less RXLAT. -/
def State.rxStamp (s : State) (p : Nat) (ago : Nat) : Nat :=
  (((s.lclk : Int) - s.stepsSince ago) / unitNs - ago - toS 16 (s.fget F.HEARTH_PORT_LAT_RXLAT 0 p)).toNat

/-- A PTP frame that a transparent clock forwards (R157, R160): in the peer-to-peer profiles not the peer-delay
messages. -/
def State.ptpForwards (s : State) (b : List Nat) (o : Nat) : Bool :=
  let t := ptpType b o
  s.fget F.HEARTH_PTP_CFG_ROLE == 3 &&
    (s.fget F.HEARTH_PTP_CFG_PROFILE == 0 || !(t == 2 || t == 3 || t == 10))

/-- The transport of a PTP message is the configured one; gPTP uses L2 (R155, R156). -/
def State.ptpTransport (s : State) (b : List Nat) : Bool :=
  let l2 := frType b == 0x88F7
  if s.fget F.HEARTH_PTP_CFG_PROFILE = 2 then l2
  else match s.fget F.HEARTH_PTP_CFG_TRANSPORT with
    | 0 => l2
    | 1 => frType b == 0x0800
    | _ => frType b == 0x86DD

/-- An Announce of the parent at the SLAVE port, in the domain, starts its interval again (R165). -/
def State.announceHeard (s : State) (p : Fin 4) (b : List Nat) : State :=
  match frPtpAny b with
  | none => s
  | some o =>
    if ptpType b o = 11 ∧ be b (o + 4) 1 = s.fget F.HEARTH_PTP_CFG_DOMAIN ∧ s.servo.slave = some p ∧
        s.servo.heard = some (be b (o + 20) 10) ∧ s.ptpTransport b then
      { s with servo := { s.servo with annAt := s.phys } }
    else s

/-- PORT.LINKDLY (R181): 0 with delay request-response; the averaged delay at the port of the measurements; what firmware
measured at another enabled port is the environment's. -/
def State.linkDly (s : State) (p : Fin 4) : Nat :=
  if s.fget F.HEARTH_PTP_CFG_PROFILE = 0 then 0
  else if s.servo.slave = some p ∨ s.fget F.HEARTH_PTP_CFG_ROLE = 0 ∨ !bit (s.fget F.HEARTH_PTP_CFG_PORTEN) p
    then s.fget F.HEARTH_PORT_LINKDLY 0 p
  else (Config.linkDelay p s.phys).toNat

/-- PORT.STATE (R157, R181), with the codes of IEEE 1588: 9 SLAVE, 6 MASTER; the others are the BMCA's. -/
def State.portState (s : State) (p : Fin 4) : Nat :=
  if s.fget F.HEARTH_PTP_CFG_ROLE = 0 ∨ !bit (s.fget F.HEARTH_PTP_CFG_PORTEN) p then 0
  else if s.servo.slave = some p then 9
  else if s.flag F.HEARTH_STATUS_GM then 6
  else 1 + (Config.portState p s.phys).toNat % 8

/-- Forward a frame to the ports of a set, tagged as the VLAN entry says. -/
def State.forward (s : State) (v : Nat) (ports : List (Fin 4)) (b : List Nat) (pcp vid : Nat) (rw : TxRewrite) : State :=
  forList ports (fun p t => t.enqueue p
    ⟨frWith b (!bit (t.fget F.HW_VLAN_UNTAG 0 v) p) pcp vid, t.tcOf pcp, rw⟩) s

/-- Where a frame goes by its destination (R526): a learned member port, else every member but the ingress. -/
def State.floodPorts (s : State) (v : Nat) (p : Fin 4) (dst : Nat) : List (Fin 4) :=
  let members := (List.finRange 4).filter (fun (q : Fin 4) => bit (s.fget F.HW_VLAN_MEMBER 0 v) q && q != p)
  if dst / 2 ^ 40 % 2 = 1 then members
  else match s.macPort dst with
    | some q => members.filter (fun x => x.val == q)
    | none => members

/-- A frame that flooding takes to port H as well. -/
def State.floodsToH (s : State) (v : Nat) (dst : Nat) : Bool :=
  bit (s.fget F.HW_VLAN_MEMBER 0 v) 4 &&
    (decide (dst / 2 ^ 40 % 2 = 1) || (s.macPort dst).isNone)

/-- A received frame, FCS included, after its checks; the answer says whether port J gets it. A frame of J's is forwarded
as any multicast is. -/
def State.hwReceive (s : State) (p : Fin 4) (frame : List Nat) (ago : Nat) : Bool × State :=
  if !s.flag F.HW_CTRL_EN || !s.portUp p then (false, s) else
  let b := frame.take (frame.length - 4)
  if frame.length < 18 ∨ s.fget F.HW_MAXLEN < frame.length ∨
      ofBytesLE (frame.drop (frame.length - 4)) ≠ crc32 b then
    (false, s.finc F.HW_RXERR 0 p)
  else
    let tci := be b 14 2
    let bare := !frTagged b || tci % 4096 == 0
    let vid := if bare then s.fget F.HW_PORT_CFG_PVID 0 p else tci % 4096
    let pcp := if bare then s.fget F.HW_PORT_CFG_DEFPCP 0 p else tci / 2 ^ 13
    let e := s.vlan vid
    match e.1 with
    | none => (false, e.2.finc F.HW_RXERR 0 p)
    | some v =>
      if !bit (e.2.fget F.HW_VLAN_MEMBER 0 v) p then (false, e.2.finc F.HW_RXERR 0 p)
      else
        let s1 := ((e.2.finc F.HW_RXFRAMES 0 p).learn (frSrc b) p).announceHeard p b
        let dst := frDst b
        let ptp := frPtp b
        let event : Bool := match ptp with
          | some o => decide (ptpType b o < 4)
          | none => false
        let stamp := s1.rxStamp p ago
        let mine := dst == hwMac s1 || (dst == 2 ^ 48 - 1 && frType b == 0x0806) || ptp.isSome
        let toJ := frType b == 0x88B5 && (dst == hwMac s1 || dst == s1.wget F.HW_J_DMAC % 2 ^ 48)
        let to' := if toJ then 2 ^ 48 - 1 else dst
        let s2 := if mine || s1.floodsToH v to' then s1.toMgmt ⟨b, s1.tcOf pcp, p, b2n event, stamp⟩ else s1
        let on : Bool := match ptp with
          | some o => s2.ptpForwards b o
          | none => !mine
        if on then
          let rw := if event then TxRewrite.forwarded stamp p else .none
          (toJ, s2.forward v (s2.floodPorts v p to') b pcp vid rw)
        else (toJ, s2)

/-! ### Transmission (R531, R160 to R162) -/

/-- Tenths of a ns that one byte takes at a SPEED. -/
def byteTime (speed : Nat) : Nat :=
  match speed with
  | 0 => 8000
  | 1 => 800
  | 2 => 80
  | 3 => 32
  | _ => 8

/-- The time from the first preamble byte to the end of the inter-frame gap, in tenths of a ns. -/
def wireTime (speed : Nat) (b : List Nat) : Nat := (frLen b + 20) * byteTime speed

/-- One's-complement sum of 16-bit words. -/
def onesSum : List Nat → Nat
  | [] => 0
  | [a] => a * 256 % 65535
  | a :: b :: r => (a * 256 + b + onesSum r) % 65535

/-- Adjust the 16-bit word at `o` so that the one's-complement sum of the message stays what it was (R161). -/
def keepSum (old new : List Nat) (o : Nat) : List Nat :=
  let d := onesSum old + 65535 - onesSum new
  let w := (be new o 2 + d) % 65535
  putBE new o 2 (if w = 0 then 0xFFFF else w)

/-- A timestamp as PTP writes it: 48 bits of seconds and 32 of ns. -/
def ptpTime (t : Nat) : Nat := t / 10 ^ 9 % 2 ^ 48 * 2 ^ 32 + t % 10 ^ 9

/-- Add to the correctionField, a signed number of ns·2⁻¹⁶. -/
def addCorrection (b : List Nat) (o : Nat) (ns : Int) : List Nat :=
  putBE b (o + 8) 8 (ofS 64 (toS 64 (be b (o + 8) 8) + ns * 65536))

def clearTwoStep (b : List Nat) (o : Nat) : List Nat :=
  putBE b (o + 6) 1 (be b (o + 6) 1 - 2 * (be b (o + 6) 1 / 2 % 2))

/-- The rewrite of an event message leaving at stamp `e` (R160); `linkDly` is added to a forwarded Sync. -/
def ptpRewrite (b : List Nat) (o : Nat) (rw : TxRewrite) (e : Nat) (linkDly : Nat) : List Nat :=
  match rw with
  | .none => b
  | .own t2 =>
    match ptpType b o with
    | 0 => clearTwoStep (putBE b (o + 34) 10 (ptpTime e)) o
    | 3 => clearTwoStep (putBE (addCorrection b o ((e : Int) - t2)) (o + 34) 10 0) o
    | _ => putBE b (o + 34) 10 (ptpTime e)
  | .forwarded stamp _ =>
    addCorrection b o ((e : Int) - stamp + (if ptpType b o = 0 then linkDly else 0))

/-- The UDP checksum of a rewritten message (R161). -/
def fixChecksum (old new : List Nat) (rw : TxRewrite) : List Nat :=
  match frUdp new with
  | none => new
  | some (u, false) => putBE new (u + 6) 2 0
  | some (u, true) => match rw with
    | .own _ => keepSum (old.drop u) (new.drop u) (be new (u + 4) 2 - 2) |> fun t => new.take u ++ t
    | _ => keepSum (old.drop u) (new.drop u) 6 |> fun t => new.take u ++ t

/-- Send a frame now: stamp and rewrite an event message, copy it to the receive queue (R158, R160, R162). -/
def State.sendFrame (s : State) (p : Fin 4) (f : EFrame) : State :=
  let speed := s.fget F.HW_PORT_STATUS_SPEED 0 p
  let e := ((s.nowNs + 8 * byteTime speed / 10 : Nat) : Int) + toS 16 (s.fget F.HEARTH_PORT_LAT_TXLAT 0 p)
  let link := match f.rewrite with
    | .forwarded _ q => s.linkDly (Fin.ofNat 4 q)
    | _ => 0
  let out := match frPtp f.bytes, f.rewrite with
    | some o, .own t2 => if ptpType f.bytes o < 4
        then fixChecksum f.bytes (ptpRewrite f.bytes o (.own t2) e.toNat link) f.rewrite else f.bytes
    | some o, .forwarded st q =>
        fixChecksum f.bytes (ptpRewrite f.bytes o (.forwarded st q) e.toNat link) f.rewrite
    | _, _ => f.bytes
  let wire := frPad out
  let done := s.phys + (wireTime speed out + 9) / 10
  let s1 := (s.finc F.HW_TXFRAMES 0 p).modHw (fun h => { h with
    busy := h.busy.set p done, sent := h.sent.set p (s.phys, wire ++ bytesLE 4 (crc32 wire)) })
  match frPtp f.bytes, f.rewrite with
  | some _, .forwarded _ _ => if s.flag F.HEARTH_CTRL_COPYFWD then s1.toMgmt ⟨out, f.tc, 4, 7, e.toNat⟩ else s1
  | some o, _ => if ptpType f.bytes o < 4 then s1.toMgmt ⟨out, f.tc, 4, 3, e.toNat⟩ else s1
  | none, _ => s1

/-- The head frame of a TC. -/
def headOf (q : List EFrame) (tc : Nat) : Option EFrame := q.find? (fun f => f.tc == tc)

def dropHead (tc : Nat) : List EFrame → List EFrame
  | [] => []
  | f :: r => if f.tc = tc then r else f :: dropHead tc r

/-- The frame can complete within some open interval of the cycle (R531). -/
def State.fitsEver (s : State) (p : Fin 4) (f : EFrame) : Bool :=
  if !s.gated p then true else
  let segs := qbvSegs s.hw.ops[p]
  segs.all (fun x => bit x.1 f.tc) ||
    decide (wireTime (s.fget F.HW_PORT_STATUS_SPEED 0 p) f.bytes ≤ 10 * longestRun f.tc (segs ++ segs))

/-- The frame can start now: its gate is open and does not close before the frame completes (R531). -/
def State.fitsNow (s : State) (p : Fin 4) (f : EFrame) : Bool :=
  if !s.gated p then true else
  let l := s.hw.ops[p]
  let segs := qbvSegs l
  let open' := openRun f.tc (qbvFrom (qbvPhase l s.nowNs) segs ++ segs)
  bit s.hw.gates[p] f.tc && (segs.all (fun x => bit x.1 f.tc) ||
    decide (wireTime (s.fget F.HW_PORT_STATUS_SPEED 0 p) f.bytes * s.rate + 20 * (s.lclk % unitNs)
      ≤ 20 * open' * unitNs))

/-- Head frames that can never complete are dropped (R531). -/
def State.dropTooLong (s : State) (p : Fin 4) : Nat → State
  | 0 => s
  | k + 1 =>
    match (List.range 8).findSome? (fun tc => (headOf s.hw.q[p] tc).filter (fun f => !s.fitsEver p f)) with
    | none => s
    | some f => State.dropTooLong ((s.modHw (fun h => { h with
        q := h.q.set p (dropHead f.tc h.q[p]) })).finc F.HW_TOOLONG 0 p) p k

/-- A free egress port starts a frame (R531), by the gates as they are now. -/
def State.hwTransmit (s0 : State) (p : Fin 4) : State :=
  let s := (s0.qbvStart p).qbvApply p
  if !s.flag F.HW_CTRL_EN || !s.portUp p || decide (s.phys < s.hw.busy[p]) then s else
  let s1 := s.dropTooLong p s.hw.q[p].length
  match [7, 6, 5, 4, 3, 2, 1, 0].findSome? (fun tc => (headOf s1.hw.q[p] tc).filter (s1.fitsNow p)) with
  | none => s1
  | some f => (s1.modHw (fun h => { h with q := h.q.set p (dropHead f.tc h.q[p]) })).sendFrame p f

/-- The Announce of a master that speaks for itself, grandmaster or in holdover: its priorities, and clockClass HOCLASS in
holdover in place of CLASS (R165). -/
def State.announceOwn (s : State) (b : List Nat) : List Nat :=
  let hold := s.flag F.HEARTH_STATUS_HOLDOVER
  match frPtpAny b with
  | none => b
  | some o =>
    if ptpType b o = 11 ∧ (hold || s.flag F.HEARTH_STATUS_GM) then
      let c := s.fget (if hold then F.HEARTH_PTP_PRIO_HOCLASS else F.HEARTH_PTP_PRIO_CLASS)
      let b1 := putBE (putBE b (o + 47) 1 (s.fget F.HEARTH_PTP_PRIO_PRIO1)) (o + 48) 1 c
      fixChecksum b (putBE b1 (o + 52) 1 (s.fget F.HEARTH_PTP_PRIO_PRIO2)) (.forwarded 0 0)
    else b

/-- The management core's transmit queue (R533). -/
def State.mgmtSend (s : State) (m : MgmtTx) : State :=
  forFin 4 (fun p t => if m.ports.getLsbD p then
      t.enqueue p ⟨t.announceOwn (m.bytes.map BitVec.toNat), t.tcOf m.pcp.toNat, if m.oneStep then .own m.t2 else .none⟩ else t) s

end Sys2Proof.Machine
end

