-- ==== Sys2Proof/Machine/Joist.lean ====
section
/-! DEFINITION. The Joist engine (R534 to R544). -/
namespace Sys2Proof.Machine

def State.modJo (s : State) (f : Joist → Joist) : State := { s with jo := f s.jo }

/-- The remote servo axes whose ATT is a record (R535, R542). -/
def State.remoteAxes (s : State) (r : Nat) : List (Fin 64) :=
  (List.finRange 64).filter (fun n => s.axKind n == 2 && s.fget F.AX_CFG_ATT n == r)

/-- The axes that take a set-point from a record (R542). -/
def State.refAxes (s : State) (r : Nat) : List (Fin 64) :=
  (List.finRange 64).filter (fun n => s.fget F.AX_LOOP_CFG_REFJ n == r &&
    (s.fget F.AX_LOOP_CFG_REFSRC n == 2 || s.fget F.AX_LOOP_CFG_EXTSRC n == 1))

/-! ### Inbound (R536, R540, R541) -/

def State.timedOut (s : State) : Nat := s.wget F.HW_J_TMOREC

/-- Cause DRIVE or SPLOSS persists on an axis: its record is timed out, or its drive reports FAULT (R542). -/
def State.driveHeld (s : State) (n : Fin 64) : Bool :=
  let r := s.fget F.AX_CFG_ATT n
  s.axKind n == 2 && (bit s.timedOut r || (bit s.jo.seen r && bit (s.fget F.HW_J_RXREC 0 (4 * r)) 9))

def State.refHeld (s : State) (n : Fin 64) : Bool :=
  (s.fget F.AX_LOOP_CFG_REFSRC n == 2 || s.fget F.AX_LOOP_CFG_EXTSRC n == 1) &&
    bit s.timedOut (s.fget F.AX_LOOP_CFG_REFJ n)

/-- The extensions of a record begin with the first one accepted (R226, R536). -/
def State.recBegin (s : State) (r : Nat) : State :=
  if s.jo.ext.any (fun x => x.rec' == r) then s else
  let v := fun (w : Nat) => toS 32 (s.fget F.HW_J_RXREC 0 (4 * r + w))
  s.modJo (fun j => { j with ext := j.ext ++ [⟨r, ⟨v 1, v 1⟩, ⟨v 3, v 3⟩⟩] })

/-- One record of an accepted frame (R541, R542). -/
def State.joistRecord (s : State) (rec' : List Nat) : State :=
  let r := rec'.head?.getD 0 % 64
  let s1 := (List.range 4).foldl (fun t w => t.fset F.HW_J_RXREC (ofBytesLE ((rec'.drop (4 * w)).take 4)) 0 (4 * r + w)) s
  let tm := s1.timedOut
  let s2 := s1.wset F.HW_J_TMOREC (if bit tm r then tm - 2 ^ r else tm)
  let s3 := s2.setFlag F.HW_J_STATUS_TIMEOUT (decide (s2.timedOut ≠ 0))
  let s4 := (s3.recBegin r).modJo (fun j => { j with
    seen := j.seen ||| 2 ^ r, got := j.got ||| 2 ^ r
    counts := j.counts.filter (fun x => x.1 != r) })
  if bit (rec'[1]?.getD 0) 1 then forList (s4.remoteAxes r) (fun n t => t.axisFault n 4) s4 else s4

def recordsOf : Nat → List Nat → List (List Nat)
  | 0, _ => []
  | k + 1, b => b.take 16 :: recordsOf k (b.drop 16)

/-- Sources whose every record has timed out are freed (R540). -/
def State.freeSources (s : State) : State :=
  s.modJo (fun j => { j with sources := j.sources.filter (fun x =>
    !(x.2.2 != 0 && x.2.2 &&& s.timedOut == x.2.2)) })

/-- A frame delivered to port J: what follows its EtherType (R534, R540). -/
def State.joistReceive (s : State) (b : List Nat) : State :=
  if !s.flag F.HW_J_CFG_EN then s else
  let nrec := b[6]?.getD 0
  let want := 16 + 16 * nrec
  let long := b.length == want || (decide (want < b.length) && decide (b.length ≤ 46))
  if b.length < 16 ∨ b[0]?.getD 0 ≠ 1 ∨ 64 < nrec ∨ !long then s.finc F.HW_J_BADHDR
  else if !bit (b[1]?.getD 0) 4 then s
  else
    let src := ofBytesLE ((b.drop 2).take 2)
    let seq := ofBytesLE ((b.drop 4).take 2)
    let recs := recordsOf nrec (b.drop 16)
    let mask := maskOf (recs.map (fun r => r.head?.getD 0 % 64))
    let take (t : State) (old : Nat) : State :=
      let t1 := (t.finc F.HW_J_RXFRAMES).modJo (fun j => { j with
        sources := j.sources.filter (fun x => x.1 != src) ++ [(src, seq, old ||| mask)] })
      forList recs (fun r u => u.joistRecord r) t1
    match s.jo.sources.find? (fun x => x.1 == src) with
    | none => if s.jo.sources.length < 32 then take s 0 else s.raise F.HW_J_STATUS_SRCFULL
    | some (_, last, old) =>
      let mine := old &&& s.wget F.HW_J_INMASK
      let d := toS 16 (ofS 16 ((seq : Int) - last))
      if (mine ≠ 0 ∧ mine &&& s.timedOut = mine) ∨ 0 < d then take s old
      else if d = 0 then s.finc F.HW_J_DUP
      else s.finc F.HW_J_STALE

/-! ### Ticks and timeouts (R542) -/

/-- A Joist tick: the records of INMASK that none was accepted of since the previous tick count on. -/
def State.joistCount (s : State) : State :=
  s.modJo (fun j => { j with
    counts := (setBits 64 (s.wget F.HW_J_INMASK &&& (2 ^ 64 - 1 - (j.got % 2 ^ 64)))).map (fun r =>
      (r, ((j.counts.find? (fun x => x.1 == r)).map (·.2)).getD 0 + 1))
    got := 0 })

/-- Record r is timed out once its count reaches TMO. -/
def State.joistTimeout (s : State) (r : Fin 64) : State :=
  let tmo := s.fget F.HW_J_CFG_TMO
  let count := ((s.jo.counts.find? (fun x => x.1 == r.val)).map (·.2)).getD 0
  if tmo = 0 ∨ count < tmo ∨ bit s.timedOut r then s else
  let s1 := (s.wset F.HW_J_TMOREC (s.timedOut ||| 2 ^ r.val)).setFlag F.HW_J_STATUS_TIMEOUT true
  let s2 := forList (s1.remoteAxes r) (fun n t => t.axisFault n 4) s1
  (forList (s2.refAxes r) (fun n t => t.axisFault n 3) s2).freeSources

/-! ### Outbound (R534, R535, R537 to R539, R544) -/

/-- Byte 1 of record r as the engine writes it at departure (R535, R537): EN, FLTRST, TORQUE. -/
def State.joistCtrl (s : State) (r : Nat) : Nat :=
  let on := fun (f : Fin 64 → Bool) => (s.remoteAxes r).any f
  b2n (!s.halted && !s.sleepGate && on (fun n => s.flag F.AX_LOOP_CTRL_EN n)) + 2 * b2n (bit s.jo.fltrst r) +
    4 * b2n (on (fun n => s.fget F.AX_LOOP_CFG_RMODE n == 1))

/-- The engine puts CTRL into TXREC[r]. -/
def State.joistStamp (s : State) (r : Nat) : State :=
  let w := s.fget F.HW_J_TXREC 0 (4 * r)
  s.fset F.HW_J_TXREC (putBits w 15 8 (s.joistCtrl r)) 0 (4 * r)

/-- The frame of cycle `k` with NS32 `ns` (R534). -/
def State.joistFrame (s : State) (k ns : Nat) : List Nat :=
  let recs := setBits 64 (s.wget F.HW_J_OUTMASK)
  let flags := b2n (s.flag F.HW_J_CFG_TWIN) + 2 * b2n (s.flag F.HEARTH_STATUS_HOLDOVER) +
    4 * b2n (s.flag F.HEARTH_STATUS_LOCKED) + 8 * b2n s.jo.stepped
  let head := [1, flags] ++ bytesLE 2 (s.fget F.HW_J_SRCID) ++ bytesLE 2 s.jo.seq ++ [recs.length % 256, 0] ++
    bytesLE 4 k ++ bytesLE 4 ns
  let tag := if s.flag F.HW_J_CFG_TAGGED
    then [0x81, 0x00] ++ bytesBE 2 (s.fget F.HW_J_CFG_PCP * 2 ^ 13 + s.fget F.HW_J_CFG_VID) else []
  bytesBE 6 (s.wget F.HW_J_DMAC) ++ bytesBE 6 (hwMac s) ++ tag ++ [0x88, 0xB5] ++ head ++
    recs.flatMap (fun r => (List.range 4).flatMap (fun w => bytesLE 4 (s.fget F.HW_J_TXREC 0 (4 * r + w))))

/-- One frame departs for its egress queues (R537, R539). -/
def State.joistSend (s : State) (k ns : Nat) : State :=
  let s1 := forList (setBits 64 (s.wget F.HW_J_OUTMASK)) (fun r t => t.joistStamp r) s
  let f : EFrame := ⟨s1.joistFrame k ns, s1.tcOf (s1.fget F.HW_J_CFG_PCP), .none⟩
  let ports := if s1.flag F.HW_J_CFG_TWIN then 3 else s1.fget F.HW_J_CFG_EPORT
  let s2 := (forFin 4 (fun p t => if bit ports p then t.enqueue p f else t) s1).finc F.HW_J_TXFRAMES
  s2.modJo (fun j => { j with
    seq := (j.seq + 1) % 65536, stepped := false
    fltrst := j.fltrst - (j.fltrst &&& s2.wget F.HW_J_OUTMASK) })

/-- Words of outbound records as the outer-loop work writes them (R535). -/
def State.joistWrite (s : State) (rows : List (Nat × List Nat)) : State :=
  forList rows (fun x t => forList x.2.zipIdx (fun w u => u.fset F.HW_J_TXREC w.1 0 (4 * x.1 + w.2)) t) s

/-- What the outer-loop work has given for the cycle that begins comes into TXREC. Where it had not finished, or a core fault kept
it from running, the frame of the tick is late (R34, R538). -/
def State.latchJoist (s : State) : State :=
  let rows := s.jo.txNext
  let s1 := s.joistWrite s.jo.txLate
  if !rows.isEmpty && Config.outerLate s.seq.k && !s.jo.txHeld then
    s1.modJo (fun j => { j with txNext := [], txLate := rows, late := true })
  else (s1.joistWrite rows).modJo (fun j => { j with txNext := [], txLate := [], txHeld := false, late := j.txHeld })

/-- One frame departs; a late one carries the values last written, and the outer-loop work finishes after it (R538). -/
def State.joistGo (s : State) (k ns : Nat) : State :=
  if s.jo.late then
    ((((s.raise F.HW_J_STATUS_LATE).joistSend k ns).joistWrite s.jo.txLate).modJo (fun j => { j with
      txLate := [], late := false }))
  else s.joistSend k ns

/-- JOIST_DEPART: the oldest frame due departs once its instant has come (R537). -/
def State.joistDepart (s : State) : State :=
  match s.jo.due with
  | [] => s
  | (k, at', ns) :: r => if s.run < at' then s else (s.modJo (fun j => { j with due := r })).joistGo k ns

end Sys2Proof.Machine
end

