-- ==== Sys2Proof/Machine/Threshold.lean ====
section
/-! DEFINITION. The Threshold safety island (R471 to R505). Channel 0 is A, channel 1 is B. -/
namespace Sys2Proof.Machine

def State.modThr (s : State) (f : Thr → Thr) : State := { s with thr := f s.thr }

def State.modThCh (s : State) (c : Fin 2) (f : ThrCh → ThrCh) : State :=
  s.modThr (fun t => { t with ch := t.ch.set c (f t.ch[c]) })

def State.modThGrp (s : State) (g : Fin 4) (f : ThrGrp → ThrGrp) : State :=
  s.modThr (fun t => { t with grp := t.grp.set g (f t.grp[g]) })

/-- A field of block A in force (R499): `k` bytes at offset `o`. -/
def Thr.field (t : Thr) (o k : Nat) : Nat :=
  match t.block with
  | none => 0
  | some b => ofBytesLE ((b.drop o).take k)

def Thr.enabled (t : Thr) (g : Nat) : Bool := t.block.isSome && bit (t.field 0x14 1) g

def Thr.axmask (t : Thr) (g : Nat) : Nat := t.field (0x18 + 16 * g) 8
def Thr.linkmask (t : Thr) (g : Nat) : Nat := t.field (0x20 + 16 * g) 2

def otherCh (c : Fin 2) : Fin 2 := if c = 0 then 1 else 0

/-! ### The status mirror (R504) -/

/-- THR.STATUS as the island has it. -/
def Thr.status (t : Thr) : Nat :=
  b2n t.block.isSome * 2 ^ 31 + b2n t.saferej * 2 ^ 30 + b2n (!t.grp.any (fun g => g.state == 2)) * 2 ^ 26 +
    b2n t.clkloss * 2 ^ 25 + b2n t.ch[1].faulty * 2 ^ 24 + b2n t.ch[0].faulty * 2 ^ 23 +
    maskOf ((List.finRange 4).filterMap (fun g => if t.grp[g].degr then some (16 + g.val) else none))

def ThrGrp.fault (x : ThrGrp) : Nat :=
  b2n x.lockGr * 32 + b2n x.lock2 * 16 + b2n x.rb * 8 + b2n x.ls * 4 + b2n x.hs * 2 + b2n x.disc

def Thr.groupWord (t : Thr) (g : Fin 4) : Nat :=
  let x := t.grp[g]
  x.cause * 2 ^ 24 + t.ch[1].band[g] * 2 ^ 18 + t.ch[0].band[g] * 2 ^ 16 + b2n x.lsw * 2 ^ 11 + b2n x.hsw * 2 ^ 10 +
    b2n x.cycled * 2 ^ 9 + b2n x.test.isSome * 2 ^ 8 + b2n t.ch[0].level[2 * g.val + 1] * 2 ^ 7 +
    b2n t.ch[0].level[2 * g.val] * 2 ^ 6 + x.state

/-- Seconds of grace left, rounded up (R504). -/
def State.graceLeft (s : State) (g : Fin 4) : Nat :=
  match s.thr.grp[g].graceFrom with
  | none => 0xFFFF_FFFF
  | some t => (t + s.thr.field 0x0C 2 * 60 * 10 ^ 9 - s.phys + 10 ^ 9 - 1) / 10 ^ 9

/-- The island refreshes the mirror (R504). -/
def State.thrMirror (s : State) : State :=
  let t := s.thr
  let put (f : Fld) (v : Nat) (j : Nat) (u : State) : State := u.setReg (f.addr 0 j) (BitVec.ofNat 32 v)
  let s1 := ((s.setReg (F.THR_STATUS_CONFIG.addr 0 0) (BitVec.ofNat 32 t.status)).fset F.THR_SAFECRC
    (t.field 0x7C 4)).fset F.THR_RSTREJ t.rstrej
  let s2 := forFin 4 (fun g u =>
    let x := t.grp[g]
    put F.THR_GRP_COUNT_TESTS (x.entries % 65536 * 65536 + x.tests % 65536) g (put F.THR_GRACE (s.graceLeft g) g
      (put F.THR_GRP_FAULT_DISC x.fault g (put F.THR_GRP_STATUS_STATE (t.groupWord g) g u)))) s1
  forFin 32 (fun i u => put F.THR_BLOCK (t.field (4 * i.val) 4) i u) s2

/-! ### What the rest of the device sees (R475, R507) -/

/-- A THRESH record (R507); `inst` is the group or 0xFF. In Sleep nothing outside the island records it. -/
def State.thrRecord (s : State) (inst : Nat) : State :=
  if s.off then s else
  let f : Nat := match s.thr.grp[inst]? with
    | some x => x.fault
    | none => 0
  s.raiseFault 2 0x0B inst 0 [s.thr.status, f]

/-- Cause STO on every axis of every group not in RUN, and gate disable on their links (R475). -/
def State.thrEffect (s : State) : State :=
  let out := (List.finRange 4).filter (fun g => s.thr.grp[g].state != 2)
  let axes := out.foldl (fun (m : Nat) (g : Fin 4) => m ||| s.thr.axmask g) 0
  let links := out.foldl (fun (m : Nat) (g : Fin 4) => m ||| s.thr.linkmask g) 0
  if s.off then { s with gateLinks := links } else
  let s1 := forFin 64 (fun n t => if bit axes n then t.axisFault n 7 else t) s
  ({ s1 with gateLinks := links }).gateUpdate

/-- Cause STO persists on an axis while a group that names it is not in RUN (R475). -/
def State.stoHeld (s : State) (n : Nat) : Bool :=
  (List.finRange 4).any (fun g => s.thr.grp[g].state != 2 && bit (s.thr.axmask g) n)

/-! ### Switches (R472, R486) -/

/-- The channels command a group's switches; a command that changes one starts SETTLE (R486). A faulty channel's wave
keeps its state (R494); a channel whose clock, supply or driver has failed drives none (R472). -/
def State.thrSwitch (s : State) (g : Fin 4) (h l : Bool) : State :=
  let x := s.thr.grp[g]
  let a := s.thr.ch[0]
  let b := s.thr.ch[1]
  let h := if a.faulty then x.wantH else h
  let l := if b.faulty then x.wantL else l
  if h = x.wantH ∧ l = x.wantL then s else
  let s1 := s.modThGrp g (fun y => { y with
    wantH := h, wantL := l, cross := 0
    hsw := if a.faulty then y.hsw else h && !a.mute && a.started
    lsw := if b.faulty then y.lsw else l && !b.mute && b.started
    settle := s.phys + s.thr.field 0x12 2 * 1000000 })
  s1.modThr (fun t => { t with ch := t.ch.map (fun c => { c with
    mis := c.mis.set g 0, inv := c.inv.set g 0 }) })

/-- Whether each switch is closed, as the checks take it: as a fault has made it known, as a faulty channel holds it,
else as commanded (R486, R494). -/
def Thr.closed (t : Thr) (g : Fin 4) : Bool × Bool :=
  let x := t.grp[g]
  (x.knownH.getD (if t.ch[0].faulty then x.hsw else x.wantH),
    x.knownL.getD (if t.ch[1].faulty then x.lsw else x.wantL))

/-- The band the midpoint gives (R486): 0 LOW, 1 MID, 2 HIGH. -/
def midpoint (h l : Bool) : Nat := if h = l then 1 else if h then 2 else 0

def Thr.expected (t : Thr) (g : Fin 4) : Nat := midpoint (t.closed g).1 (t.closed g).2

/-- A channel's clock, supply or driver stage fails: its waves stop (R472). -/
def State.thrMute (s : State) (c : Fin 2) : State :=
  (s.modThCh c (fun x => { x with mute := true })).modThr (fun t => { t with
    grp := t.grp.map (fun x => if c = 0 then { x with hsw := false } else { x with lsw := false }) })

/-- REFCLK stops, and with it channel A (R472, R497). -/
def State.thrClockStop (s : State) : State := (s.thrMute 0).modThCh 0 (fun x => { x with stopped := true })

/-- The channels drop their decisions on a group (R491). -/
def State.thrForget (s : State) (g : Fin 4) : State :=
  s.modThr (fun t => { t with ch := t.ch.map (fun c => { c with dec := c.dec.set g false, heard := c.heard.set g false }) })

/-! ### Group states (R479, R480, R495) -/

/-- A group in RUN enters STO (R480, R488). -/
def State.thrSto (s : State) (g : Fin 4) (cause : Nat) : State :=
  if s.thr.grp[g].state ≠ 2 then s else
  let s1 := s.modThGrp g (fun x => { x with
    state := 1, cause := cause, entries := x.entries + 1, cycled := false
    nextTest := if x.test.isSome || x.lowAt.isSome then s.phys + s.thr.field 0x10 2 * 10 ^ 9 else 0
    test := none, lowAt := none })
  (s1.thrForget g |>.thrSwitch g false false).thrEffect

/-- The grace timer of a group has reached GRACE minutes (R495). -/
def State.graceOver (s : State) (g : Fin 4) : Bool :=
  s.thr.block.isSome && s.thr.grp[g].graceFrom.any (fun t => decide (t + s.thr.field 0x0C 2 * 60 * 10 ^ 9 ≤ s.phys))

/-- A group enters LOCK (R495): by the grace timer, or by a second fault. A group that is not enabled stays in UNCONF
(R479). -/
def State.thrLock (s : State) (g : Fin 4) (byGrace : Bool) : State :=
  if s.thr.grp[g].state = 3 ∨ s.thr.grp[g].state = 0 then s else
  let byGrace := byGrace || s.graceOver g
  let s1 := s.modThGrp g (fun x => { x with
    state := 3, lockGr := x.lockGr || byGrace, lock2 := x.lock2 || !byGrace, test := none, lowAt := none })
  ((s1.thrSwitch g false false).thrEffect).thrRecord g

/-- A fault of R492 degrades a group and starts the grace timer, or, found while it is degraded, locks it. A switch or
readback fault that takes a group out of RUN is cause 5 (R480). -/
def State.thrDegrade (s : State) (g : Fin 4) (switch : Bool) : State :=
  if s.thr.grp[g].degr then (if switch then s.thrSto g 5 else s).thrLock g false
  else
    let s1 := s.modThGrp g (fun x => { x with degr := true, graceFrom := some s.phys })
    if switch then s1.thrRecord g else s1

/-- A switch fault (R486): its latched bit, and the state it makes known. -/
def State.thrSwitchFault (s : State) (g : Fin 4) (low known : Bool) : State :=
  let x := s.thr.grp[g]
  if low then
    if x.ls then s else (s.modThGrp g (fun y => { y with ls := true, knownL := some known })).thrDegrade g true
  else
    if x.hs then s else (s.modThGrp g (fun y => { y with hs := true, knownH := some known })).thrDegrade g true

def State.thrReadbackFault (s : State) (g : Fin 4) : State :=
  if s.thr.grp[g].rb then s else
  (s.modThGrp g (fun y => { y with rb := true, test := none, lowAt := none })).thrDegrade g true

/-- A channel is faulty (R492, R494): every group is degraded, or with both channels faulty every group locks (R495). -/
def State.thrChannelFault (s : State) (c : Fin 2) : State :=
  if s.thr.ch[c].faulty then s else
  let s1 := (s.modThCh c (fun x => { x with faulty := true })).thrRecord 0xFF
  let s2 := forFin 4 (fun g t => t.modThGrp g (fun x => { x with test := none, lowAt := none })) s1
  if s.thr.ch[otherCh c].faulty then forFin 4 (fun g t => t.thrLock g false) s2
  else forFin 4 (fun g t => t.thrDegrade g false) s2

/-- A group enters RUN: both waves start (R491). -/
def State.thrRun (s : State) (g : Fin 4) : State :=
  let period := s.phys + s.thr.field 0x10 2 * 10 ^ 9
  let s1 := s.modThGrp g (fun x => { x with
    state := 2, req := false, nextTest := if s.phys < x.nextTest then x.nextTest else period })
  (s1.thrForget g |>.thrSwitch g true true).thrEffect

/-! ### Samples (R476 to R478, R485) -/

/-- One sample of an input: the level and the run of samples that differ from it. -/
def filterSample (tfilt : Nat) (level : Bool) (run : Nat) (x : Bool) : Bool × Nat :=
  if x = level then (level, 0) else if tfilt ≤ run + 1 then (x, 0) else (level, run + 1)

/-- Channel `c` samples its inputs and the readbacks; an input that falls undoes a decision not yet carried out (R491): `ins` bit 2·g is STOAg, bit 2·g + 1 STOBg; `bands` two bits for
each SFBg. -/
def State.thrSample (s : State) (c : Fin 2) (ins : BitVec 8) (bands : BitVec 8) : State :=
  let k := s.thr.ch[c]
  if k.faulty || !k.started || k.stopped then s else
  let tf := s.thr.field 0x08 2
  let new := Vector.ofFn (fun (i : Fin 8) => filterSample tf k.level[i] k.run[i] (ins.getLsbD i))
  let band := Vector.ofFn (fun (g : Fin 4) => bitsOf bands.toNat (2 * g.val + 1) (2 * g.val))
  let s1 := s.modThCh c (fun x => { x with
    level := new.map Prod.fst, run := new.map Prod.snd, band := band })
  forFin 4 (fun g t =>
    let seen := band[g] == t.thr.expected g
    let t1 := t.modThGrp g (fun x => { x with test := x.test.map (fun d =>
      if c = 0 then { d with seenA := d.seenA || seen } else { d with seenB := d.seenB || seen }) })
    let fell := fun (i : Fin 8) => k.level[i] && !new[i].1
    let a := fell ⟨2 * g.val, by omega⟩
    if !t1.thr.enabled g || !(a || fell ⟨2 * g.val + 1, by omega⟩) then t1
    else (t1.thrForget g).thrSto g (if a then 1 else 2)) s1

/-! ### Ticks (R482, R486, R489) -/

/-- Discrepancy (R482, R484). -/
def State.thrDiscrepancy (s : State) (c : Fin 2) (g : Fin 4) : State :=
  let k := s.thr.ch[c]
  let a := k.level[2 * g.val]
  let b := k.level[2 * g.val + 1]
  let n := if a = b then 0 else k.diff[g] + 1
  let s1 := s.modThCh c (fun x => { x with diff := x.diff.set g n })
  let x := s.thr.grp[g]
  if !x.disc then
    if 4 * s.thr.field 0x0A 2 + (if c = 0 then 1 else 41) ≤ n then
      (s1.modThGrp g (fun y => { y with disc := true, discLow := false })).thrSto g 4
    else s1
  else if x.state = 3 ∨ (c = 1 ∧ !s.thr.ch[0].faulty) then s1
  else if !a && !b then s1.modThGrp g (fun y => { y with discLow := true })
  else if a && b && x.discLow then s1.modThGrp g (fun y => { y with disc := false, discLow := false })
  else s1

/-- The switch an unexpected band accuses, true the low one, and the state that makes known (R486): the switch whose
other state gives the band; where both or neither does, R486 names none, and which one is a free choice. -/
def State.thrAccused (s : State) (g : Fin 4) (band : Nat) : (Bool × Bool) × State :=
  let (h, l) := s.thr.closed g
  let byH := midpoint (!h) l == band
  let byL := midpoint h (!l) == band
  if byH && !byL then ((false, !h), s)
  else if byL && !byH then ((true, !l), s)
  else
    let r := s.takeFree
    if r.1.toNat % 2 = 0 then ((false, !h), r.2) else ((true, !l), r.2)

/-- The checks of R486 at a tick. -/
def State.thrReadback (s : State) (c : Fin 2) (g : Fin 4) : State :=
  let x := s.thr.grp[g]
  if x.rb || decide (s.phys < x.settle) then s else
  let band := s.thr.ch[c].band[g]
  let exp := s.thr.expected g
  let differ := band != s.thr.ch[otherCh c].band[g] && !s.thr.ch[otherCh c].faulty
  let inv := if band = 3 then s.thr.ch[c].inv[g] + 1 else 0
  let mis := if band = 3 ∨ band = exp then 0 else s.thr.ch[c].mis[g] + 1
  let s1 := s.modThCh c (fun k => { k with inv := k.inv.set g inv, mis := k.mis.set g mis })
  let s2 := if c = 0 then s1.modThGrp g (fun y => { y with cross := if differ then y.cross + 1 else 0 }) else s1
  if 2 ≤ inv ∨ 8 ≤ s2.thr.grp[g].cross then s2.thrReadbackFault g
  else if 2 ≤ mis then
    let r := s2.thrAccused g band
    r.2.thrSwitchFault g r.1.1 r.1.2
  else s2

/-- The conditions of R489 as channel `c` finds them at a tick. -/
def State.thrCan (s : State) (c : Fin 2) (g : Fin 4) : Bool :=
  let x := s.thr.grp[g]
  let k := s.thr.ch[c]
  let held := fun (i : Fin 2) (on : Bool) => !s.thr.ch[i].faulty || on
  let band := fun (i : Fin 2) => s.thr.ch[i].faulty || x.rb || s.thr.ch[i].band[g] == s.thr.expected g
  s.thr.enabled g && x.state == 1 && k.level[2 * g.val] && k.level[2 * g.val + 1] && x.cycled && !x.disc &&
    band 0 && band 1 && !bit (s.fget F.THRQ_THR_DEMAND) g && held 0 x.hsw && held 1 x.lsw

/-- Both channels have decided on the same request, as one that decides and has heard the other knows (R491). -/
def Thr.agreed (t : Thr) (c : Fin 2) (g : Fin 4) : Bool :=
  let o := otherCh c
  t.ch[c].dec[g] && (t.ch[o].faulty || (t.ch[c].heard[g] && t.ch[o].dec[g]))

/-- The reset decision of a channel at its tick (R489, R490). -/
def State.thrDecide (s : State) (c : Fin 2) (g : Fin 4) : State :=
  let x := s.thr.grp[g]
  let auto := bit (s.thr.field 0x15 1) g && s.thr.enabled g
  if !x.req && !auto then s
  else
    let ok := s.thrCan c g
    let s1 := s.modThCh c (fun k => { k with dec := k.dec.set g ok })
    if ok then (if s1.thr.agreed c g then s1.thrRun g else s1)
    else if x.req then
      let s2 := (s1.modThr (fun t => { t with rstrej := (t.rstrej + 1) % 2 ^ 32 })).thrForget g
      s2.modThGrp g (fun y => { y with req := false })
    else s1

/-- One group at a tick of a channel. -/
def State.thrGroupTick (s : State) (c : Fin 2) (g : Fin 4) : State :=
  if !s.thr.enabled g then s.thrDecide c g else
  let s1 := s.thrDiscrepancy c g
  let k := s1.thr.ch[c]
  let low := !k.level[2 * g.val] && !k.level[2 * g.val + 1]
  let s2 := if low ∧ s1.thr.grp[g].state = 1 then s1.modThGrp g (fun x => { x with cycled := true }) else s1
  let s3 := if bit (s2.fget F.THRQ_THR_DEMAND) g then s2.thrSto g 3 else s2
  (s3.thrReadback c g).thrDecide c g

/-! ### The SAFE section (R499 to R501) -/

/-- One channel's checks of bytes 0x00 to 0x7B of a block and of the CRC it goes with (R500). -/
def blockGood (b : List Nat) : Bool :=
  let f := fun o k => ofBytesLE ((b.drop o).take k)
  let within := fun o lo hi => decide (lo ≤ f o 2) && decide (f o 2 ≤ hi)
  f 0 4 == 0x4653_4854 && f 4 2 == 1 && f 6 2 == 0 && within 0x08 0 640 && within 0x0A 1 500 && within 0x0C 1 480 &&
    within 0x0E 20 500 && within 0x10 1 3600 && within 0x12 1 50 && decide (f 0x14 1 < 16) && decide (f 0x15 1 < 16) &&
    f 0x16 2 == 0 && f 0x22 6 == 0 && f 0x32 6 == 0 && f 0x42 6 == 0 && f 0x52 6 == 0 && f 0x58 36 == 0

/-- Both channels accept a section of 256 bytes (R499, R500). -/
def safeGood (sec : List Nat) : Bool :=
  let a := sec.take 0x7C
  let b := (sec.drop 0x80).take 0x7C
  let n := b.map (fun x => 255 - x % 256)
  sec.length == 256 && ofBytesLE ((sec.drop 0x7C).take 4) == crc32 a && ofBytesLE ((sec.drop 0xFC).take 4) == crc32 b &&
    blockGood a && blockGood n && a == n

/-- The offered section is judged once both start-up tests have ended (R497, R500, R501). -/
def State.thrJudge (s : State) : State :=
  match s.thr.offer with
  | none => s
  | some sec =>
    if !s.thr.ch[0].started || !s.thr.ch[1].started then s else
    let s1 := s.modThr (fun t => { t with offer := none })
    let reject := s1.modThr (fun t => { t with saferej := true })
    if !safeGood sec || s.thr.ch[0].faulty || s.thr.ch[1].faulty then reject
    else if s.thr.block.isSome && s.thr.field 0x7C 4 == ofBytesLE ((sec.drop 0x7C).take 4) then
      s1.modThr (fun t => { t with saferej := false })
    else if s.thr.grp.any (fun g => g.state == 2) then reject
    else
      let s2 := s1.modThr (fun t => { t with saferej := false, block := some (sec.take 128) })
      (forFin 4 (fun g u =>
        let x := u.thr.grp[g]
        if u.thr.enabled g then
          if x.state = 0 then u.modThGrp g (fun y => { y with
            state := 1, cause := 0, cycled := true, entries := y.entries + 1 })
          else u
        else if x.state = 3 then u
        else u.modThGrp g (fun y => { y with state := 0 })) s2).thrEffect

/-- The loader hands the SAFE section over (R499). -/
def State.thrOffer (s : State) (sec : List Nat) : State :=
  (s.modThr (fun t => { t with offer := some sec })).thrJudge

/-! ### Commands -/

/-- A tick of channel `c` (R482, R497, R504): how channel B finds REFCLK, and whether the channel has read bad parity. -/
def State.thrTick (s : State) (c : Fin 2) (refclk : Refclk) (badParity : Bool) : State :=
  let k := s.thr.ch[c]
  if k.faulty || !k.started || k.stopped then s
  else if badParity then
    let s1 := s.thrChannelFault c
    if s1.thr.ch[otherCh c].faulty then s1.thrMirror else s1
  else
    let s1 : State := if c = 1 ∧ refclk ≠ .ok ∧ !s.thr.clkloss then
      let t := s.modThr (fun t => { t with clkloss := true })
      if t.thr.ch[0].faulty then t.thrRecord 0xFF else t.thrChannelFault 0
    else s
    let s2 : State := if c = 1 ∧ refclk = .stopped then s1.thrClockStop else s1
    let s3 := forFin 4 (fun g t => t.thrGroupTick c g) s2
    if c = 0 || s3.thr.ch[0].faulty then s3.thrMirror else s3

/-- A keyed write to THR_RSTREQ (R490, R505). With RSTSRC = 1 the register is not the group's source. -/
def State.thrRequest (s : State) (key groups : Nat) : State :=
  if key ≠ 0x5AC3 then s else
  forFin 4 (fun g t =>
    if bit groups g && !(t.thr.enabled g && bit (t.thr.field 0x15 1) g) then
      (t.modThGrp g (fun x => { x with req := true })).thrForget g
    else t) s

/-- The high-side half of a dark test falls due (R487, R488). -/
def State.thrDark (s : State) (g : Fin 4) : State :=
  let x := s.thr.grp[g]
  if x.state ≠ 2 ∨ s.phys < x.nextTest ∨ x.test.isSome ∨ x.lowAt.isSome then s else
  let s1 := s.modThGrp g (fun y => { y with nextTest := s.phys + s.thr.field 0x10 2 * 10 ^ 9 })
  if x.rb || s.thr.ch[0].faulty || s.thr.ch[1].faulty then s1
  else (s1.modThGrp g (fun y => { y with test := some ⟨false, s.phys, false, false⟩ })).thrSwitch g false true

/-- The low-side half, 10 ms after the high side has closed again (R487). -/
def State.thrDarkLow (s : State) (g : Fin 4) : State :=
  let x := s.thr.grp[g]
  match x.lowAt with
  | none => s
  | some t =>
    if x.state ≠ 2 ∨ s.phys < t then s else
    (s.modThGrp g (fun y => { y with
      lowAt := none, test := some ⟨true, s.phys, false, false⟩ })).thrSwitch g true false

/-- The end of TTEST (R487): the switch closes again, and the half has passed if both channels saw the band. -/
def State.thrDarkEnd (s : State) (g : Fin 4) : State :=
  match s.thr.grp[g].test with
  | none => s
  | some d =>
    if s.phys < d.at' + s.thr.field 0x0E 2 * 1000 then s else
    let ok := d.seenA && d.seenB
    let s1 := (s.modThGrp g (fun y => { y with
      test := none
      lowAt := if d.low then none else some (s.phys + 10000000)
      testGood := !d.low && ok
      tests := if d.low && ok && y.testGood then y.tests + 1 else y.tests })).thrSwitch g true true
    if ok then s1 else s1.thrSwitchFault g d.low true

/-- The grace timer reaches GRACE minutes (R495). -/
def State.thrGrace (s : State) (g : Fin 4) : State :=
  if s.graceOver g && !(s.thr.ch[0].faulty && s.thr.ch[1].faulty) then s.thrLock g true else s

/-- Channel `c` receives the other's message (R491, R496): whether its SAFE CRC is the receiver's, and the other's tick
interval in ns as the receiver measures it. -/
def State.thrMessage (s : State) (c : Fin 2) (sameCrc : Bool) (interval : Nat) : State :=
  let o := otherCh c
  if s.thr.ch[c].faulty || s.thr.ch[o].faulty || !s.thr.ch[c].started then s
  else if !sameCrc || decide (interval < 225000) || decide (275000 < interval) then s.thrChannelFault o
  else
    let s1 := s.modThCh c (fun k => { k with msgAt := s.phys, heard := s.thr.ch[o].dec })
    forFin 4 (fun g t => if t.thr.agreed c g && t.thrCan c g then t.thrRun g else t) s1

/-- 1 ms without a message (R496). -/
def State.thrSilence (s : State) (c : Fin 2) : State :=
  let k := s.thr.ch[c]
  if k.faulty || !k.started || !s.thr.ch[otherCh c].started then s
  else if k.msgAt + 1000000 ≤ s.phys then s.thrChannelFault (otherCh c) else s

/-- A channel's start-up test ends (R497). -/
def State.thrStarted (s : State) (c : Fin 2) (pass : Bool) : State :=
  if s.thr.ch[c].started then s else
  let s1 := (s.modThr (fun t => { t with ch := t.ch.map (fun k => { k with msgAt := s.phys }) })).modThCh c
    (fun k => { k with started := true })
  (if pass then s1 else s1.thrChannelFault c).thrJudge

end Sys2Proof.Machine
end

