-- ==== Sys2Proof/Machine/Pantry.lean ====
section
/-! DEFINITION. Memory parity (R428, R513, R625) and the March engine (R440 to R442). -/
namespace Sys2Proof.Machine

/-- The memories that carry parity, by their MEMF3 bits (R513). -/
inductive MemKind
  | gouge
  | pantry
  | ledger
  | loft
  | cellar
  | hallway
  deriving DecidableEq, Repr

def MemKind.num : MemKind → Nat
  | .gouge => 0
  | .pantry => 1
  | .ledger => 2
  | .loft => 3
  | .cellar => 4
  | .hallway => 5

/-- A persistent parity error (R428, R513): its capture and the memory fault. `a` is what is captured. -/
def State.memFault (s : State) (k : MemKind) (a : Nat) : State :=
  let s1 := match k with
    | .gouge => s.fset F.GS_GOUGE_MERR a
    | .pantry => (s.fset F.PAN_PERR a).finc F.PAN_PERRCNT
    | _ => s
  let inst := if k = .gouge then a / 2 ^ 28 else 0x0F + k.num
  if bit (s.fget F.FLT_FAULT_CFG_MEMF3) k.num then s1.raiseF3 0x09 inst 0 [a]
  else s1.raiseFault 2 0x09 inst 0 [a]

/-- A block of the device reads bytes `a` to `a + n - 1` of a memory: each of their words with bad parity is found (R513). -/
def State.parityFind (s : State) (k : MemKind) (a n : Nat) : State :=
  let bad := (s.badPar.map (fun b => b / 4 * 4)).filter (fun w => decide (a < w + 4) && decide (w < a + n))
  forList bad.eraseDups (fun w t => t.memFault k w) s

def pantryBase : Nat := 0x0800_0000

/-- A write of a whole Pantry word, with good parity (R428). -/
def State.panWrite (s : State) (a v : Nat) : State := (s.setMem32 a v).parityCure a 4

/-- An RT access to a slice under test makes the March engine yield (R441). -/
def State.marchTouch (s : State) (a : Nat) : State :=
  match s.march.under with
  | some (sl, till) =>
    if s.run < till ∧ (a - pantryBase) / 256 = sl then
      ({ s with march := { s.march with
          slice := sl, under := none, backoff := some (s.run + nsPer * 1000 * s.fget F.PAN_MARCH_CTRL_BACKOFF) } }).finc
        F.PAN_YIELDS
    else s
  | none => s
where
  nsPer : Nat := unitNs

/-- One slice is copied, tested and written back (R440, R442); `bad` is the line of a mismatch. The March slots
take 192 FCLK cycles. -/
def State.marchSlice (s : State) (bad : Option (Fin 16)) : State :=
  let m := s.march
  let busy : Bool := match m.under with
    | some (_, till) => decide (s.run < till)
    | none => false
  if !s.flag F.PAN_MARCH_CTRL_EN ∨ busy ∨ m.backoff.isSome ∨ m.pause.isSome then s else
  let last := decide (m.slice = 8191)
  let s1 := { s with march := { m with
    slice := if last then 0 else m.slice + 1, under := some (m.slice, s.run + 384 * unitNs)
    pause := if last then some (s.run + 10 ^ 6 * unitNs * s.fget F.PAN_MARCH_CTRL_INTERVAL) else none } }
  let s2 := if last then s1.fincWrap F.PAN_PASSES else s1
  match bad with
  | none => s2
  | some l =>
    let off := 256 * m.slice + 16 * l.val
    let s3 := (s2.fset F.PAN_MARCH_STATUS_FADDR off).raise F.PAN_MARCH_STATUS_FAIL
    s3.raiseFault 2 0x0A 0 0 [off]

/-- BACKOFF µs after a yield the slice is tested again (R441). -/
def State.marchBackoffEnd (s : State) (bad : Option (Fin 16)) : State :=
  match s.march.backoff with
  | some t => if s.run < t then s else ({ s with march := { s.march with backoff := none } }).marchSlice bad
  | none => s

/-- INTERVAL ms after the last slice the engine starts again (R440). -/
def State.marchPassStart (s : State) (bad : Option (Fin 16)) : State :=
  match s.march.pause with
  | some t => if s.run < t then s else
      ({ s with march := { s.march with pause := none, slice := 0 } }).marchSlice bad
  | none => s

end Sys2Proof.Machine
end

