-- ==== Sys2Proof/Machine/Cellar.lean ====
section
/-! DEFINITION. The Cellar (R447 to R469): probes, sample instants, triggers, records, the stream. -/
namespace Sys2Proof.Machine

def State.celState (s : State) : Nat := s.fget F.CEL_STATUS_STATE

/-- An acquisition runs. -/
def State.celActive (s : State) : Bool := s.celState == 1 || s.celState == 2 || s.celState == 4

def State.modCel (s : State) (f : Cellar → Cellar) : State := { s with cel := f s.cel }

/-! ### Probes (R447 to R450) -/

def State.probeOn (s : State) (i : Nat) : Bool := s.flag F.CEL_PROBE_CFG_EN 0 i && s.fget F.CEL_PROBE_CFG_KIND 0 i != 0

/-- The probes enabled now, in ascending number (R447). -/
def State.probesOn (s : State) : List Nat := (List.range 64).filter s.probeOn

/-- INST, FIELD, SHIFT and ADDR of an enabled probe name a node (R448, R450). -/
def State.probeLegal (s : State) (i : Nat) : Bool :=
  let inst := s.fget F.CEL_PROBE_CFG_INST 0 i
  let field := s.fget F.CEL_PROBE_CFG_FIELD 0 i
  let addr := s.fget F.CEL_PROBE_ADDR 0 i
  let row (n m : Nat) : Bool := decide (inst < n) && decide (field < m)
  decide (s.fget F.CEL_PROBE_CFG_SHIFT 0 i ≤ 32) &&
  match s.fget F.CEL_PROBE_CFG_KIND 0 i with
  | 1 => row 16 3
  | 2 => row 32 3
  | 3 => row 64 7
  | 4 => row 64 6
  | 5 => row 16 16
  | 6 => row 24 1
  | 7 => row 1 2
  | 8 => row 1 4
  | 9 => row 16 5
  | 10 => row 1 1 && addr % 4 == 0 && decide (pantryBase ≤ addr) && decide (addr < pantryBase + 0x20_0000)
  | 11 => row 10 1 && decide (addr < 0x8000)
  | _ => false

/-- A register read as signed, or as it stands. -/
def State.fldValue (s : State) (f : Fld) (n : Nat) (signed : Bool) : Int :=
  if signed then s.fgetS f n else (s.fget f n : Int)

/-- The 64-bit value of a node in state `s` (R448). -/
def State.nodeValue (s : State) (b : Balls) (kind inst field addr : Nat) : Int :=
  match kind, field with
  | 1, 0 => s.spinPos (Fin.ofNat 16 inst) s.run
  | 1, 1 => s.spinVel (Fin.ofNat 16 inst) s.run
  | 1, _ => s.spinAcc (Fin.ofNat 16 inst)
  | 2, 0 => s.fget F.CHUCK_POS inst
  | 2, 1 => s.fget F.CHUCK_COUNT inst
  | 2, _ => s.fget F.CHUCK_STATUS_LVL inst
  | 3, 0 => s.wgetS F.AX_SP_POS inst
  | 3, 1 => s.wgetS F.AX_SP_VEL inst
  | 3, 2 => s.wgetS F.AX_SP_ACC inst
  | 3, 3 => s.wgetS F.AX_ACT_POS inst
  | 3, 4 => s.wgetS F.AX_FE inst
  | 3, 5 => s.wgetS F.AX_VCMD inst
  | 3, _ => s.wgetS F.AX_VACT inst
  | 4, 0 => s.fldValue F.AX_ICMD inst true
  | 4, 1 => s.fldValue F.AX_FLD_ID inst true
  | 4, 2 => s.fldValue F.AX_FLD_IQ inst true
  | 4, 3 => s.fldValue F.AX_FLD_OBSW inst true
  | 4, 4 => ((s.reg (F.AX_FLD_STATUS_FSTATE.addr inst 0)).toNat : Int)
  | 4, _ => s.fldValue F.AX_FLD_VDC inst false
  | 5, w => toS 24 ((s.bl[Fin.ofNat 16 inst].words[w]?).getD 0)
  | 6, _ => if inst < 8 then s.fgetS F.CMD_VAL inst else s.fget F.SILL_RES_CODE 0 (inst - 8)
  | 7, 0 => ((b.mark.toNat + 65536 * maskOf (((List.finRange 16).filter (fun n => s.toutBall n)).map (·.val)) : Nat) : Int)
  | 7, _ => ((b.raf.toNat + 256 * (b.cmd.toNat) +
      65536 * maskOf ((List.range 16).filter s.stpDir) : Nat) : Int)
  | 8, 0 => s.stamp32
  | 8, 1 => s.fgetS F.HEARTH_OFFSET
  | 8, 2 => s.fgetS F.HEARTH_ADJ
  | 8, _ => ((s.reg (F.HEARTH_STATUS_LOCKED.addr 0 0)).toNat : Int)
  | 9, 0 => s.fget F.BAR_NEXTLINE inst
  | 9, 1 => s.wgetS F.BAR_C0 inst
  | 9, 2 => s.wgetS F.BAR_C1 inst
  | 9, 3 => s.wgetS F.BAR_C2 inst
  | 9, _ => s.wgetS F.BAR_OPE inst
  | 10, _ => toS 32 (s.mem32 addr)
  | 11, _ => toS 24 (s.mem24 (localAddr inst addr))
  | _, _ => 0

/-- The value of the node that probe `i` names, in a state `t` (R448). -/
def State.probeNode (s t : State) (b : Balls) (i : Nat) : Int :=
  t.nodeValue b (s.fget F.CEL_PROBE_CFG_KIND 0 i) (s.fget F.CEL_PROBE_CFG_INST 0 i) (s.fget F.CEL_PROBE_CFG_FIELD 0 i)
    (s.fget F.CEL_PROBE_ADDR 0 i)

/-- The levels at the balls `c` FCLK cycles before the sample instant; what is given reaches back as far as it does. -/
def ballsAt (bs : List Balls) (c : Nat) : Balls := ((bs[c]?).orElse (fun _ => bs.getLast?)).getD ⟨0, 0, 0⟩

/-- The sample of a probe (R448 to R450). -/
def State.probeSample (s : State) (bs : List Balls) (i : Nat) : Nat :=
  let c := s.fget F.CEL_PROBE_PSKEW 0 i
  let x := s.probeNode (s.backTo c) (ballsAt bs c) i
  let v := if s.cel.denied.contains (i, x) then 0 else x
  ofS 64 v / 2 ^ s.fget F.CEL_PROBE_CFG_SHIFT 0 i % 2 ^ 32

/-- The one read of a memory-word probe at the arm (R450), by the Cellar as a master (R52, R53). -/
def State.probeArm (s : State) (i : Nat) : State :=
  let k := s.fget F.CEL_PROBE_CFG_KIND 0 i
  let w := s.fget F.CEL_PROBE_ADDR 0 i
  let inst := s.fget F.CEL_PROBE_CFG_INST 0 i
  let a := if k = 10 then w else localAddr inst w
  if k ≠ 10 ∧ k ≠ 11 then s else
  let l := s.lodge .cellar false a
  if !l.1 then l.2.modCel (fun c => { c with denied := c.denied ++ [(i, s.probeNode s ⟨0, 0, 0⟩ i)] })
  else if l.2.parityBad a then
    if k = 10 then l.2.memFault .pantry (a / 4 * 4) else l.2.memFault .gouge (inst * 2 ^ 28 + w)
  else l.2

/-! ### Arming (R453, R454, R459) -/

/-- The bytes of a segment. -/
def State.celSeg (s : State) : Nat := s.fget F.CEL_AREA_ALEN * 65536 / 2 ^ s.fget F.CEL_CFG_SEGSH

/-- C: rows of a segment (R459). -/
def State.celCap (s : State) (w : Nat) : Nat := (s.celSeg - 64) / (4 * w)

def State.celPeriod (s : State) : Nat := 4 * (s.fget F.CEL_PER + 1)

/-- The configuration has a defined meaning (R448 to R451, R455, R459, R465). -/
def State.celLegal (s : State) : Bool :=
  s.probesOn.all s.probeLegal && decide (s.fget F.CEL_CFG_SMODE < 3) && decide (s.fget F.CEL_CFG_SRATE < 3) &&
  decide (s.fget F.CEL_CFG_ARMMODE < 2) && decide (s.fget F.CEL_CFG_MODE < 2) && decide (s.fget F.CEL_CFG_SEGSH ≤ 8) &&
  decide (s.fget F.CEL_AREA_ABASE + s.fget F.CEL_AREA_ALEN ≤ 64) &&
  (List.range 8).all (fun j => !s.flag F.CEL_TRIG_CFG_EN 0 j || decide (s.fget F.CEL_TRIG_CFG_OP 0 j < 12)) &&
  (s.fget F.CEL_CFG_MODE == 0 || (decide (64 ≤ s.fget F.CEL_STREAM_MAXDG) && decide (s.fget F.CEL_STREAM_MAXDG ≤ 8972)))

/-- SRATE selects a cycle with these tick flags (R451). -/
def State.celSelects (s : State) (fv fp : Bool) : Bool :=
  let r := s.fget F.CEL_CFG_SRATE
  r == 0 || (r == 1 && fv) || (r == 2 && fp)

/-- A write of 1 to ARM (R453, R454). -/
def State.celArm (s : State) : State :=
  if s.celActive then s else
  let ps := s.probesOn
  let w := ps.length + s.fget F.CEL_CFG_STAMP
  let buffer := s.fget F.CEL_CFG_MODE == 0
  let cap := s.celCap (max w 1)
  let s1 := (s.fset F.CEL_INFO_NP ps.length).fset F.CEL_INFO_CAP cap
  let refuse (e : Nat) : State := s1.fset F.CEL_STATUS_ARMERR e
  let idle := ps.isEmpty || (buffer && s.fget F.CEL_AREA_ALEN == 0)
  if !idle && buffer && decide (cap < s.fget F.CEL_PRE + s.fget F.CEL_POST + 1) then refuse 1
  else if !idle && s.fget F.CEL_CFG_SMODE == 0 && decide (s.celPeriod < w) then refuse 2
  else if !idle && !buffer && s.stream.isNone then refuse 3
  else
    let s2 := (((s1.setFlag F.CEL_STATUS_OVR false).setFlag F.CEL_STATUS_TRIGD false).setFlag
      F.CEL_STATUS_OFFGRID false).fset F.CEL_STATUS_ARMERR 0
    let s3 := (((s2.wset F.CEL_SIDX 0).fset F.CEL_DEADLAST 0).fset F.CEL_DEADMAX 0).fset F.CEL_RECORDS 0
    if idle then s3.fset F.CEL_STATUS_STATE 3 else
    let p := s.celPeriod
    let first := s.lclkToRun ((s.lclk / (p * unitNs) + 1) * (p * unitNs))
    let due := (s.cel.starts.filter (fun x => s.celSelects x.2.1 x.2.2)).map (fun x => x.1 + s.fget F.CEL_OFFS * unitNs)
    let c : Cellar := { probes := ps, w := w, cap := cap, nextAt := some first, starts := s.cel.starts
                        due := due.filter (fun t => decide (s.run < t)), autoFrom := if buffer then none else some s.run }
    let s4 := forList ps (fun i t => t.probeArm i) { s3 with cel := c, evs := [] }
    (s4.fset F.CEL_STATUS_SEG 0).fset F.CEL_STATUS_STATE (if buffer then 1 else 4)

/-! ### Records (R460 to R463) -/

/-- The fabric address of the segment being filled. -/
def State.celSegAddr (s : State) : Nat :=
  0x0600_0000 + 65536 * s.fget F.CEL_AREA_ABASE + s.fget F.CEL_STATUS_SEG * s.celSeg

/-- Write a 32-bit word to Cellar memory, with good parity, where the Lodge lets the Cellar (R52, R53, R60). -/
def State.celWord (s : State) (a v : Nat) : State :=
  let l := s.lodge .cellar true a
  if l.1 then (l.2.setMem32 a (v % 2 ^ 32)).parityCure a 4 else l.2

/-- Write 32-bit words to Cellar memory. -/
def State.celWrite (s : State) (a : Nat) (ws : List Nat) : State :=
  forList ws.zipIdx (fun x t => t.celWord (a + 4 * x.2) x.1) s

/-- The header of a record, VALID last (R461). -/
def State.celHeader (s : State) (t : CelTrig) : State :=
  let c := s.cel
  let npost := s.fget F.CEL_POST - t.left
  let first := (t.row + c.cap - t.npre) % max c.cap 1
  let flags := t.mask * 2 ^ 24 + ((List.range 8).find? (bit t.mask)).getD 0 * 2 ^ 21 + b2n t.forced * 2 ^ 20 +
    b2n t.rafter * 2 ^ 19 + b2n c.stepped * 2 ^ 18
  let step := ofS 64 c.stepSum
  let ws := [s.fget F.CEL_RECORDS, t.idx % 2 ^ 32, t.idx / 2 ^ 32, ns32 t.ns, flags, t.npre, npost, c.dead, first,
    c.probes.length * 65536 + s.fget F.CEL_CFG_STAMP, c.missed, t.ns / 10 ^ 9 % 2 ^ 32, t.ns % 10 ^ 9,
    step % 2 ^ 32, step / 2 ^ 32]
  let s1 := s.celWrite (s.celSegAddr + 4) ws
  (s1.celWrite s.celSegAddr [0xCE11 * 65536 + 0x100 + 1]).finc F.CEL_RECORDS

/-- A record has its last row at instant `at'`: its header, and the next segment or DONE (R460, R462). -/
def State.celEnd (s : State) (t : CelTrig) (at' : Nat) : State :=
  let s1 := s.celHeader t
  let seg := s.fget F.CEL_STATUS_SEG
  if s.flag F.CEL_CFG_REARM ∧ seg + 1 < 2 ^ s.fget F.CEL_CFG_SEGSH then
    let s2 := (s1.fset F.CEL_STATUS_SEG (seg + 1)).fset F.CEL_STATUS_STATE 1
    s2.modCel (fun c => { c with
      filled := 0, pos := 0, able := false, autoFrom := none, deadFrom := some at', dead := 0
      trig := none, missed := 0, stepSum := 0, stepped := false })
  else (s1.modCel (fun c => { c with trig := none })).fset F.CEL_STATUS_STATE 3

/-! ### Triggers (R455 to R458, R467, R468) -/

/-- Condition `j` at a sample to which the events `evs` are attached (R455, R456). -/
def State.celCond (s : State) (now : List (Nat × Nat)) (evs : List CelEvent) (j : Nat) : Bool :=
  let p := s.fget F.CEL_TRIG_CFG_PROBE 0 j
  let val (l : List (Nat × Nat)) : Option Nat := (l.find? (fun x => x.1 == p)).map (·.2)
  let num (n : Nat) : Int := if s.flag F.CEL_TRIG_CFG_SIGNED 0 j then toS 32 n else (n : Int)
  let loN := s.fget F.CEL_TRIG_LO 0 j
  let hiN := s.fget F.CEL_TRIG_HI 0 j
  let lo := num loN
  let hi := num hiN
  let sel := s.fget F.CEL_TRIG_CFG_SEL 0 j
  let probe (f : Nat → Nat → Bool) : Bool := match val s.cel.prev, val now with
    | some a, some b => f a b
    | _, _ => false
  let inside (x : Int) : Bool := decide (lo ≤ x) && decide (x ≤ hi)
  let rise (a b : Nat) : Bool := decide (num a < lo) && decide (lo ≤ num b)
  let fall (a b : Nat) : Bool := decide (lo < num a) && decide (num b ≤ lo)
  let op := s.fget F.CEL_TRIG_CFG_OP 0 j
  s.flag F.CEL_TRIG_CFG_EN 0 j &&
  match op with
  | 1 => probe rise
  | 2 => probe fall
  | 3 => probe (fun a b => rise a b || fall a b)
  | 4 => probe (fun a b => inside (num b) && !inside (num a))
  | 5 => probe (fun a b => !inside (num b) && inside (num a))
  | 6 => probe (fun a b => ((b ^^^ loN) &&& hiN) == 0 && ((a ^^^ loN) &&& hiN) != 0)
  | 7 => probe (fun a b => ((b ^^^ a) &&& hiN) != 0)
  | 8 => evs.any (fun e => e.op == op && e.sel == sel)
  | 9 => evs.any (fun e => e.op == op && e.sel == sel)
  | 10 => evs.any (fun e => e.op == op && e.sel == sel)
  | 11 => evs.any (fun e => e.op == op)
  | _ => false

/-- A trigger of this unit is launched on Rafter and waits for its own action (R467, R468). -/
def State.celAligns (s : State) : Bool :=
  let l := s.fget F.CEL_CFG_RAFLINE
  s.flag F.CEL_CFG_RAFOUT && s.flag F.CEL_CFG_RAFALIGN && s.flag F.RAFTER_CFG_EN &&
    s.flag F.RAFTER_LINE_CFG_TXEN 0 l && s.flag F.RAFTER_LINE_CFG_RXEN 0 l

/-- A waiting launch is answered by one of the events: the unit's own action of the burst that it began or merged into. -/
def State.celAnswered (s : State) (evs : List CelEvent) (x : Nat × Bool × Nat) : Bool :=
  evs.any (fun e => e.op == 9 && e.sel == s.fget F.CEL_CFG_RAFLINE && e.num == s.fget F.RAFTER_CFG_UNIT &&
    decide (s.cycleOf x.2.2 ≤ s.cycleOf e.from'))

/-- What falls at this sample: MASK, FORCED, RAFTER; and the launch of a trigger met here (R457, R467, R468). -/
def State.celTriggers (s : State) (evs : List CelEvent) (mask : Nat) (forced : Bool) : Option (Nat × Bool × Bool) × State :=
  let met := mask != 0 || forced
  let mine := s.cel.waiting.filter (s.celAnswered evs)
  let own := !mine.isEmpty
  let s1 := if own then s.modCel (fun c => { c with waiting := c.waiting.filter (fun x => !s.celAnswered evs x) }) else s
  let s2 := if met && s.flag F.CEL_CFG_RAFOUT then s1.rafTrig (Fin.ofNat 4 (s.fget F.CEL_CFG_RAFLINE)) s.run else s1
  let s3 := if met && s.celAligns then s2.modCel (fun c => { c with waiting := c.waiting ++ [(mask, forced, s.run)] }) else s2
  let here := met && !s.celAligns
  let m := mine.foldl (fun a x => a ||| x.1) 0 ||| (if here then mask else 0)
  let f := mine.any (fun x => x.2.1) || (here && forced)
  (if own || here then some (m, f, own) else none, s3)

/-- The registers of the last trigger. -/
def State.celLast (s : State) (t : Nat × Bool × Bool) (ns : Nat) : State :=
  let s1 := (s.raise F.CEL_STATUS_TRIGD).fset F.CEL_LASTTRIG (ns32 ns)
  let s2 := (s1.fset F.CEL_LASTSRC_MASK t.1).fset F.CEL_LASTSRC_PRIMARY (((List.range 8).find? (bit t.1)).getD 0)
  (s2.setFlag F.CEL_LASTSRC_FORCED t.2.1).setFlag F.CEL_LASTSRC_RAFTER t.2.2

/-- A record can take a trigger at this sample (R462). -/
def State.celTakes (s : State) : Bool :=
  s.celState == 1 && (!s.flag F.CEL_CFG_REQPRE || decide (s.fget F.CEL_PRE ≤ s.cel.filled))

/-- The first sample at which the record can take a trigger: the dead time ends (R462). -/
def State.celAble (s : State) (at' : Nat) : State :=
  if !s.celTakes || s.cel.able then s else
  let s1 := s.modCel (fun c => { c with able := true, autoFrom := some at' })
  match s.cel.deadFrom with
  | none => s1
  | some t =>
    let d := min ((at' - t) / unitNs) 0xFFFF_FFFF
    ((s1.modCel (fun c => { c with dead := d })).fset F.CEL_DEADLAST d).fset F.CEL_DEADMAX (max d (s.fget F.CEL_DEADMAX))

/-- One row in buffer mode, with the trigger that falls at it (R460, R463). -/
def State.celBuffer (s : State) (ws : List Nat) (t : Option (Nat × Bool × Bool)) (idx ns at' : Nat) : State :=
  let c := s.cel
  let takes := s.celTakes
  let s1 := (s.celWrite (s.celSegAddr + 64 + 4 * c.w * c.pos) ws).modCel (fun c => { c with
    pos := (c.pos + 1) % max c.cap 1, filled := c.filled + 1 })
  let rec' : Option CelTrig := if takes then t.map (fun x =>
      { idx := idx, ns := ns, mask := x.1, forced := x.2.1, rafter := x.2.2
        npre := min (s.fget F.CEL_PRE) c.filled, row := c.pos, left := s.fget F.CEL_POST })
    else c.trig.map (fun x => { x with left := x.left - 1 })
  let s2 := if t.isSome && !takes && (s.celState == 2 || c.deadFrom.isSome) then
      (s1.finc F.CEL_TRIGMISS).modCel (fun c => { c with missed := c.missed + 1 }) else s1
  match rec' with
  | none => s2
  | some r =>
    let s3 := (s2.modCel (fun c => { c with trig := some r, autoFrom := none })).fset F.CEL_STATUS_STATE 2
    if r.left = 0 then s3.celEnd r at' else s3

/-! ### The stream (R464 to R466) -/

def CelItem.bytes : CelItem → Nat
  | .row _ ws => 4 * ws.length
  | .mark _ ws => 4 + 4 * ws.length

def State.fifoRoom (s : State) (n : Nat) : Bool :=
  decide (s.cel.fifo.foldl (fun a x => a + x.2.bytes) 0 + n ≤ s.fget F.CEL_AREA_ALEN * 65536)

/-- Queue a mark that refers to sample `idx` at `ns`; one that finds no room is lost and sets OVR (R466). -/
def State.celMark (s : State) (kind idx ns : Nat) (ws : List Nat) : State :=
  let i := CelItem.mark kind ([idx % 2 ^ 32, idx / 2 ^ 32 % 2 ^ 32, ns32 ns] ++ ws)
  if s.fifoRoom i.bytes then s.modCel (fun c => { c with fifo := c.fifo ++ [(s.run, i)] })
  else s.raise F.CEL_STATUS_OVR

/-- One row in stream mode (R464 to R466, R469). -/
def State.celStream (s : State) (ws : List Nat) (evs : List CelEvent) (t : Option (Nat × Bool × Bool)) (idx ns at' : Nat) :
    State :=
  let c := s.cel
  let s1 := forList c.stepMarks (fun d u => u.celMark 3 idx ns [ofS 64 d % 2 ^ 32, ofS 64 d / 2 ^ 32])
    (s.modCel (fun c => { c with stepMarks := [] }))
  let s2 := if s.flag F.CEL_CFG_CYCMARK then
      forList (evs.filter (fun e => e.op == 11)) (fun e u => u.celMark 2 idx ns [e.num % 2 ^ 32]) s1
    else s1
  let s3 := match t with
    | some x => s2.celMark 1 idx ns [x.1 * 2 ^ 24 + ((List.range 8).find? (bit x.1)).getD 0 * 2 ^ 21 +
        b2n x.2.1 * 2 ^ 20 + b2n x.2.2 * 2 ^ 19]
    | none => s2
  let s4 := if t.isSome then s3.modCel (fun c => { c with autoFrom := some at' }) else s3
  let row := CelItem.row idx ws
  let gap := if c.lost = 0 then 0 else 24
  if s4.fifoRoom (row.bytes + gap) then
    let s5 := if c.lost = 0 then s4
      else (s4.celMark 4 idx ns [c.lost % 2 ^ 32, c.lost / 2 ^ 32]).modCel (fun c => { c with lost := 0 })
    s5.modCel (fun c => { c with fifo := c.fifo ++ [(s.run, row)] })
  else ((s4.finc F.CEL_DROPROWS).raise F.CEL_STATUS_OVR).modCel (fun c => { c with lost := c.lost + 1 })

/-! ### Samples (R451, R452) -/

/-- A pulse that makes a sample in LEV mode (R451). -/
def State.celPulse (s : State) (e : CelEvent) : Bool :=
  s.fget F.CEL_CFG_SMODE == 2 && e.op == 8 && e.sel == s.fget F.CEL_CFG_LEVSEL

/-- AUTOTMO µs have passed since a record could first take a trigger (R458). -/
def State.celAutoDue (s : State) (at' : Nat) : Bool :=
  s.fget F.CEL_CFG_ARMMODE == 1 &&
    s.cel.autoFrom.any (fun t => decide (t + s.fget F.CEL_AUTOTMO * 1000 * unitNs ≤ at'))

/-- The instant of the sample that is due, and the state with it taken off. -/
def State.celDue (s : State) : Option (Nat × State) :=
  match s.fget F.CEL_CFG_SMODE with
  | 0 => match s.cel.nextAt with
    | some t => if t ≤ s.run then
        some (t, s.modCel (fun c => { c with nextAt := some (t + s.celPeriod * unitNs) })) else none
    | none => none
  | 1 => match s.cel.due with
    | t :: ts => if t ≤ s.run ∧ s.flag F.CYC_STATUS_RUNNING then some (t, s.modCel (fun c => { c with due := ts })) else none
    | [] => none
  | _ => match s.evs.find? s.celPulse with
    | some e => some (e.at', { s with evs := s.evs.erase e })
    | none => none

/-- CEL_SAMPLE: one sample (R451, R452, R455 to R469). -/
def State.celSample (s : State) (bs : List Balls) : State :=
  if !s.celActive then s else
  match s.celDue with
  | none => s
  | some (at', s0) =>
    let c := s.cel
    let idx := s.wget F.CEL_SIDX
    let s1 := (s0.wset F.CEL_SIDX (idx + 1)).modCel (fun c => { c with lastAt := some at' })
    let near : Bool := match c.lastAt with
      | some l => decide (at' < l + c.w * unitNs)
      | none => false
    if s.fget F.CEL_CFG_SMODE ≠ 0 ∧ near = true then
      ((s1.raise F.CEL_STATUS_OVR).finc F.CEL_DROPROWS).modCel (fun c => { c with
        lost := if s.celState = 4 then c.lost + 1 else c.lost })
    else
      let ns := s.runToLclk at' / unitNs
      let now := c.probes.map (fun i => (i, s.probeSample bs i))
      let row := (if s.flag F.CEL_CFG_STAMP then [ns32 ns] else []) ++ now.map (·.2)
      let evs := s.evs.filter (fun e => decide (e.at' ≤ at'))
      let mask := maskOf ((List.range 8).filter (fun j => s.celCond now evs j))
      let s2 := { s1 with evs := s1.evs.filter (fun e => decide (at' < e.at') || s.celPulse e) }.celAble at'
      let q := s2.celTriggers evs mask (c.force || c.auto || s2.celAutoDue at')
      let s3 := q.2
      let s4 := match q.1 with
        | some t => s3.celLast t ns
        | none => s3
      let s5 := if s.celState = 4 then s4.celStream row evs q.1 idx ns at' else s4.celBuffer row q.1 idx ns at'
      s5.modCel (fun c => { c with prev := now, force := false, auto := false })

/-- AUTO_TRIGGER: no trigger for AUTOTMO µs (R458). -/
def State.celAuto (s : State) : State :=
  if (s.celState = 1 ∨ s.celState = 4) ∧ s.celAutoDue s.run = true then s.modCel (fun c => { c with auto := true }) else s

/-- A write of 1 to STOP (R453). -/
def State.celStop (s : State) : State :=
  let s1 := match s.cel.trig with
    | some t => if s.celState = 2 then s.celHeader t else s
    | none => s
  (s1.modCel (fun c => { c with trig := none })).fset F.CEL_STATUS_STATE 0

/-- A write of 1 to FORCE (R458). -/
def State.celForce (s : State) : State :=
  if s.celActive then s.modCel (fun c => { c with force := true }) else s

/-- A cycle start of a cycle with index `k` and tick flags; `first` of a sequencer start (R451, R456): instants that fell while
it did not run give no sample. -/
def State.celCycle (s : State) (k : Nat) (first fv fp : Bool) : State :=
  let at' := s.seq.start
  let s1 := s.modCel (fun c => { c with
    starts := (at', fv, fp) :: c.starts.filter (fun x => decide (at' < x.1 + 65536 * unitNs)) })
  if !s.celActive then s1 else
  (s1.celEvent 11 0 at' k 0).modCel (fun c =>
    let old := if first then c.due.filter (fun t => decide (at' ≤ t)) else c.due
    { c with due := if s.celSelects fv fp then old ++ [at' + s.fget F.CEL_OFFS * unitNs] else old })

/-- An LCLK step of `d` ns (R469). -/
def State.celStep (s : State) (d : Int) : State :=
  if !s.celActive then s else
  let s1 := if s.fget F.CEL_CFG_SMODE = 0 then s.raise F.CEL_STATUS_OFFGRID else s
  s1.modCel (fun c => if s.celState = 4 then { c with stepMarks := c.stepMarks ++ [d] }
    else { c with stepped := true, stepSum := c.stepSum + d })

/-! ### Datagrams (R465) -/

/-- The items that fit in `room` bytes: rows of consecutive indices share one ROWS word. -/
def packItems (room : Nat) (prev : Option Nat) : List (Nat × CelItem) → List CelItem × List (Nat × CelItem)
  | [] => ([], [])
  | (t, i) :: r =>
    let need := match i with
      | .row idx ws => 4 * ws.length + (if prev = some idx then 0 else 4)
      | .mark _ ws => 4 + 4 * ws.length
    let next : Option Nat := match i with
      | .row idx _ => some (idx + 1)
      | .mark _ _ => none
    if room < need then ([], (t, i) :: r)
    else
      let q := packItems (room - need) next r
      (i :: q.1, q.2)

/-- The words of items: runs of rows, each with its ROWS word. -/
def itemWords : List CelItem → List (List Nat) → List Nat
  | [], [] => []
  | [], rows => [2 ^ 28 + rows.length] ++ rows.reverse.flatten
  | .row idx ws :: r, rows =>
    let follows : Bool := match r with
      | .row j _ :: _ => decide (j = idx + 1)
      | _ => false
    if follows then itemWords r (ws :: rows)
    else [2 ^ 28 + (rows.length + 1)] ++ (ws :: rows).reverse.flatten ++ itemWords r []
  | .mark k ws :: r, _ => [2 * 2 ^ 28 + k * 2 ^ 24 + ws.length * 2 ^ 16] ++ ws ++ itemWords r []

/-- DATAGRAM: the payload of the next datagram when it is due, and the state after it; a row that no datagram can hold
is lost. -/
def State.celDatagram (s : State) : Option (List Nat × State) :=
  match s.cel.fifo with
  | [] => none
  | (t, i) :: rest =>
    let q := packItems (s.fget F.CEL_STREAM_MAXDG - 24) none s.cel.fifo
    match q.1 with
    | [] =>
      let s1 := s.modCel (fun c => { c with fifo := rest })
      some ([], match i with
        | .row _ _ => (s1.finc F.CEL_DROPROWS).raise F.CEL_STATUS_OVR
        | .mark _ _ => s1.raise F.CEL_STATUS_OVR)
    | is =>
      if q.2.isEmpty ∧ s.run < t + s.fget F.CEL_STREAM_FLUSH * 1000 * unitNs then none else
      let rows := is.filterMap (fun i => match i with
        | .row idx _ => some idx
        | .mark _ _ => none)
      let head := [0x11, 0xCE, 1, s.fget F.RAFTER_CFG_UNIT] ++ bytesLE 4 s.cel.dseq ++
        bytesLE 8 (rows.head?.getD s.cel.sent) ++ bytesLE 2 s.cel.probes.length ++
        [s.fget F.CEL_CFG_STAMP, 0, 0, 0, 0, 0]
      let body := (itemWords is []).flatMap (bytesLE 4)
      some (head ++ body, s.modCel (fun c => { c with
        fifo := q.2, dseq := c.dseq + 1, sent := (rows.getLast?.map (· + 1)).getD c.sent }))

end Sys2Proof.Machine
end

