-- ==== Sys2Proof/Machine/Crypto.lean ====
section
/-! DEFINITION. The algorithms that the spec names and other standards define: SHA-256 and HMAC-SHA-256 (FIPS 180-4,
198-1), ECDSA and ECDH on P-256 (FIPS 186-4), as R548, R549 and R582 use them. PRESUMED from those standards. -/
namespace Sys2Proof.Machine

/-! ### SHA-256 -/

/-- Floor of the `q`-th root of `n`, by bisection over `k` bits from `r`. -/
def rootStep (q n : Nat) : Nat → Nat → Nat
  | 0, r => r
  | k + 1, r => rootStep q n k (if (r + 2 ^ k) ^ q ≤ n then r + 2 ^ k else r)

/-- 32 bits of the fraction of the `q`-th root of `p`. -/
def rootBits (q p : Nat) : Nat := rootStep q (p * 2 ^ (32 * q)) 37 0 % 2 ^ 32

/-- The primes below 312: the first 64. -/
def smallPrimes : List Nat :=
  (List.range 312).filter (fun n => decide (1 < n) && (List.range 18).all (fun d => d < 2 || n ≤ d || n % d != 0))

/-- The round constants, from cube roots. -/
def shaRounds : List Nat := smallPrimes.map (rootBits 3)

/-- The initial words, from square roots, as two groups of four: a to d and e to h. -/
def shaFirst : List Nat × List Nat :=
  let h := (smallPrimes.take 8).map (rootBits 2)
  (h.take 4, h.drop 4)

/-- Turned right by each of a list of places, and added without carry. -/
def turns (ks : List Nat) (x : Nat) : Nat :=
  ks.foldl (fun a k => a ^^^ (x / 2 ^ k + x % 2 ^ k * 2 ^ (32 - k))) 0

/-- The message schedule: each new word from the words 16, 15, 7 and 2 places before it, the newest first. -/
def shaExpand : Nat → List Nat → List Nat
  | 0, w => w
  | k + 1, w =>
    let back (i : Nat) : Nat := w.getD (i - 1) 0
    let old := turns [7, 18] (back 15) ^^^ (back 15 / 2 ^ 3)
    let new := turns [17, 19] (back 2) ^^^ (back 2 / 2 ^ 10)
    shaExpand k ((back 16 + old + back 7 + new) % 2 ^ 32 :: w)

/-- A round makes one new word of each group and forgets the oldest; `c` is the round constant plus the schedule's word. -/
def shaTurn (v : List Nat × List Nat) (c : Nat) : List Nat × List Nat :=
  match v with
  | ([a, b, d, x], [e, f, g, y]) =>
    let t := y + turns [6, 11, 25] e + ((e &&& f) + ((2 ^ 32 - 1 - e) &&& g)) + c
    ([(t + turns [2, 13, 22] a + ((a &&& (b ||| d)) ||| (b &&& d))) % 2 ^ 32, a, b, d], [(x + t) % 2 ^ 32, e, f, g])
  | _ => v

/-- Words added place by place. -/
def plus32 (x y : List Nat) : List Nat := x.zipWith (fun p q => (p + q) % 2 ^ 32) y

/-- `k` blocks of 64 bytes. -/
def shaBlocks (ks : List Nat) : Nat → List Nat × List Nat → List Nat → List Nat × List Nat
  | 0, v, _ => v
  | k + 1, v, bs =>
    let words := (List.range 16).map (fun i => ofBytesBE ((bs.drop (4 * i)).take 4))
    let r := (plus32 ks (shaExpand 48 words.reverse).reverse).foldl shaTurn v
    shaBlocks ks k (plus32 v.1 r.1, plus32 v.2 r.2) (bs.drop 64)

/-- SHA-256 of a list of bytes: 32 bytes. -/
def sha256 (bs : List Nat) : List Nat :=
  let padded := bs ++ [0x80] ++ List.replicate ((119 - bs.length % 64) % 64) 0 ++ bytesBE 8 (8 * bs.length)
  let r := shaBlocks shaRounds (padded.length / 64) shaFirst padded
  (r.1 ++ r.2).flatMap (bytesBE 4)

/-- HMAC-SHA-256. -/
def hmac256 (key msg : List Nat) : List Nat :=
  let k0 := if 64 < key.length then sha256 key else key
  let k := k0 ++ List.replicate (64 - k0.length) 0
  let inner := sha256 (k.map (fun b => b ^^^ 0x36) ++ msg)
  sha256 (k.map (fun b => b ^^^ 0x5C) ++ inner)

/-! ### P-256 -/

def p256 : Nat := 0xffffffff00000001000000000000000000000000ffffffffffffffffffffffff
def p256b : Nat := 0x5ac635d8aa3a93e7b3ebbd55769886bc651d06b0cc53b0f63bce3c3e27d2604b
def p256n : Nat := 0xffffffff00000000ffffffffffffffffbce6faada7179e84f3b9cac2fc632551
def p256gx : Nat := 0x6b17d1f2e12c4247f8bce6e563a440f277037d812deb33a0f4a13945d898c296
def p256gy : Nat := 0x4fe342e2fe1a7f9b8ee7eb4a7c0f9e162bce33576b315ececbb6406837bf51f5

/-- x^e mod m, over the `k` low bits of e. -/
def powMod (m : Nat) : Nat → Nat → Nat → Nat
  | 0, _, _ => 1
  | k + 1, x, e =>
    let r := powMod m k (x * x % m) (e / 2)
    if e % 2 = 1 then r * x % m else r

/-- The inverse modulo a prime. -/
def invMod (m x : Nat) : Nat := powMod m 256 (x % m) (m - 2)

/-- A point of the curve; none is the point at infinity. -/
abbrev EcPoint := Option (Nat × Nat)

def ecAdd : EcPoint → EcPoint → EcPoint
  | none, q => q
  | p, none => p
  | some (x1, y1), some (x2, y2) =>
    if x1 = x2 ∧ (y1 + y2) % p256 = 0 then none
    else
      let l := if x1 = x2 then (3 * x1 * x1 + (p256 - 3)) * invMod p256 (2 * y1) % p256
        else (y2 + (p256 - y1)) * invMod p256 (x2 + (p256 - x1)) % p256
      let x3 := (l * l + 2 * p256 - x1 - x2) % p256
      some (x3, (l * (x1 + p256 - x3) + p256 - y1) % p256)

/-- k·P over the `n` low bits of k. -/
def ecMul : Nat → Nat → EcPoint → EcPoint
  | 0, _, _ => none
  | n + 1, k, p =>
    let r := ecMul n (k / 2) (ecAdd p p)
    if k % 2 = 1 then ecAdd r p else r

def p256g : EcPoint := some (p256gx, p256gy)

/-- A pair of coordinates that is a point of the curve. -/
def ecOnCurve (x y : Nat) : Bool :=
  decide (x < p256) && decide (y < p256) && (y * y % p256 == (x * x * x + (p256 - 3) * x + p256b) % p256)

/-- ECDSA P-256 verification of a SHA-256 digest. -/
def ecdsaVerify (digest : List Nat) (qx qy r s : Nat) : Bool :=
  if r = 0 ∨ p256n ≤ r ∨ s = 0 ∨ p256n ≤ s ∨ !ecOnCurve qx qy then false
  else
    let w := invMod p256n s
    let u1 := ofBytesBE digest * w % p256n
    let u2 := r * w % p256n
    match ecAdd (ecMul 256 u1 p256g) (ecMul 256 u2 (some (qx, qy))) with
    | none => false
    | some (x, _) => x % p256n == r

end Sys2Proof.Machine
end

