-- ==== Sys2Proof/Machine/Zensor.lean ====
section
/-! DEFINITION. The Zensor management protocol (R545 to R551) as far as it touches no register, and the external
flash (R575, R582). -/
namespace Sys2Proof.Machine

def State.modZen (s : State) (f : Zensor → Zensor) : State := { s with zen := f s.zen }

/-! ### NETCFG (R581) -/

def State.netcfg (s : State) (o k : Nat) : List Nat := (s.zen.netcfg.drop o).take k

def State.noUnauth (s : State) : Bool := bit (ofBytesLE (s.netcfg 2 2)) 0
def State.sessTmo (s : State) : Nat := ofBytesLE (s.netcfg 4 2)
def State.hostKey (s : State) (h : Nat) : Option (Nat × Nat) :=
  if h < 4 ∧ bit (ofBytesLE (s.netcfg 6 1)) h then
    some (ofBytesBE (s.netcfg (0x40 + 64 * h) 32), ofBytesBE (s.netcfg (0x60 + 64 * h) 32))
  else none

/-- The management core serves the network: an image with NETCFG is in force (R581, R586). -/
def State.serves (s : State) : Bool := s.flag F.PWR_BOOT_STATUS_LOADED && !s.zen.netcfg.isEmpty

/-! ### Messages (R545, R549) -/

def tagBytes (t : BitVec 128) : List Nat := bytesBE 16 t.toNat

/-- The bytes of a message without its TAG. -/
def zenBytes (resp tagged : Bool) (sid seq cmd status : Nat) (payload : List Nat) : List Nat :=
  [0x5A, 0x53, 1, b2n resp + 2 * b2n tagged] ++ bytesLE 4 sid ++ bytesLE 4 seq ++ [cmd, status] ++
    bytesLE 2 payload.length ++ payload

/-- A response: with a key, tagged (R549). -/
def zenResponse (key : Option (List Nat)) (sid seq cmd status : Nat) (payload : List Nat) : List Nat :=
  match key with
  | none => zenBytes true false sid seq cmd status payload
  | some k =>
    let m := zenBytes true true sid seq cmd status payload
    m ++ (hmac256 k m).take 16

def State.answer (s : State) (bs : List Nat) : State := s.modZen (fun z => { z with answer := bs })

def State.session (s : State) (sid : Nat) : Option Session := s.sessions.find? (fun x => x.sid == sid)

def State.modSession (s : State) (sid : Nat) (f : Session → Session) : State :=
  { s with sessions := s.sessions.map (fun x => if x.sid == sid then f x else x) }

def State.setSessions (s : State) (l : List Session) : State :=
  ({ s with sessions := l }).fset F.HW_ZEN_SESSIONS l.length

/-- A session ends, and its stream with it (R550). -/
def State.endSession (s : State) (sid : Nat) : State :=
  let s1 := s.setSessions (s.sessions.filter (fun x => x.sid != sid))
  let s2 := { s1 with stream := s1.stream.filter (fun x => x.sid != sid) }
  s2.modZen (fun z => { z with resolving := z.resolving.filter (fun x => x.1.sid != sid) })

def Session.keyed (x : Session) : Option (List Nat) := if x.secure then some x.key else none

/-- Send a session's response and keep it for a repetition (R549). -/
def State.respond (s : State) (x : Session) (seq cmd status : Nat) (payload : List Nat) : State :=
  let r := zenResponse x.keyed x.sid seq cmd status payload
  (s.modSession x.sid (fun y => { y with resp := r })).answer r

/-- What a request does: a status and a payload to answer with, or none where the response comes later; an error where
a rule calls the result unpredictable. -/
abbrev Act := Except Refusal (Option (Nat × List Nat) × State)

/-- A request of a session is still being processed (R546, R549, R551). -/
def State.zenBusy (s : State) (sid : Nat) : Bool :=
  s.zen.flashOp.any (fun f => f.sid == sid) || s.zen.resolving.any (fun x => x.1.sid == sid)

/-- A request of a session (R549), done by `act`. While an earlier one is being processed it is not taken, and its host repeats
it (DESIGN CHOICE). -/
def State.zenServe (s : State) (h : ZHead) (cmd : Nat) (payload : List Nat) (act : Session → State → Act) :
    Except Refusal State :=
  if !s.serves then .ok (s.answer []) else
  let sid := h.sid.toNat
  let seq := h.seq.toNat
  match s.session sid with
  | none => .ok (s.answer (zenResponse none sid seq cmd 2 []))
  | some x =>
    let body := zenBytes false h.tag.isSome sid seq cmd 0 payload
    if x.secure ∧ h.tag.map tagBytes ≠ some ((hmac256 x.key body).take 16) then .ok ((s.answer []).finc F.HW_BADTAG)
    else
      let newer : Bool := match x.seq with
        | none => true
        | some q => decide (q < seq)
      if newer && s.zenBusy sid then .ok (s.answer [])
      else if newer then
        let s1 := s.modSession sid (fun y => { y with seq := some seq, at' := s.phys, resp := [] })
        match act x (s1.answer []) with
        | .error e => .error e
        | .ok (none, t) => .ok t
        | .ok (some (st, pl), t) => .ok (t.respond x seq cmd st pl)
      else if x.seq = some seq then .ok (s.answer x.resp)
      else .ok ((s.answer []).finc F.HW_BADSEQ)

/-! ### Sessions (R548, R550) -/

/-- A new SID: nonzero and unlike every open one; the rest of it is free. -/
def State.newSid (s : State) : Nat × State :=
  let r := s.takeFree
  let n := s.zen.opened + 1
  ((r.1.toNat % 2 ^ 16) * 2 ^ 16 + (n % 0xFFFF + 1), r.2.modZen (fun z => { z with opened := n }))

def State.openSession (s : State) (sid : Nat) (secure : Bool) (key : List Nat) : State :=
  s.setSessions (s.sessions ++ [{ sid := sid, secure := secure, key := key, at' := s.phys }])

/-- Four free values as one number. -/
def State.free256 (s : State) : Nat × State :=
  let a := s.takeFree
  let b := a.2.takeFree
  let c := b.2.takeFree
  let d := c.2.takeFree
  (((a.1.toNat * 2 ^ 64 + b.1.toNat) * 2 ^ 64 + c.1.toNat) * 2 ^ 64 + d.1.toNat, d.2)

def point65 (p : EcPoint) : List Nat :=
  match p with
  | none => 4 :: List.replicate 64 0
  | some (x, y) => 4 :: bytesBE 32 x ++ bytesBE 32 y

/-- SESSION_OPEN with MODE 0 (R548). -/
def State.zenOpen (s : State) (seq : Nat) : State :=
  if !s.serves then s.answer []
  else if s.noUnauth then s.answer (zenResponse none 0 seq 0x10 3 [])
  else if 4 ≤ s.sessions.length then s.answer (zenResponse none 0 seq 0x10 9 [])
  else
    let r := s.newSid
    (r.2.openSession r.1 false []).answer (zenResponse none r.1 seq 0x10 0 (bytesLE 4 r.1))

/-- SESSION_OPEN with MODE 1 (R548): QC is a prefix byte and two coordinates, SIG is r and s. The device's nonce and its
ephemeral key are free values. -/
def State.zenOpenSecure (s : State) (seq hkey : Nat) (nc : BitVec 128) (form : Nat) (qx qy r sg : BitVec 256) : State :=
  if !s.serves then s.answer [] else
  let ncb := bytesBE 16 nc.toNat
  let qc := form :: bytesBE 32 qx.toNat ++ bytesBE 32 qy.toNat
  let good : Bool := match s.hostKey hkey with
    | none => false
    | some (kx, ky) => ecdsaVerify (sha256 ([0x5A, 0x4E, 0x53, 0x31] ++ ncb ++ qc)) kx ky r.toNat sg.toNat
  if !good || form != 4 || !ecOnCurve qx.toNat qy.toNat then s.answer (zenResponse none 0 seq 0x10 7 [])
  else if 4 ≤ s.sessions.length then s.answer (zenResponse none 0 seq 0x10 9 [])
  else
    let sid := s.newSid
    let nd := sid.2.free256
    let d := nd.2.free256
    let priv := d.1 % (p256n - 1) + 1
    let qd := point65 (ecMul 256 priv p256g)
    let ndb := bytesBE 16 (nd.1 % 2 ^ 128)
    let z := match ecMul 256 priv (some (qx.toNat, qy.toNat)) with
      | none => 0
      | some (x, _) => x
    let k := hmac256 (bytesBE 32 z) ([0x5A, 0x4E, 0x53, 0x31] ++ ncb ++ ndb)
    (d.2.openSession sid.1 true k).answer
      (zenResponse (some k) sid.1 seq 0x10 0 (bytesLE 4 sid.1 ++ ndb ++ qd))

/-- SESSTMO seconds without an accepted request (R550). -/
def State.zenTimeout (s : State) (sid : Nat) : State :=
  match s.session sid with
  | none => s
  | some x => if s.sessTmo ≠ 0 ∧ x.at' + s.sessTmo * 10 ^ 9 ≤ s.phys then s.endSession sid else s

/-! ### The Cellar stream (R547, R551) -/

/-- A stream may be opened in this session (R547). -/
def State.mayStream (s : State) (x : Session) : Bool := x.secure || s.entryWorld 152 == 0

/-- STREAM_OPEN: `mac` is what the resolution found, none where it has found nothing. -/
def State.streamOpen (s : State) (x : Session) (seq : Nat) (to' : StreamTo) (mac : Option Nat) :
    Option (Nat × List Nat) × State :=
  if !s.mayStream x then (some (3, []), s)
  else if s.stream.isSome ∨ s.zen.resolving.isSome then (some (4, []), s)
  else match mac with
    | some m => (some (0, []), { s with stream := some { to' with mac := m } })
    | none => (none, s.modZen (fun z => { z with resolving := some (to', seq, s.phys) }))

/-- No address within 1 s: NOROUTE (R551). -/
def State.streamNoRoute (s : State) : State :=
  match s.zen.resolving with
  | none => s
  | some (to', seq, t) =>
    if s.phys < t + 10 ^ 9 then s else
    let s1 := s.modZen (fun z => { z with resolving := none })
    match s1.session to'.sid with
    | none => s1
    | some x => s1.respond x seq 0x12 8 []

/-- The IP and UDP headers of a stream datagram of `n` bytes (R551), ports 47811 both: their fields as RFC 791, RFC 8200 and RFC
768 lay them out (PRESUMED); the bytes that R551 and NETCFG do not determine are free values of Config. -/
def State.streamHeader (s : State) (to' : StreamTo) (n : Nat) : List Nat :=
  let free := fun (i : Nat) => Config.ipByte to'.family to'.addr n i % 256
  let ip := if to'.family = 6
    then [0x60 + free 0 % 16, free 1, free 2, free 3] ++ bytesBE 2 (n + 8) ++ [17, free 7] ++ s.netcfg 0x20 16 ++ to'.addr
    else [0x45, free 1] ++ bytesBE 2 (n + 28) ++ [free 4, free 5, free 6, free 7, free 8, 17, free 10, free 11] ++
      s.netcfg 0x10 4 ++ to'.addr.take 4
  ip ++ bytesBE 2 47811 ++ bytesBE 2 47811 ++ bytesBE 2 (n + 8) ++ [free 46, free 47]

/-- A stream datagram leaves through its port (R551). -/
def State.streamSend (s : State) (payload : List Nat) : State :=
  match s.stream with
  | none => s
  | some to' =>
    let etype := if to'.family = 6 then [0x86, 0xDD] else [0x08, 0x00]
    let tag := if to'.vid = 0 then [] else [0x81, 0x00] ++ bytesBE 2 (to'.pcp * 2 ^ 13 + to'.vid)
    let b := bytesBE 6 to'.mac ++ bytesBE 6 (hwMac s) ++ tag ++ etype ++ s.streamHeader to' payload.length ++ payload
    s.enqueue (Fin.ofNat 4 to'.eport) ⟨b, s.tcOf to'.pcp, .none⟩

/-- DATAGRAM: the next stream datagram, if one is due (R465). -/
def State.celSendDatagram (s : State) : State :=
  match s.celDatagram with
  | none => s
  | some (payload, t) => if payload.isEmpty then t else t.streamSend payload

/-! ### The flash (R546, R575) -/

def State.flashByte (s : State) (a : Nat) : Nat := 255 - (s.flash.read a).toNat

def State.flashBytes (s : State) (a k : Nat) : List Nat := (List.range k).map (fun i => s.flashByte (a + i))

/-- Program bytes: a flash cell goes from 1 to 0 only. -/
def programBytes (m : Memory) (a : Nat) : List Nat → Memory
  | [] => m
  | b :: bs => programBytes (m.write a ((m.read a) ||| BitVec.ofNat 8 (255 - b))) (a + 1) bs

def eraseBytes (m : Memory) (a n : Nat) : Memory :=
  m.filter (fun c => !(decide (a ≤ c.1) && decide (c.1 < a + n)))

/-- FLASH_WRITE is under way in a secure session, on the slot the running image was not loaded from (R546, R547). -/
def State.flashStart (s : State) (x : Session) (seq slot offset : Nat) (erase : Bool) (data : List Nat) (half : Nat) :
    Option (Nat × List Nat) × State :=
  if !x.secure then (some (3, []), s)
  else if s.fget F.PWR_BOOT_STATUS_SLOT = slot then (some (3, []), s)
  else if s.zen.flashOp.isSome then (some (4, []), s)
  else
    let f : FlashOp := ⟨x.sid, seq, slot, half * slot + offset, erase && offset % 65536 == 0, data⟩
    (none, s.modZen (fun z => { z with flashOp := some f }))

/-- A reset cuts a FLASH_WRITE off: whether the sector has been erased, and then how many bytes have been programmed, is free; the
spec says nothing of it (DESIGN CHOICE). -/
def State.flashCut (s : State) : State :=
  match s.zen.flashOp with
  | none => s
  | some f =>
    let r := s.takeFree
    if f.erase && !r.1.getLsbD 0 then r.2 else
    let m := if f.erase then eraseBytes s.flash f.at' 65536 else s.flash
    { r.2 with flash := programBytes m f.at' (f.data.take (r.1.toNat / 2 % (f.data.length + 1))) }

/-- The erase and programming finish; where the flash failed, `found` is what the bytes then read as (R546). -/
def State.flashDone (s : State) (found : Option (List Nat)) : State :=
  match s.zen.flashOp with
  | none => s
  | some f =>
    let m0 := if f.erase then eraseBytes s.flash f.at' 65536 else s.flash
    let s0 := s.modZen (fun z => { z with flashOp := none })
    let n := f.data.length
    let s1 := { s0 with flash := match found with
      | none => programBytes m0 f.at' f.data
      | some bs => programBytes (eraseBytes m0 f.at' n) f.at' (bs.take n) }
    let ok := s1.flashBytes f.at' n == f.data
    match s1.session f.sid with
    | none => s1
    | some x => s1.respond x f.seq 0x06 (if ok then 0 else 6) []

end Sys2Proof.Machine
end

