-- ==== Sys2Proof/Machine/Boot.lean ====
section
/-! DEFINITION. Fuses (R67 to R69), the image and its checks (R574 to R584), the reset kinds and what they keep (R12, R590 to
R593), Sleep (R594 to R596), the watchdog (R597), the clock monitor (R511). -/
namespace Sys2Proof.Machine

def State.modBoot (s : State) (f : Boot → Boot) : State := { s with boot := f s.boot }

/-! ### Fuses -/

def orWord (l : List (Nat × Nat)) (w d : Nat) : List (Nat × Nat) :=
  (w, ((l.find? (fun x => x.1 == w)).map (·.2)).getD 0 ||| d) :: l.filter (fun x => x.1 != w)

/-- A fuse word as the registers show it: as manufactured, and what had been programmed at the last power-on reset. -/
def State.fuse (s : State) (w : Nat) : Nat :=
  (Config.fuseWord w).toNat ||| ((s.fuses.shown.find? (fun x => x.1 == w)).map (·.2)).getD 0

/-- A write to FUSE_PGM (R68, R69). -/
def State.fuseWrite (s : State) (w : Nat) : State :=
  let word := bitsOf w 7 2
  let s1 := s.fset F.DEV_FUSE_PGM_WORD word
  if !bit w 1 then s1
  else if bitsOf w 31 16 = 0x5A3C ∧ s.fuses.prog = none ∧ (word = 0 ∨ (8 ≤ word ∧ word ≤ 15)) then
    { (s1.setFlag F.DEV_FUSE_PGM_BUSY true) with
      fuses := { s1.fuses with prog := some (word, s1.fget F.DEV_FUSE_DATA) } }
  else s

/-- Programming ends (R69). -/
def State.fuseDone (s : State) : State :=
  match s.fuses.prog with
  | none => s
  | some (w, d) =>
    { (s.setFlag F.DEV_FUSE_PGM_BUSY false) with
      fuses := { s.fuses with burnt := orWord s.fuses.burnt w d, prog := none } }

/-- Power is lost during programming: which of the 1-bits have been programmed is free (R69). -/
def State.fuseCut (s : State) : State :=
  match s.fuses.prog with
  | none => s
  | some (w, d) =>
    let r := s.takeFree
    { r.2 with fuses := { r.2.fuses with burnt := orWord r.2.fuses.burnt w (d &&& r.1.toNat), prog := none } }

/-! ### The image (R575 to R582) -/

/-- F/2: where slot B begins. -/
def slotSize : Nat := min Config.flashDensity 0x400_0000 / 2

def State.slotBytes (s : State) (slot o k : Nat) : List Nat := s.flashBytes (slot * slotSize + o) k

def State.slotNum (s : State) (slot o k : Nat) : Nat := ofBytesLE (s.slotBytes slot o k)

/-- The header passes the MAGIC, FMT and SLOT checks (R583). -/
def State.headerGood (s : State) (slot : Nat) : Bool :=
  s.slotNum slot 0 4 == 0x444C_4853 && s.slotNum slot 4 2 == 1 && s.slotNum slot 8 1 == slot

/-- An entry of the section table (R577). -/
structure Section where
  type : Nat
  arg : Nat
  offset : Nat
  length : Nat
  dest : Nat
  deriving DecidableEq, Repr

def State.sections (s : State) (slot : Nat) : List Section :=
  (List.range (s.slotNum slot 9 1)).map (fun i =>
    let o := 0x40 + 16 * i
    ⟨s.slotNum slot o 1, s.slotNum slot (o + 1) 1, s.slotNum slot (o + 4) 4, s.slotNum slot (o + 8) 4,
      s.slotNum slot (o + 12) 4⟩)

/-- Ascending without overlap from `from'`, all ending at or before TOTAL (R579). -/
def sectionsOrdered (total : Nat) : Nat → List Section → Bool
  | _, [] => true
  | from', x :: r => decide (from' ≤ x.offset) && decide (x.offset + x.length ≤ total) &&
      sectionsOrdered total (x.offset + x.length) r

/-- The length, DEST and ARG rules of R578, and the end of the target. -/
def sectionGood (x : Section) : Bool :=
  let plain := x.arg == 0 && x.dest == 0
  match x.type with
  | 1 => plain && x.length % 12 == 0
  | 2 => decide (x.arg < 10) && x.length % 4 == 0 && x.dest % 4 == 0 && decide (x.dest + x.length ≤ 0x4_0000)
  | 3 => x.arg == 0 && decide (x.dest + x.length ≤ 0x8_0000)
  | 4 => x.arg == 0 && decide (x.dest + x.length ≤ 0x10_0000)
  | 5 => x.arg == 0 && decide (x.dest + x.length ≤ 0x18_0000)
  | 6 => plain && (x.length == 256 || x.length == 0)
  | 7 => plain && (x.length == 320 || x.length == 0)
  | _ => true

def stagedType (t : Nat) : Bool := t == 1 || t == 6 || t == 7

/-- The header and table checks of an attempt (R579, R584): the code of the first that fails. -/
def State.formatError (s : State) (slot : Nat) : Option Nat :=
  let total := s.slotNum slot 0x0C 4
  let secs := s.sections slot
  if !s.headerGood slot then some 3
  else if s.slotNum slot 6 2 < s.fuse 0 / 2 ^ 16 then some 4
  else if 64 < s.slotNum slot 9 1 ∨ total % 64 ≠ 0 ∨ slotSize < total + 192 then some 3
  else if !sectionsOrdered total (0x40 + 16 * secs.length) secs then some 3
  else if !secs.all sectionGood ∨ 1 < (secs.filter (fun x => x.type == 6)).length ∨
      1 < (secs.filter (fun x => x.type == 7)).length ∨
      0x8_0000 < ((secs.filter (fun x => stagedType x.type)).foldl (fun a x => a + x.length) 0) then some 8
  else none

/-- The key of a signature block matches FUSE_KEYHASH (R582). -/
def State.keyGood (s : State) (key : List Nat) : Bool :=
  let h := ofBytesBE (sha256 key)
  let f := fun m => s.fuse (8 + m)
  (List.range 8).all (fun m => f m == h / 2 ^ (32 * m) % 2 ^ 32) && (List.range 8).any (fun m => f m != 0)

/-- The checks of the signature block (R582): the failing code if any, and whether all three passed. -/
def State.signCheck (s : State) (slot : Nat) : Option Nat × Bool :=
  let total := s.slotNum slot 0x0C 4
  let digest := sha256 (s.slotBytes slot 0 total)
  let blk := fun o => s.slotBytes slot (total + o) 32
  let dig := blk 0xA0 == digest
  let key := s.keyGood (blk 0x20 ++ blk 0x40)
  let sig := ecdsaVerify digest (ofBytesBE (blk 0x20)) (ofBytesBE (blk 0x40)) (ofBytesBE (blk 0x60)) (ofBytesBE (blk 0x80))
  let secure := bit (s.fuse 0) 0
  if !dig then (some 5, false)
  else if secure ∧ !key then (some 6, false)
  else if secure ∧ !sig then (some 7, false)
  else (none, key && sig)

/-- Where a section goes in pass 1 (R578, R585). -/
def sectionTarget (x : Section) : Option Nat :=
  match x.type with
  | 2 => some (0x1000_0000 + 0x10_0000 * x.arg + x.dest)
  | 3 => some (0x0400_0000 + x.dest)
  | 4 => some (0x0500_0000 + x.dest)
  | 5 => some (0x0800_0000 + x.dest)
  | _ => none

/-- X and Y slots of a Gouge window hold their word in three bytes (R413). -/
def gougeTop (a : Nat) : Bool := decide (0x1000_0000 ≤ a) && decide (0x2_0000 ≤ a % 0x10_0000) && a % 4 == 3

def writeSection (m : Memory) (a : Nat) : List Nat → Memory
  | [] => m
  | b :: bs => writeSection (if gougeTop a then m else m.write a (BitVec.ofNat 8 b)) (a + 1) bs

/-- Two sections of pass 1 have a byte of a target in common (R579). -/
def sectionsOverlap : List Section → Bool
  | [] => false
  | x :: r => r.any (fun y => match sectionTarget x, sectionTarget y with
      | some a, some b => decide (0 < min x.length y.length) && decide (a < b + y.length) && decide (b < a + x.length)
      | _, _ => false) || sectionsOverlap r

/-- Pass 1 places the sections: directly, or in table order in the staging area (R585). -/
def State.placeSections (s : State) (slot : Nat) : State :=
  let r := (s.sections slot).foldl (fun (acc : State × Nat) x =>
    let bytes := s.slotBytes slot x.offset x.length
    match sectionTarget x with
    | some a => ({ acc.1 with mem := writeSection acc.1.mem a bytes }, acc.2)
    | none => if stagedType x.type
        then ({ acc.1 with mem := acc.1.mem.writeBytes acc.2 bytes }, acc.2 + x.length) else acc) (s, 0x0818_0000)
  r.1

/-- The staging area is zero-filled (R586). -/
def State.clearStaging (s : State) : State :=
  { s with mem := s.mem.filter (fun c => !(decide (0x0818_0000 ≤ c.1) && decide (c.1 < 0x0820_0000))) }

/-- The records of a REGS section (R580). -/
def regsRecords : Nat → List Nat → List (Nat × Nat × Nat)
  | 0, _ => []
  | k + 1, b => (ofBytesLE (b.take 4), ofBytesLE ((b.drop 4).take 4), ofBytesLE ((b.drop 8).take 4)) ::
      regsRecords k (b.drop 12)

def State.regsOf (s : State) (slot : Nat) : List (Nat × Nat × Nat) :=
  ((s.sections slot).filter (fun x => x.type == 1)).flatMap (fun x =>
    regsRecords (x.length / 12) (s.slotBytes slot x.offset x.length))

def State.sectionBytes (s : State) (slot type : Nat) : Option (List Nat) :=
  match (s.sections slot).find? (fun x => x.type == type && x.length != 0) with
  | some x => some (s.slotBytes slot x.offset x.length)
  | none => none

/-- NETCFG in force (R581). -/
def State.applyNetcfg (s : State) (b : List Nat) : State :=
  if ofBytesLE (b.take 2) ≠ 1 then s else
  (s.wset F.HW_MAC (ofBytesBE ((b.drop 8).take 6))).modZen (fun z => { z with netcfg := b })

/-! ### Slot choice (R583) -/

/-- The load begins: the preferred slot, and BOOT_NEXT's trial (R583). -/
def State.bootStart (s : State) (kind : Nat) : State :=
  let slot := s.fget F.PWR_BOOT_NEXT_SLOT
  let byGen := if s.headerGood 1 ∧ (!s.headerGood 0 ∨ s.slotNum 0 0x10 4 < s.slotNum 1 0x10 4) then 1 else 0
  let once := s.flag F.PWR_BOOT_NEXT_ONCE
  let pref := if once ∨ s.flag F.PWR_BOOT_NEXT_VALID then slot else byGen
  let s1 := if once then (s.fset F.PWR_BOOT_NEXT_SLOT (1 - slot)).setFlag F.PWR_BOOT_NEXT_ONCE false else s
  let forbid := bit (s.fuse 0) 2 && pref == 0
  let s2 := if forbid then s1.fset F.PWR_BOOT_STATUS_ERRB 10 else s1
  let l : Load := ⟨kind, pref, pref, if forbid then none else some (1 - pref), s.phys, false, 0, 0, false, [], none⟩
  s2.modBoot (fun b => { b with load := some l })

/-- An attempt fails (R587, R588). -/
def State.bootFail (s : State) (l : Load) (code : Nat) : State :=
  let s1 := s.fset (if l.slot = 0 then F.PWR_BOOT_STATUS_ERRA else F.PWR_BOOT_STATUS_ERRB) code
  match l.next with
  | some n => s1.modBoot (fun b => { b with load := some { l with slot := n, next := none } })
  | none => s1.modBoot (fun b => { b with load := none, failed := true, wdt := none })

/-- LOADED (R586). -/
def State.bootDone (s : State) (l : Load) : State :=
  let s1 := ((s.clearStaging.setFlag F.PWR_BOOT_STATUS_LOADED true).setFlag F.PWR_BOOT_STATUS_FELLBACK
    (l.slot != l.preferred)).setFlag F.PWR_BOOT_STATUS_SIGNED l.signed
  let s2 := ((s1.fset F.PWR_BOOT_STATUS_SLOT l.slot).fset F.PWR_IMG_VERSION l.version).fset F.PWR_IMG_GEN l.gen
  (s2.fset F.PWR_BOOT_TIME ((s.phys - l.release) / 1000)).modBoot (fun b => { b with load := none })

/-- Pass 1 of an attempt ends: `read` is none where the flash was read, else NOFLASH or READ (R574, R585 to R587). Pass 2
applies NETCFG and SAFE here; the REGS records follow. -/
def State.bootPass (s : State) (read : Option Nat) : State :=
  match s.boot.load with
  | none => s
  | some l =>
    if l.pass2 then s else
    match read with
    | some c => s.bootFail l c
    | none =>
      match s.formatError l.slot with
      | some c => s.bootFail l c
      | none =>
        let k := s.signCheck l.slot
        match k.1 with
        | some c => s.bootFail l c
        | none =>
          let s1 := s.placeSections l.slot
          let s2 := match s1.sectionBytes l.slot 7 with
            | some b => s1.applyNetcfg b
            | none => s1
          let s3 := match s2.sectionBytes l.slot 6 with
            | some b => s2.thrOffer b
            | none => s2
          let l1 : Load := ⟨l.kind, l.slot, l.preferred, l.next, l.release, true, s.slotNum l.slot 6 2,
            s.slotNum l.slot 0x10 4, k.2, s.regsOf l.slot, none⟩
          s3.modBoot (fun b => { b with load := some l1 })

/-! ### Resets (R12, R590 to R593) -/

/-- A class keeps its fields through a reset kind (R12): 0 POR, 1 RESET_N, 2 watchdog, 3 soft, 4 warm, 5 Sleep wake. -/
def Class.keeps (c : Class) (kind : Nat) : Bool :=
  match c with
  | .p => false
  | .w => kind == 4
  | .s => kind == 4 || kind == 5
  | .a => kind != 0

/-- The word of a register after a reset: fields kept, the others at their reset values. -/
def regAfter (a : Nat) (w : Word) (kind : Nat) : Word :=
  match regAt a with
  | none => resetWord a
  | some r =>
    let kept := r.mask (fun f => f.cls.keeps kind)
    BitVec.ofNat 32 ((w.toNat &&& kept) ||| ((resetWord a).toNat &&& (0xFFFF_FFFF - kept)))

def regsAfter (kind : Nat) : RegFile → RegFile
  | [] => []
  | (a, w) :: r =>
    let v := regAfter a w kind
    if v = resetWord a then regsAfter kind r else (a, v) :: regsAfter kind r

/-- R10's snapshots and R11's held writes that survive: those of values a class keeps. -/
def pendingAfter (kind : Nat) (l : RegFile) : RegFile :=
  l.filter (fun x => match regAt x.1 with
    | some r => r.fields.all (fun f => f.cls.keeps kind)
    | none => false)

/-- Memory that survives (R593): the Attic, and Cellar memory through a warm reload. -/
def memAfter (kind : Nat) (m : Memory) : Memory :=
  m.filter (fun c => (decide (0x00C0_0000 ≤ c.1) && decide (c.1 < 0x00C4_0000)) ||
    (kind == 4 && decide (0x0600_0000 ≤ c.1) && decide (c.1 < 0x0640_0000)))

/-- Rank of a reset kind (R591). -/
def resetRank (kind : Nat) : Nat :=
  match kind with
  | 0 => 5
  | 1 => 4
  | 2 => 3
  | 3 => 2
  | 5 => 1
  | _ => 0

/-- Every block, register and memory after a reset of a kind (R592, R593). -/
def State.clear (s : State) (kind : Nat) : State :=
  let warm := kind == 4
  { State.reset with
    pending := s.pending, phys := s.phys, freeCtr := s.freeCtr, rdata := s.rdata
    lclk := if warm then s.lclk else 0
    run := if warm then s.run else 0
    steps := if warm then s.steps else []
    regs := regsAfter kind s.regs, snaps := pendingAfter kind s.snaps, held := pendingAfter kind s.held
    mem := memAfter kind s.mem
    badPar := if warm then s.badPar.filter (fun a => decide (0x0600_0000 ≤ a) && decide (a < 0x0640_0000)) else []
    thr := if kind = 0 then {} else s.thr
    fuses := if kind = 0 then { s.fuses with shown := s.fuses.burnt } else s.fuses
    flash := s.flash
    chuck := if warm then s.chuck.map (fun c => { c with ext := none }) else State.reset.chuck
    fld := if warm then s.fld.map (fun f => { ({} : Field) with mu := f.mu }) else State.reset.fld
    attic := { urgent := if kind = 0 then [] else s.attic.urgent }
    servo := if warm then { f := s.servo.f, holdFrom := some (s.servo.holdFrom.getD s.phys) } else {}
    can := s.can.map (fun c => { ({} : Can) with werr := if Class.s.keeps kind then c.werr else 0 })
    zen := { opened := s.zen.opened }
    boot := { refsel := s.boot.refsel } }

/-- A reset kind takes place, and its load begins (R590, R591). `refsel` is the level at REFSEL (R603). -/
def State.doReset (s : State) (kind : Nat) (refsel : Bool) : State :=
  let busy : Bool := match s.boot.load with
    | some l => decide (resetRank kind < resetRank l.kind)
    | none => false
  if busy then { s with resetReq := none } else
  let devflt := (s.reg (F.FLT_DEVFLT_F.addr 0 0)).toNat
  let s0 := if kind = 0 then s.flashCut.fuseCut.atticCut else s.flashCut
  let s1 := s0.clear kind
  let s2 := s1.modBoot (fun b => { b with refsel := if kind = 4 then b.refsel else refsel })
  let s3 := s2.fset F.PWR_BOOT_STATUS_RSTKIND kind
  let s4 := if s3.fuses.prog.isSome then s3.setFlag F.DEV_FUSE_PGM_BUSY true else s3
  let s5 := s4.raiseFault 0 0x01 0 kind [if kind = 0 then 0 else devflt]
  let s6 := if kind = 4
    then (s5.setFlag F.HEARTH_STATUS_HOLDOVER true).setFlag F.HEARTH_STATUS_LOCKED false else s5
  (s6.thrEffect).bootStart kind

/-- RESET_N low for `ns` (R590): 1 µs resets, less than 100 ns is ignored, between them either. -/
def State.resetN (s : State) (ns : Nat) (refsel : Bool) : State :=
  if s.boot.held ∨ ns < 100 then s
  else if 1000 ≤ ns then s.doReset 1 refsel
  else
    let r := s.takeFree
    if r.1.toNat % 2 = 0 then r.2 else r.2.doReset 1 refsel

/-- A supply falls below its threshold: power-on reset asserts (R608). -/
def State.supplyLow (s : State) : State := (s.flashCut.fuseCut.atticCut.clear 0).modBoot (fun b => { b with held := true })

/-- A requested reset (R590, R598). -/
def State.requestedReset (s : State) (kind : Nat) (refsel : Bool) : State :=
  if s.resetReq = some kind then s.doReset kind refsel else s

/-- A keyed write to PWR_RESET. -/
def State.pwrReset (s : State) (w : Nat) : State :=
  if bitsOf w 31 16 ≠ 0x5A96 then s
  else match bitsOf w 1 0 with
    | 1 => { s with resetReq := some 3 }
    | 2 => { s with resetReq := some 4 }
    | _ => s

/-! ### Watchdog (R597, R509) -/

def State.wdtStart (s : State) (w : Nat) : State :=
  if s.flag F.PWR_WDT_CTRL_EN then s
  else
    let t := bitsOf w 31 16
    if !bit w 0 then s.fset F.PWR_WDT_CTRL_TIMEOUT t
    else if t = 0 then s
    else ((s.fset F.PWR_WDT_CTRL_TIMEOUT t).setFlag F.PWR_WDT_CTRL_EN true).modBoot (fun b => { b with
      wdt := some (s.phys + t * 1000000) })

def State.wdtKick (s : State) (key : Nat) : State :=
  if key = 0xC35A ∧ s.flag F.PWR_WDT_CTRL_EN then
    s.modBoot (fun b => { b with wdt := some (s.phys + s.fget F.PWR_WDT_CTRL_TIMEOUT * 1000000) })
  else s

/-- WDT_LEFT: ms before expiry. -/
def State.wdtLeft (s : State) : Nat :=
  match s.boot.wdt with
  | none => 0
  | some t => (t - s.phys + 999999) / 1000000

def State.watchdog (s : State) (refsel : Bool) : State :=
  match s.boot.wdt with
  | none => s
  | some t => if t ≤ s.phys then s.doReset 2 refsel else s

/-- 1 ms after a halt with F3RESET = 1 (R509). -/
def State.f3reset (s : State) (refsel : Bool) : State :=
  match s.attic.haltAt with
  | none => s
  | some t => if s.flag F.FLT_FAULT_CFG_F3RESET && decide (t + 1000000 ≤ s.phys) then s.doReset 2 refsel else s

/-! ### Sleep (R594 to R596) -/

/-- A keyed write of PWR_SLEEP GO. -/
def State.sleepRequest (s : State) (w : Nat) : State :=
  if bitsOf w 31 16 ≠ 0x5AA5 ∨ !bit w 0 then s
  else if !s.flag F.THR_STATUS_ALLSTO ∨ s.boot.load.isSome then s.raise F.PWR_STATUS_SLEEPREJ
  else if s.boot.entering then s
  else
    let s1 := forFin 64 (fun n t => t.removeTorque n) s
    let s2 := ({ s1 with sleepGate := true }).gateUpdate
    let s3 := if s2.flag F.HW_J_CFG_EN then s2.joistSend s2.seq.k (ns32 (s2.nowNs + s2.fget F.HW_J_APPLY)) else s2
    s3.modBoot (fun b => { b with entering := true, wake := none })

/-- A wake event (R595): in Sleep it wakes; during entry it is kept; otherwise it is ignored. -/
def State.wake (s : State) (cause : Nat) (refsel : Bool) : State :=
  if s.boot.asleep.isSome then (s.fset F.PWR_WAKE_STATUS_CAUSE cause).doReset 5 refsel
  else if s.boot.entering then s.modBoot (fun b => { b with wake := b.wake.orElse (fun _ => some cause) })
  else s

/-- The device enters Sleep once the Attic queue has drained. -/
def State.sleepEntry (s : State) (refsel : Bool) : State :=
  if s.boot.entering ∧ s.attic.queue = [] ∧ s.attic.urgent = [] then
    let s1 := (s.flashCut.clear 5).modBoot (fun b => { b with asleep := some s.phys })
    match s.boot.wake with
    | some c => s1.wake c refsel
    | none => s1
  else s

/-- WAKE_N low for `ns`. -/
def State.wakePin (s : State) (ns : Nat) (refsel : Bool) : State :=
  if s.flag F.PWR_WAKE_CFG_PINEN && decide (1000 ≤ ns) then s.wake 1 refsel else s

def State.wakeTimer (s : State) (refsel : Bool) : State :=
  let t := s.fget F.PWR_WAKE_CFG_TIMER
  match s.boot.asleep with
  | none => s
  | some at' => if t ≠ 0 ∧ at' + t * 10 ^ 9 ≤ s.phys then s.wake 2 refsel else s

/-- The wake logic of a CAN controller (R570, R571). -/
def State.canWake (s : State) (n : Fin 2) (x : CanSeen) (refsel : Bool)
    (seen : State → Fin 2 → CanSeen → Bool × State) : State :=
  let deep := s.boot.asleep.isSome
  if !s.flag F.CAN_WAKE_CFG_WEN n then s
  else if !deep && s.fget F.CAN_STATUS_STATE n != 5 then s
  else
    let r := seen s n x
    if r.1 && s.flag F.CAN_WAKE_CFG_DEVWK n then r.2.wake (3 + n.val) refsel else r.2

/-! ### The clock monitor (R511) -/

/-- REFCLK stopped (0), off frequency (1) or a PLL unlocked (2). A stopped REFCLK stops channel A's samples and ticks (R472). -/
def State.clockLost (s : State) (cause : Nat) : State :=
  let s0 := if cause = 0 then s.thrClockStop else s
  let s1 : State := if decide (cause = 0) && s.boot.refsel then { s0 with raf := { s0.raf with noEdges := true } } else s0
  if s1.off then s1
  else
    let s2 := (s1.modBoot (fun b => { b with refLost := true })).setFlag F.HEARTH_STATUS_LOCKED false
    s2.raiseF3 0x0C 0 cause []

end Sys2Proof.Machine
end

