-- ==== Sys2Proof/Machine/Chuck.lean ====
section
/-! DEFINITION. Chuck feedback channels (R116 to R146): quadrature, index, Hall, SSI and feedback faults. -/
namespace Sys2Proof.Machine

def State.chMode (s : State) (c : Fin 32) : Nat := s.fget F.CHUCK_CFG_MODE c

/-- `ns` nanoseconds in the units of `run`. -/
def nsU (ns : Nat) : Nat := ns * unitNs

/-- Raise a feedback fault (R145): bit 1 QBURST, 2 IDXRUN, 3 HALLINV, 4 SSI. Nothing while the bit is set
(R146). -/
def State.chFault (s : State) (c : Fin 32) (cause : Nat) : State :=
  let a := F.CHUCK_FLT_ACTIVE.addr c 0
  let w := (s.reg a).toNat
  if bit w cause then s else
  let w' := w ||| 2 ^ cause ||| 1
  let s1 := ((s.setReg a (BitVec.ofNat 32 w')).noteSet a (2 ^ cause)).raiseFault 1 0x04 c (w' / 2) [s.fget F.CHUCK_COUNT c]
  (forFin 64 (fun n t => t.feedbackFault n c) s1).spinFault c true

/-- COUNT changes by `d` and POS with it (R118); a stamped change is one for velocities (R76, R122). -/
def State.chCount (s : State) (c : Fin 32) (d : Int) (stamp : Nat) : State :=
  if d = 0 then s else
  let n := (s.fgetS F.CHUCK_COUNT c) + d
  let s1 := s.fsetS F.CHUCK_COUNT n c
  let s2 := s1.fset F.CHUCK_POS (s1.fget F.CHUCK_COUNT c + s1.fget F.CHUCK_OFFSET c) c
  let keep := fun (x : Nat × Int) => decide (stamp ≤ x.1 + 255000 * unitNs)
  let dir := signI d
  let s3 := s2.modCh c (fun h =>
    let last := match h.changes with
      | x :: _ => x.2
      | [] => 0
    { h with
      changes := (stamp, last + d) :: (h.changes.take 1 ++ (h.changes.drop 1).filter keep)
      idxReversed := h.idxReversed || (decide (h.lastDir ≠ 0) && decide (h.lastDir ≠ dir))
      lastDir := dir })
  s3.spinSource 0 c d stamp

/-- The stamp of a change whose filtered level shows now (R122). -/
def State.chStamp (s : State) (c : Fin 32) : Nat := s.run - nsU (4 * s.fget F.CHUCK_CFG_FILT c)

/-- A QERR event (R125, R126). -/
def State.chErr (s : State) (c : Fin 32) : State :=
  let s1 := (s.finc F.CHUCK_QERR c).modCh c (fun h => { h with
    errs := s.run :: h.errs.filter (fun t => decide (s.run < t + nsU 1000000)) })
  if s1.fget F.CHUCK_CFG_QLIM c < s1.chuck[c].errs.length then s1.chFault c 1 else s1

/-- The step of the quadrature state (B, A) along 00, 01, 11, 10 (R124): none for an error. -/
def quadStep (b a b' a' : Bool) : Option Int :=
  let ix := fun (b a : Bool) => if b then (if a then 2 else 3) else (if a then 1 else 0)
  match (ix b' a' + 4 - ix b a) % 4 with
  | 0 => some 0
  | 1 => some 1
  | 3 => some (-1)
  | _ => none

def State.chDir (s : State) (c : Fin 32) (d : Int) : Int := if s.flag F.CHUCK_CFG_DIR c then -d else d

/-- An index is recognised (R128 to R131). -/
def State.chIndexed (s0 : State) (c : Fin 32) : State :=
  let s := s0.modCh c (fun h => { h with idxPend := false })
  let cnt := s.fget F.CHUCK_COUNT c
  let s1 := ((s.fset F.CHUCK_IDXPOS cnt c).fincWrap F.CHUCK_IDXCNT c).raise F.CHUCK_STATUS_IDX c
  let h := s.chuck[c]
  let s2 := s1.modCh c (fun h => { h with idxRef := some (toS 32 cnt), idxReversed := false })
  let lines := s.fget F.CHUCK_LINES c
  match h.idxRef with
  | none => s2
  | some old =>
    if h.idxReversed ∨ lines = 0 then s2 else
    let delta := toS 32 (ofS 32 (toS 32 cnt - old))
    let D := absI delta - 4 * (lines : Int)
    if absI D ≤ s.fget F.CHUCK_LINES_IDXTOL c then s2.fset F.CHUCK_STATUS_RUN 0 c
    else
      let s3 := (s2.fsetS F.CHUCK_IDXDEV D c).raise F.CHUCK_STATUS_IDXDEV c
      let s4 := s3.finc F.CHUCK_STATUS_RUN c
      let lim := s.fget F.CHUCK_CFG_IDXRUN c
      if lim ≠ 0 ∧ lim ≤ s4.fget F.CHUCK_STATUS_RUN c then s4.chFault c 2 else s4

/-- The gate of an index opens with Z still at its post-edge level (R127). -/
def State.chGate (s : State) (c : Fin 32) : State :=
  if s.chMode c = 1 ∧ s.chuck[c].idxPend = true ∧ s.flag F.CHUCK_CFG_IDXGEN c = true ∧
    s.fget F.CHUCK_STATUS_LVL c % 4 = s.fget F.CHUCK_CFG_IDXAB c then s.chIndexed c else s

/-- A sample of Z: a filtered edge of the kind selected is an index at once, or with IDXGEN at the first gated sample before
the opposite edge (R127). -/
def State.chIndex (s : State) (c : Fin 32) (w : BitVec 16) : State :=
  let lv := s.fget F.CHUCK_STATUS_LVL c
  let z := filtered (s.fget F.CHUCK_CFG_FILT c) (bit lv 2) w
  if z = bit lv 2 then s else
  let s0 := s.fset F.CHUCK_STATUS_LVL (lv % 4 + 4 * b2n z) c
  if s.chMode c ≠ 1 then s0
  else if s.fget F.CHUCK_CFG_IDXEDGE c ≠ (if z then 1 else 2) then s0.modCh c (fun h => { h with idxPend := false })
  else if !s.flag F.CHUCK_CFG_IDXGEN c then s0.chIndexed c
  else (s0.modCh c (fun h => { h with idxPend := true })).chGate c

/-- Edges on A and B closer than counting allows (R123). -/
def State.chClose (s : State) (c : Fin 32) : Bool :=
  match s.chuck[c].lastEdge with
  | none => false
  | some t => decide (s.chStamp c < t + nsU (max (4 * (s.fget F.CHUCK_CFG_FILT c + 2)) 25))

/-- The count of an edge (R124, R125); for one that comes too close, an error or a lost count, a free choice (R123). -/
def State.quadCount (s : State) (c : Fin 32) (step : Option Int) : State :=
  let t := s.modCh c (fun h => { h with lastEdge := some (s.chStamp c) })
  match step with
  | none => t.chErr c
  | some d =>
    if s.chClose c then
      let r := t.takeFree
      if r.1.getLsbD 0 then r.2.chErr c else r.2
    else t.chCount c (s.chDir c d) (s.chStamp c)

/-- A sample of B and A: their filtered state may change (R121, R124). -/
def State.quadChange (s : State) (c : Fin 32) (wb wa : BitVec 16) : State :=
  let lv := s.fget F.CHUCK_STATUS_LVL c
  let filt := s.fget F.CHUCK_CFG_FILT c
  let b := filtered filt (bit lv 1) wb
  let a := filtered filt (bit lv 0) wa
  if b = bit lv 1 ∧ a = bit lv 0 then s else
  let s1 := s.fset F.CHUCK_STATUS_LVL (lv / 4 * 4 + 2 * b2n b + b2n a) c
  if s.chMode c ≠ 1 then s1 else (s1.quadCount c (quadStep (bit lv 1) (bit lv 0) b a)).chGate c

/-! ### Hall (R132 to R134) -/

/-- The raw sector of (H3, H2, H1), none when invalid (R132). -/
def hallRaw (h : Nat) : Option Nat :=
  match h with
  | 1 => some 0
  | 3 => some 1
  | 2 => some 2
  | 6 => some 3
  | 4 => some 4
  | 5 => some 5
  | _ => none

/-- STATUS.SECTOR of a raw sector (R132). -/
def State.chSector (s : State) (c : Fin 32) (raw : Nat) : Nat :=
  let o := s.fget F.CHUCK_HALL_SECTOFF c
  if s.flag F.CHUCK_CFG_DIR c then (o + 6 - raw) % 6 else (raw + o) % 6

/-- SECTOR follows the last valid state and the configuration. -/
def State.chShowSector (s : State) (c : Fin 32) : State :=
  match s.chuck[c].sector with
  | some r => if s.chMode c = 2 then s.fset F.CHUCK_STATUS_SECTOR (s.chSector c r) c else s
  | none => s

/-- The filtered Hall state at the present sample of H3, H2 and H1. -/
def State.hallLevels (s : State) (c : Fin 32) (w3 w2 w1 : BitVec 16) : Nat :=
  let lv := s.fget F.CHUCK_STATUS_LVL c
  let f := filtered (s.fget F.CHUCK_CFG_FILT c)
  4 * b2n (f (bit lv 2) w3) + 2 * b2n (f (bit lv 1) w2) + b2n (f (bit lv 0) w1)

/-- The filtered Hall state becomes `h` = (H3, H2, H1) (R133, R134). -/
def State.hallChange (s : State) (c : Fin 32) (h : Nat) : State :=
  let s0 := s.fset F.CHUCK_STATUS_LVL h c
  if s.chMode c ≠ 2 then s0 else
  match hallRaw h with
  | none =>
    let s1 := (s0.setFlag F.CHUCK_STATUS_HALLINV true c).modCh c (fun x => { x with
      invalidSince := some (x.invalidSince.getD s.run) })
    if s.fget F.CHUCK_HALL_HINVT c = 0 then s1.chFault c 3 else s1
  | some r =>
    let s1 := (s0.setFlag F.CHUCK_STATUS_HALLINV false c).modCh c (fun x => { x with
      invalidSince := none, sector := some r })
    let s2 := s1.chShowSector c
    match s.chuck[c].sector with
    | none => s2
    | some o =>
      let step := (r + 6 - o) % 6
      if step = 0 then s2
      else if step = 1 ∨ step = 5 then
        let d := s.chDir c (if step = 1 then 1 else -1)
        (s2.chCount c d (s.chStamp c)).modCh c (fun x => { x with
          edges := (s.chStamp c, d) :: x.edges.take 5 })
      else s2.chErr c

/-- A sample of the Hall lines: their filtered state may change. -/
def State.hallSample (s : State) (c : Fin 32) (w3 w2 w1 : BitVec 16) : State :=
  let h := s.hallLevels c w3 w2 w1
  if h = s.fget F.CHUCK_STATUS_LVL c % 8 then s else s.hallChange c h

/-- The Hall state has been invalid for more than HINVT (R134). -/
def State.hallOverdue (s : State) (c : Fin 32) : Bool :=
  s.chMode c == 2 && (match s.chuck[c].invalidSince with
    | some t => decide (t + nsU (1000 * s.fget F.CHUCK_HALL_HINVT c) < s.run) || s.fget F.CHUCK_HALL_HINVT c == 0
    | none => false)

def State.hallInv (s : State) (c : Fin 32) : State := if s.hallOverdue c then s.chFault c 3 else s

/-! ### SSI (R135 to R144) -/

/-- The clock period in ns (R135). -/
def State.ssiPeriod (s : State) (c : Fin 32) : Nat := 4 * (s.fget F.CHUCK_SSI_CFG_DIV c + 1)

/-- The bits of a frame: SKIP, POSBITS, STATBITS, CRCLEN (R139). -/
def State.ssiBits (s : State) (c : Fin 32) : Nat :=
  s.fget F.CHUCK_SSI_FMT_SKIP c + s.fget F.CHUCK_SSI_FMT_POSBITS c + s.fget F.CHUCK_SSI_FMT_STATBITS c
    + s.fget F.CHUCK_SSI_FMT_CRCLEN c

/-- The format and the clock divider are within their limits (R135, R139). -/
def State.ssiLegal (s : State) (c : Fin 32) : Bool :=
  decide (24 ≤ s.fget F.CHUCK_SSI_CFG_DIV c) && decide (s.ssiBits c ≤ 40) &&
  decide (s.fget F.CHUCK_SSI_FMT_CRCLEN c ≤ 8) && decide (s.fget F.CHUCK_SSI_FMT_POSBITS c ≤ 32)

/-- A bad frame (R142, R144). -/
def State.ssiBadFrame (s : State) (c : Fin 32) : State :=
  let lim := s.fget F.CHUCK_SSI_CFG_ERRLIM c
  let s1 := (s.setFlag F.CHUCK_STATUS_SSIGOOD false c).modCh c (fun h => { h with
    ssiBad := h.ssiBad + 1, ssiHeld := h.ssiHeld || (decide (lim ≠ 0) && decide (lim ≤ h.ssiBad + 1)) })
  if lim ≠ 0 ∧ lim ≤ s1.chuck[c].ssiBad then s1.chFault c 4 else s1

/-- A good frame ends the run of bad ones (R144). -/
def State.ssiGood (s : State) (c : Fin 32) : State :=
  (s.setFlag F.CHUCK_STATUS_SSIGOOD true c).modCh c (fun h => { h with ssiBad := 0, ssiHeld := false })

/-- A cycle that RATE selects asks for a frame PHASE ns after its start (R136). -/
def State.ssiArm (s : State) (c : Fin 32) (fv fp : Bool) : State :=
  let r := s.fget F.CHUCK_SSI_CFG_RATE c
  if s.chMode c = 3 ∧ (r = 0 ∨ (r = 1 ∧ fv) ∨ (r = 2 ∧ fp)) then
    s.modCh c (fun h => { h with ssiDue := h.ssiDue ++ [s.seq.start + nsU (s.fget F.CHUCK_SSI_PHASE c)] })
  else s

/-- The request (R136, R137, R142): `ready` is the data line's level. -/
def State.ssiRequest (s : State) (c : Fin 32) (ready : Bool) : State :=
  match s.chuck[c].ssiDue with
  | [] => s
  | due :: rest =>
    if s.run < due ∨ s.chMode c ≠ 3 then s else
    let s0 := s.modCh c (fun h => { h with ssiDue := rest })
    if s.run < s.chuck[c].ssiBusy then s0.finc F.CHUCK_SSIERR_SKIPPED c
    else if s.ssiBits c = 0 then s0.ssiGood c
    else if !ready then (s0.finc F.CHUCK_SSIERR_NOREADY c).ssiBadFrame c
    else
      let T := s.ssiPeriod c
      let len := s.ssiBits c * T + T / 2 + 10 * s.fget F.CHUCK_SSI_MON_TMON c
      s0.modCh c (fun h => { h with ssiFrame := some s.run, ssiBusy := s.run + nsU len })

/-- `k` bits of a frame from bit `i`, the first received most significant. -/
def frameField (fr i : Nat) : Nat → Nat
  | 0 => 0
  | k + 1 => 2 * frameField fr i k + b2n (bit fr (i + k))

/-- Binary from Gray code of `k` bits (R140). -/
def fromGray (k v : Nat) : Nat :=
  maskOf ((List.range k).filter (fun j => ((List.range k).filter (fun i => decide (j ≤ i) && bit v i)).length % 2 == 1))

/-- The CRC of a frame's position and status bits (R141). -/
def ssiCrc (len poly init : Nat) (bits : List Bool) : Nat := crcBits len (poly % 2 ^ len) (init % 2 ^ len) bits

/-- A frame has ended; bit `i` of `fr` is its bit `i` (R138 to R143). -/
def State.ssiFrameEnd (s : State) (c : Fin 32) (fr : Nat) : State :=
  match s.chuck[c].ssiFrame with
  | none => s
  | some t =>
    let T := s.ssiPeriod c
    if s.run < t + nsU (s.ssiBits c * T + 4 * s.fget F.CHUCK_SSI_CFG_DLY c) then s else
    let s0 := s.modCh c (fun h => { h with ssiFrame := none })
    let sk := s.fget F.CHUCK_SSI_FMT_SKIP c
    let pb := s.fget F.CHUCK_SSI_FMT_POSBITS c
    let sb := s.fget F.CHUCK_SSI_FMT_STATBITS c
    let cl := s.fget F.CHUCK_SSI_FMT_CRCLEN c
    let bits := (List.range (pb + sb)).map (fun i => bit fr (sk + i))
    let crc0 := ssiCrc cl (s.fget F.CHUCK_SSI_CRC_POLY c) (s.fget F.CHUCK_SSI_CRC_INIT c) bits
    let crc := if s.flag F.CHUCK_SSI_FMT_CRCINV c then 2 ^ cl - 1 - crc0 else crc0
    let wrong := decide (cl ≠ 0) && decide (crc ≠ frameField fr (sk + pb + sb) cl)
    let raw := frameField fr sk pb
    let pos := if s.flag F.CHUCK_SSI_FMT_GRAY c then fromGray pb raw else raw
    let diff := fun (o : Nat) => toS pb (pos + 2 ^ pb - o % 2 ^ pb)
    let jump := s.fget F.CHUCK_SSI_JUMP c
    let prev : Option Nat := s.chuck[c].ssiPrev
    let beyond : Bool := match prev with
      | some o => decide (jump ≠ 0) && decide ((jump : Int) < absI (diff o))
      | none => false
    if wrong || beyond then
      let s1 := if wrong then s0.finc F.CHUCK_SSIERR_CRC c else s0
      (if beyond then s1.finc F.CHUCK_SSIERR_JUMP c else s1).ssiBadFrame c
    else
      let s1 := ((s0.ssiGood c).fset F.CHUCK_SSI_RAW pos c).fset F.CHUCK_SSI_STAT (frameField fr (sk + pb) sb) c
      let d := match s.chuck[c].ssiPrev with
        | some o => if pb = 0 then 0 else diff o
        | none => toS 32 (ofS 32 ((pos : Int) - s.fgetS F.CHUCK_COUNT c))
      let s2 := s1.modCh c (fun h => { h with ssiPrev := some pos })
      s2.chCount c d (t + nsU (s.fget F.CHUCK_SSI_MON_LAT c))

/-! ### Configuration -/

/-- MODE has changed (R117, R130): the new decoder starts from the levels present. -/
def State.chModeChange (s : State) (c : Fin 32) : State :=
  let h := s.fget F.CHUCK_STATUS_LVL c
  let raw := if s.chMode c = 2 then hallRaw h else none
  let inv := s.chMode c == 2 && raw.isNone
  let s1 := s.modCh c (fun x => { x with
    idxRef := none, idxReversed := false, sector := raw, edges := []
    invalidSince := if inv then some s.run else none
    lastEdge := none, idxPend := false
    ssiDue := [], ssiFrame := none, ssiPrev := none, ssiBad := 0, ssiHeld := false })
  (s1.setFlag F.CHUCK_STATUS_HALLINV inv c).chShowSector c

/-- OFFSET is written (R119): POS jumps, and spindles with it. -/
def State.chOffset (s : State) (c : Fin 32) (v : Nat) : State :=
  let d := toS 32 (ofS 32 ((v : Int) - s.fget F.CHUCK_OFFSET c))
  let s1 := s.fset F.CHUCK_OFFSET v c
  let s2 := s1.fset F.CHUCK_POS (s1.fget F.CHUCK_COUNT c + v) c
  forFin 16 (fun n t => if t.spinFollows n 0 c then t.spinJump n d else t) s2

/-- Firmware writes 1 to cause bits (R146); the fault ends when none remain (R81). -/
def State.chFltClear (s : State) (c : Fin 32) (m : Nat) : State :=
  let a := F.CHUCK_FLT_ACTIVE.addr c 0
  let w := (s.reg a).toNat
  let keep := fun (i : Nat) => (i == 3 && s.hallOverdue c) || (i == 4 && s.chuck[c].ssiHeld) || bit (s.justSet a) i
  let gone := [1, 2, 3, 4].filter (fun i => bit w i && bit m i && !keep i)
  let w1 := w - maskOf gone
  let left := w1 / 2 % 16
  let s1 := s.setReg a (BitVec.ofNat 32 (if left = 0 then 0 else w1))
  if left = 0 ∧ bit w 0 then s1.spinFault c false else s1

end Sys2Proof.Machine
end

