-- ==== Sys2Proof/Machine/Loop.lean ====
section
/-! DEFINITION. Servo loops (R222 to R240, R248, R249): feedback, the loop laws, filters, enabling, and the axis
part of a control cycle. -/
namespace Sys2Proof.Machine

/-- A gain: MANT·2^(EXP − 23) (R228). -/
def gainR (g : Nat) : Rat :=
  let m : Rat := ((g / 256 : Nat) : Int)
  let e := toS 8 (g % 256) - 23
  if 0 ≤ e then m * (2 ^ e.toNat : Nat) else m / (2 ^ (-e).toNat : Nat)

def State.gain (s : State) (f : Fld) (n : Nat) : Rat := gainR (s.fget f n)

/-- A current in Q1.23 as a rational, and back. -/
def ofQ23 (x : Int) : Rat := (x : Rat) / (2 ^ 23 : Int)
def toQ23 (x : Rat) : Int := satS 24 (quo (x.num * 2 ^ 23) x.den)

def ofQ47 (x : Int) : Rat := (x : Rat) / (2 ^ 47 : Int)
def toQ47 (x : Rat) : Int := quo (x.num * 2 ^ 47) x.den

/-- Velocity of a Chuck channel at the cycle start in counts/s with the axis's window (R76, R77, R227). -/
def State.chVel (s : State) (ch : Fin 32) (stillt vwin : Nat) : Rat :=
  match countVel stillt vwin (s.chuck[ch].changes.filter (fun c => decide (c.1 ≤ s.seq.start))) s.seq.start with
  | none => 0
  | some (num, den) => (num * (10 ^ 9 * unitNs : Nat) : Int) / (den : Int)

/-! ### Inbound Joist records (R536): four words each of RXREC: header, ACTPOS, ACTVEL, SETPT -/

def State.rxWord (s : State) (rec' w : Nat) : Nat := s.fget F.HW_J_RXREC 0 (4 * rec' + w)

/-- The extensions of every record take its present values (R226, R536). -/
def State.recExtend (s : State) : State :=
  { s with jo := { s.jo with ext := s.jo.ext.map (fun x => ⟨x.rec', Extension.add (some x.act) (toS 32 (s.rxWord x.rec' 1)),
    Extension.add (some x.set') (toS 32 (s.rxWord x.rec' 3))⟩) } }

def State.recExt (s : State) (r : Nat) : Option RecExt := s.jo.ext.find? (fun x => x.rec' == r)

/-- The position set-point of record REFJ (R249, R536). -/
def State.extSetpoint (s : State) (n : Fin 64) : Rat :=
  let r := s.fget F.AX_LOOP_CFG_REFJ n
  let e : Int := ((s.recExt r).map (fun x => x.set'.sum)).getD 0
  ofQ (s.wgetS F.AX_POSOFS n) + ofQ (s.wgetS F.AX_FBSCALE n) * (e : Rat)

/-! ### Feedback -/

/-- C of an axis (R226). -/
def State.fbCount (s : State) (n : Fin 64) : Int :=
  let k := s.axKind n
  if k = 2 then ((s.recExt (s.fget F.AX_CFG_ATT n)).map (fun x => x.act.sum)).getD 0
  else if s.flag F.AX_LOOP_CFG_PFBEN n then
    (s.chuck[Fin.ofNat 32 (s.fget F.AX_LOOP_CFG_PFB n)].ext.map (fun x => x.sum)).getD 0
  else if k = 1 then s.wgetS F.AX_FLD_EANG n else s.fld[n].mu

/-- A channel's POS as the cycle snapshot takes it, and its extension (R120, R185). -/
def State.chLatch (s : State) (c : Fin 32) : State :=
  let v := s.fget F.CHUCK_POS c
  (s.fset F.CHUCK_SNAP v c).modCh c (fun h => { h with ext := some (Extension.add h.ext (toS 32 v)) })

/-- v_act in au/s (R227). -/
def State.vAct (s : State) (n : Fin 64) : Rat :=
  let fb := s.axQ F.AX_FBSCALE n
  let vs := s.axQ F.AX_VSCALE n
  let win := s.fget F.AX_VEST_VWIN n
  let st := s.fget F.AX_VEST_STILLT n
  match s.fget F.AX_LOOP_CFG_VSRC n with
  | 0 => s.chVel (Fin.ofNat 32 (s.fget F.AX_LOOP_CFG_PFB n)) st win * fb
  | 1 => s.chVel (Fin.ofNat 32 (s.fget F.AX_LOOP_CFG_VFB n)) st win * vs
  | 2 => (s.fgetS F.AX_FLD_OBSW n : Rat) / (2 ^ 16 : Int) * vs
  | _ => (toS 32 (s.rxWord (s.fget F.AX_CFG_ATT n) 2) : Rat) * fb

/-- The table of R227 admits the axis's VSRC. -/
def State.vsrcLegal (s : State) (n : Fin 64) : Bool :=
  let k := s.axKind n
  match s.fget F.AX_LOOP_CFG_VSRC n with
  | 0 => s.flag F.AX_LOOP_CFG_PFBEN n
  | 1 => true
  | 2 => k == 1
  | _ => k == 2

/-- v_act; a VSRC the table does not admit gives a free value (R227). -/
def State.vFeedback (s : State) (n : Fin 64) : Rat × State :=
  if s.vsrcLegal n then (s.vAct n, s)
  else
    let r := s.takeFree
    (ofQ r.1.toInt, r.2)

/-- Actual position and velocity of every axis at a cycle start (R185, R226, R227). -/
def State.axFeedback (s0 : State) (n : Fin 64) : State :=
  if s0.axKind n = 0 then s0 else
  let s := match s0.axStp n with
    | some o => s0.stpSettle n o
    | none => s0
  let act := s.axQ F.AX_POSOFS n + s.axQ F.AX_FBSCALE n * (s.fbCount n : Rat)
  let v := s.vFeedback n
  ((v.2.modLp n (fun l => { l with v := v.1 })).wsetS F.AX_ACT_POS (ratQ act) n).wsetS F.AX_VACT (ratQ v.1) n

/-! ### Filters (R230 to R233) -/

def State.filtAddr (n : Nat) (f : Nat) : Nat := F.AX_FILT_B0.addr n f

/-- A coefficient, signed Q2.30: 0 b0, 1 b1, 2 b2, 3 a1, 4 a2. -/
def State.coef (s : State) (n f i : Nat) : Rat :=
  (toS 32 (s.reg (F.AX_FILT_B0.addr n f + 4 * i)).toNat : Rat) / (2 ^ 30 : Int)

/-- The F0HZ at which the device passes the input and sets FERR: 0.45·F_V or more (R232). -/
def State.fv (s : State) : Rat :=
  let ti : Nat := match s.seq.fisel with
    | 0 => 62500 | 1 => 50000 | 2 => 40000 | 3 => 31250 | 4 => 25000 | 5 => 20000 | _ => 15625
  (10 ^ 9 : Int) / ((ti * s.seq.nDiv : Nat) : Int)

inductive FiltMode
  | pass
  | bad
  | biquad
  deriving DecidableEq, Repr

/-- How filter `f` of an axis acts (R230 to R233): F0HZ in Hz, MODE 0 off, 1 notch, 2 low-pass, 3 raw. -/
def State.filtMode (s : State) (n f : Nat) : FiltMode :=
  let m := s.fget F.AX_FILT_CFG_MODE n f
  let hz : Rat := (s.fget F.AX_FILT_CFG_F0HZ n f : Int)
  if m = 0 then .pass
  else if m = 3 then .biquad
  else if s.fv * 45 / 100 ≤ hz then .bad
  else if hz = 0 ∨ s.fget F.AX_FILT_CFG_BWQ n f = 0 then .pass
  else .biquad

/-- Recompute notch or low-pass coefficients (R231). -/
def State.filtCompute (s : State) (n f : Nat) : State :=
  let m := s.fget F.AX_FILT_CFG_MODE n f
  if (m = 1 ∨ m = 2) ∧ s.filtMode n f = .biquad then
    let hz : Rat := (s.fget F.AX_FILT_CFG_F0HZ n f : Int)
    let W := tanHalf (hz / s.fv)
    let bwq : Rat := (s.fget F.AX_FILT_CFG_BWQ n f : Int)
    let c : List Rat := if m = 1 then
        let zp := bwq / (2 * hz)
        let zz := (s.fget F.AX_FILT_DEPTH n f : Int) / ((2 ^ 16 : Nat) : Int) * zp
        let D := 1 + 2 * zp * W + W * W
        [(1 + 2 * zz * W + W * W) / D, 2 * (W * W - 1) / D, (1 - 2 * zz * W + W * W) / D,
         2 * (W * W - 1) / D, (1 - 2 * zp * W + W * W) / D]
      else
        let Q := bwq / (2 ^ 12 : Int)
        let D := 1 + W / Q + W * W
        [W * W / D, 2 * W * W / D, W * W / D, 2 * (W * W - 1) / D, (1 - W / Q + W * W) / D]
    (c.zipIdx).foldl (fun t x => t.setReg (F.AX_FILT_B0.addr n f + 4 * x.2)
      (BitVec.ofInt 32 (quo (x.1.num * 2 ^ 30) x.1.den))) s
  else s

/-- One filter step; states advance with the unclamped input (R229, R230). -/
def State.filtStep (s : State) (n : Fin 64) (f : Fin 3) (x : Rat) : State × Rat :=
  match s.filtMode n f with
  | .biquad =>
    let b := s.lp[n].filt[f]
    let y := s.coef n f 0 * x + s.coef n f 1 * ofQ47 b.x1 + s.coef n f 2 * ofQ47 b.x2
      - s.coef n f 3 * ofQ47 b.y1 - s.coef n f 4 * ofQ47 b.y2
    let yq := toQ47 y
    let nb : Biquad := { x1 := toQ47 x, x2 := b.x1, y1 := yq, y2 := b.y1 }
    (s.modLp n (fun l => { l with filt := l.filt.set f nb }), ofQ47 yq)
  | _ => (s, x)

/-- Pending filter work at an F_V tick: recomputation and raw commits (R231, R233); FERR (R232). -/
def State.filtPending (s : State) (n : Fin 64) : State :=
  let s1 := forFin 3 (fun f t =>
    let t1 := if t.lp[n].recompute[f] then t.filtCompute n f else t
    if t.lp[n].rawCommit[f] then
      let base := F.AX_FILT_B0.addr n f
      let mine := t.lp[n].rawHeld.filter (fun p => decide (base ≤ p.1) && decide (p.1 < base + 20))
      forList mine (fun p u => u.setReg p.1 p.2) (t1.modLp n (fun l => { l with
        rawHeld := l.rawHeld.filter (fun p => !(decide (base ≤ p.1) && decide (p.1 < base + 20))) }))
    else t1) s
  let s2 := s1.modLp n (fun l => { l with
    recompute := Vector.replicate 3 false, rawCommit := Vector.replicate 3 false })
  s2.setFlag F.AX_LOOP_STATUS_FERR ((List.range 3).any (fun f => s2.filtMode n f == .bad)) n

/-! ### The laws (R229, R248) -/

/-- The time since the F_P tick `tp`, in seconds. -/
def State.sinceTick (s : State) (tp : Nat) : Rat := ((s.run - tp : Nat) : Int) / ((10 ^ 9 * unitNs : Nat) : Int)

/-- ref() of VEL and TORQUE modes (R248). -/
def State.reference (s : State) (n : Fin 64) : Rat :=
  match s.fget F.AX_LOOP_CFG_REFSRC n with
  | 0 => s.axQ F.AX_SP_VEL n + s.axQ F.AX_SP_ACC n * s.sinceTick s.lp[n].tp
  | 1 => ofQ23 (s.fgetS F.CMD_SNAP (s.fget F.AX_LOOP_CFG_REFCMD n)) * s.axQ F.AX_REFSCALE n
  | 2 => (toS 32 (s.rxWord (s.fget F.AX_LOOP_CFG_REFJ n) 3) : Rat) / (2 ^ 31 : Int) * s.axQ F.AX_REFSCALE n
  | _ => s.axQ F.AX_REFVAL n

def State.standsStill (s : State) (n : Fin 64) : Bool := decide (s.lp[n].v = 0)

/-- pos_tick of R229 with FE, FEPEAK and the following-error checks (R237 to R239). -/
def State.posTick (s : State) (n : Fin 64) : State :=
  let fe := s.wgetS F.AX_SP_POS n - s.wgetS F.AX_ACT_POS n
  let k := s.axKind n
  let posMode := (k == 1 || k == 2) && s.fget F.AX_LOOP_CFG_MODE n == 0
  let s0 := s.modLp n (fun l => { l with tp := s.run })
  if !posMode && !(k == 3 && s.flag F.AX_LOOP_CFG_PFBEN n) then s0 else
  let s1 := (s0.wsetS F.AX_FE fe n).wset F.AX_FEPEAK (max (s.wget F.AX_FEPEAK n) (absI fe).toNat) n
  let s2 := s1.modLp n (fun l => { l with vpl := s.gain F.AX_KPP n * ofQ fe })
  let chk := s.fget F.AX_FECHK n
  let warn := bit chk 0 && decide (s.wget F.AX_FEWARN n < (absI fe).toNat)
  let s3 := s2.setFlag F.AX_LOOP_STATUS_FEWARN warn n
  let s4 := if warn then s3.raise F.AX_LOOP_STATUS_FEWSTK n else s3
  let beyond := decide (s.wget F.AX_FEMAX n < (absI fe).toNat)
  if !beyond then s4.modLp n (fun l => { l with feSince := none })
  else
    let t1 := (s.lp[n].feSince).getD s.run
    let s5 := s4.modLp n (fun l => { l with feSince := some t1 })
    if bit chk 1 && decide (s.fget F.AX_FETIME n * 1000 * unitNs ≤ s.run - t1) then s5.axisFault n 0 else s5

/-- ICMD is held at zero until the start machine reports running (R234). -/
def State.fieldRuns (s : State) (n : Nat) : Bool :=
  s.axKind n != 1 || s.fget F.AX_FLD_STATUS_FSTATE n == 5

/-- Overspeed at an F_V tick (R240), on every kind of axis that R227 gives a v_act: not on a virtual one (DEDUCED). -/
def State.overspeed (s : State) (n : Fin 64) : State :=
  if s.axKind n ≠ 0 ∧ bit (s.fget F.AX_FECHK n) 2 ∧ s.axU F.AX_VOVER n < absR s.lp[n].v then s.axisFault n 1 else s

/-- The loops of an axis are closed: EN is 1 and the F_P tick that closes them has come (R234). -/
def State.loopOn (s : State) (n : Nat) : Bool :=
  s.flag F.AX_LOOP_CTRL_EN n && !s.lp[Fin.ofNat 64 n].enPending

/-- vel_tick or torque_tick of R229; overspeed (R240). A remote axis with RMODE = 0 runs no law beyond VCMD (R223). -/
def State.velTick (s : State) (n : Fin 64) : State :=
  let k := s.axKind n
  let s1 := s.filtPending n
  if k ≠ 1 ∧ k ≠ 2 then s1.overspeed n else
  let s0 := (if s1.lp[n].resetI then s1.modLp n (fun l => { l with xi := 0, resetI := false }) else s1).overspeed n
  let va := s0.lp[n].v
  if !s0.loopOn n || s0.fget F.AX_FLD_STATUS_FSTATE n == 8 then s0.setFlag F.AX_LOOP_STATUS_ISAT false n else
  let ilim : Rat := ofQ23 (s.fget F.AX_ILIM n)
  let mode := s.fget F.AX_LOOP_CFG_MODE n
  if mode = 2 then
    if k = 2 ∧ !s.flag F.AX_LOOP_CFG_RMODE n then s0 else
    let f1 := s0.filtStep n 1 (s0.reference n)
    let f2 := f1.1.filtStep n 2 f1.2
    let y := toQ23 (clampR (-ilim) ilim f2.2)
    (f2.1.fsetS F.AX_ICMD (if s0.fieldRuns n then y else 0) n).setFlag F.AX_LOOP_STATUS_ISAT (decide (ilim < absR f2.2)) n
  else
    let tau := s0.sinceTick s0.lp[n].tp
    let vc0 := if mode = 0 then
        s0.lp[n].vpl + s.gain F.AX_KVFF n * (s0.axQ F.AX_SP_VEL n + s0.axQ F.AX_SP_ACC n * tau)
      else s0.reference n
    let aff := if mode = 0 ∨ s.fget F.AX_LOOP_CFG_REFSRC n = 0 then s0.axQ F.AX_SP_ACC n else 0
    let vlim := s.axU F.AX_VCLAMP n
    let vcmd := clampR (-vlim) vlim vc0
    let s1 := s0.wsetS F.AX_VCMD (ratQ vcmd) n
    if k = 2 ∧ !s.flag F.AX_LOOP_CFG_RMODE n then s1 else
    let f0 := s1.filtStep n 0 va
    let ev := vcmd - f0.2
    let xi := if f0.1.fieldRuns n then f0.1.lp[n].xi else 0
    let xn := xi + ev / s.fv
    let u := s.gain F.AX_KPV n * (ev + s.gain F.AX_KIV n * xn) + s.gain F.AX_KAFF n * aff
    let f1 := f0.1.filtStep n 1 u
    let f2 := f1.1.filtStep n 2 f1.2
    let sat := decide (ilim < absR f2.2)
    let y := if sat then signR f2.2 * ilim else f2.2
    let xn' := if sat ∧ signR ev = signR f2.2 then xi else xn
    let runs := f2.1.fieldRuns n
    let s2 := f2.1.modLp n (fun l => { l with xi := if runs then xn' else 0 })
    (s2.fsetS F.AX_ICMD (if runs then toQ23 y else 0) n).setFlag F.AX_LOOP_STATUS_ISAT sat n

/-! ### Enabling, and Headstock's place in the tick (R190, R224, R234, R235) -/

/-- RSTATE of an axis in RUN: closed, or with a ramp reaction in progress or done (R242, R260). -/
def State.rampState (s : State) (n : Fin 64) : Nat :=
  if s.lp[n].react = 0 then 1
  else if s.ax[n].qstop ∨ s.ax[n].t.v ≠ 0 then 2 else 3

/-- Every entry to RUN (R284): the speed loop starts at the measured speed and the current `i0`. -/
def State.runEntry (s : State) (n : Fin 64) (i0 : Rat) : State :=
  let kk := s.gain F.AX_KPV n * s.gain F.AX_KIV n
  let va := s.lp[n].v
  let dc := fun (f : Nat) (x : Rat) => match s.filtMode n f with
    | .biquad => divR (x * (s.coef n f 0 + s.coef n f 1 + s.coef n f 2)) (1 + s.coef n f 3 + s.coef n f 4)
    | _ => x
  let flat := fun (x y : Rat) => ({ x1 := toQ47 x, x2 := toQ47 x, y1 := toQ47 y, y2 := toQ47 y } : Biquad)
  let y1 := dc 1 i0
  let s1 := s.modLp n (fun l => { l with
    xi := if kk = 0 then 0 else i0 / kk, icmd := toQ23 i0
    filt := ((l.filt.set 0 (flat va va)).set 1 (flat i0 y1)).set 2 (flat y1 (dc 2 y1)) })
  let s2 := ((s1.fset F.AX_FLD_STATUS_FSTATE 5 n).fsetS F.AX_ICMD (toQ23 i0) n).modFld n (fun f => { f with
    entered := s.run, highRun := 0, lowRun := 0 })
  let s3 := s2.fset F.AX_LOOP_STATUS_RSTATE (s2.rampState n) n
  let act := s.axQ F.AX_ACT_POS n
  if s.axState n = 2 then (s3.modAx n (fun x => { x with t := { p := act, v := va } })).axPublish n
  else if s.axState n = 0 then (s3.modAx n (fun x => { x with t := { x.t with p := act } })).axPublish n
  else s3

/-- A start of the axis passes through other states before RUN (R279). -/
def State.startsWaiting (s : State) (n : Nat) : Bool :=
  match s.fget F.AX_FLD_CFG_ANGSRC n with
  | 0 => !s.flag F.AX_FLD_CFG_ANGVAL n
  | 1 => false
  | _ => true

/-- The loops close at this F_P tick (R234, R279). -/
def State.loopClose (s : State) (n : Fin 64) : State :=
  let s1 := (s.axSync n).axPublish n
  let s2 := s1.modLp n (fun l => { l with
    xi := 0, filt := Vector.replicate 3 {}, enPending := false, feSince := none, vpl := 0 })
  if s.axKind n = 1 then
    let f := match s.fget F.AX_FLD_CFG_ANGSRC n with
      | 0 => if s.flag F.AX_FLD_CFG_ANGVAL n then 5 else 3
      | 1 => 5
      | _ => 1
    let s3 := (s2.fset F.AX_FLD_STATUS_FSTATE f n).fset F.AX_FLD_STATUS_ATTEMPT 0 n
    let s4 := (s3.fset F.AX_LOOP_STATUS_RSTATE (if f = 5 then 1 else 5) n).modFld n (fun x => { x with
      entered := s.run, ifendAt := none, highRun := 0, lowRun := 0 })
    if f = 5 then s4.runEntry n 0 else s4
  else
    let s3 := if s.axKind n = 3 ∧ !s.flag F.AX_CFG_STPPIN n then s2.fset F.AX_FLD_STATUS_FSTATE 9 n else s2
    s3.fset F.AX_LOOP_STATUS_RSTATE 1 n

/-- RAMP_HOLD has brought the axis to rest: it holds, and once no cause remains it accepts commands again (R242, R247). -/
def State.rampHeld (s : State) (n : Fin 64) : State :=
  if s.flag F.AX_FAULT_ACTIVE n then s.fset F.AX_LOOP_STATUS_RSTATE (s.runState n 3) n
  else (s.modLp n (fun l => { l with react := 0 })).fset F.AX_LOOP_STATUS_RSTATE (s.runState n 1) n

/-- What an axis takes at an F_P tick: the external set-point, the start of its loops, the command or the reaction's QSTOP
(R187, R190, R224, R234, R235, R242, R249). With EN = 0 a command is ignored. -/
def State.axTake (s : State) (n : Fin 64) (first : Bool) : State :=
  let s := s.setFlag F.AX_STATUS_LIMITED false n
  let s := if s.fget F.AX_LOOP_CFG_EXTSRC n = 1 then
      s.wsetS F.AX_EXTPOS (ratQ (s.extSetpoint n)) n else s
  let virt := s.axKind n == 0
  let s := if s.lp[n].enPending && !virt then s.loopClose n else s
  let op := s.ax[n].cmd
  let s0 := s.modAx n (fun x => { x with cmd := none })
  let s0 := if first then (s0.grpOff n).axSync n else s0
  if !virt && !s.flag F.AX_LOOP_CTRL_EN n then
    let s1 := (((s0.grpOff n).modAx n (fun x => { x with qstop := false })).axSync n)
    if (op.getD 0) = 0 ∨ op = some 1 then s1 else s1.raise F.AX_LOOP_STATUS_CMDREF n
  else if s.ax[n].qstop then ((s0.grpOff n).modAx n (fun x => { x with qstop := false })).axBrake n true
  else match op with
    | some c => s0.axCommand n c
    | none => s0

/-- One axis at an F_P tick: its law, and the end of a ramp (R186, R242). -/
def State.axRun (s : State) (n : Fin 64) (T : Rat) : State :=
  let s2 := s.axLaw n T
  let still := decide (s2.ax[n].t.v = 0)
  let s3 := if s2.lp[n].react = 2 ∧ still then s2.removeTorque n
    else if s2.lp[n].react = 1 ∧ still then s2.rampHeld n
    else s2
  s3.axPublish n

/-- A write to AX[n].CMD (R187, R235): a virtual axis follows its commands at all times. -/
def State.axCmdWrite (s : State) (n : Fin 64) (op : Nat) : State :=
  let s0 := s.setFlag F.AX_STATUS_DONE false n
  let virt := s.axKind n == 0
  let refused :=
    (!virt && !s.flag F.AX_LOOP_CTRL_EN n && decide (op ≠ 0) && decide (op ≠ 1)) ||
    (!virt && decide (1 ≤ s.lp[n].react) && decide (op ≠ 0) &&
      (decide (op ≠ 1) || s.ax[n].qstop || decide (s.ax[n].t.v ≠ 0)))
  if refused then s0.raise F.AX_LOOP_STATUS_CMDREF n
  else
    let s1 := if s.ax[n].cmd.isSome then s0.raise F.AX_STATUS_CMDLOST n else s0
    s1.modAx n (fun x => { x with cmd := some op })

/-- A write to SHIFT_HI (R214). -/
def State.axShift (s : State) (n : Fin 64) (d : Int) : State :=
  if s.axState n = 4 ∨ s.axState n = 5 then
    let s1 := s.modAx n (fun x => { x with shiftGoal := x.shiftGoal + ofQ d })
    let rem := s1.ax[n].shiftGoal - s1.ax[n].shift.p
    (s1.wsetS F.AX_SHIFTREM (ratQ rem) n).setFlag F.AX_STATUS_SHIFTING (decide (rem ≠ 0)) n
  else s

/-- A write to LOOP_CTRL (R229, R234, R236, R237). The generic write has not touched EN. -/
def State.loopCtrl (s : State) (n : Fin 64) (v : Nat) : State :=
  let en := bit v 0
  let s1 := if s.axKind n = 0 then s
    else if en then
      if s.flag F.AX_FAULT_ACTIVE n || s.halted || s.flag F.AX_LOOP_CTRL_EN n then s
      else
        let t := (s.setFlag F.AX_LOOP_CTRL_EN true n).modLp n (fun l => { l with enPending := true })
        if s.axKind n = 1 ∧ s.startsWaiting n then t.fset F.AX_LOOP_STATUS_RSTATE 5 n else t
    else if s.flag F.AX_LOOP_CTRL_EN n then s.removeTorque n else s
  let s2 := if bit v 1 then s1.modLp n (fun l => { l with resetI := true }) else s1
  if bit v 2 then s2.wset F.AX_FEPEAK 0 n else s2

/-- ZVEC: standstill, or 1 s, removes torque (R242, R282). -/
def State.zvecEnd (s : State) (n : Fin 64) : State :=
  if s.fget F.AX_FLD_STATUS_FSTATE n = 8 ∧
      (s.standsStill n ∨ s.lp[n].reactAt + 10 ^ 9 ≤ s.phys) then s.removeTorque n else s

/-- A write of 1 bits to FAULT (R247): a cause whose condition persists stays, and one set in this FCLK cycle (R5). -/
def State.faultClear (s : State) (n : Fin 64) (m : Nat) (persists : Nat → Bool) : State :=
  let c := s.fget F.AX_FAULT_CAUSE n
  let fresh := s.justSet (F.AX_FAULT_CAUSE.addr n 0)
  let gone := (setBits 8 (c &&& m)).filter (fun i => !persists i && !bit fresh i)
  (s.fset F.AX_FAULT_CAUSE (c - maskOf gone) n).faultRelease n

end Sys2Proof.Machine
end

