-- ==== Sys2Proof/Machine/Field.lean ====
section
/-! DEFINITION. Field control, observer, start machine and steppers (R263 to R298). -/
namespace Sys2Proof.Machine

abbrev Vec2 := Rat × Rat

def Vec2.mag (v : Vec2) : Rat := sqrtR (v.1 * v.1 + v.2 * v.2)

def root3 : Rat := sqrtR 3
def twoPi : Rat := 2 * piR

/-- An angle taken modulo one revolution. -/
def frac (x : Rat) : Rat := x - (x.floor : Rat)

/-- An angle wrapped to ±0.5 revolution. -/
def wrapHalf (x : Rat) : Rat :=
  let y := frac (x + 1 / 2) - 1 / 2
  y

/-- Clarke and the Park transforms (R266). -/
def clarke (a b c : Rat) : Vec2 := ((2 * a - b - c) / 3, (b - c) / root3)
def park (v : Vec2) (th : Rat) : Vec2 :=
  let c := cosRev th
  let s := sinRev th
  (v.1 * c + v.2 * s, v.2 * c - v.1 * s)
def invPark (v : Vec2) (th : Rat) : Vec2 :=
  let c := cosRev th
  let s := sinRev th
  (v.1 * c - v.2 * s, v.1 * s + v.2 * c)

/-- Phase quantities of an αβ vector (R267). -/
def phases (v : Vec2) : List Rat := [v.1, -v.1 / 2 + root3 / 2 * v.2, -v.1 / 2 - root3 / 2 * v.2]

/-! ### Registers as quantities -/

def State.q16 (s : State) (f : Fld) (n : Nat) : Rat := (s.fget f n : Int) / (2 ^ 16 : Int)
def State.q23 (s : State) (f : Fld) (n : Nat) : Rat := ofQ23 (s.fgetS f n)

def State.fstate (s : State) (n : Nat) : Nat := s.fget F.AX_FLD_STATUS_FSTATE n

/-- T_I in ns, by FISEL (the table of R20). -/
def tiOf (fisel : Nat) : Nat :=
  match fisel with
  | 0 => 62500
  | 1 => 50000
  | 2 => 40000
  | 3 => 31250
  | 4 => 25000
  | 5 => 20000
  | _ => 15625

def State.tiNs (s : State) : Nat := tiOf s.seq.fisel

/-- T_I in seconds. -/
def State.tiSec (s : State) : Rat := (s.tiNs : Int) / (10 ^ 9 : Int)

/-- Since `entered`, in seconds and in `run` units. -/
def State.inState (s : State) (n : Fin 64) : Nat := s.run - s.fld[n].entered

/-- A word of the last upstream frame (R306). -/
def State.upWord (s : State) (l : Fin 16) (byte : Nat) : Nat :=
  (s.bl[l].up[byte]?).getD 0 + 256 * (s.bl[l].up[byte + 1]?).getD 0

def half (b : Bool) : Nat := if b then 1 else 0

/-- Phase currents of a link half in pu, signed Q1.15. -/
def State.upCurrents (s : State) (l : Fin 16) (h : Bool) : List Rat :=
  [0, 2, 4].map (fun k => (toS 16 (s.upWord l (4 + 6 * half h + k)) : Rat) / (2 ^ 15 : Int))

/-- Phase voltages of a link half in pu: unsigned Q0.16, or for H-bridges signed Q1.15. -/
def State.upVoltages (s : State) (l : Fin 16) (h hb : Bool) : List Rat :=
  [0, 2, 4].map (fun k =>
    let w := s.upWord l (18 + 6 * half h + k)
    if hb then (toS 16 w : Rat) / (2 ^ 15 : Int) else (w : Int) / (2 ^ 16 : Int))

/-- The DC bus in pu. -/
def State.upVdc (s : State) (l : Fin 16) : Rat := (s.upWord l 16 : Int) / (2 ^ 16 : Int)

def lst (l : List Rat) (i : Nat) : Rat := (l[i]?).getD 0

/-! ### The angle (R265, R274 to R276) -/

/-- Dir of the cycle (R277). -/
def State.startDir (s : State) (n : Fin 64) : Rat := s.fld[n].dir

/-- The sign of VCMD, or of the reference in TORQUE mode, zero positive (R277). -/
def State.dirNow (s : State) (n : Fin 64) : Int :=
  let x := if s.fget F.AX_LOOP_CFG_MODE n = 2 then s.reference n else s.axQ F.AX_VCMD n
  if x < 0 then -1 else 1

/-- The velocity of a Chuck channel at the cycle start as R76 forms it, in counts/s. -/
def State.startVel (s : State) (ch : Fin 32) (vwin : Nat) : Rat :=
  match windowVel vwin (s.chuck[ch].changes.filter (fun c => decide (c.1 ≤ s.seq.start))) with
  | none => 0
  | some (num, den) => (num * (10 ^ 9 * unitNs : Nat) : Int) / (den : Int)

def State.encoderAngle (s : State) (n : Fin 64) : Rat × Rat :=
  let pp : Rat := (s.fget F.AX_FLD_CFG_POLEP n : Int)
  let cpr : Rat := (s.fget F.AX_FLD_CPR n : Int)
  if pp = 0 then (0, 0) else
  let ch : Fin 32 := Fin.ofNat 32 (s.fget F.AX_FLD_CFG_CFB n)
  let d : Int := toS 32 (ofS 32 ((s.fget F.CHUCK_SNAP ch : Int) - s.fget F.AX_FLD_ANGOFS n))
  (frac (divR (pp * (d : Rat)) cpr),
   divR (pp * s.startVel ch (s.fget F.AX_VEST_VWIN n)) cpr)

def State.hallAngle (s : State) (n : Fin 64) : Rat × Rat :=
  let ch : Fin 32 := Fin.ofNat 32 (s.fget F.AX_FLD_CFG_CFB n)
  let sec : Rat := (s.fget F.CHUCK_STATUS_SECTOR ch : Int)
  let ofs := s.q16 F.AX_FLD_HALLOFS n
  let es := s.chuck[ch].edges
  let centre := frac ((sec + 1 / 2) / 6 + ofs)
  match es with
  | a :: b :: _ =>
    let dt : Rat := ((a.1 - b.1 : Nat) : Int) / ((10 ^ 9 * unitNs : Nat) : Int)
    let dir : Rat := a.2
    let w := divR (dir / 6) dt
    let steady := es.length == 6 && es.all (fun e => e.2 == a.2)
    if s.q16 F.AX_FLD_HALLV n ≤ absR w ∧ steady = true then
      let edge := (if 0 < a.2 then sec / 6 else (sec + 1) / 6) + ofs
      let since : Rat := ((s.seq.start - a.1 : Nat) : Int) / ((10 ^ 9 * unitNs : Nat) : Int)
      let go := if 0 < a.2 then minR (w * since) (1 / 6) else maxR (w * since) (-1 / 6)
      (frac (edge + go), w)
    else (centre, w)
  | _ => (centre, 0)

/-- What a cycle start takes for the current loop: Dir, and the angle of an encoder or Hall sensors (R265, R277). -/
def State.fieldLatch (s : State) (n : Fin 64) : State :=
  if s.axKind n ≠ 1 then s else
  let a := match s.fget F.AX_FLD_CFG_ANGSRC n with
    | 0 => s.encoderAngle n
    | 1 => s.hallAngle n
    | _ => (0, 0)
  let d := s.dirNow n
  s.modFld n (fun f => { f with source := a, dir := d })

/-- θ0 and ω at the cycle start (R265, R278). -/
def State.fieldAngle (s : State) (n : Fin 64) : Rat × Rat :=
  let f := s.fld[n]
  let source := if s.fget F.AX_FLD_CFG_ANGSRC n < 2 then f.source else (f.th, f.w)
  match s.fstate n with
  | 2 => (f.th, f.w)
  | 6 => (f.th, f.w)
  | 3 => (s.q16 F.AX_FLD_ALIGN_ALIGNANG n, 0)
  | 4 => (f.thf, f.wf)
  | 7 => (f.thf, f.wf)
  | _ => source

/-! ### The observer (R272, R273) -/

/-- Whether `need` cycles in a row have been counted; a count of zero asks for nothing (R13). -/
def ranFor (need run : Nat) : Bool := decide (need ≤ run)

/-- One observer cycle with the αβ current and voltage. -/
def State.observer (s : State) (n : Fin 64) (i v : Vec2) : State :=
  let f := s.fld[n]
  let T := s.tiSec
  let rs := s.gain F.AX_FLD_RS n
  let l := (s.gain F.AX_FLD_LD n + s.gain F.AX_FLD_LQ n) / (2 * twoPi) / T
  let e : Vec2 := (v.1 - rs * i.1 - l * (i.1 - f.iPrev.1), v.2 - rs * i.2 - l * (i.2 - f.iPrev.2))
  let m := e.mag
  let eps := if m = 0 then 0 else (-e.1 * cosRev f.th - e.2 * sinRev f.th) / m
  let wi := f.wi + s.gain F.AX_FLD_KIPLL n * eps * T
  let w := wi + s.gain F.AX_FLD_KPPLL n * eps
  let th' := f.th + w * T
  let ke := s.gain F.AX_FLD_KE n
  let th := frac th'
  let x : Vec2 := (e.1 + ke * w * sinRev th, e.2 - ke * w * cosRev th)
  let rho := divR x.mag (ke * absR w)
  let fast := decide (s.q16 F.AX_FLD_OBSMIN n ≤ absR w)
  let low := decide (rho ≤ (s.fget F.AX_FLD_LOCK_RESTHR n : Int) / (2 ^ 14 : Int))
  let lockRun := if fast && low then f.lockRun + 1 else 0
  let lossRun := if fast && !low then f.lossRun + 1 else 0
  let lock := fast && !ranFor (s.fget F.AX_FLD_LOCK_LOSSN n) lossRun &&
    (s.flag F.AX_FLD_STATUS_LOCK n || ranFor (s.fget F.AX_FLD_LOCK_LOCKN n) lockRun)
  let turns := (th' * (2 ^ 16 : Int)).floor - (f.th * (2 ^ 16 : Int)).floor
  let s1 := s.modFld n (fun f => { f with
    iPrev := i, wi := wi, w := w, th := th, rho := rho, emag := m, lockRun := lockRun, lossRun := lossRun
    highRun := if fast && !low then f.highRun + 1 else 0
    lowRun := if fast then 0 else f.lowRun + 1 })
  let s2 := (s1.setFlag F.AX_FLD_STATUS_LOCK lock n).fset F.AX_FLD_OBS_OBSANG (th * (2 ^ 16 : Int)).floor.toNat n
  let s3 := s2.fsetS F.AX_FLD_OBSW (satS 32 (quo (w.num * 2 ^ 16) w.den)) n
  let s4 := s3.wsetS F.AX_FLD_EANG (s.wgetS F.AX_FLD_EANG n + turns) n
  if fast then s4.fset F.AX_FLD_OBS_RESID (min 0xFFFF (quo (rho.num * 2 ^ 14) rho.den).toNat) n else s4

/-! ### The start machine (R277 to R288) -/

/-- Enter a state of the start machine other than OFF and RUN. -/
def State.fieldEnter (s : State) (n : Fin 64) (f : Nat) : State :=
  let s1 := (s.fset F.AX_FLD_STATUS_FSTATE f n).modFld n (fun x => { x with
    entered := s.run, ifendAt := none, highRun := 0, lowRun := 0 })
  s1.fset F.AX_LOOP_STATUS_RSTATE 5 n

/-- A failed attempt (R283). -/
def State.fieldFail (s : State) (n : Fin 64) : State :=
  let s1 := s.finc F.AX_FLD_STARTFAIL n
  let j := s.fget F.AX_FLD_STATUS_ATTEMPT n
  if j < s.fget F.AX_FLD_CFG_RETRY n then (s1.fset F.AX_FLD_STATUS_ATTEMPT (j + 1) n).fieldEnter n 1
  else s1.axisFault n 5

/-- Currents of the attempt: IALIGN_j or IFCUR_j (R278). -/
def State.attemptCurrent (s : State) (n : Fin 64) (f : Fld) : Rat :=
  let j : Rat := (s.fget F.AX_FLD_STATUS_ATTEMPT n : Int)
  minR (s.q23 f n * (1 + j * s.q16 F.AX_FLD_IFH_RETRYINC n)) (s.q23 F.AX_FLD_IMAX n)

/-- I0 on entry to RUN (R284). -/
def State.runCurrent (s : State) (n : Fin 64) : Rat :=
  if s.fstate n = 4 ∨ s.fstate n = 7 then
    s.attemptCurrent n F.AX_FLD_IFCUR * cosRev (s.fld[n].thf - s.fld[n].th)
  else 0

def State.locked (s : State) (n : Fin 64) : Bool := s.flag F.AX_FLD_STATUS_LOCK n

/-- Milliseconds in `run` units. -/
def msU (ms : Nat) : Nat := nsU (ms * 1000000)

/-- The transitions a cycle makes (R280, R282, R283, R286, R287); those that only elapsed time makes have
commands of their own. -/
def State.fieldCycleState (s : State) (n : Fin 64) : State :=
  let f := s.fld[n]
  let T := s.tiSec
  let dir := s.startDir n
  match s.fstate n with
  | 1 =>
    if s.inState n < msU 5 then s
    else if s.locked n ∧ s.q16 F.AX_FLD_CATCHV n ≤ absR f.w then
      if signR f.w = dir then s.runEntry n 0 else s.fieldEnter n 2
    else if f.emag < s.gain F.AX_FLD_KE n * s.q16 F.AX_FLD_CATCHV n then s.fieldEnter n 3
    else s
  | 2 => if f.emag < s.gain F.AX_FLD_KE n * s.q16 F.AX_FLD_CATCHV n then s.fieldEnter n 3 else s
  | 4 =>
    let fin := s.q16 F.AX_FLD_IFEND n
    let step := s.q16 F.AX_FLD_IFACC n * T
    let up := f.wf + dir * step
    let w := if fin ≤ absR f.wf then f.wf else if fin ≤ absR up then signR up * fin else up
    let s1 := s.modFld n (fun x => { x with
      wf := w, thf := frac (x.thf + w * T)
      ifendAt := if fin ≤ absR w then some (x.ifendAt.getD s.run) else none })
    if absR w = fin ∧ s1.locked n ∧ signR f.w = signR w ∧ absR (f.w - w) ≤ absR w / 4 then
      s1.runEntry n (s1.runCurrent n) else s1
  | 6 => if s.locked n ∧ s.inState n ≤ msU 50 then s.runEntry n 0 else s
  | 7 =>
    let wc := if s.fget F.AX_LOOP_CFG_MODE n = 2 then 0 else divR (s.axQ F.AX_VCMD n) (s.axQ F.AX_VSCALE n)
    let step := s.q16 F.AX_FLD_IFACC n * T
    let w := f.wf + clampR (-step) step (wc - f.wf)
    let s1 := s.modFld n (fun x => { x with wf := w, thf := frac (x.thf + w * T) })
    if s1.locked n ∧ s.q16 F.AX_FLD_OBSMIN n * 5 / 4 ≤ absR f.w then s1.runEntry n (s1.runCurrent n) else s1
  | 8 => if s.standsStill n then s.removeTorque n else s
  | _ => s

/-- idref and iqref of the state (R278). -/
def State.fieldRefs (s : State) (n : Fin 64) (idtab : Rat) : Rat × Rat :=
  let ifc := s.attemptCurrent n F.AX_FLD_IFCUR
  match s.fstate n with
  | 3 =>
    let half : Rat := ((s.fget F.AX_FLD_ALIGN_TALIGN n * 500000 * unitNs : Nat) : Int)
    let t : Rat := (s.inState n : Int)
    let i := s.attemptCurrent n F.AX_FLD_IALIGN
    (if t < half then i * t / half else i, 0)
  | 4 => (0, s.startDir n * ifc)
  | 5 => (idtab, ofQ23 s.lp[n].icmd)
  | 7 => (0, (if s.fld[n].wf = 0 then s.startDir n else signR s.fld[n].wf) * ifc)
  | _ => (0, 0)

/-- A field of a table entry as it stood at the cycle start (R271, R291). -/
def State.tableWord (s : State) (f : Fld) (n j : Nat) : Nat :=
  let a := f.addr n j
  bitsOf ((lookupWord s.stpOld a).getD (s.reg a)).toNat f.hi f.lo

/-- The phase-advance table: advance in revolutions and d-axis current (R271). -/
def State.paLookup (s : State) (n : Fin 64) (w : Rat) : Rat × Rat :=
  if !s.flag F.AX_FLD_CFG_PAEN n then (0, 0) else
  let at' := fun (i : Nat) => ((toS 16 (s.tableWord F.AX_FLD_TBL_ADV n i) : Rat) / (2 ^ 16 : Int),
    (toS 16 (s.tableWord F.AX_FLD_TBL_IDREF n i) : Rat) / (2 ^ 15 : Int))
  let st := s.q16 F.AX_FLD_PASTEP n
  if 15 * st ≤ w then at' 15
  else
    let x := w / st
    let i := x.floor.toNat
    let t := x - (i : Int)
    let a := at' i
    let b := at' (i + 1)
    (a.1 + t * (b.1 - a.1), a.2 + t * (b.2 - a.2))

/-- DUTY for a link half (R417, R422): the link takes the words of the mailbox; a second DUTY of the cycle is
ignored. -/
def State.giveDuty (s : State) (l : Fin 16) (h : Bool) : State :=
  if (if h then s.bl[l].given.2 else s.bl[l].given.1) then s else
  let d := (List.range 3).map (fun i => s.mem24 (s.linkWord l (24 + 3 * half h + i)) % 2 ^ 16)
  s.modBl l (fun b => if h then { b with duty := (b.duty.1, d), given := (b.given.1, true) }
    else { b with duty := (d, b.duty.2), given := (true, b.given.2) })

/-- A current-loop task writes its duty words into the mailbox (R416, R425); its SIG DUTY gives them (R422). -/
def State.setDuty (s : State) (l : Fin 16) (h : Bool) (d : List Nat) : State :=
  forList (d.zipIdx) (fun x t => t.localPut (t.linkWord l (24 + 3 * half h + x.2)) x.1) s

/-- A duty as unsigned Q0.16, 1.0 as 0xFFFF (R314). -/
def dutyQ16 (x : Rat) : Nat := min 0xFFFF (quo (x.num * 2 ^ 16) x.den).toNat

/-- A signed duty as Q1.15. -/
def dutyQ15 (x : Rat) : Nat := ofS 16 (satS 16 (quo (x.num * 2 ^ 15) x.den))

/-- Dead-time compensation (R268). -/
def State.deadTime (s : State) (n : Fin 64) (iref : Rat) : Rat :=
  let band := s.q16 F.AX_FLD_DT_DTBAND n
  s.q16 F.AX_FLD_DT_DTC n * (if band = 0 then signR iref else clampR (-1) 1 (iref / band))

/-- The modulator (R267 to R269). -/
def State.modulate (s : State) (n : Fin 64) (v : Vec2) (vdc : Rat) (iref : Vec2) : List Nat :=
  let vs := phases v
  let top := vs.foldl maxR (lst vs 0)
  let bot := vs.foldl minR (lst vs 0)
  let ofs := -(top + bot) / 2
  let lim := s.q16 F.AX_FLD_VLIM_DMIN n
  (vs.zip (phases iref)).map (fun x =>
    dutyQ16 (clampR lim (1 - lim) (1 / 2 + (x.1 + ofs) / vdc + s.deadTime n x.2)))

/-- One axis of a current regulator: proportional and integral with the output limit (R266). -/
def regulate (kp ki x e T ff vl : Rat) : Rat × Rat :=
  let xn := x + e * T
  let v := kp * (e + ki * xn) + ff
  let w := clampR (-vl) vl v
  (w, if w ≠ v ∧ signR e = signR v then x else xn)

/-- The angle at the sampling instant (R266). -/
def State.sampleAngle (s : State) (n : Fin 64) (l : Fin 16) (th0 w : Rat) : Rat :=
  th0 + w * ((s.blDs l : Rat) / (10 ^ 9 : Int)) + signR w * (s.paLookup n (absR w)).1

/-- Measured id and iq (R266, R299). -/
def State.measureDq (s : State) (n : Fin 64) (l : Fin 16) (iab : Vec2) (th0 w : Rat) : State :=
  let dq := park iab (s.sampleAngle n l th0 w)
  (s.fsetS F.AX_FLD_ID (toQ23 dq.1) n).fsetS F.AX_FLD_IQ (toQ23 dq.2) n

/-- The current loop proper with its references; answers the commanded αβ voltage (R266, R270). -/
def State.regulateField (s : State) (n : Fin 64) (l : Fin 16) (h : Bool) (iab : Vec2) (th0 w : Rat)
    (refs : Rat × Rat) : State :=
  let T := s.tiSec
  let ds : Rat := (s.blDs l : Rat) / (10 ^ 9 : Int)
  let ths := s.sampleAngle n l th0 w
  let dq := park iab ths
  let s0 := s
  let vdc := s.upVdc l
  let f := s.fld[n]
  if vdc ≤ 0 then (s0.modFld n (fun x => { x with vQueued := (0, 0) })).setDuty l h [0x8000, 0x8000, 0x8000] else
  let imax := s.q23 F.AX_FLD_IMAX n
  let idr := refs.1
  let iqm := sqrtR (maxR (imax * imax - idr * idr) 0)
  let iqr := clampR (-iqm) iqm refs.2
  let dec := s.flag F.AX_FLD_CFG_DECEN n
  let ffd := if dec then -(s.gain F.AX_FLD_LQ n * w * dq.2) else 0
  let ffq := if dec then s.gain F.AX_FLD_LD n * w * dq.1 + s.gain F.AX_FLD_KE n * w else 0
  let vl := s.q16 F.AX_FLD_VLIM_VLIMF n * vdc / root3
  let d := regulate (s.gain F.AX_FLD_KPD n) (s.gain F.AX_FLD_KID n) f.xd (idr - dq.1) T ffd vl
  let vqm := sqrtR (vl * vl - d.1 * d.1)
  let q := regulate (s.gain F.AX_FLD_KPQ n) (s.gain F.AX_FLD_KIQ n) f.xq (iqr - dq.2) T ffq vqm
  let tha := ths + w * (3 / 2 * T - ds)
  let vab := invPark (d.1, q.1) tha
  let s1 := s0.modFld n (fun x => { x with xd := d.2, xq := q.2, vQueued := vab })
  s1.setDuty l h (s.modulate n vab vdc (invPark (idr, iqr) tha))

/-- The DC bus in mV, and whether it is usable (R263, R270). -/
def State.busVoltage (s : State) (n : Fin 64) (l : Fin 16) : State :=
  (s.fset F.AX_FLD_VDC (quo ((s.upWord l 16 * s.fget F.AX_FLD_VFS n : Nat) : Int) (2 ^ 16)).toNat n).setFlag
    F.AX_FLD_STATUS_VDCLOW (decide (s.upVdc l ≤ 0)) n

/-- FIELD_CYCLE: the current-loop task of a local servo axis (R266, R272, R277 to R288). -/
def State.fieldCycle (s : State) (n : Fin 64) : State :=
  match s.axLink n with
  | none => s
  | some (l, h) =>
    let s := s.busVoltage n l
    if s.fstate n = 0 then (s.modFld n (fun f => { f with vApplied := f.vQueued, vQueued := (0, 0) })).setDuty l h [0, 0, 0]
    else
      let is := s.upCurrents l h
      let iab := clarke (lst is 0) (lst is 1) (lst is 2)
      let vs := s.upVoltages l h false
      let v := if s.flag F.AX_FLD_CFG_VPH n then clarke (lst vs 0) (lst vs 1) (lst vs 2) else s.fld[n].vApplied
      let s1 := (s.observer n iab v).modFld n (fun f => { f with vApplied := f.vQueued })
      let s2 := s1.fieldCycleState n
      if s2.fstate n = 0 then (s2.modFld n (fun f => { f with vQueued := (0, 0) })).setDuty l h [0, 0, 0] else
      let a := s2.fieldAngle n
      let s2 := s2.measureDq n l iab a.1 a.2
      let zv := fun (lim : Rat) =>
        if 0 < s2.upVdc l ∧ iab.mag ≤ lim then
          (s2.modFld n (fun f => { f with xd := 0, xq := 0, vQueued := (0, 0) })).setDuty l h [0x8000, 0x8000, 0x8000]
        else s2.regulateField n l h iab a.1 a.2 (0, -(signR a.2 * lim))
      match s2.fstate n with
      | 2 => zv (s2.q23 F.AX_FLD_IBRK n)
      | 8 => zv (s2.q23 F.AX_ILIM n)
      | _ =>
        let idtab := (s2.paLookup n (absR a.2)).2
        s2.regulateField n l h iab a.1 a.2 (s2.fieldRefs n idtab)

/-- What the current loop would do is unpredictable (R265, R276, R283, R289). -/
def State.fieldLegal (s : State) (n : Fin 64) : Bool :=
  match s.axKind n with
  | 1 =>
    let src := s.fget F.AX_FLD_CFG_ANGSRC n
    src != 3 && !(src == 1 && s.fget F.CHUCK_CFG_MODE (s.fget F.AX_FLD_CFG_CFB n) != 2 && s.fstate n != 0) &&
    !(s.fstate n == 4 && s.fget F.AX_FLD_IFACC n == 0 && s.fget F.AX_FLD_IFEND n != 0)
  | 3 => s.flag F.AX_LOOP_CFG_PFBEN n || s.wget F.AX_FBSCALE n == s.wget F.AX_FLD_MSCALE n
  | _ => true

/-! ### The commands of the start machine -/

/-- 50 ms in LISTEN (R280). -/
def State.listenTimeout (s : State) (n : Fin 64) : State :=
  if s.fstate n = 1 ∧ msU 50 ≤ s.inState n then s.fieldFail n else s

/-- The end of ALIGN (R275, R281). -/
def State.alignEnd (s : State) (n : Fin 64) : State :=
  if s.fstate n ≠ 3 ∨ s.inState n < msU (s.fget F.AX_FLD_ALIGN_TALIGN n) then s
  else if s.fget F.AX_FLD_CFG_ANGSRC n = 2 then
    let a := s.q16 F.AX_FLD_ALIGN_ALIGNANG n
    (s.fieldEnter n 4).modFld n (fun f => { f with thf := a, wf := 0 })
  else
    let ch : Fin 32 := Fin.ofNat 32 (s.fget F.AX_FLD_CFG_CFB n)
    let x := divR (s.q16 F.AX_FLD_ALIGN_ALIGNANG n * (s.fget F.AX_FLD_CPR n : Int)) (s.fget F.AX_FLD_CFG_POLEP n : Int)
    let ofs := (s.fget F.CHUCK_SNAP ch : Int) - nearest x
    let s1 := (s.fset F.AX_FLD_ANGOFS (ofS 32 ofs) n).setFlag F.AX_FLD_CFG_ANGVAL true n
    s1.runEntry n 0

/-- Longer than 2 s in BRAKE (R282). -/
def State.brakeTimeout (s : State) (n : Fin 64) : State :=
  if s.fstate n = 2 ∧ msU 2000 < s.inState n then s.fieldFail n else s

/-- IFHOLD ms since |ω_f| reached IFEND (R283). -/
def State.ifholdTimeout (s : State) (n : Fin 64) : State :=
  match s.fld[n].ifendAt with
  | none => s
  | some t => if s.fstate n = 4 ∧ t + msU (s.fget F.AX_FLD_IFH_IFHOLD n) ≤ s.run then s.fieldFail n else s

def State.sensorlessRun (s : State) (n : Fin 64) : Bool :=
  s.axKind n == 1 && s.fstate n == 5 && s.fget F.AX_FLD_CFG_ANGSRC n == 2

/-- Lock lost at speed (R285). -/
def State.fieldRecatch (s : State) (n : Fin 64) : State :=
  if s.sensorlessRun n && ranFor (s.fget F.AX_FLD_LOCK_LOSSN n) s.fld[n].highRun then
    (s.finc F.AX_FLD_RELOCK n).fieldEnter n 6 else s

/-- Below OBSMIN (R285). -/
def State.fieldIflow (s : State) (n : Fin 64) : State :=
  if s.sensorlessRun n && ranFor (s.fget F.AX_FLD_LOCK_LOSSN n) s.fld[n].lowRun then
    (s.fieldEnter n 7).modFld n (fun f => { f with thf := f.th, wf := f.w }) else s

/-- No lock within 50 ms of RECATCH (R286). -/
def State.recatchTimeout (s : State) (n : Fin 64) : State :=
  if s.fstate n = 6 ∧ msU 50 ≤ s.inState n ∧ s.locked n = false then s.axisFault n 5 else s

/-! ### Steppers (R289 to R298) -/

/-- The target μ_t (R290). -/
def State.stepTarget (s : State) (n : Fin 64) : Int :=
  let f := s.fld[n]
  if !s.loopOn n then f.mu else
  let tau : Rat := ((s.seq.start - f.spAt : Nat) : Int) / ((10 ^ 9 * unitNs : Nat) : Int)
  nearest (divR (ofQ f.spPos + ofQ f.spVel * tau - s.axQ F.AX_POSOFS n) (s.axQ F.AX_FLD_MSCALE n))

/-- A wrapped 64-bit μ. -/
def State.setMu (s : State) (n : Fin 64) (m : Int) : State :=
  if m = s.fld[n].mu then s else
  (s.modFld n (fun f => { f with mu := m, muAt := s.run, holding := false })).wsetS F.AX_FLD_MICRO m n

/-- Unit phase currents of μ (R291). -/
def State.microstep (s : State) (m : Int) : Rat × Rat :=
  let j := (m % 256).toNat
  let q := (m / 256 % 4).toNat
  let a := ofQ23 (toS 24 (s.tableWord F.STP_TAB_A 0 j))
  let b := ofQ23 (toS 24 (s.tableWord F.STP_TAB_B 0 j))
  match q with
  | 0 => (a, b)
  | 1 => (-b, a)
  | 2 => (-a, -b)
  | _ => (b, -a)

/-- The load angle before it is wrapped, where the stepper has one (R297). -/
def State.loadOffset (s : State) (n : Fin 64) : Option Rat :=
  let mu : Rat := (s.fld[n].mu : Rat)
  let bridge := (s.axStp n).isNone
  if s.flag F.AX_LOOP_CFG_PFBEN n then
      some ((mu - divR (s.axQ F.AX_ACT_POS n - s.axQ F.AX_POSOFS n) (s.axQ F.AX_FLD_MSCALE n)) / 1024)
    else if bridge ∧ s.q16 F.AX_FLD_OBSMIN n ≤ absR s.fld[n].w then some (mu / 1024 - s.fld[n].th)
    else none

/-- The load angle and the stall run of a cycle (R297, R298). -/
def State.loadAngle (s : State) (n : Fin 64) : State :=
  match s.loadOffset n with
  | none => s.modFld n (fun f => { f with stallRun := 0, stalled := false })
  | some x =>
    let y := wrapHalf x
    let s1 := s.fsetS F.AX_FLD_LOADANG (quo (y.num * 2 ^ 16) y.den) n
    let beyond := decide (s.q16 F.AX_FLD_STALLANG n < absR y)
    s1.modFld n (fun f => { f with
      stallRun := if beyond then f.stallRun + 1 else 0, stalled := f.stalled && beyond })

/-- STALL (R298). -/
def State.stall (s : State) (n : Fin 64) : State :=
  let f := s.fld[n]
  if s.axKind n = 3 ∧ (s.loadOffset n).isSome = true ∧ ranFor (s.fget F.AX_FLD_HOLD_STALLN n) f.stallRun = true ∧
      f.stalled = false then
    let s1 := (s.raise F.AX_FLD_STATUS_STALL n).finc F.AX_FLD_STALLS n
    let s2 := s1.modFld n (fun f => { f with stalled := true })
    if s.flag F.AX_FLD_CFG_STALLACT n then s2.removeTorque n else s2
  else s

/-- HOLD_CURRENT (R293). -/
def State.holdCurrent (s : State) (n : Fin 64) : State :=
  if s.axKind n = 3 ∧ s.fld[n].muAt + msU (s.fget F.AX_FLD_HOLD_HOLDT n) ≤ s.run then
    s.modFld n (fun f => { f with holding := true }) else s

/-- STEPPER_CYCLE: a bridge-link stepper (R292, R293). -/
def State.stepperCycle (s : State) (n : Fin 64) : State :=
  match s.axLink n with
  | none => s
  | some (l, h) =>
    let s := s.busVoltage n l
    let is := s.upCurrents l h
    let i : Vec2 := (lst is 0, lst is 1)
    let vs := s.upVoltages l h true
    let v := if s.flag F.AX_FLD_CFG_VPH n then (lst vs 0, lst vs 1) else s.fld[n].vApplied
    let on := s.fstate n != 0
    let s0 := if on then s.observer n i v else s
    let s0 := s0.modFld n (fun f => { f with vApplied := f.vQueued, vQueued := (0, 0) })
    let mu := s0.fld[n].mu
    let want := s0.stepTarget n - mu
    let go := clampI (-256) 256 want
    let s1 := (if go = want then s0 else s0.raise F.AX_FLD_STATUS_STPLIM n).setMu n (mu + go)
    let s2 := s1.loadAngle n
    if !on then s2.setDuty l h [0, 0, 0] else
    let vdc := s2.upVdc l
    if vdc ≤ 0 then s2.setDuty l h [0, 0, 0] else
    let I := s2.q23 (if s2.fld[n].holding then F.AX_FLD_IHOLD else F.AX_FLD_ISTEP) n
    let u := s2.microstep s2.fld[n].mu
    let vl := s2.q16 F.AX_FLD_VLIM_VLIMF n * vdc
    let f := s2.fld[n]
    let T := s2.tiSec
    let kp := s2.gain F.AX_FLD_KPD n
    let ki := s2.gain F.AX_FLD_KID n
    let a := regulate kp ki f.xd (I * u.1 - i.1) T 0 vl
    let b := regulate kp ki f.xq (I * u.2 - i.2) T 0 vl
    let s3 := s2.modFld n (fun x => { x with
      xd := a.2, xq := b.2, vQueued := (a.1, b.1) })
    s3.setDuty l h [dutyQ15 (a.1 / vdc + s2.deadTime n (I * u.1)), dutyQ15 (b.1 / vdc + s2.deadTime n (I * u.2)), 0]

/-- STP_PULSES: an STP stepper at a cycle start (R294, R295). An output that is not driven emits nothing (R300). -/
def State.stpPulses (s : State) (n : Fin 64) (o : Fin 16) : State :=
  let s0 := s.stpSettle n o
  let dsu := 4 * s0.fget F.STP_CFG_DSU 0 o
  let per : Int := (2 ^ s0.fget F.STP_CFG_PDIV 0 o : Nat)
  let owed := truncDiv (s0.stepTarget n - s0.fld[n].mu) per.toNat
  let nmax := (s0.tiNs - dsu) / 200
  let on := s0.flag F.STP_CFG_EN 0 o
  let k := if on then min (absI owed).toNat nmax else 0
  let lim := on && decide (nmax < (absI owed).toNat)
  let sp := if k = 0 then 0 else 4 * ((s0.tiNs - dsu) / (4 * k))
  let fwd := decide (0 ≤ owed)
  let s1 := if owed = 0 ∨ !on then s0
    else s0.setFlag F.STP_STATUS_DIRLVL (s0.flag F.STP_CFG_DPOL 0 o == fwd) 0 o
  let s2 := if lim then (s1.raise F.STP_STATUS_STPLIM 0 o).raise F.AX_FLD_STATUS_STPLIM n else s1
  let s3 := s2.fset F.STP_PEND (ofS 32 ((owed - (if fwd then (k : Int) else -(k : Int))) * per)) 0 o
  let plan : StpPlan := { pulses := k, emitted := 0, forward := fwd, first := s.seq.start + nsU dsu, spacing := sp
                          width := min (4 * s0.fget F.STP_CFG_PW 0 o) (sp / 2) }
  ({ s3 with stp := s3.stp.set o plan }).loadAngle n

end Sys2Proof.Machine
end

