-- ==== Sys2Proof/Machine/Bridge.lean ====
section
/-! DEFINITION. Bridge links (R301 to R322): training, latency, SYNC, downstream and upstream frames, loss. -/
namespace Sys2Proof.Machine

def State.blState (s : State) (l : Fin 16) : Nat := s.fget F.BL_STATUS_STATE l

def State.blSetState (s : State) (l : Fin 16) (st : Nat) : State := s.fset F.BL_STATUS_STATE st l

/-- The physical instant in unit intervals of 0.8 ns (R309). -/
def State.uiNow (s : State) : Nat := s.phys * 5 / 4

/-- CRC-16 of a link frame (R304). -/
def crc16 (bs : List Nat) : Nat := crcMSB 16 0x1021 0xFFFF bs

/-! ### Training (R308) -/

/-- To ALIGN. -/
def State.blAlign (s : State) (l : Fin 16) : State :=
  (s.modBl l (fun b => { b with
    pings := [], delays := [], pingsSent := 0, codeErrs := 0, missRun := 0, arrived := false, pingDue := false
    sync := none, line := [], frameTill := s.phys })).blSetState l 1

/-- A write to CTRL (R308, R319): EN, TRAIN and CLRFLT. `was` is EN before it; AUTOTRN and EN are written. -/
def State.blCtrl (s : State) (l : Fin 16) (was : Bool) (v : Nat) : State :=
  let s1 := if bit v 3 then s.modBl l (fun b => { b with clrPending := true }) else s
  if !bit v 0 then
    (s1.modBl l (fun b => { b with pings := [], pingsSent := 0, needTrain := false })).blSetState l 0
  else if !was ∨ bit v 1 then (s1.modBl l (fun b => { b with needTrain := false })).blAlign l
  else s1

/-- 64 consecutive valid IDLE sets (R308). -/
def State.blAligned (s : State) (l : Fin 16) : State :=
  if s.blState l = 1 ∧ (!s.bl[l].needTrain ∨ s.flag F.BL_CTRL_AUTOTRN l) then
    (s.modBl l (fun b => { b with pings := [], delays := [], pingsSent := 0, needTrain := false })).blSetState l 2
  else s

/-- A PING is due: tags 0 to 15 in MEASURE, one each µs, 16 to 255 in UP (R308, R310). None is sent inside a frame or another set (R303). -/
def State.blPing (s : State) (l : Fin 16) : State :=
  let b := s.bl[l]
  if s.phys < max b.setTill b.frameTill then s
  else if s.blState l = 2 ∧ b.pingsSent < 16 ∧ (b.pingsSent = 0 ∨ b.pingAt + 1000 ≤ s.phys) then
    (s.blPut l s.phys [.k kTag, .d b.pingsSent]).modBl l (fun b => { b with
      pings := (b.pingsSent, s.uiNow) :: b.pings, pingsSent := b.pingsSent + 1, pingAt := s.phys, tag := 16 })
  else if s.blState l = 3 ∧ b.pingDue then
    let t := if b.tag < 16 ∨ 255 < b.tag then 16 else b.tag
    (s.blPut l s.phys [.k kTag, .d t]).modBl l (fun b => { b with pings := [(t, s.uiNow)], pingDue := false, tag := t + 1 })
  else s

/-- A PONG whose leading edge reached the balls `ui` unit intervals after this instant (R309, R310): d in ps. -/
def State.blPong (s : State) (l : Fin 16) (tag ui : Nat) : State :=
  match s.bl[l].pings.find? (fun p => p.1 == tag) with
  | none => s
  | some p =>
    let s1 := s.modBl l (fun b => { b with pings := b.pings.filter (fun q => q.1 != tag) })
    if p.2 + 5000 < s.uiNow + ui then s1 else
    let d : Int := 400 * ((s.uiNow + ui - p.2 : Nat) : Int) - 72000
    if s.blState l = 2 then s1.modBl l (fun b => { b with delays := d :: b.delays })
    else if s.blState l = 3 then
      let lat : Int := s.fget F.BL_LAT l
      let nl := lat + quo (d - lat) 16
      let s2 := s1.fset F.BL_LAT (ofS 32 nl) l
      if 10000 < absI (nl - s.bl[l].latSet) then s2.raise F.BL_STATUS_LATCHG l else s2
    else s1

/-- The end of MEASURE, when every PING has its PONG or the last can no longer be answered (R308 to R310). -/
def State.blMeasureEnd (s : State) (l : Fin 16) : State :=
  if s.blState l ≠ 2 ∨ s.bl[l].pingsSent < 16 ∨ !(s.bl[l].pings.isEmpty || decide (s.bl[l].pingAt + 4000 < s.phys)) then s
  else
    let ds := s.bl[l].delays
    if ds.length < 12 then (s.finc F.BL_RETRAIN l).blAlign l
    else
      let d := quo (ds.foldl (· + ·) 0) ds.length
      let s1 := (s.fset F.BL_LAT (ofS 32 d) l).modBl l (fun b => { b with
        latSet := (ofS 32 d), frames := 0, missRun := 0, pings := [] })
      s1.blSetState l (if d ≤ 1600000 then 3 else 4)

/-! ### Loss (R318) -/

/-- A loss: LOST, the record, cause POWER on every attached axis, ALIGN. `kind` 0 missed frames, 1 code errors. -/
def State.blLoss (s : State) (l : Fin 16) (kind : Nat) : State :=
  let s1 := s.raise F.BL_STATUS_LOST l
  let st := (s1.reg (F.BL_STATUS_STATE.addr l 0)).toNat
  let s2 := s1.raiseFault 1 0x05 l kind [st, s.fget F.BL_LAT l]
  let s3 := forList (s.blAxes l) (fun n t => t.axisFault n 6) s2
  (s3.modBl l (fun b => { b with needTrain := !s.flag F.BL_CTRL_AUTOTRN l })).blAlign l

/-- Code errors received (R307, R318): a link that is UP is lost by more than 8 in one cycle, as the table of R308 has it
(DEDUCED), so while no cycle runs they are only counted. -/
def State.blCodeErrors (s : State) (l : Fin 16) (k : Nat) : State :=
  let s1 := (s.finc F.BL_CODEERR l 0 k).modBl l (fun b => { b with codeErrs := if s.flag F.CYC_STATUS_RUNNING then b.codeErrs + k else 0 })
  if 8 < s1.bl[l].codeErrs ∧ s1.blState l = 3 then s1.blLoss l 1 else s1

/-- Code errors among groups received outside a frame. -/
def State.blErrors (s : State) (l : Fin 16) (gs : List CodeGroup) (rd : Bool) : State :=
  if s.blState l = 0 then s else s.blCodeErrors l (lineErrors bridgeSets gs rd)

/-- At t0 + 3 µs: the upstream frames that have not arrived (R29, R318); MISSLIM as in force (R322). -/
def State.blDeadline (s : State) (l : Fin 16) : State :=
  if s.blState l ≠ 3 then s
  else if s.bl[l].arrived then s.modBl l (fun b => { b with missRun := 0 })
  else
    let s1 := (s.finc F.BL_MISSUP l).modBl l (fun b => { b with missRun := b.missRun + 1 })
    let lim := bitsOf s.bl[l].cfgNow 7 4
    if lim ≠ 0 ∧ lim ≤ s1.bl[l].missRun then s1.blLoss l 0 else s1

/-! ### Frames -/

/-- The axis on a half of a link. -/
def State.blAxis (s : State) (l : Fin 16) (h : Bool) : Option (Fin 64) :=
  (List.finRange 64).find? (fun n => s.axLink n == some (l, h))

/-- Bits of STAT that record cause POWER on an axis of half `h` (R319). -/
def powerBits (h : Bool) : List Nat := if h then [1, 2, 3, 4, 6, 7] else [0, 2, 3, 4, 5, 7]

/-- The words of an upstream frame (R416). -/
def State.upWords (s : State) (l : Fin 16) (bs : List Nat) : List Nat :=
  let w := fun (i : Nat) => (bs[i]?).getD 0 + 256 * (bs[i + 1]?).getD 0
  let b := fun (i : Nat) => (bs[i]?).getD 0
  let hb := fun (h : Bool) => (s.blAxis l h).any (fun n => s.axKind n == 3)
  let volt := fun (h : Bool) (i : Nat) => if hb h then ofS 24 (toS 16 (w i)) else w i
  [w 4, w 6, w 8, w 10, w 12, w 14].map (fun x => x * 256) ++ [w 16] ++
    [volt false 18, volt false 20, volt false 22, volt true 24, volt true 26, volt true 28] ++
    [b 31 * 256 + b 30, w 2, b 33 * 65536 + b 32 * 256 + b 1]

/-- The frame's words into the fixed Y words of the core the link serves, TAG last (R416, R417). -/
def State.blDeliver (s : State) (l : Fin 16) (ws : List Nat) : State :=
  if 10 ≤ s.blCore l then s else
  let s1 := forList ws.zipIdx (fun x t => t.localPut (t.linkWord l x.2) x.1) s
  s1.localPut (s1.linkWord l 16) s.seq.k

/-- A frame received whole, with 40 bytes, its TYPE and its CRC (R306, R307). -/
def upstreamGood (t : Taken) : Bool :=
  t.whole && t.errs == 0 && t.bytes.length == 40 && t.bytes.take 1 == [0x12] &&
    crc16 (t.bytes.take 38) == (t.bytes[38]?).getD 0 + 256 * (t.bytes[39]?).getD 0

/-- An upstream frame, the code groups from its SOF on, received at running disparity `rd` (R302, R303, R306, R307, R319,
R320). -/
def State.blUpstream (s : State) (l : Fin 16) (gs : List CodeGroup) (rd : Bool) : State :=
  if s.blState l ≠ 3 then s else
  let x := takeFrame bridgeSets [kMark, kGoff] gs rd
  let bs := x.bytes
  if !upstreamGood x then (if x.begun then s.finc F.BL_CRCERR l else s).blCodeErrors l x.errs
  else
    let st := (bs[2]?).getD 0 + 256 * (bs[3]?).getD 0
    let b := fun (i : Nat) => (bs[i]?).getD 0
    let s1 := s.modBl l (fun x => { x with up := bs, words := s.upWords l bs, arrived := true })
    let s2 := ((s1.fset F.BL_STATUS_UPSTAT st l).setFlag F.BL_STATUS_CFLT
      ((powerBits false ++ powerBits true).any (bit st)) l).fset F.BL_VDC (b 16 + 256 * b 17) l
    let s3 := (((s2.fset F.BL_COMP_T1 (b 31) l).fset F.BL_COMP_T0 (b 30) l).fset F.BL_COMP_AUXIN (b 32) l).fset
      F.BL_COMP_DNMISS (b 33) l
    let want := (s.seq.k + 256 - (if s.blDs l < 0 then 2 else 1)) % 256
    let s4 := if b 1 = want then s3 else s3.finc F.BL_SEQERR l
    let s5 := s4.blDeliver l (s.upWords l bs)
    [false, true].foldl (fun t h =>
      match t.blAxis l h with
      | some n => if (powerBits h).any (bit st) then t.axisFault n 6 else t
      | none => t) s5

/-- The companion of an axis reports a POWER bit now (R241, R319). -/
def State.powerPersists (s : State) (n : Nat) : Bool :=
  match s.axLink n with
  | some (l, h) => (powerBits h).any (bit (s.fget F.BL_STATUS_UPSTAT l))
  | none => false

/-- Launch SYNC when FINE lies from 100 to 109 at this symbol boundary (R312); after a set in progress it leaves when that has
ended, and FINE is that of the boundary it leaves at (R303). -/
def State.blSync (s : State) (l : Fin 16) : State :=
  match s.seq.next with
  | none => s
  | some nx =>
    if s.blState l ≠ 3 ∨ !s.flag F.CYC_STATUS_RUNNING ∨ s.bl[l].syncFor = nx ∨ nx ≤ s.run then s else
    let ahead := (nx - s.run) * 1000 / unitNs
    let fine := nearest (((ahead : Int) - s.fget F.BL_LAT l : Int) / (800 : Int))
    if fine < 100 ∨ 109 < fine then s
    else
      let b := s.blFree l
      (s.blPutSync l b (fine - 5 * ((b - s.phys : Nat) : Int) / 4).toNat).modBl l (fun x => { x with syncFor := nx })

/-- The bytes of a downstream frame (R305, R313, R314). -/
def State.blFrame (s : State) (l : Fin 16) : List Nat :=
  let b := s.bl[l]
  let live := fun (h : Bool) => match s.blAxis l h with
    | some n => s.fstate n != 0
    | none => false
  let hb := fun (h : Bool) => (s.blAxis l h).any (fun n => s.axKind n == 3)
  let flags := b2n (live false) + 2 * b2n (live true) + 4 * b2n (hb false) + 8 * b2n (hb true) +
    16 * b2n (s.flag F.BL_STATUS_GOFF l) + 32 * b2n b.clrPending
  let duty := fun (h : Bool) (d : List Nat) =>
    if live h then (List.range 3).map (fun i => (d[i]?).getD 0) else [0, 0, 0]
  let nx := s.runToLclk (s.seq.next.getD (s.seq.stopEnd.getD s.run)) / unitNs
  let body := [0x11, s.seq.k % 256] ++ bytesLE 2 flags ++ bytesLE 2 (s.fget F.BL_CFG_DS l) ++ bytesLE 2 s.tiNs ++
    (duty false b.duty.1 ++ duty true b.duty.2).flatMap (bytesLE 2) ++ [s.fget F.BL_AUXOUT l, 0] ++
    bytesLE 4 (ns32 nx) ++ [0, 0, 0, 0]
  body ++ bytesLE 2 (crc16 body)

/-- Both halves have their duties; one without an axis, or whose axis is OFF, counts as written (R313). -/
def State.blReady (s : State) (l : Fin 16) : Bool :=
  let half := fun (h : Bool) (g : Bool) => match s.blAxis l h with
    | some n => g || s.fstate n == 0
    | none => true
  half false s.bl[l].given.1 && half true s.bl[l].given.2

/-- The downstream frame departs (R313, R317, R319); at R it no longer may (R30). -/
def State.blDepart (s : State) (l : Fin 16) : State :=
  let b := s.bl[l]
  if s.blState l ≠ 3 ∨ !s.flag F.CYC_STATUS_RUNNING ∨ b.departed ∨ b.closed ∨ !s.blReady l then s
  else
    let fr := s.blFrame l
    let t := s.blFree l
    s.modBl l (fun b => { b with
      departed := true, lastFrame := fr, lastFrameAt := t, clrPending := false
      line := (t, lineGroups (Config.lineDisparity l.val t) (frameSyms fr)) :: b.line, frameTill := t + 272
      cfgNow := (s.reg (F.BL_CFG_DS.addr l 0)).toNat
      frames := b.frames + 1, pingDue := b.pingDue || (b.frames + 1) % 1024 == 0 })

/-- A new cycle begins on the link (R311). -/
def State.blCycle (s : State) (l : Fin 16) : State :=
  s.modBl l (fun b => { b with
    given := (false, false), departed := false, closed := false, codeErrs := 0, arrived := false, line := [], cfgHere := b.cfgNow })

end Sys2Proof.Machine
end

