-- ==== Sys2Proof/Machine/Cmd.lean ====
section
/-! DEFINITION. CMD inputs and the Sill ADC (R250 to R259). -/
namespace Sys2Proof.Machine

/-! ### CMD inputs -/

/-- A new measurement `x`: deadband, filter, clamp into VAL (R254); a loss ends (R255). `meas` is what MEAS shows. -/
def State.cmdMeasure (s : State) (k : Fin 8) (x : Rat) (meas : Int) : State :=
  let db := ofQ23 (s.fget F.CMD_DB k)
  let x1 := if absR x ≤ db then 0 else x - signR x * db
  let v := ofQ23 (s.fgetS F.CMD_VAL k)
  let v1 := v + (x1 - v) / ((2 ^ s.fget F.CMD_CFG_TC k : Nat) : Int)
  let s1 := (s.fsetS F.CMD_VAL (toQ23 v1) k).fsetS F.CMD_MEAS meas k
  (s1.setFlag F.CMD_STATUS_LOSS false k).modCmd k (fun c => { c with lastMeas := s.run })

/-- The instant of a filtered edge: FILT samples of 4 ns before it shows (R121, R251). -/
def State.cmdStamp (s : State) (k : Fin 8) : Nat := s.run - s.fget F.CMD_CFG_FILT k * 4 * unitNs

/-- The unit a rising edge counts (R252, R253): `pair` is the level of the input CMDk+1 that gives the direction. -/
def State.cmdSign (s : State) (k : Fin 8) (pair : Bool) : Int :=
  if s.flag F.CMD_CFG_DIRPAIR k && k.val % 2 == 0 then
    if pair != s.flag F.CMD_CFG_DIRINV k then -1 else 1
  else 1

/-- Keep a rising edge and give it to the spindles that count this input (R253). -/
def State.cmdEdge (s : State) (k : Fin 8) (d : Int) : State :=
  let t := s.cmdStamp k
  let s1 := s.modCmd k (fun c =>
    let n := (match c.edges with
      | e :: _ => e.2
      | [] => 0) + d
    { c with edges := (t, n) :: (c.edges.take 1 ++ (c.edges.drop 1).filter (fun e => decide (t ≤ e.1 + 100000 * unitNs))) })
  s1.spinSource 4 k d t

/-- CMD_DUTY_EDGE (R251): a rising edge in duty mode; the high time is that of the period that ends. -/
def State.cmdDutyEdge (s : State) (k : Fin 8) (pair : Bool) : State :=
  let s1 := s.cmdEdge k (s.cmdSign k pair)
  match s.cmdIn[k].edges with
  | [] => s1
  | e :: _ =>
    let period := (s.cmdStamp k - e.1) / (4 * unitNs)
    if period < 2500 ∨ 250000 < period then s1.raise F.CMD_STATUS_RANGE k
    else
      let high := (s.cmdIn[k].fell - e.1) / (4 * unitNs)
      let d : Rat := ((min high period : Nat) : Int) / (period : Int)
      let x := if s.flag F.CMD_CFG_BIPOLAR k then 2 * d - 1 else d
      s1.cmdMeasure k x (min (quo ((min high period * 65536 : Nat) : Int) period) 65535)

/-- The frequency of an input in Hz at the present instant, signed (R252). -/
def State.cmdFreq (s : State) (k : Fin 8) : Rat :=
  match countVel (s.fget F.CMD_CFG_TMO k) 100 s.cmdIn[k].edges s.run with
  | none => 0
  | some (num, den) => (num * (10 ^ 9 * unitNs : Nat) : Int) / (den : Int)

/-- A measurement in frequency mode (R250, R252). -/
def State.cmdFreqMeasure (s : State) (k : Fin 8) : State :=
  let f := s.cmdFreq k
  s.cmdMeasure k (divR f (s.fget F.CMD_FMAX k : Int)) (quo f.num f.den)

/-- CMD_FREQ_EDGE (R252). -/
def State.cmdFreqEdge (s : State) (k : Fin 8) (pair : Bool) : State := (s.cmdEdge k (s.cmdSign k pair)).cmdFreqMeasure k

/-- A sample of the ball (R251, R252, R261): its filtered level, and what an edge does. -/
def State.cmdSample (s : State) (k : Fin 8) (w : BitVec 16) (pair : Bool) : State :=
  let now := filtered (s.fget F.CMD_CFG_FILT k) (s.flag F.CMD_STATUS_LVL k) w
  if now = s.flag F.CMD_STATUS_LVL k then s else
  let s1 := s.setFlag F.CMD_STATUS_LVL now k
  if now = false then s1.modCmd k (fun c => { c with fell := s.cmdStamp k })
  else if s.fget F.CMD_CFG_MODE k = 2 then s1.cmdDutyEdge k pair
  else if s.fget F.CMD_CFG_MODE k = 3 then s1.cmdFreqEdge k pair
  else s1

/-- A read or a cycle start forms the frequency anew (R76, R77, R252). -/
def State.cmdRefresh (s : State) (k : Fin 8) : State :=
  if s.fget F.CMD_CFG_MODE k = 3 ∧ !s.cmdIn[k].edges.isEmpty then s.cmdFreqMeasure k else s

/-- At a cycle start: a frequency is measured again; VAL goes to SNAP (R252, R254). -/
def State.cmdLatch (s : State) (k : Fin 8) : State :=
  let s1 := s.cmdRefresh k
  s1.fset F.CMD_SNAP (s1.fget F.CMD_VAL k) k

/-- CMD_LOSS (R255): no measurement for TMO µs in analog or duty mode. -/
def State.cmdLoss (s : State) (k : Fin 8) : State :=
  let m := s.fget F.CMD_CFG_MODE k
  let late := decide (s.cmdIn[k].lastMeas + s.fget F.CMD_CFG_TMO k * 1000 * unitNs ≤ s.run)
  if (m = 1 ∨ m = 2) ∧ s.flag F.CMD_CFG_LOSSEN k ∧ late ∧ !s.flag F.CMD_STATUS_LOSS k then
    let s1 := (s.setFlag F.CMD_STATUS_LOSS true k).raise F.CMD_STATUS_LOSSEVT k
    forFin 64 (fun n t =>
      if t.fget F.AX_LOOP_CFG_REFSRC n = 1 ∧ t.fget F.AX_LOOP_CFG_REFCMD n = k.val then t.axisFault n 3 else t)
      (s1.fset F.CMD_VAL 0 k)
  else s

/-- A write to CFG (R250): in mode off VAL reads zero, and a change of mode starts with no edge; the loss time
counts from the write. -/
def State.cmdConfig (s : State) (k : Fin 8) (oldMode : Nat) : State :=
  let m := s.fget F.CMD_CFG_MODE k
  let s1 := s.modCmd k (fun c => { c with lastMeas := s.run, edges := if m = oldMode then c.edges else [] })
  if m = 0 then (s1.fset F.CMD_VAL 0 k).setFlag F.CMD_STATUS_LOSS false k else s1

/-! ### The Sill ADC -/

/-- When a sequence ends. -/
def State.sillEnd (s : State) (q : Nat × Nat × Nat) : Nat := q.2.1 + s.fget F.SILL_CTRL_LEN * 500 * unitNs

/-- STATUS.BUSY: a sequence is converting. -/
def State.sillBusy (s : State) : Bool := s.sill.any (fun q => decide (q.2.1 ≤ s.run))

/-- The trigger of a selected cycle start (R256, R257). -/
def State.sillStart (s : State) (k : Nat) : State :=
  let at' := s.run + s.fget F.SILL_CTRL_PHASE * unitNs
  if !s.flag F.SILL_CTRL_EN ∨ !s.flag F.CYC_STATUS_RUNNING then s
  else if s.sill.any (fun q => decide (at' < s.sillEnd q)) then
    (s.raise F.SILL_STATUS_SKIP).finc F.SILL_SKIPS
  else if s.fget F.SILL_CTRL_LEN = 0 then s
  else { s with sill := s.sill ++ [(0, at', k % 256)] }

/-- One result of channel `c` (R258, R259), and an analog CMD input's measurement (R250). -/
def State.sillResult (s : State) (c : Fin 16) (code : Nat) (tag : Nat) (sampled : Nat) : State :=
  let s1 := ((s.fset F.SILL_RES_CODE code 0 c).fset F.SILL_RES_TAG tag 0 c).raise F.SILL_RES_NEW 0 c
  let s2 := s1.fset F.SILL_RES_STAMP (ns32 (s.runToLclk sampled / unitNs)) 0 c
  let out : Bool := decide (code < s.fget F.SILL_LIM_LO 0 c) || decide (s.fget F.SILL_LIM_HI 0 c < code)
  let m := s.fget F.SILL_STATUS_LIMCH
  let s3 := if out then (s2.fset F.SILL_STATUS_LIMCH (m ||| 2 ^ c.val)).raise F.SILL_STATUS_LIMIT
    else s2.fset F.SILL_STATUS_LIMCH (putBits m c c 0)
  if c.val < 8 then s3 else
  let k : Fin 8 := Fin.ofNat 8 c
  if s.fget F.CMD_CFG_MODE k = 1 then
    let x : Rat := (((code : Int) - s.fget F.CMD_SCALE_OFS k) * (s.fget F.CMD_SCALE_GAIN k : Int) : Int) / (2 ^ 29 : Int)
    s3.cmdMeasure k x code
  else s3

/-- SILL_RESULT (R256, R258): the conversion of the next entry has completed with `code`. -/
def State.sillNext (s : State) (code : Nat) : State :=
  match s.sill with
  | [] => s
  | (i, start, k) :: rest =>
    let sampled := start + 500 * i * unitNs
    if s.run < sampled + 500 * unitNs then s else
    let s1 := { s with sill := if s.fget F.SILL_CTRL_LEN ≤ i + 1 then rest else (i + 1, start, k) :: rest }
    s1.sillResult (Fin.ofNat 16 (s.fget F.SILL_SEQ_CH 0 i)) (code % 65536) k sampled

end Sys2Proof.Machine
end

