-- ==== Sys2Proof/Machine/Jet.lean ====
section
/-! DEFINITION. Jet links to head modules (R353 to R380, R627): frames, training, hop latency, the clock on the
link, reports, downloads, loss. -/
namespace Sys2Proof.Machine

def State.jlState (s : State) (l : Fin 8) : Nat := s.fget F.JL_STATUS_STATE l

/-! ### Module geometry in Loft (R325, R326) -/

def geomAddr (m w : Nat) : Nat := 0x0500_0000 + 32 * m + 4 * w

def State.modEn (s : State) (m : Nat) : Bool := bit (s.mem32 (geomAddr m 0)) 0
def State.modBarNo (s : State) (m : Nat) : Nat := bitsOf (s.mem32 (geomAddr m 0)) 7 4
def State.modNcol (s : State) (m : Nat) : Nat := min (bitsOf (s.mem32 (geomAddr m 3)) 11 0) 2048
/-- The Lodge lets the Skew engine read the geometry (R53): where not, it reads as zeros. -/
def State.geomOpen (s : State) : Bool := (s.lodge .skew false (geomAddr 0 0)).1

def State.modStaves (s : State) (m : Nat) : Nat := (s.modNcol m + 15) / 16

/-- A half-away-from-zero rounding (R336). -/
def rndAway (x : Rat) : Int := if x < 0 then -((-x + 1 / 2).floor) else (x + 1 / 2).floor

/-- THERM_m (R337). -/
def State.therm (s : State) (m : Nat) : Int :=
  if !s.flag F.SKEW_MODH_TVALID 0 m then 0 else
  let w := s.mem32 (geomAddr m 4)
  rndAway ((toS 16 (w / 65536) : Rat) / 256 * ((s.fgetS F.SKEW_MODH_TEMP 0 m - toS 8 w : Int) : Rat))

/-- ⌈40,000 ns·v0/LPITCH⌉ from the latest snapshot (R336, R376). -/
def State.ngTravel (s : State) (b : Fin 16) : Nat :=
  let v := s.snap.spin[Fin.ofNat 16 (s.fget F.BAR_CFG_SPIN b)].vel
  if v ≤ 0 then 0
  else (divR ((40000 * v : Int) : Rat) ((10 ^ 9 * s.wget F.BAR_LPITCH b : Nat) : Int)).ceil.toNat

/-- n_g (R336). -/
def State.governFrom (s : State) (b : Fin 16) : Nat := s.bar[b].next + 24 + s.ngTravel b

/-! ### Frames (R357 to R365) -/

/-- The order of departure (R359). -/
def JetFrame.rank (f : JetFrame) : Nat × Nat :=
  match f.body with
  | .stepMark _ => (0, 0)
  | .stave _ _ true _ => (1, f.pos)
  | .line ws => (2, (ws.head?.map (·.2)).getD 0)
  | .stave _ _ false _ => (3, f.pos)
  | .req _ => (4, 0)
  | .set _ => (4, 0)
  | .enum => (4, 0)
  | .timeIdle => (5, 0)
  | .tableData _ _ => (6, 0)
  | .tableCommit _ => (6, 0)

def rankLt (a b : Nat × Nat) : Bool := decide (a.1 < b.1) || (a.1 == b.1 && decide (a.2 < b.2))

def JetFrame.isEcho (f : JetFrame) : Bool := f.rank.1 == 4

/-- Frames that a link which is not UP discards (R379). -/
def JetFrame.counted (f : JetFrame) : Bool :=
  match f.body with
  | .stave _ _ _ _ => true
  | .line _ => true
  | .tableData _ _ => true
  | .tableCommit _ => true
  | _ => false

/-- The stamp of an instant of the step-free timescale: NS32 and FRAC in 1/256 ns, to nearest (R338). -/
def State.fireStamp (s : State) (r : Nat) : List Nat :=
  let q := (nearest ((s.runToLclk r : Nat) / ((2 ^ 31 : Nat) : Int))).toNat
  bytesLE 4 (ns32 (q / 256)) ++ [q % 256]

/-- The first LCLK microsecond at or after an instant `d` ns from now, in ns. -/
def State.nextMark (s : State) (d : Nat) : Nat := (s.nowNs + d + 999) / 1000 * 1000

def nsSec (t : Nat) : List Nat := bytesLE 4 (t % 10 ^ 9) ++ bytesLE 6 (t / 10 ^ 9)

/-- FLAGS of an IDLE (R365). -/
def State.idleFlags (s : State) (step : Bool) : Nat :=
  b2n step + 2 * b2n (s.flag F.HEARTH_STATUS_HOLDOVER) + 4 * b2n (s.flag F.HEARTH_STATUS_LOCKED)

/-- The column table of a module as a download reads it: zeros where the Lodge denies the read. -/
def State.tableCols (s : State) (m ncol : Nat) : List Nat :=
  let ok := (s.lodge .skew false (0x0504_0000 + 4096 * m)).1
  (List.range ncol).map (fun i => if ok then s.readN (0x0504_0000 + 4096 * m + 2 * i) 2 else 0)

/-- CRC-32 of the column table of a module over 2·NCOL bytes (R363). -/
def State.tableCrc (s : State) (m ncol : Nat) : Nat := crc32 ((s.tableCols m ncol).flatMap (bytesLE 2))

/-- Type and payload of a frame as it departs on link `l`. -/
def State.jetPayload (s : State) (l : Fin 8) (f : JetFrame) : Nat × List Nat :=
  match f.body with
  | .line ws => (1, [ws.length, 0, 0, 0] ++ bytesLE 4 ((ws.head?.map (·.1)).getD 0) ++
      ws.flatMap (fun w => s.fireStamp w.2 ++ [w.1 % 256]))
  | .stave ng vs _ now => (2, bytesLE 4 ng ++ bytesLE 2 0 ++ [vs.length, b2n now] ++
      vs.flatMap (fun d => bytesLE 2 (ofS 16 d)))
  | .tableData first vs => (3, [0, vs.length] ++ bytesLE 2 first ++ List.replicate 12 0 ++ vs.flatMap (bytesLE 2))
  | .tableCommit ncol =>
    let b : Fin 16 := Fin.ofNat 16 (s.modBarNo (16 * l.val + f.pos))
    let ngov := if s.flag F.SKEW_CTRL_EN && s.flag F.BAR_CFG_EN b then s.governFrom b else 0xFFFF_FFFF
    (3, [1, 0, 0, 0] ++ bytesLE 4 ngov ++ bytesLE 4 (s.fget F.JL_DLCRC l) ++ bytesLE 2 ncol ++ [0, 0])
  | .req tag => (5, [0, 0] ++ bytesLE 2 tag ++ bytesLE 4 0)
  | .set v => (5, [3, 0, 0, 0] ++ bytesLE 4 v)
  | .enum => (5, [2, 0, 0, 0, 0, 0, 0, 0])
  | .timeIdle => (6, [s.idleFlags false, 0, 0, 0] ++ nsSec (s.nextMark 68) ++ [0, 0] ++ bytesLE 8 0)
  | .stepMark d => (6, [s.idleFlags true, 0, 0, 0] ++ nsSec (s.nextMark 68) ++ [0, 0] ++ bytesLE 8 (ofS 64 d))

/-- The bytes of a frame (R357). -/
def State.jetBytes (s : State) (l : Fin 8) (f : JetFrame) : List Nat :=
  let p := s.jetPayload l f
  let bs := [0x10 + p.1, if f.pos = 16 then 16 else f.pos] ++ bytesLE 2 p.2.length ++ p.2
  bs ++ bytesLE 4 (crc32 bs)

/-- A frame departs at once, or as soon as the one in progress has ended (R359): SOF, its bytes, EOF, 2 ns each. -/
def State.jlSend (s : State) (l : Fin 8) (f : JetFrame) : State :=
  let start := max s.phys s.jet[l].busy
  let bs := s.jetBytes l f
  let till := start + 2 * (bs.length + 2)
  let s1 := s.modJet l (fun j => { j with
    busy := till, last := bs, lastAt := start, line := lineGroups (Config.lineDisparity (16 + l.val) start) (frameSyms bs) })
  match f.body with
  | .req tag => s1.modJet l (fun j => { j with echoTill := till, reqAt := start, outst := (tag, f.pos, start) :: j.outst })
  | .set v => s1.modJet l (fun j => { j with
      echoTill := till, sets := (f.pos, v) :: j.sets.filter (fun x => x.1 != f.pos) })
  | .enum => s1.modJet l (fun j => { j with echoTill := till })
  | .stepMark _ => s1.modJet l (fun j => { j with stepTill := till })
  | .tableCommit _ =>
    s1.modJet l (fun j => { j with dl := some (f.pos, some till) })
  | _ => s1

/-- Download frames are waiting or being sent (R376): the register's BUSY. -/
def State.dlBusy (s : State) (l : Fin 8) : Bool :=
  match s.jet[l].dl with
  | some (_, none) => true
  | some (_, some t) => decide (s.phys < t)
  | none => false

/-- Queue a frame on a link; one that is not UP discards it (R379). -/
def State.jlQueue (s : State) (l : Fin 8) (f : JetFrame) : State :=
  if s.jlState l = 4 then s.modJet l (fun j => { j with queue := j.queue ++ [f] })
  else if f.counted then s.finc F.JL_DISC l else s

/-- The 36 ns of an ECHO frame would hold a TMARK (R369). -/
def State.echoBlocked (s : State) : Bool := s.nowNs / 1000 != (s.nowNs + 36) / 1000

/-- The index of the frame that departs next: the highest rank, the oldest of equals (R359). -/
def State.jlPick (s : State) (l : Fin 8) : Option (JetFrame × Nat) :=
  (s.jet[l].queue.zipIdx.filter (fun x => !(x.1.isEcho && s.echoBlocked))).foldl (fun b x =>
    match b with
    | none => some x
    | some y => if rankLt x.1.rank y.1.rank then some x else some y) none

/-- JL_FRAME_DEPART (R359). -/
def State.jlDepart (s : State) (l : Fin 8) : State :=
  if s.jlState l ≠ 4 ∨ s.phys < s.jet[l].busy then s else
  match s.jlPick l with
  | none => s
  | some (f, i) => (s.modJet l (fun j => { j with queue := j.queue.eraseIdx i })).jlSend l f

/-! ### States (R367, R379) -/

/-- Leave UP: frames meant for the modules are discarded and counted (R379). -/
def State.jlPurge (s : State) (l : Fin 8) : State :=
  let n := (s.jet[l].queue.filter JetFrame.counted).length
  let s1 := if n = 0 then s else s.finc F.JL_DISC l 0 n
  let s2 := if s.dlBusy l then s1.modJet l (fun j => { j with dl := j.dl.map (fun d => (d.1, some s.phys)) }) else s1
  s2.modJet l (fun j => { j with queue := [], outst := [] })

def State.jlEnter (s : State) (l : Fin 8) (st : Nat) : State :=
  let s1 := (if s.jlState l = 4 then s.jlPurge l else s).fset F.JL_STATUS_STATE st l
  if st = 4 then
    let s2 := s1.modJet l (fun j => { j with
      nowDue := 0xFFFF, mark := s.nowNs / 1000, reqs := 0, reqAt := s.phys, outst := [], queue := [] })
    s2.jlQueue l ⟨16, .timeIdle⟩
  else s1

def State.jlAlign (s : State) (l : Fin 8) : State :=
  (s.jlEnter l 1).modJet l (fun j => { j with outst := [], sums := [], errs := [], reqs := 0 })

/-- A write to CTRL (R367): `was` is EN before it. -/
def State.jlCtrl (s : State) (l : Fin 8) (was : Bool) (v : Nat) : State :=
  let s1 := s.modJet l (fun j => { j with needTrain := false })
  if !bit v 0 then s1.jlEnter l 0
  else if !was ∨ bit v 1 then s1.jlAlign l
  else s

/-- 64 consecutive valid FILL sets in ALIGN: one ENUM frame (R367, R368). -/
def State.jlAligned (s : State) (l : Fin 8) : State :=
  if s.jlState l = 1 ∧ (!s.jet[l].needTrain ∨ s.flag F.JL_CTRL_AUTOTRN l) then
    (((s.jlEnter l 2).modJet l (fun j => { j with enumAt := s.phys, needTrain := false })).jlSend l ⟨16, .enum⟩)
  else s

def State.jlRetrain (s : State) (l : Fin 8) : State := (s.finc F.JL_RETRAIN l).jlAlign l

/-- A valid STAT from position `p` has been taken in within 4 ms (R379). -/
def State.heardOf (s : State) (l : Fin 8) (p : Nat) : Bool :=
  s.jet[l].heard.any (fun x => x.1 == p && decide (s.phys < x.2 + 4000000))

/-- MODOK as it reads (R379): the positions heard that have not fallen silent. -/
def State.modOk (s : State) (l : Fin 8) : Nat :=
  maskOf ((setBits 16 (s.fget F.JL_STATUS_MODOK l)).filter (fun p => s.heardOf l p))

/-- A loss (R379). -/
def State.jlLose (s : State) (l : Fin 8) : State :=
  let st := s.jlState l
  if st < 2 then s else
  let s1 := s.raise F.JL_STATUS_LOST l
  let s2 := if st = 2 ∨ st = 3 then s1.finc F.JL_RETRAIN l else s1
  let s3 := s2.raiseFault 0 0x06 l 0 [s.modOk l]
  (s3.jlAlign l).modJet l (fun j => { j with needTrain := !s.flag F.JL_CTRL_AUTOTRN l })

/-- `k` code errors received now; more than 16 within 10 µs are a loss (R358, R379). -/
def State.jlErrors (s : State) (l : Fin 8) (k : Nat) : State :=
  if k = 0 then s else
  let es := (List.replicate (min k 17) s.phys ++ s.jet[l].errs.filter (fun t => decide (s.phys < t + 10000))).take 17
  let s1 := (s.finc F.JL_CODEERR l 0 k).modJet l (fun j => { j with errs := es })
  if 16 < es.length then s1.jlLose l else s1

/-- JL_LOSS: alignment lost, or groups outside a frame with code errors among them. -/
def State.jlLoss (s : State) (l : Fin 8) (aligned : Bool) (gs : List CodeGroup) (rd : Bool) : State :=
  if s.jlState l = 0 then s else
  let s1 := s.jlErrors l (lineErrors jetSets gs rd)
  if aligned then s1 else s1.jlLose l

/-! ### Received frames -/

/-- The bytes of a valid upstream frame (R357, R358): its type, source position and payload. -/
def jetParse (bs : List Nat) : Option (Nat × Nat × List Nat) :=
  let len := (bs[2]?).getD 0 + 256 * (bs[3]?).getD 0
  let ty := (bs[0]?).getD 0
  if bs.length = len + 8 ∧ len ≤ 288 ∧ ty / 16 = 1 ∧ 1 ≤ ty % 16 ∧ ty % 16 ≤ 6 ∧
      ofBytesLE (bs.drop (len + 4)) = crc32 (bs.take (len + 4)) then
    some (ty % 16, (bs[1]?).getD 0 % 16, (bs.drop 4).take len)
  else none

/-- Take in a frame of type `ty`, the code groups from its SOF on, or discard it and count (R355, R356, R358). -/
def State.jlTake (s : State) (l : Fin 8) (ty : Nat) (gs : List CodeGroup) (rd : Bool)
    (k : State → Nat → List Nat → State) : State :=
  if s.jlState l = 0 then s else
  let x := takeFrame jetSets [kMark] gs rd
  match if x.whole && x.errs == 0 then jetParse x.bytes else none with
  | some (t, p, pl) => if t = ty then k s p pl else s
  | none => (if x.begun then s.finc F.JL_CRCERR l else s).jlErrors l x.errs

/-- The returning ENUM frame (R367, R368). -/
def State.jlEnum (s : State) (l : Fin 8) (gs : List CodeGroup) (rd : Bool) : State :=
  s.jlTake l 5 gs rd (fun t _ pl =>
    if t.jlState l ≠ 2 ∨ pl.length ≠ 8 ∨ pl.head? ≠ some 2 ∨ t.jet[l].enumAt + 100000 < t.phys then t else
    let hop := (pl[1]?).getD 0
    let t1 := t.fset F.JL_STATUS_NMOD hop l
    let exp := t.fget F.JL_CFG_EXPN l
    if 1 ≤ hop ∧ hop ≤ 16 ∧ (exp = 0 ∨ exp = hop) then
      (t1.jlEnter l 3).modJet l (fun j => { j with reqs := 0, sums := [], outst := [] })
    else (t1.raise F.JL_STATUS_ENUMERR l).jlRetrain l)

def State.jlEnumTimeout (s : State) (l : Fin 8) : State :=
  if s.jlState l = 2 ∧ s.jet[l].enumAt + 100000 ≤ s.phys then (s.raise F.JL_STATUS_ENUMERR l).jlRetrain l else s

/-- The next ECHO REQ: each µs in MEASURE, each 16 µs in UP (R369, R370, R627). -/
def State.jlReq (s : State) (l : Fin 8) : State :=
  let j := s.jet[l]
  let n := s.fget F.JL_STATUS_NMOD l
  let next := s.modJet l (fun j => { j with reqs := j.reqs + 1, tag := (j.tag + 1) % 65536 })
  if n = 0 then s
  else if s.jlState l = 3 then
    if j.reqs < 16 * n ∧ (j.reqs = 0 ∨ j.reqAt + 1000 ≤ s.phys) then next.jlSend l ⟨j.reqs % n, .req j.tag⟩ else s
  else if s.jlState l = 4 ∧ j.reqAt + 16000 ≤ s.phys then
    (next.modJet l (fun j => { j with reqAt := s.phys })).jlQueue l ⟨j.reqs % n, .req j.tag⟩
  else s

/-- An RSP whose SOF reached the balls `ui` unit intervals of 0.2 ns after this instant (R369, R370). -/
def State.jlRsp (s : State) (l : Fin 8) (gs : List CodeGroup) (rd : Bool) (ui : Nat) : State :=
  s.jlTake l 5 gs rd (fun t p pl =>
    if pl.length ≠ 8 ∨ pl.head? ≠ some 1 then t else
    let tag := (pl[2]?).getD 0 + 256 * (pl[3]?).getD 0
    match t.jet[l].outst.find? (fun o => o.1 == tag && o.2.1 == p) with
    | none => t
    | some (_, _, tx) =>
      let t1 := t.modJet l (fun j => { j with outst := j.outst.filter (fun o => o.1 != tag) })
      if tx + 8000 < t.phys then t1 else
      let d : Int := quo (((t.phys - tx) * 1000 + ui * 200 : Nat) - 1036000 - (ofBytesLE (pl.drop 4) : Int)) 2
      if t.jlState l = 3 then
        let ds := (p, d) :: t.jet[l].sums
        let mine := ds.filter (fun x => x.1 == p)
        (t1.modJet l (fun j => { j with sums := ds })).fsetS F.JL_D (quo (mine.foldl (fun a x => a + x.2) 0) mine.length) l p
      else if t.jlState l = 4 then
        let o := t.fgetS F.JL_D l p
        let n := o + quo (d - o) 16
        let t2 := t1.fsetS F.JL_D n l p
        let was : Int := ((t.jet[l].sets.find? (fun x => x.1 == p)).map (fun x => (x.2 : Int))).getD 0
        if 100 < absI (n - was) then t2.jlQueue l ⟨p, .set (ofS 32 n)⟩ else t2
      else t1)

/-- The end of MEASURE (R367, R368, R627). -/
def State.jlMeasureEnd (s : State) (l : Fin 8) : State :=
  let j := s.jet[l]
  let n := s.fget F.JL_STATUS_NMOD l
  if s.jlState l ≠ 3 ∨ j.reqs < 16 * n ∨ !(j.outst.isEmpty || decide (j.reqAt + 8000 ≤ s.phys)) then s
  else if (List.range n).all (fun p => decide (12 ≤ (j.sums.filter (fun x => x.1 == p)).length)) then
    let s1 := forList (List.range n) (fun p t => t.jlSend l ⟨p, .set (t.fget F.JL_D l p)⟩) s
    s1.jlEnter l (if s.fgetS F.JL_D l (n - 1) ≤ 2500000 then 4 else 5)
  else s.jlRetrain l

/-! ### The clock on the link (R356, R371 to R373) -/

/-- A TMARK at an LCLK microsecond; FINE is where the symbol boundaries of SDCLK1 lie. None inside an ECHO frame, and
none between a step and the EOF of its step mark. -/
def State.jlTmark (s : State) (l : Fin 8) (fine : Nat) : State :=
  let j := s.jet[l]
  let stepping := j.queue.any (fun f => f.rank.1 == 0) || decide (s.phys < j.stepTill)
  if s.jlState l = 4 ∧ j.mark < s.nowNs / 1000 ∧ j.echoTill ≤ s.phys ∧ !stepping then
    s.modJet l (fun j => { j with
      mark := s.nowNs / 1000, fine := fine, tmark := lineGroups (Config.lineDisparity (16 + l.val) s.phys) [.k kMark, .d fine]
      busy := max s.phys j.busy + 4 })
  else s

/-- Queue a time IDLE (R372). -/
def State.jlIdle (s : State) (l : Fin 8) : State :=
  if s.jet[l].queue.any (fun f => f.rank.1 == 5) then s else s.jlQueue l ⟨16, .timeIdle⟩

/-- The step mark of a step of `d` ns on every link that is UP (R348, R373). -/
def State.jlStep (s : State) (d : Int) : State :=
  forFin 8 (fun l t =>
    if t.jlState l ≠ 4 then t else
    let add (f : JetFrame) : JetFrame := match f.body with
      | .stepMark x => { f with body := .stepMark (x + d) }
      | _ => f
    let t0 := t.modJet l (fun j => { j with mark := t.nowNs / 1000 })
    if t0.jet[l].queue.any (fun f => f.rank.1 == 0) then t0.modJet l (fun j => { j with queue := j.queue.map add })
    else t0.jlQueue l ⟨16, .stepMark d⟩) s

/-! ### Reports (R366, R377, R379) -/

def State.jlStat (s : State) (l : Fin 8) (gs : List CodeGroup) (rd : Bool) : State :=
  s.jlTake l 4 gs rd (fun t p pl =>
    if t.jlState l < 3 ∨ pl.length < 20 then t else
    let m := 16 * l.val + p
    let w := fun (i k : Nat) => ofBytesLE ((pl.drop i).take k)
    let flags := w 0 2
    let hcol := w 16 2
    let hs := ((pl.drop 20).take (w 18 2)).take (2048 - hcol)
    let t1 := t.writeAs .skew (0x050C_0000 + 2048 * m) (fun u =>
      { u with mem := u.mem.writeBytes (0x050C_0000 + 2048 * m + hcol) hs })
    let t2 := (if bit flags 6 then t1.fset F.SKEW_MODH_TEMP (w 2 1) 0 m else t1).setFlag F.SKEW_MODH_TVALID (bit flags 6) 0 m
    let t3 := t2.finc F.JL_MISSCOL l p (w 8 4)
    let t4 := ((t3.fset F.JL_MSTAT flags l p).fset F.JL_TBLCRC (w 4 4) l p).fset F.JL_STATUS_MODOK
      (t.fget F.JL_STATUS_MODOK l ||| 2 ^ p) l
    let t5 := t4.modJet l (fun j => { j with heard := (p, t.phys) :: j.heard.filter (fun x => x.1 != p) })
    match t.jet[l].dl with
    | some (q, some _) =>
      if q ≠ p then t5 else
      let good := bit flags 0 && w 4 4 == t.fget F.JL_DLCRC l
      let bad := bit flags 1
      if good || bad then
        ((t5.setFlag F.JL_DLSTAT_DONE good l).setFlag F.JL_DLSTAT_ERR bad l).modJet l (fun j => { j with dl := none })
      else t5
    | _ => t5)

/-- No valid STAT from position `p` for 4 ms (R379). -/
def State.jlModLost (s : State) (l : Fin 8) (p : Nat) : State :=
  let ok := s.fget F.JL_STATUS_MODOK l
  if !bit ok p || s.heardOf l p then s else
  let s1 := s.fset F.JL_STATUS_MODOK (putBits ok p p 0) l
  if s.jlState l = 4 then
    (s1.raise F.JL_STATUS_MODLOST l).raiseFault 0 0x06 l 1 [s1.modOk l]
  else s1

/-! ### Downloads (R376) -/

/-- Cut a list into pieces of at most 128. -/
def pieces {α : Type} : Nat → List α → List (List α)
  | 0, _ => []
  | k + 1, l => if l.isEmpty then [] else l.take 128 :: pieces k (l.drop 128)

/-- A write of GO: `pos` is the POS written. -/
def State.jlDownload (s : State) (l : Fin 8) : State :=
  let p := s.fget F.JL_DL_POS l
  let m := 16 * l.val + p
  let ncol := if s.geomOpen then s.modNcol m else 0
  if s.dlBusy l ∨ s.jlState l ≠ 4 then s else
  let s := (s.lodge .skew false (geomAddr m 0)).2
  let s1 := (s.setFlag F.JL_DLSTAT_ERR false l).setFlag F.JL_DLSTAT_DONE (ncol == 0) l
  if ncol = 0 then s1.modJet l (fun j => { j with dl := none }) else
  let cols := s.tableCols m ncol
  let a := 0x0504_0000 + 4096 * m
  let s2 := ((s1.lodge .skew false a).2.parityFind .loft a (2 * ncol)).fset F.JL_DLCRC (s.tableCrc m ncol) l
  let s3 := forList (pieces 16 cols).zipIdx (fun x t => t.jlQueue l ⟨p, .tableData (128 * x.2) x.1⟩) s2
  (s3.jlQueue l ⟨p, .tableCommit ncol⟩).modJet l (fun j => { j with dl := some (p, none) })

/-- No matching STAT within 4 ms of a download (R376). -/
def State.jlDlTimeout (s : State) (l : Fin 8) : State :=
  match s.jet[l].dl with
  | some (_, some t) =>
    if s.phys < t + 4000000 then s
    else (s.setFlag F.JL_DLSTAT_ERR true l).modJet l (fun j => { j with dl := none })
  | _ => s

end Sys2Proof.Machine
end

