-- ==== Sys2Proof/Machine/Hearth.lean ====
section
/-! DEFINITION. LCLK's steps and what they do elsewhere (R150, R151, R168), the cycle sequencer's starts, stops and
re-alignments (R20 to R27), and the PTP servo (R163 to R167). -/
namespace Sys2Proof.Machine

def State.modSeq (s : State) (f : Sequencer → Sequencer) : State := { s with seq := f s.seq }

/-! ### The cycle sequencer (R20 to R27) -/

/-- T_I in units of 2⁻³⁹ ns. -/
def State.tiU (s : State) : Nat := s.tiNs * unitNs

/-- The instant in `run` of the first instant of R20 at or after `r`. -/
def State.alignedAfter (s : State) (r : Nat) : Nat :=
  let l : Int := (s.lclk : Int) + r - s.run
  let ph : Int := (s.seq.phase * unitNs : Nat)
  let m : Int := -((ph - l) / (s.tiU : Int))
  (ph + m * s.tiU + s.run - s.lclk).toNat

/-- The index of R20 of the instant `r` of the step-free timescale. -/
def State.indexAt (s : State) (r : Nat) : Nat :=
  let ns : Int := ((s.lclk : Int) + r - s.run) / (unitNs : Int)
  ((ns - s.seq.phase) / (s.tiNs : Int)).toNat

/-- 1 µs of physical time from now, in `run`. -/
def State.afterMicro (s : State) : Nat := s.run + 500 * s.rate

/-- Local servo axes, and how many an FISEL allows (R23). -/
def State.localServos (s : State) : Nat := ((List.finRange 64).filter (fun (n : Fin 64) => s.axKind n == 1)).length
def servoLimit (fisel : Nat) : Nat := if fisel = 6 then 16 else 32

/-- The configuration as it stands at the write (R22). -/
def State.seqLatch (s : State) : State :=
  let fi := s.fget F.CYC_CFG_FISEL
  let n := 2 ^ (s.fget F.CYC_CFG_VDIV % 4)
  let m := 2 ^ (s.fget F.CYC_CFG_PDIV % 4)
  let ph := s.fget F.CYC_PHASE % tiOf fi
  s.modSeq (fun q => { q with fisel := fi, nDiv := n, mDiv := m, phase := ph })

/-- The end of a completing cycle that has come by now; a restart schedules its first cycle (R25). -/
def State.seqSettle (s : State) : State :=
  match s.seq.stopEnd with
  | none => s
  | some e =>
    if s.run < e then s else
    let s1 := ((s.setFlag F.CYC_STATUS_RUNNING false).setFlag F.CYC_STATUS_ALIGNED false).setFlag F.CYC_STATUS_KSYNC false
    let s2 := s1.modSeq (fun q => { q with stopEnd := none, next := none, walk := 0, moved := 0, predict := false })
    match s.seq.restart with
    | none => s2.ledPause (fun _ => true)
    | some r =>
      let n := s2.alignedAfter (max r e)
      (s2.modSeq (fun q => { q with
        restart := none, starting := some (max r e), next := some n })).ledPause (fun _ => true)

/-- RUN_START (R22, R23, R25). A refused start leaves RUN, an RW field, reading 1 (R3), so that R22 needs a write of 0
before the next start (DEDUCED). -/
def State.seqRun (s0 : State) : State :=
  let s := s0.seqSettle
  if s.halted || s.seq.next.isSome || s.seq.restart.isSome then s
  else if s.fget F.CYC_CFG_FISEL = 7 ∨ servoLimit (s.fget F.CYC_CFG_FISEL) < s.localServos then
    (s.setFlag F.CYC_CTRL_RUN true).raise F.CYC_STATUS_CFGERR
  else if s.flag F.CYC_CTRL_RUN then s
  else
    let r := s.afterMicro
    let s1 := s.setFlag F.CYC_CTRL_RUN true
    if s.seq.stopEnd.isSome then s1.modSeq (fun q => { q with restart := some r })
    else
      let s2 := s1.seqLatch
      let n := s2.alignedAfter r
      s2.modSeq (fun q => { q with starting := some r, next := some n })

/-- RUN_STOP (R25). -/
def State.seqStop (s0 : State) : State :=
  let s := s0.seqSettle
  if !s.flag F.CYC_CTRL_RUN then s else
  let s1 := s.setFlag F.CYC_CTRL_RUN false
  s1.modSeq (fun q =>
    if q.stopEnd.isSome then { q with restart := none }
    else if q.starting.isSome then { q with starting := none, next := none }
    else { q with stopEnd := q.next, next := none })

/-- CYC_CFG and CYC_PHASE take no writes (R24). -/
def State.seqBusy (s : State) : Bool := s.seq.next.isSome || s.seq.stopEnd.isSome

/-- The next move of a walk: at most T_I/1000 (R27). -/
def State.walkMove (s : State) (e : Int) : Int :=
  let c : Int := (s.tiU / 1000 : Nat)
  clampI (-c) c e

/-- The sequencer at an LCLK step; LCLK already has its new value (R22, R25 to R27). A first start is found again, and does not
lie in the past. -/
def State.seqStep (s0 : State) : State :=
  let s := s0.seqSettle
  match s.seq.next with
  | none => s
  | some n =>
    match s.seq.starting with
    | some r =>
      let n' := s.alignedAfter (max r s.run)
      s.modSeq (fun q => { q with next := some n' })
    | none =>
      let s1 := (s.raise F.CYC_STATUS_REALIGN).finc F.CYC_STEPS
      if !s.flag F.CYC_CTRL_RALN then
        let n' := s.alignedAfter (s.seq.start + s.tiU / 2)
        s1.modSeq (fun q => { q with next := some n', walk := 0, moved := 0, predict := true })
      else
        let base : Int := n + s.seq.moved
        let ph : Int := (s.seq.phase * unitNs : Nat)
        let r : Int := (base + s.lclk - s.run - ph) % (s.tiU : Int)
        let e : Int := if (s.tiU : Int) < 2 * r then r - s.tiU else r
        let c := s.walkMove e
        let s2 := (s1.setFlag F.CYC_STATUS_ALIGNED (decide (e = 0))).setFlag F.CYC_STATUS_KSYNC false
        s2.modSeq (fun q => { q with next := some (base - c).toNat, walk := e - c, moved := c, predict := false })

/-! ### Steps (R150, R151, R168) -/

/-- LCLK takes the value `new`, in units of 2⁻³⁹ ns; a change by Δ ≠ 0 whole ns is a step (R150, R168). -/
def State.lclkMove (s : State) (new : Nat) : State :=
  let d : Int := (new / unitNs : Nat) - (s.nowNs : Int)
  let by' : Int := (new : Int) - s.lclk
  let s0 := { s with
    lclk := new
    steps := if by' = 0 then s.steps else (s.phys, by') :: s.steps.filter (fun x => decide (s.phys < x.1 + 10 ^ 9)) }
  if d = 0 then s0 else
  let s1 := (((s0.wsetS F.HEARTH_LASTSTEP d).raise F.HEARTH_STATUS_STEPPED).finc F.HEARTH_STEPS).setFlag
    F.HEARTH_STATUS_LOCKED false
  let s2 := (s1.seqStep).spinStep d
  let s3 := if 0 < d then s2.lclkLate true else s2
  let s4 := ((s3.jlStep d).celStep d).modJo (fun j => { j with
    stepped := true, due := j.due.map (fun x => (x.1, x.2.1, ofS 32 ((x.2.2 : Int) + d))) })
  let s5 := forFin 4 (fun p t => t.qbvApply p) s4
  s5.raiseFault 0 0x0D 0 1 [ofS 32 d, ofS 64 d / 2 ^ 32]

/-- The new value of a SET (R151): SET_SEC·10⁹ + SET_NS with FRAC zero. -/
def State.lclkSet (s : State) : State :=
  let w := s.wget F.HEARTH_SET
  s.lclkMove ((w / 2 ^ 32 % 2 ^ 48 * 10 ^ 9 + w % 2 ^ 30) * unitNs)

/-- A step by `d` ns; none where LCLK would become negative, which R151 calls unpredictable. -/
def State.lclkBy (s : State) (d : Int) : Option State :=
  let new : Int := (s.lclk : Int) + d * (unitNs : Int)
  if new < 0 then none else some (s.lclkMove new.toNat)

/-! ### The servo (R163 to R167) -/

def State.modServo (s : State) (f : Servo → Servo) : State := { s with servo := f s.servo }

/-- A rate as a multiple of 2⁻⁴⁰, to nearest (R163). -/
def rateUnits (x : Rat) : Int := nearest (x * (2 ^ 40 : Int))

/-- What firmware hands to the servo for a Sync: θ in 2⁻¹⁶ ns, the Sync interval in ns, the parent's portIdentity, the mean
path delay in ns, and the grandmaster's identity. -/
structure Measurement where
  theta : Int
  ts : Nat
  parent : Nat
  delay : Int
  gmid : Nat
  deriving DecidableEq, Repr

/-- The units of θ in one ns. -/
def thetaUnit : Int := 65536

def State.ptpMode (s : State) : Bool := s.flag F.HEARTH_CTRL_MODE

/-- ADJ takes f + p, in MODE 1 (R149, R163); FRATE shows f. -/
def State.servoAdj (s : State) : State :=
  let s1 := s.fsetS F.HEARTH_FRATE (rateUnits s.servo.f)
  if s.ptpMode then s1.fsetS F.HEARTH_ADJ (rateUnits (s.servo.f + s.servo.p)) else s1

/-- Seconds of the holdover in force, or of the last one (R165). -/
def State.holdTime (s : State) : Nat :=
  match s.servo.holdFrom with
  | some t => min 0xFFFF_FFFF ((s.phys - t) / 10 ^ 9)
  | none => s.fget F.HEARTH_HOLDTIME

def State.holdEnd (s : State) : State :=
  ((s.fset F.HEARTH_HOLDTIME s.holdTime).setFlag F.HEARTH_STATUS_HOLDOVER false).modServo (fun v => { v with
    holdFrom := none })

def State.holdStart (s : State) : State :=
  ((s.setFlag F.HEARTH_STATUS_HOLDOVER true).setFlag F.HEARTH_STATUS_LOCKED false).modServo (fun v => { v with
    holdFrom := some (v.holdFrom.getD s.phys) })

/-- STATUS.LOCKED (R164). -/
def State.servoLock (s : State) (theta : Int) : State :=
  let inside := decide (absI theta ≤ thetaUnit * s.fget F.HEARTH_LOCK_LOCKTHR)
  let n := s.fget F.HEARTH_LOCK_LOCKN
  let s1 := s.modServo (fun v => { v with
    inRun := if inside then v.inRun + 1 else 0, outRun := if inside then 0 else v.outRun + 1 })
  if n ≤ s1.servo.inRun then s1.setFlag F.HEARTH_STATUS_LOCKED true
  else if n ≤ s1.servo.outRun then s1.setFlag F.HEARTH_STATUS_LOCKED false else s1

/-- What firmware reports with a measurement: OFFSET saturating, the mean path delay over 2^DLYAVG measurements, which is the
port's link delay in the peer-delay profiles, and the grandmaster. -/
def State.servoReport (s : State) (p : Fin 4) (x : Measurement) : State :=
  let s1 := (s.fsetS F.HEARTH_OFFSET (clampI (-2147483647) 2147483647 (quo x.theta 65536))).wset F.HEARTH_GMID x.gmid
  let ds := ((ofS 32 x.delay) :: s.servo.delays).take (2 ^ s.fget F.HEARTH_PTP_TMO_DLYAVG)
  let sum := ds.foldl (fun (a : Int) d => a + toS 32 d) 0
  let mpd := quo sum ds.length
  let s2 := (s1.modServo (fun v => { v with delays := ds })).fsetS F.HEARTH_MPD mpd
  if s.fget F.HEARTH_PTP_CFG_PROFILE = 0 then s2 else s2.fsetS F.HEARTH_PORT_LINKDLY mpd 0 p

/-- The port of the measurement is the SLAVE port (R157, R165); the intervals of R165 run from here, those of Announce from the
first measurement of a parent. -/
def State.servoPort (s : State) (p : Fin 4) (x : Measurement) : State :=
  s.modServo (fun v => { v with
    slave := some p, heard := some x.parent, syncAt := s.phys, syncIvl := x.ts
    annAt := if v.slave = some p ∧ v.heard = some x.parent then v.annAt else s.phys })

/-- A measurement from a parent unlike the last one, or the first in holdover, restarts the servo (R166). -/
def State.servoParent (s : State) (parent : Nat) : State :=
  let s1 := if s.servo.parent = some parent ∧ !s.flag F.HEARTH_STATUS_GM ∧ !s.flag F.HEARTH_STATUS_HOLDOVER then s
    else (s.raise F.HEARTH_STATUS_MASTERCHG).modServo (fun v => { v with
      started := false, big := 0, parent := some parent })
  let s2 := s1.setFlag F.HEARTH_STATUS_GM false
  if s2.flag F.HEARTH_STATUS_HOLDOVER then s2.holdEnd else s2

/-- The slew law of R163. -/
def State.servoSlew (s : State) (theta : Int) (ts : Nat) : State :=
  let x : Rat := divR ((theta : Rat) / (thetaUnit : Int)) (ts : Int)
  let kp : Rat := (s.fget F.HEARTH_SERVO_GAIN_KP : Int) / (65536 : Int)
  let ki : Rat := (s.fget F.HEARTH_SERVO_GAIN_KI : Int) / (65536 : Int)
  let slew : Rat := (s.fget F.HEARTH_SERVO_LIM_SLEWMAX : Int) / (1000000 : Int)
  let rmax : Rat := (min 1953 (s.fget F.HEARTH_SERVO_LIM_RATEMAX) : Nat) / (1000000 : Int)
  let p := clampR (-slew) slew (-(kp * x))
  let f := clampR (-rmax) rmax (s.servo.f - ki * x)
  (s.modServo (fun v => { v with p := p, f := f, started := true })).servoAdj

/-- PTP runs on a port (R155, R157): it is enabled, and in the transparent role it is the one that disciplines LCLK. -/
def State.ptpOn (s : State) (p : Fin 4) : Bool :=
  let role := s.fget F.HEARTH_PTP_CFG_ROLE
  role != 0 && bit (s.fget F.HEARTH_PTP_CFG_PORTEN) p && (role != 3 || s.fget F.HEARTH_PTP_CFG_TCPORT == p.val)

/-- SERVO_MEASUREMENT (R155, R157, R163 to R166): a Sync of domain `dom` at a port; none where the step would make LCLK
negative (R151). In MODE 0 no step and no law runs (R167). -/
def State.servoMeasure (s : State) (p : Fin 4) (dom : Nat) (x : Measurement) : Option State :=
  if !s.ptpOn p || dom != s.fget F.HEARTH_PTP_CFG_DOMAIN then some s else
  let theta := x.theta
  let ts := x.ts
  let s1 := ((s.servoReport p x).servoPort p x).servoLock theta
  if !s1.ptpMode then some s1 else
  let s2 := (s1.servoParent x.parent).modServo (fun v => { v with measured := true })
  let far := decide (thetaUnit * s2.fget F.HEARTH_STEPTHR < absI theta)
  let noStep := s2.flag F.HEARTH_CTRL_NOSTEP
  let s3 := s2.setFlag F.HEARTH_STATUS_BIGOFS (far && noStep)
  if far && !noStep then
    let big := s3.servo.big + 1
    if !s3.servo.started || decide (s3.fget F.HEARTH_LOCK_STEPCONF ≤ big) then
      (s3.modServo (fun v => { v with started := true, big := 0 })).lclkBy (nearest ((-theta : Int) / (thetaUnit : Int)))
    else some ((s3.modServo (fun v => { v with big := big })).servoSlew theta ts)
  else some ((s3.modServo (fun v => { v with big := 0 })).servoSlew theta ts)

/-- The Announce interval 2^LOGANN s, in ns (R155 has it from 1/8 s to 16 s). -/
def State.annIvl (s : State) : Nat :=
  let e := toS 8 (s.fget F.HEARTH_PTP_INTV_LOGANN)
  if e < 0 then 10 ^ 9 / 2 ^ (-e).toNat else 10 ^ 9 * 2 ^ e.toNat

/-- The parent of the SLAVE port is lost: no Sync within SYNCTMO intervals, or no Announce within ANNTMO (R165). -/
def State.parentLost (s : State) : Bool :=
  s.servo.slave.isSome &&
    (decide (s.servo.syncAt + s.fget F.HEARTH_PTP_TMO_SYNCTMO * s.servo.syncIvl ≤ s.phys) ||
      decide (s.servo.annAt + s.fget F.HEARTH_PTP_TMO_ANNTMO * s.annIvl ≤ s.phys))

/-- PARENT_LOSS (R165). -/
def State.parentLoss (s : State) : State :=
  if !s.parentLost then s else
  let s1 := (s.raise F.HEARTH_STATUS_MLOSS).modServo (fun v => { v with slave := none })
  let s2 := if s.ptpMode then ((s1.modServo (fun v => { v with p := 0 })).servoAdj).holdStart else s1
  s2.raiseFault 0 0x0D 0 0 []

/-- The device may become grandmaster: an ordinary clock that is not slave-only, or a boundary clock (R155, R157). -/
def State.mayMaster (s : State) : Bool :=
  let role := s.fget F.HEARTH_PTP_CFG_ROLE
  role == 2 || (role == 1 && !s.flag F.HEARTH_PTP_CFG_SLAVEONLY)

/-- BMCA_GRANDMASTER (R167). -/
def State.grandmaster (s : State) : State :=
  if !s.mayMaster then s else
  let s1 := (s.setFlag F.HEARTH_STATUS_GM true).modServo (fun v => { v with slave := none })
  if !s.ptpMode then s1 else
  let s2 := (s1.modServo (fun v => { v with p := 0 })).servoAdj
  if s.servo.measured then s2.holdStart
  else s2.holdEnd

/-! ### RAFCLK (R179, R180) -/

/-- Loss of RAFCLK: for a unit strapped to it, a loss of REFCLK. -/
def State.rafclkLoss (s : State) : State := if s.boot.refsel then s.clockLost 0 else s

end Sys2Proof.Machine
end

