-- ==== Sys2Proof/Machine/Skew.lean ====
section
/-! DEFINITION. The Skew engine (R324 to R349): bars, line prediction, stave delays, marks and the registration
estimator. -/
namespace Sys2Proof.Machine

/-- The spindle of a bar. -/
def State.barSpin (s : State) (b : Fin 16) : Fin 16 := Fin.ofNat 16 (s.fget F.BAR_CFG_SPIN b)

/-- The modules of a bar that take its lines: EN = 1 and NCOL not 0 (R326, R361). -/
def State.barModules (s : State) (b : Fin 16) : List Nat :=
  if !s.geomOpen then [] else (List.range 128).filter (fun m => s.modEn m && s.modBarNo m == b.val && s.modNcol m != 0)

/-- JLAT_b in ps (R332, R370). -/
def State.barJlat (s : State) (b : Fin 16) : Nat :=
  (s.barModules b).foldl (fun j m => max j (s.fgetS F.JL_D (m / 16) (m % 16)).toNat) 0

/-- ORIGIN + OFFS, the fixed part of a line's position (R328). -/
def State.barFix (s : State) (b : Fin 16) : Int := s.wgetS F.BAR_ORIGIN b + s.wgetS F.BAR_OFFS b

/-- The last line of the job, exclusive; none when ENDLESS. -/
def State.barEnd (s : State) (b : Fin 16) : Option Nat :=
  if s.flag F.BAR_CFG_ENDLESS b then none else some (s.fget F.BAR_START b + s.fget F.BAR_COUNT b)

def State.barDone (s : State) (b : Fin 16) : Bool :=
  match s.barEnd b with
  | some e => decide (e ≤ s.bar[b].next)
  | none => false

/-! ### Stave delays (R327, R336) -/

/-- x̃_s of a module's stave in units of 2⁻¹⁴ (R327). -/
def State.staveX (s : State) (b : Fin 16) (m j : Nat) : Int :=
  let xh := s.fget F.BAR_XHALF b
  if xh = 0 then 0 else
  let pitch : Rat := ((s.mem32 (geomAddr m 2) : Nat) : Int) / (65536 : Int)
  let off := pitch * ((32 * j + 15 : Nat) : Int) / 2
  let x := ((toS 32 (s.mem32 (geomAddr m 1)) : Int) : Rat) + (if bit (s.mem32 (geomAddr m 0)) 1 then -off else off)
  satS 16 (nearest ((x - ((1000 * s.fgetS F.BAR_XC b : Int) : Rat)) / ((1000 * xh : Nat) : Int) * 16384))

/-- Compute and store x̃ of every stave of a bar (R327). -/
def State.barCross (s : State) (b : Fin 16) : State :=
  forList (s.barModules b) (fun m t => t.writeAs .skew (0x0500_4000 + 256 * m) (fun u =>
    forList (List.range (s.modStaves m)) (fun j t => t.writeN (0x0500_4000 + 2 * (128 * m + j)) 2 (ofS 16 (s.staveX b m j))) u))
    (forList (s.barModules b) (fun m t => t.parityFind .loft (geomAddr m 0) 32) (s.lodge .skew false (geomAddr 0 0)).2)

/-- D_s before saturation (R336), from the x̃ and S of the stave as read. -/
def State.staveD (s : State) (b : Fin 16) (m xr sr : Nat) : Int :=
  let x : Rat := ((toS 16 xr : Int) : Rat) / 16384
  let c := (s.wgetS F.BAR_C1 b : Rat) * x + (s.wgetS F.BAR_C2 b : Rat) * x * x
  toS 16 sr + rndAway (divR (4096 * c) (s.wget F.BAR_LPITCH b : Int)) + s.therm m

/-- The staves of a module in one region of Loft, as the engine reads them: one access. -/
def State.staveRow (s : State) (base m : Nat) : List Nat × State :=
  let l := s.lodge .skew false (base + 256 * m)
  ((List.range (s.modStaves m)).map (fun j => if l.1 then s.readN (base + 2 * (128 * m + j)) 2 else 0),
    l.2.parityFind .loft (base + 256 * m) (2 * s.modStaves m))

/-- The stave update of one module: live region and STAVE frame (R336, R362, R380). -/
def State.staveModule (s0 : State) (b : Fin 16) (ng : Nat) (first : Bool) (m : Nat) : State :=
  let xs := s0.staveRow 0x0500_4000 m
  let ss := xs.2.staveRow 0x0500_C000 m
  let s := ss.2
  let ds := (xs.1.zip ss.1).map (fun x => s.staveD b m x.1 x.2)
  let vs := ds.map (satS 16)
  let n := ((ds.zip vs).filter (fun x => x.1 != x.2)).length
  let s1 := s.writeAs .skew (0x0501_4000 + 256 * m) (fun u =>
    forList vs.zipIdx (fun x t => t.writeN (0x0501_4000 + 2 * (128 * m + x.2)) 2 (ofS 16 x.1)) u)
  let s2 := if n = 0 then s1 else (s1.raise F.BAR_STATUS_SAT b).finc F.BAR_SATCNT b 0 n
  let l : Fin 8 := Fin.ofNat 8 (m / 16)
  let now := bit s.jet[l].nowDue (m % 16)
  let s3 := s2.jlQueue l ⟨m % 16, .stave ng vs (first || now) now⟩
  if s.jlState l = 4 then s3.modJet l (fun j => { j with nowDue := putBits j.nowDue (m % 16) (m % 16) 0 }) else s3

/-- Of updates with falling first lines, those that govern some line from `n` on (R374). -/
def governing (n : Nat) : List (Nat × Int × Int) → List (Nat × Int × Int)
  | [] => []
  | u :: r => if u.1 ≤ n then [u] else u :: governing n r

/-- The stave update of a bar that governs from line `ng`. -/
def State.staves (s : State) (b : Fin 16) (ng : Nat) (first : Bool) : State :=
  let s1 := forList (s.barModules b) (fun m t => t.staveModule b ng first m) (s.lodge .skew false (geomAddr 0 0)).2
  s1.modBar b (fun x => { x with
    updates := governing x.next ((ng, s.wgetS F.BAR_C1 b, s.wgetS F.BAR_C2 b) :: x.updates.filter (fun u => decide (u.1 < ng))) })

/-! ### Marks (R341 to R345) -/

/-- Line `n` with offset `ope` is a mark line (R341). -/
def State.markLine (s : State) (b : Fin 16) (n : Nat) : Bool :=
  let np := s.fget F.BAR_MARKNP b
  let n0 := s.fget F.BAR_MARKN0 b
  np != 0 && decide (n0 ≤ n) && (n - n0) % np == 0

/-- The group of a mark line that is sent (R341). -/
def State.markGroup (s : State) (b : Fin 16) (n : Nat) (ope : Int) : State :=
  let sens := setBits 16 (s.fget F.BAR_CFG_SMASK b)
  if !s.markLine b n then s
  else if 64 ≤ s.skew.groups.length then s.finc F.SKEW_GRPDROP
  else
    let base := s.barFix b + ope + (n : Int) * s.wget F.BAR_LPITCH b - s.wgetS F.BAR_DOWN b
    let up := s.bar[b].updates.find? (fun u => decide (u.1 ≤ n))
    let c := [s.wgetS F.BAR_C0 b, (up.map (·.2.1)).getD 0, (up.map (·.2.2)).getD 0]
    let g : MarkGroup := { bar := b, line := n, c := c
                           exps := sens.map (fun k => ⟨k, wrap64 (base + s.wgetS F.SENS_DOWN k), none, false⟩) }
    { s with skew := { s.skew with groups := s.skew.groups ++ [g] } }

def MarkGroup.complete (g : MarkGroup) : Bool := g.exps.all (fun e => e.got.isSome || e.missed)

/-- x̃_k of a sensor for a bar (R344). -/
def State.sensX (s : State) (b k : Nat) : Rat :=
  let xh := s.fget F.BAR_XHALF b
  if xh = 0 then 0 else ((s.fgetS F.SENS_X k - s.fgetS F.BAR_XC b : Int) : Rat) / ((xh : Nat) : Int)

/-- ê_k in units of 2⁻³² su (R344). -/
def State.eHat (s : State) (g : MarkGroup) (k : Nat) (m : Int) : Rat :=
  let x := s.sensX g.bar k
  let c := fun (i : Nat) => (((g.c[i]?).getD 0 : Int) : Rat)
  (m : Rat) - (c 0 + c 1 * x + c 2 * x * x)

/-- The 32 words of a group record (R345). -/
def State.groupWords (s : State) (g : MarkGroup) (ms : List (Nat × Int)) (reject : Bool) : List Nat :=
  let mask := maskOf (ms.map (·.1))
  let ehat := fun (k : Nat) => match ms.find? (fun x => x.1 == k) with
    | some x => ofS 32 (satS 32 (let e := s.eHat g k x.2; quo e.num (e.den * 65536)))
    | none => 0
  [mask * 65536 + b2n reject * 16 + g.bar, g.line % 2 ^ 32, s.stamp32, s.skew.seq % 2 ^ 32] ++
    (List.range 16).map ehat ++ List.replicate 12 0

/-- A complete group: its record to the ring, and to the estimator (R344, R346). -/
def State.groupRecord (s : State) (g : MarkGroup) : State :=
  let ms := g.exps.filterMap (fun e => e.got.map (fun p => (e.sensor, posDiff p e.e)))
  let lim : Int := (s.fget F.BAR_OUTLIM g.bar : Int) * 65536
  let reject := decide (lim ≠ 0) && ms.any (fun x => decide (lim < absI x.2))
  let s1 := if reject then s.raise F.BAR_STATUS_OUTLIER g.bar else s
  let a := s.fget F.SKEW_RINGBASE + 128 * s.fget F.SKEW_WRIDX
  let inside := decide (pantryBase ≤ a) && decide (a < pantryBase + 0x20_0000)
  let go := s1.lodge .skew true a
  let s2 := if inside then
      if go.1 then forList (s.groupWords g ms reject).zipIdx (fun x t => t.panWrite (a + 4 * x.2) x.1) (go.2.marchTouch a)
      else go.2
    else s1
  let r : GroupRec := ⟨g.bar, reject, ms.map (fun x => (s.sensX g.bar x.1, s.eHat g x.1 x.2))⟩
  { (s2.fincWrap F.SKEW_WRIDX) with skew := { s2.skew with seq := s2.skew.seq + 1, recs := s2.skew.recs ++ [r] } }

/-- Write the records of the groups that are complete and forget them. -/
def State.groupsDone (s : State) : State :=
  let done := s.skew.groups.filter MarkGroup.complete
  if done.isEmpty then s else
  forList done (fun g t => t.groupRecord g)
    { s with skew := { s.skew with groups := s.skew.groups.filter (fun g => !g.complete) } }

/-- How far a capture lies from an expectation of its sensor that it may match (R342). -/
def State.markDistance (s : State) (pos : List Int) (g : MarkGroup) (k : Nat) (e : Expect) : Option Nat :=
  let p := (pos[s.fget F.BAR_CFG_SPIN g.bar]?).getD 0
  let d := (posDiff p e.e).natAbs
  if e.sensor = k ∧ e.got.isNone ∧ !e.missed ∧ d ≤ s.fget F.BAR_GATE g.bar * 65536 then some d else none

/-- A capture on sensor `k`, with every spindle's position (R342). -/
def State.skewCapture (s : State) (k : Nat) (pos : List Int) : State :=
  let dist (g : MarkGroup) : Option Nat := g.exps.findSome? (fun e => s.markDistance pos g k e)
  let best := s.skew.groups.zipIdx.foldl (fun (b : Option (Nat × Nat × Nat)) x =>
    match dist x.1 with
    | none => b
    | some d => match b with
      | none => some (d, x.1.bar, x.2)
      | some y => if d < y.1 ∨ (d = y.1 ∧ x.1.bar < y.2.1) then some (d, x.1.bar, x.2) else b) none
  match best with
  | none => s.finc F.SKEW_UNMATCHED
  | some (_, b, i) =>
    let p := (pos[s.fget F.BAR_CFG_SPIN b]?).getD 0
    let hit (g : MarkGroup) : MarkGroup := { g with exps := g.exps.map (fun e =>
      if e.sensor = k ∧ e.got.isNone ∧ !e.missed then { e with got := some p } else e) }
    ({ s with skew := { s.skew with groups := s.skew.groups.modify i hit } }).groupsDone

/-- Expectations the spindle has passed are missed (R343). -/
def State.marksMissed (s : State) : State :=
  let gone (g : MarkGroup) (e : Expect) : Bool :=
    let p := s.snap.spin[Fin.ofNat 16 (s.fget F.BAR_CFG_SPIN g.bar)].pos
    e.got.isNone && !e.missed && decide ((s.fget F.BAR_GATE g.bar * 65536 : Nat) < posDiff p e.e)
  let s1 := forList s.skew.groups (fun g t =>
    let n := (g.exps.filter (gone g)).length
    if n = 0 then t else t.finc F.BAR_MISSED g.bar 0 n) s
  let upd (g : MarkGroup) : MarkGroup := { g with exps := g.exps.map (fun e => if gone g e then { e with missed := true } else e) }
  ({ s1 with skew := { s1.skew with groups := s.skew.groups.map upd } }).groupsDone

/-! ### The estimator (R346) -/

/-- Σ xⁱ·y over the points. -/
def moment (pts : List (Rat × Rat)) (i : Nat) (withY : Bool) : Rat :=
  pts.foldl (fun a p => a + (if i = 0 then 1 else if i = 1 then p.1 else if i = 2 then p.1 * p.1
    else if i = 3 then p.1 * p.1 * p.1 else p.1 * p.1 * p.1 * p.1) * (if withY then p.2 else 1)) 0

/-- The least-squares polynomial of order at most 2 through points with more distinct x than the order. -/
def leastSquares (pts : List (Rat × Rat)) (ord : Nat) : List Rat :=
  let m := fun i => moment pts i false
  let y := fun i => moment pts i true
  if ord = 0 then [y 0 / m 0, 0, 0]
  else if ord = 1 then
    let d := m 0 * m 2 - m 1 * m 1
    [(y 0 * m 2 - m 1 * y 1) / d, (m 0 * y 1 - m 1 * y 0) / d, 0]
  else
    let det3 (a b c d e f g h i : Rat) : Rat := a * (e * i - f * h) - b * (d * i - f * g) + c * (d * h - e * g)
    let d := det3 (m 0) (m 1) (m 2) (m 1) (m 2) (m 3) (m 2) (m 3) (m 4)
    [det3 (y 0) (m 1) (m 2) (y 1) (m 2) (m 3) (y 2) (m 3) (m 4) / d,
     det3 (m 0) (y 0) (m 2) (m 1) (y 1) (m 3) (m 2) (y 2) (m 4) / d,
     det3 (m 0) (m 1) (y 0) (m 1) (m 2) (y 1) (m 2) (m 3) (y 2) / d]

/-- The fields of term `i`: gain, step limit, limit, and the term. -/
def termFields (i : Nat) : Fld × Fld × Fld × Wide :=
  if i = 0 then (F.BAR_GAIN01_G0, F.BAR_RL0, F.BAR_LIM0, F.BAR_C0)
  else if i = 1 then (F.BAR_GAIN01_G1, F.BAR_RL1, F.BAR_LIM1, F.BAR_C1)
  else (F.BAR_GAIN2_G2, F.BAR_RL2, F.BAR_LIM2, F.BAR_C2)

/-- One term takes its step. -/
def State.termStep (s : State) (b i : Nat) (e : Rat) : State :=
  let fs := termFields i
  let c : Rat := s.wgetS fs.2.2.2 b
  let rl : Rat := ((s.fget fs.2.1 b * 65536 : Nat) : Int)
  let lim : Rat := ((s.fget fs.2.2.1 b * 65536 : Nat) : Int)
  let d := ((s.fget fs.1 b : Nat) : Int) / (65536 : Int) * (-e - c)
  let d1 := if rl < absR d then signR d * rl else d
  let cn := c + d1
  let cn1 := if lim < absR cn then signR cn * lim else cn
  let s1 := if rl < absR d then s.raise F.BAR_STATUS_RLIM b else s
  let s2 := if lim < absR cn then s1.raise F.BAR_STATUS_LIMHIT b else s1
  s2.wsetS fs.2.2.2 (quo cn1.num cn1.den) b

def State.onGroup (s : State) (r : GroupRec) : State :=
  if r.reject ∨ !s.flag F.BAR_CFG_EST r.bar then s else
  let nd := (r.pts.map (·.1)).eraseDups.length
  if nd = 0 then s else
  let ord := min (s.fget F.BAR_CFG_FITORD r.bar) (nd - 1)
  let e := leastSquares r.pts ord
  forList (List.range (ord + 1)) (fun i t => t.termStep r.bar i ((e[i]?).getD 0)) s

def State.estimator (s : State) : State :=
  forList s.skew.recs (fun r t => t.onGroup r) { s with skew := { s.skew with recs := [] } }

/-! ### Line prediction (R328 to R335) -/

/-- A bar at a tick, before prediction: DONE, HALT or PRINT (R330, R331, R333). -/
def State.barState (s : State) (b : Fin 16) : State :=
  if s.barDone b then s.fset F.BAR_STATUS_STATE 3 b else
  let n := s.barSpin b
  let v := s.snap.spin[n].vel
  if s.masterBad n then (s.raise F.BAR_STATUS_SRCLOST b).fset F.BAR_STATUS_STATE 1 b
  else if v < (s.fget F.BAR_VPRINT b : Int) * 2 ^ 32 ∨ v < (s.fget F.SP_VMIN n : Int) * 2 ^ 16 then
    s.fset F.BAR_STATUS_STATE 1 b
  else s.fset F.BAR_STATUS_STATE 2 b

/-- What the prediction of one bar at one tick works with: the snapshot, the tick's instant, the pitch, the fixed
part of X_b(n), OPOFS and OPSLEW, the end of the job, the instants that bound late and predicted lines. -/
structure LineCtx where
  snap : SpinSnap
  at' : Nat
  pitch : Int
  fix : Int
  opofs : Int
  slew : Int
  last : Option Nat
  lateBefore : Int
  limit : Int
  lateSend : Bool

/-- What it gathers: the next line, OPE, words (newest first, with their OPE), lines skipped and late. -/
structure LineAcc where
  n : Nat
  ope : Int
  words : List (Nat × Nat × Int)
  skipped : Nat
  late : Nat

/-- The crossing instant of a position `d` ahead, in the step-free timescale (R92). -/
def LineCtx.cross (c : LineCtx) (d : Int) : Option Int :=
  let sg := if c.snap.vel ≠ 0 then signI c.snap.vel else signI c.snap.acc
  (rootAfter d c.snap.vel c.snap.acc sg).map (fun t => t + c.at')

/-- Lines in ascending order until one has to wait (R331, R332). -/
def LineCtx.run (c : LineCtx) : Nat → LineAcc → LineAcc
  | 0, x => x
  | k + 1, x =>
    if c.last.any (fun e => decide (e ≤ x.n)) then x else
    let ope := if c.slew = 0 then c.opofs else x.ope + clampI (-c.slew) c.slew (c.opofs - x.ope)
    let d := posDiff (c.fix + ope + x.n * c.pitch) c.snap.pos
    if d ≤ 0 then c.run k { x with n := x.n + 1, skipped := x.skipped + 1 } else
    match c.cross d with
    | none => x
    | some t =>
      if c.limit ≤ t ∨ t < c.at' then x
      else if t < c.lateBefore ∧ !c.lateSend then
        c.run k { x with n := x.n + 1, ope := ope, skipped := x.skipped + 1, late := x.late + 1 }
      else c.run k { x with
        n := x.n + 1, ope := ope, words := (x.n, t.toNat, ope) :: x.words,
        late := x.late + b2n (decide (t < c.lateBefore)) }

/-- Frames of at most 32 words, each line less than 256 above the one before (R361); `f` is the frame being
filled, newest word first. -/
def lineFrames (f : List (Nat × Nat)) : List (Nat × Nat) → List (List (Nat × Nat))
  | [] => if f.isEmpty then [] else [f.reverse]
  | w :: ws =>
    match f with
    | [] => lineFrames [w] ws
    | v :: _ => if f.length < 32 ∧ w.1 < v.1 + 256 then lineFrames (w :: f) ws else f.reverse :: lineFrames [w] ws

/-- Run one bar at a tick (R331, R332). -/
def State.barRun (s : State) (b : Fin 16) (nextAt : Nat) : State :=
  if s.fget F.BAR_STATUS_STATE b = 3 then s else
  let s0 := s.barState b
  if s0.fget F.BAR_STATUS_STATE b ≠ 2 then s0 else
  let pitch : Int := s.wget F.BAR_LPITCH b
  if pitch = 0 then s0 else
  let snap := s.snap.spin[s.barSpin b]
  let slew : Int := (s.fget F.BAR_OPSLEW b : Int) * 65536
  let opofs := s.wgetS F.BAR_OPOFS b
  let ope := if slew = 0 then opofs else s.wgetS F.BAR_OPE b
  let fix := s.barFix b + s.wgetS F.BAR_C0 b
  let n0 := s.bar[b].next
  let d := posDiff snap.pos (fix + ope + n0 * pitch)
  let want := if d < 0 then 0 else (d / pitch).toNat + 1
  let pass := match s.barEnd b with
    | some e => min want (e - n0)
    | none => want
  let perLine : Int := if snap.vel ≤ 0 then 0 else pitch * (10 ^ 9 * unitNs : Nat) / snap.vel
  let limit : Int := (nextAt + s.fget F.SKEW_CTRL_HORIZON * unitNs : Nat) + perLine
  let c : LineCtx := {
    snap := snap, at' := s.run, pitch := pitch, fix := fix, opofs := opofs, slew := slew, last := s.barEnd b
    lateBefore := s.run + 1000 * unitNs + s.barJlat b * unitNs / 1000
    limit := limit, lateSend := s.flag F.BAR_CFG_LATEACT b }
  let tau := (limit - s.run) / (unitNs : Nat) + 1
  let reach := absI snap.vel * tau / 10 ^ 9 + absI snap.acc * tau * tau / 10 ^ 18 + absI (opofs - ope)
  let x := c.run ((reach / pitch).toNat + 3) ⟨n0 + pass, ope, [], pass, 0⟩
  let words := x.words.reverse
  let s1 := (s0.fset F.BAR_NEXTLINE x.n b).fset F.BAR_PRINTED (s.fget F.BAR_PRINTED b + words.length) b
  let s2 := ((s1.wsetS F.BAR_OPE x.ope b).finc F.BAR_SKIPPED b 0 x.skipped).finc F.BAR_LATE b 0 x.late
  let s3 := s2.modBar b (fun y => { y with next := x.n })
  let s4 := if s3.barDone b then s3.fset F.BAR_STATUS_STATE 3 b else s3
  let frames := lineFrames [] (words.map (fun w => (w.1, w.2.1)))
  let s5 := forList (s.barModules b) (fun m t =>
    forList frames (fun f t => t.jlQueue (Fin.ofNat 8 (m / 16)) ⟨m % 16, .line f⟩) t) s4
  (forList words (fun w t => t.markGroup b w.1 w.2.2) s5).groupsDone

/-- The first F_P tick of an enabled bar (R330). -/
def State.barEnable (s : State) (b : Fin 16) : State :=
  let st := s.fget F.BAR_START b
  let s1 := (s.fset F.BAR_NEXTLINE st b).fset F.BAR_PRINTED 0 b
  let s2 := s1.modBar b (fun x => { x with fresh := false, next := st, updates := [] })
  let s3 := ((s2.fset F.BAR_STATUS_STATE 1 b).barCross b).staves b st true
  if s3.barDone b then s3.fset F.BAR_STATUS_STATE 3 b else s3

/-- A write of 1 to CRESET (R347). -/
def State.barCreset (s : State) (b : Fin 16) : State := s.modBar b (fun x => { x with creset := true })

/-- The Skew engine at an F_P tick (`fp`) or a prediction tick; `nextAt` is the next F_P tick, `every` N·M·2^SDIV. -/
def State.skewTick (s : State) (fp : Bool) (nextAt k every : Nat) : State :=
  let s1 := forFin 16 (fun b t => if fp && t.bar[b].creset then
      (((t.wset F.BAR_C0 0 b).wset F.BAR_C1 0 b).wset F.BAR_C2 0 b).modBar b (fun x => { x with creset := false })
    else t) s
  let s2 := forFin 16 (fun b t =>
    if !t.bar[b].on then t
    else if t.bar[b].fresh then if fp then (t.barEnable b).barRun b nextAt else t
    else t.barRun b nextAt) s1
  if !fp then s2 else
  let s3 := s2.estimator.marksMissed
  if k % every ≠ 0 then s3 else
  forFin 16 (fun b t =>
    if t.bar[b].on && !s1.bar[b].fresh then t.staves b (t.governFrom b) false else t) s3

end Sys2Proof.Machine
end

