-- ==== Sys2Proof/Machine/CoreFault.lean ====
section
/-! DEFINITION. Core states, core faults and takeover by the spare (R426 to R434, R512). -/
namespace Sys2Proof.Machine

def State.coreState (s : State) (n : Fin 10) : Nat := s.fget F.GOUGE_STATUS_STATE n

/-- The core whose memories, slots and events this core's logic is connected to (R430). -/
def State.owner (s : State) (n : Fin 10) : Fin 10 :=
  if s.coreState n = 4 then Fin.ofNat 10 (s.fget F.GOUGE_STATUS_HOSTED n) else n

/-- A core that is FAULTED executes nothing (R430). -/
def State.coreDead (s : State) (n : Fin 10) : Bool := s.coreState n == 3

/-- STATE of a core that is neither FAULTED nor HOSTING (R429); `newSpare` at a cycle start, when a change of the
designation takes effect. -/
def State.coreRestate (s : State) (n : Fin 10) (newSpare : Bool) : State :=
  let st := s.coreState n
  if st = 3 ∨ st = 4 then s
  else
    let spare := if newSpare then s.fget F.GS_GOUGE_SPARE_CORE == n.val else st == 2
    s.fset F.GOUGE_STATUS_STATE (if spare then 2 else if s.flag F.GOUGE_CTRL_EN n then 1 else 0) n

/-- N and M of the cycle in progress: it is an F_V tick, an F_P tick (R21). -/
def State.isFv (s : State) : Bool := s.seq.k % s.seq.nDiv == 0
def State.isFp (s : State) : Bool := s.seq.k % (s.seq.nDiv * s.seq.mDiv) == 0

def State.running (s : State) : Bool := s.flag F.CYC_STATUS_RUNNING

/-- A slot's RATE selects the present cycle (R419). -/
def State.slotNow (s : State) (o : Fin 10) (i : Nat) : Bool :=
  s.flag F.GOUGE_SLOT_EN o i && (match s.fget F.GOUGE_SLOT_RATE o i with
    | 0 => true
    | 1 => s.isFv
    | 2 => s.isFp
    | _ => false)

/-- The duty deadline D = 0.6·T_I and the end of the replay window R = 0.9·T_I, in `run` (R30, R31). -/
def State.dutyD (s : State) : Nat := s.seq.start + s.tiNs * unitNs * 6 / 10
def State.replayR (s : State) : Nat := s.seq.start + s.tiNs * unitNs * 9 / 10

/-- The axes a core's slot served when it last started. -/
def GCore.servedBy (c : GCore) (slot : Nat) : List (Fin 64) :=
  match c.served.find? (fun x => x.1 == slot) with
  | some x => x.2
  | none => []

/-- DUTY has been given for an axis in this cycle (or it has no link). -/
def State.dutyGiven (s : State) (n : Fin 64) : Bool :=
  match s.axLink n with
  | none => true
  | some (l, h) => if h then s.bl[l].given.2 else s.bl[l].given.1

/-- The committed checkpoint record of a slot with tag `k`: its address (R425). The spare reads it as the faulted core (R430);
where the Lodge denies that, it finds none. -/
def State.checkpoint (s : State) (o : Fin 10) (slot k : Nat) : Option Nat :=
  let w := s.fget F.GOUGE_SLOTCK_CKWORDS o slot
  if w = 0 ∨ !(s.lodge (.gouge o) false (s.fget F.GOUGE_SLOTCK_CKBASE o slot * 256)).1 then none else
  let a := s.fget F.GOUGE_SLOTCK_CKBASE o slot * 256 + 4 * w * (k % 2)
  if s.mem32 a / 2 ^ 16 = k % 2 ^ 16 then some a else none

/-- The spare disposes of one current-loop slot of the faulted core (R431): its duty words stand last in the
record, three for each axis. -/
def State.disposeSlot (s : State) (o sp : Fin 10) (slot : Nat) (axes : List (Fin 64)) : State :=
  if !axes.isEmpty ∧ axes.all (fun n => s.dutyGiven n) then s
  else match s.checkpoint o slot s.seq.k with
    | some a =>
      let w := s.fget F.GOUGE_SLOTCK_CKWORDS o slot
      let first := a + 4 * (w - 3 * axes.length)
      forList axes.zipIdx (fun x t => match t.axLink x.1 with
        | some (l, h) =>
          (t.setDuty l h ((List.range 3).map (fun i => t.mem32 (first + 12 * x.2 + 4 * i) % 2 ^ 16))).giveDuty l h
        | none => t) s
    | none =>
      match s.checkpoint o slot (s.seq.k + 2 ^ 16 - 1) with
      | some _ => s.modCore sp (fun c => { c with todo := c.todo ++ [slot], replay := c.replay ++ [slot] })
      | none => s

/-- The current-loop slots of a core in the present cycle. -/
def State.clSlots (s : State) (o : Fin 10) : List Nat :=
  (List.range 32).filter (fun i => s.slotNow o i && s.flag F.GOUGE_SLOT_CL o i)

def causeNum : CoreCause → Nat
  | .regpar => 1
  | .plim => 2
  | .tfault => 3
  | .force => 4

/-- The registers that an axis's outer-loop tasks give: SP_POS to SP_ACC, REFF, the cam's, SHIFTREM, VCMD, ICMD and FE. -/
def outerWords : List Nat :=
  [0x40, 0x44, 0x48, 0x4C, 0x50, 0x54, F.AX_GEAR_REFF.base - 0x500000, F.AX_GEAR_REFF.base + 4 - 0x500000,
   F.AX_CAM_BASE.base - 0x500000, F.AX_CAM_NEXT.base - 0x500000, F.AX_CAM_CAMOFS.base - 0x500000,
   F.AX_CAM_CAMOFS.base + 4 - 0x500000, F.AX_CAM_X.base - 0x500000, F.AX_CAM_X.base + 4 - 0x500000,
   F.AX_CAM_CYCLES.base - 0x500000, F.AX_SHIFTREM.base - 0x500000, F.AX_SHIFTREM.base + 4 - 0x500000,
   F.AX_VCMD.base - 0x500000, F.AX_VCMD.base + 4 - 0x500000, F.AX_ICMD.base - 0x500000, F.AX_FE.base - 0x500000,
   F.AX_FE.base + 4 - 0x500000]

/-- The outer-loop tasks of an axis have not run in this cycle: their outputs keep the values of the previous one, and a command
that they took still waits (R31, R32). -/
def State.holdOuter (s : State) (n : Fin 64) : State :=
  let was := s.outer
  if !was.on || was.lp[n].enPending || !s.flag F.AX_LOOP_CTRL_EN n then s else
  let s1 := forList outerWords (fun o t => t.setReg (0x500000 + 0x1000 * n.val + o) (was.regs.get (0x500000 + 0x1000 * n.val + o))) s
  let st := F.AX_STATUS_STATE.addr n 0
  let now := (s1.reg st).toNat
  let old := (was.regs.get st).toNat
  let s2 := s1.setReg st (BitVec.ofNat 32 (old % 512 + (now &&& old) / 512 * 512))
  let a := was.ax[n]
  let l := was.lp[n]
  ((s2.modAx n (fun x => { x with
    t := a.t, hardBrake := a.hardBrake, joining := a.joining, gearWait := a.gearWait, ratio := a.ratio, ratio0 := a.ratio0
    newRamp := x.newRamp || a.newRamp, release := a.release, master := a.master, masterSpin := a.masterSpin
    masterJumps := a.masterJumps, shift := a.shift, cmd := x.cmd.or a.cmd })).modLp n (fun x => { x with
    xi := l.xi, vpl := l.vpl, tp := l.tp, filt := l.filt, resetI := x.resetI || l.resetI, feSince := l.feSince }))

/-- Where the image has a faulted core write the Joist records of the cycle, which is a free choice, they keep their values
(R31, R538). -/
def State.holdRecords (s : State) : State :=
  if !s.outer.on || s.jo.txNext.isEmpty then s else
  let r := s.takeFree
  if r.1.getLsbD 0 then { r.2 with jo := { r.2.jo with txNext := [], txHeld := true } } else r.2

/-- A bank whose contents are lost: free values from draw `c` on. -/
def freeBank (c : Nat) : GBank :=
  { d := Vector.ofFn (fun i => (Config.freeValue (c + i.val)).setWidth 24)
    a := Vector.ofFn (fun i => (Config.freeValue (c + 16 + i.val)).setWidth 56)
    p := Vector.ofFn (fun i => (Config.freeValue (c + 20 + i.val)).setWidth 18) }

/-- The contents of a core's shadow bank and of every main-bank register are lost (R430, R433). -/
def State.loseBanks (s : State) (n : Fin 10) : State :=
  let c := s.freeCtr
  { s.modCore n (fun x => { x with regs := { x.regs with
      main := freeBank c, shadow := freeBank (c + 28)
      win := Vector.ofFn (fun i => (Config.freeValue (c + 56 + i.val)).setWidth 24) } }) with freeCtr := c + 88 }

/-- The spare takes the faulted core over (R30 to R32, R430 to R434). Which outer-loop tasks a core runs is the image's: the model
takes those of the axes that its current-loop slots serve (DESIGN CHOICE). -/
def State.takeOver (s : State) (n sp : Fin 10) : State :=
  let s1 := ((s.fset F.GOUGE_STATUS_STATE 4 sp).fset F.GOUGE_STATUS_HOSTED n sp).fset F.GS_GOUGE_SPARE_CORE 0xF
  let late := decide (s.dutyD < s.run)
  let s2 := if s.flag F.GS_GOUGE_MIGR_VALID then s1 else
    ((((s1.setFlag F.GS_GOUGE_MIGR_VALID true).setFlag F.GS_GOUGE_MIGR_LATE late).fset F.GS_GOUGE_MIGR_FROM n).fset
      F.GS_GOUGE_MIGR_TO sp).fset F.GS_GOUGE_MIGR_K s.seq.k
  let served := s.core[n].served
  let ran := s.core[n].ran
  let s3 := s2.modCore sp (fun c => { c with
    base := none, wrote := [], own := 0, nextPc := none, stack := [], outst := [], arrivals := [], fence := false
    endTask := false, todo := [], running := none, event := none, served := served, ran := ran, tookOver := some s.seq.k
    regs := { c.regs with inEvt := false } }) |>.loseBanks sp
  let s4 := match s.core[n].event with
    | some e => s3.fset F.GOUGE_EVPEND (s3.fget F.GOUGE_EVPEND n (e / 32) ||| 2 ^ (e % 32)) n (e / 32)
    | none => s3
  let s5 := if s.running then (forList (s.core[n].served.flatMap (·.2)) (fun a t => t.holdOuter a) s4).holdRecords else s4
  if late ∨ !s.running then s5
  else forList (s.clSlots n) (fun i t => t.disposeSlot n sp i (s.core[n].servedBy i)) s5

/-- A core faults (R426, R430, R512). -/
def State.coreFault (s : State) (n : Fin 10) (cause : CoreCause) : State :=
  let st := s.coreState n
  if st = 3 then s else
  let s1 := ((s.fset F.GOUGE_STATUS_CAUSE (causeNum cause) n).fset F.GOUGE_STATUS_STATE 3 n).fset F.GOUGE_FPC
    s.core[n].pc.toNat n
  let s2 := s1.modCore n (fun c => { c with running := none, todo := [], event := none, outst := [], arrivals := [] })
  let spare := s.fget F.GS_GOUGE_SPARE_CORE
  let fpc := s.core[n].pc.toNat
  if spare = 0xF then s2.raiseF3 0x08 n (causeNum cause) [fpc]
  else
    let s3 := if st = 2 then s2.fset F.GS_GOUGE_SPARE_CORE 0xF
      else if 10 ≤ spare ∨ s.coreState (Fin.ofNat 10 spare) ≠ 2 then s2
      else
        let t := { s2 with core := s2.core.set n { s2.core[n] with event := s.core[n].event } }
        (t.takeOver n (Fin.ofNat 10 spare)).modCore n (fun c => { c with event := none })
    s3.raiseFault 2 0x07 n (causeNum cause) [fpc, (s3.reg (F.GS_GOUGE_MIGR_VALID.addr 0 0)).toNat]

/-- A bundle is replayed (R427), an F0 fault that is not recorded (R507); more than PLIM replays within 1 ms fault the core
(R426). -/
def State.coreReplay (s : State) (n : Fin 10) : State :=
  let s1 := ((s.countFault 0).finc F.GOUGE_REPLAYS n).modCore n (fun c => { c with
    replays := s.phys :: c.replays.filter (fun t => decide (s.phys < t + 1000000)) })
  if s1.fget F.GOUGE_CTRL_PLIM n < s1.core[n].replays.length then s1.coreFault n .plim else s1

end Sys2Proof.Machine
end

