-- ==== Sys2Proof/Machine/GougeRegs.lean ====
section
/-! DEFINITION. Gouge registers, name resolution, flags, conversion, address generation, Pantry accesses and the
end of a bundle (R383 to R397, R405 to R412). -/
namespace Sys2Proof.Machine

/-! ### Registers -/

/-- The bank in use (R390). -/
def GRegs.bank (r : GRegs) : GBank := if r.inEvt then r.shadow else r.main

def GRegs.setBank (r : GRegs) (b : GBank) : GRegs := if r.inEvt then { r with shadow := b } else { r with main := b }

/-- What a D register name denotes now (R386, R390). -/
def GRegs.loc (r : GRegs) (i : Fin 16) : DLoc :=
  if r.inEvt then .shadow i
  else if h : i.val < 8 then .main ⟨i.val, h⟩
  else .win (Fin.ofNat 32 (r.rb.toNat + 32 - (i.val - 8)))

def GRegs.at' (r : GRegs) : DLoc → BitVec 24
  | .main i => r.main.d[i.val]
  | .shadow i => r.shadow.d[i]
  | .win i => r.win[i]

def GRegs.put (r : GRegs) (l : DLoc) (v : BitVec 24) : GRegs :=
  match l with
  | .main i => { r with main := { r.main with d := r.main.d.set i.val v } }
  | .shadow i => { r with shadow := { r.shadow with d := r.shadow.d.set i v } }
  | .win i => { r with win := r.win.set i v }

def GRegs.d (r : GRegs) (i : Fin 16) : BitVec 24 := r.at' (r.loc i)
def GRegs.a (r : GRegs) (i : Fin 4) : BitVec 56 := r.bank.a[i]
def GRegs.setA (r : GRegs) (i : Fin 4) (v : BitVec 56) : GRegs :=
  r.setBank { r.bank with a := r.bank.a.set i v }
def GRegs.p (r : GRegs) (i : Fin 8) : BitVec 18 := r.bank.p[i]
def GRegs.setP (r : GRegs) (i : Fin 8) (v : BitVec 18) : GRegs :=
  r.setBank { r.bank with p := r.bank.p.set i v }

/-! ### Flags (R388, R389) -/

/-- The writable bits of SR and ESR. -/
def srMask : Nat := 0x377F

def GRegs.flag (r : GRegs) (i : Nat) : Bool := r.sr.getLsbD i
def GRegs.setF (r : GRegs) (i : Nat) (b : Bool) : GRegs :=
  { r with sr := BitVec.ofNat 32 (putBits r.sr.toNat i i (b2n b)) }

/-- Set a sticky flag. -/
def GRegs.stick (r : GRegs) (i : Nat) (b : Bool) : GRegs := if b then r.setF i true else r

/-- Z and N of a result of `w` bits. -/
def GRegs.zn (r : GRegs) {w : Nat} (v : BitVec w) : GRegs := (r.setF 0 (v == 0)).setF 1 v.msb

/-- V, and OVG with it for a saturating operation (R384). -/
def GRegs.ovf (r : GRegs) (v sat : Bool) : GRegs := (r.setF 3 v).stick 6 (v && sat)

/-! ### Arithmetic (R383 to R385) -/

/-- Saturation to 56 bits, and whether it acted (R384). -/
def sat56 (x : Int) : BitVec 56 × Bool :=
  let y := satS 56 x
  (BitVec.ofInt 56 y, decide (y ≠ x))

/-- The product of two D words (R383). -/
def gProduct (x y : BitVec 24) (int ux uy : Bool) : Int :=
  let a : Int := if ux then (x.toNat : Int) else x.toInt
  let b : Int := if uy then (y.toNat : Int) else y.toInt
  if int then a * b else 2 * (a * b)

/-- The scaled value of step 1 of R385, and whether the scaling lost bits. -/
def gScale (sm : Nat) (x : Int) : Int × Bool :=
  if sm = 0 then (x, false)
  else if sm = 1 then (x / 2, decide (x % 2 ≠ 0))
  else if sm = 2 then (x * 2, false)
  else (x / 4, decide (x % 4 ≠ 0))

/-- The conversion of an accumulator (R385): result, L and S. -/
def gConvert (sr : BitVec 32) (a : BitVec 56) : BitVec 24 × Bool × Bool :=
  let y := gScale (bitsOf sr.toNat 9 8) a.toInt
  let q := (y.1 + (if sr.getLsbD 10 then 0x80_0000 else 0)) / 0x100_0000
  let w := satS 24 q
  (BitVec.ofInt 24 w, decide (w ≠ q), decide (w = q) && (y.2 || decide (y.1 % 0x100_0000 ≠ 0)))

/-! ### Register numbers (MOVC, LDI, LDIH) -/

/-- Loop registers by number: LC0, LC1, LS0, LS1, LE0, LE1; a delayed write counts as made (R411). -/
def GCore.loopReg (c : GCore) (r : GRegs) (i : Nat) : Nat :=
  match c.loopWrites.find? (fun w => w.2.1 == i) with
  | some w => w.2.2
  | none =>
    match i with
    | 0 => r.lc[0].toNat
    | 1 => r.lc[1].toNat
    | 2 => r.ls[0].toNat
    | 3 => r.ls[1].toNat
    | 4 => r.le[0].toNat
    | _ => r.le[1].toNat

def GRegs.setLoop (r : GRegs) (i v : Nat) : GRegs :=
  match i with
  | 0 => { r with lc := r.lc.set 0 (BitVec.ofNat 16 v) }
  | 1 => { r with lc := r.lc.set 1 (BitVec.ofNat 16 v) }
  | 2 => { r with ls := r.ls.set 0 (BitVec.ofNat 14 v) }
  | 3 => { r with ls := r.ls.set 1 (BitVec.ofNat 14 v) }
  | 4 => { r with le := r.le.set 0 (BitVec.ofNat 14 v) }
  | _ => { r with le := r.le.set 1 (BitVec.ofNat 14 v) }

/-- The loop register of a name. -/
def gregLoop : GReg → Option Nat
  | .lc i => some i.val
  | .ls i => some (2 + i.val)
  | .le i => some (4 + i.val)
  | _ => none

/-- The width of a register. -/
def gregWidth : GReg → Nat
  | .d _ => 24
  | .p _ => 18
  | .m _ => 32
  | .lc _ => 16
  | .ls _ => 14
  | .le _ => 14
  | .sr => 32
  | .rb => 5
  | .esr => 32
  | .epc => 14
  | .core => 4
  | .ccnt => 32
  | .part _ .r => 23
  | .part _ .f => 24
  | .part _ .i => 9

/-- The bits of a register; `n` is the core and `cyc` its CCNT. -/
def GCore.bits (c : GCore) (r : GRegs) (n cyc : Nat) : GReg → Nat
  | .d i => (r.d i).toNat
  | .p i => (r.p i).toNat
  | .m i => r.m[i].toNat
  | .lc i => c.loopReg r i.val
  | .ls i => c.loopReg r (2 + i.val)
  | .le i => c.loopReg r (4 + i.val)
  | .sr => r.sr.toNat
  | .rb => r.rb.toNat
  | .esr => r.esr.toNat
  | .epc => r.epc.toNat
  | .core => n
  | .ccnt => cyc
  | .part a .r => bitsOf (r.a a).toNat 22 0
  | .part a .f => bitsOf (r.a a).toNat 46 23
  | .part a .i => bitsOf (r.a a).toNat 55 47

/-- What a read of a register gives a wider destination: sign-extended, but A.R zero-extended (R403). -/
def GCore.value (c : GCore) (r : GRegs) (n cyc : Nat) (g : GReg) : Int :=
  match g with
  | .part _ .r => (c.bits r n cyc g : Int)
  | _ => toS (gregWidth g) (c.bits r n cyc g)

/-- Write a register with the low bits of a value; CORE and CCNT ignore it, loop registers by R411. -/
def GRegs.write (r : GRegs) (g : GReg) (v : Int) : GRegs :=
  let x := ofS (gregWidth g) v
  match g with
  | .d i => r.put (r.loc i) (BitVec.ofNat 24 x)
  | .p i => r.setP i (BitVec.ofNat 18 x)
  | .m i => { r with m := r.m.set i (BitVec.ofNat 32 x) }
  | .sr => { r with sr := BitVec.ofNat 32 (x &&& srMask) }
  | .rb => { r with rb := BitVec.ofNat 5 x }
  | .esr => { r with esr := BitVec.ofNat 32 (x &&& srMask) }
  | .epc => { r with epc := BitVec.ofNat 14 x }
  | .part a .r => r.setA a (BitVec.ofNat 56 (putBits (r.a a).toNat 22 0 x))
  | .part a .f => r.setA a (BitVec.ofNat 56 (putBits (r.a a).toNat 46 23 x))
  | .part a .i => r.setA a (BitVec.ofNat 56 (putBits (r.a a).toNat 55 47 x))
  | _ => r

/-- The whole write, with the delay of the loop registers. -/
def GCore.write (c : GCore) (g : GReg) (v : Int) : GCore :=
  match gregLoop g with
  | some i => { c with loopWrites := (4, i, ofS (gregWidth g) v) :: c.loopWrites }
  | none => { c with regs := c.regs.write g v }

/-! ### Address generation (R395 to R397) -/

/-- The smallest m with K ≤ 2ᵐ. -/
def ceilLog (k : Nat) : Nat := if k ≤ 1 then 0 else (k - 1).log2 + 1

/-- next(P, d) of R397; none where the rule calls the result unpredictable. -/
def nextAddr (m : BitVec 32) (p : BitVec 18) (d : Int) (step : Bool) : Option (BitVec 18) :=
  let mode := bitsOf m.toNat 31 30
  let K := bitsOf m.toNat 29 16 + 1
  let linear := BitVec.ofInt 18 ((p.toNat : Int) + d)
  match mode with
  | 0 => some linear
  | 1 =>
    let B := p.toNat / 2 ^ ceilLog K * 2 ^ ceilLog K
    if K ≤ p.toNat - B ∨ (K : Int) < absI d then none
    else some (BitVec.ofNat 18 (B + (((p.toNat - B : Nat) : Int) + d) % K).toNat)
  | 2 =>
    if step then some linear
    else
      let n := ceilLog K
      if 2 ^ n ≠ K then none
      else
        let lo := reflect n ((reflect n (p.toNat % 2 ^ n) + reflect n (ofS n d)) % 2 ^ n)
        some (BitVec.ofNat 18 (p.toNat / 2 ^ n * 2 ^ n + lo))
  | _ => none

/-- The address of a single access and Pi afterwards (R395). -/
def GRegs.access (r : GRegs) (i : Fin 8) (k : PMod) (imm : BitVec 16) : Option (Nat × GRegs) :=
  let p := r.p i
  let m := r.m[i]
  let inc : Int := toS 16 (bitsOf m.toNat 15 0)
  let off := BitVec.ofInt 18 ((p.toNat : Int) + imm.toInt)
  match k with
  | .none => some (p.toNat, r)
  | .inc => (nextAddr m p 1 true).map (fun q => (p.toNat, r.setP i q))
  | .dec => (nextAddr m p (-1) true).map (fun q => (p.toNat, r.setP i q))
  | .addM => (nextAddr m p inc false).map (fun q => (p.toNat, r.setP i q))
  | .addImm => some (p.toNat, r.setP i off)
  | .index => some (off.toNat, r)

/-! ### The core's identity -/

/-- CCNT: GCLK cycles since the last reset of class P. -/
def State.ccnt (s : State) (n : Fin 10) : Nat := (s.phys - s.core[n].ccnt0) % 2 ^ 32

/-- FPC takes the address of the bundle. -/
def State.corePc (s : State) (n : Fin 10) : Nat := s.core[n].pc.toNat

/-! ### Pantry accesses (R394, R405, R407, R435) -/

/-- The fabric address of a Pantry word address (R393). -/
def panAddr (sr : BitVec 32) (a : Nat) : Nat := pantryBase + 0x8_0000 * bitsOf sr.toNat 13 12 + 4 * (a - 0x2_0000)

/-- Deliver a load's value: to the register named at issue, and to the state before the bundle in progress. -/
def GCore.deliver (c : GCore) (l : DLoc) (v : BitVec 24) : GCore :=
  { c with regs := c.regs.put l v, base := c.base.map (fun b => b.put l v) }

/-- A Pantry word as read at the bank by a core: what it reads, and the state with the error a bad word raises
(R428). A denied read gives zero (R393). -/
def State.panRead (s : State) (n : Fin 10) (a : Nat) : Nat × State :=
  let l := s.lodge (.gouge (s.owner n)) false a
  if l.1 then
    let s1 := l.2.marchTouch a
    (s1.mem32 a, if s1.parityBad a then (s1.coreReplay n).memFault .pantry a else s1)
  else (0, l.2)

def State.panStore (s : State) (n : Fin 10) (a v : Nat) : State :=
  let l := s.lodge (.gouge (s.owner n)) true a
  if l.1 then (l.2.marchTouch a).panWrite a v else l.2

/-- An atomic at the bank: one access that reads the word and writes `f` of it (R435). Where it is denied it counts as one
violation, of a write (R62); in a read-only region the word is read and the write ignored (R60). -/
def State.panAtomic (s : State) (n : Fin 10) (a : Nat) (f : Nat → Nat) : Nat × State :=
  let m : Master := .gouge (s.owner n)
  let w := s.lodge m true a
  if !w.1 && !(s.lodge m false a).1 then (0, w.2)
  else
    let s1 := w.2.marchTouch a
    let v := s1.mem32 a
    let s2 := if s1.parityBad a then (s1.coreReplay n).memFault .pantry a else s1
    (v, if w.1 then s2.panWrite a (f v) else s2)

/-- Complete the oldest outstanding access at the bank; results of atomics go on their way. -/
def State.panComplete (s : State) (n : Fin 10) : State :=
  match s.core[n].outst with
  | [] => s
  | x :: xs =>
    let s0 := s.modCore n (fun c => { c with outst := xs, fence := c.fence && !xs.isEmpty, own := min c.own xs.length })
    match x with
    | .load a high l _ =>
      let r := s0.panRead n a
      r.2.modCore n (fun c => c.deliver l (BitVec.ofNat 24 (if high then r.1 / 256 else r.1)))
    | .store a v => s0.panStore n a v.toNat
    | .xadd a v l =>
      let r := s0.panAtomic n a (fun w => ofS 32 ((w : Int) + v.toInt))
      r.2.modCore n (fun c => { c with
        arrivals := c.arrivals ++ [(l, BitVec.ofNat 24 r.1)] })
    | .xswp a v l =>
      let r := s0.panAtomic n a (fun _ => ofS 32 v.toInt)
      r.2.modCore n (fun c => { c with
        arrivals := c.arrivals ++ [(l, BitVec.ofNat 24 r.1)] })

/-- Deliver the oldest result on its way. -/
def State.panArrive (s : State) (n : Fin 10) : State :=
  s.modCore n (fun c => match c.arrivals with
    | [] => c
    | (l, v) :: xs => { (c.deliver l v) with arrivals := xs })

def PanAcc.dst : PanAcc → Option DLoc
  | .load _ _ l _ => some l
  | .store _ _ => none
  | .xadd _ _ l => some l
  | .xswp _ _ l => some l

/-- A register is awaited from a bundle before the one in progress. -/
def GCore.awaits (c : GCore) (ls : List DLoc) : Bool :=
  c.arrivals.any (fun x => ls.contains x.1) ||
  (c.outst.take (c.outst.length - c.own)).any (fun x => match x.dst with
    | some l => ls.contains l
    | none => false)

/-- The interlock (R405): wait until none of the registers is awaited, and no FENCE waits. The fuel is the number
of accesses in flight. -/
def State.panWait (s : State) (n : Fin 10) (ls : List DLoc) : Nat → State
  | 0 => s
  | k + 1 =>
    let c := s.core[n]
    if c.fence ∨ c.awaits ls then
      if c.arrivals.isEmpty then State.panWait (s.panComplete n) n ls k
      else State.panWait (s.panArrive n) n ls k
    else s

def State.interlock (s : State) (n : Fin 10) (ls : List DLoc) : State := s.panWait n ls 32

/-- Issue an access; a fifth waits until one completes (R407). -/
def State.panIssue (s : State) (n : Fin 10) (x : PanAcc) : State :=
  let s1 := if 4 ≤ s.core[n].outst.length then s.panComplete n else s
  s1.modCore n (fun c => { c with outst := c.outst ++ [x], own := 1 })

/-! ### The end of a bundle (R387, R408 to R411) -/

/-- Age the delayed loop-register writes by one bundle and make those that are due. -/
def GCore.ageLoops (c : GCore) : GCore :=
  let ws := c.loopWrites.map (fun w => (w.1 - 1, w.2))
  let due := ws.filter (fun w => w.1 == 0)
  { c with loopWrites := ws.filter (fun w => w.1 != 0)
           regs := due.foldl (fun r w => r.setLoop w.2.1 w.2.2) c.regs }

/-- A level's evaluation at the bundle's address: the registers after it, and the branch back if it is taken. -/
def GRegs.loopEnd (r : GRegs) (pc : BitVec 14) (i : Fin 2) : GRegs × Option (BitVec 14) :=
  if r.le[i] = pc ∧ r.lc[i] ≠ 0 then
    let r1 := { r with lc := r.lc.set i (r.lc[i] - 1) }
    if r.lc[i] - 1 = 0 then (r1, none) else (r1, some r.ls[i])
  else (r, none)

/-- The bundle's address ends an armed loop. -/
def GRegs.atEnd (r : GRegs) (pc : BitVec 14) : Bool :=
  (decide (r.le[0] = pc) && decide (r.lc[0] ≠ 0)) || (decide (r.le[1] = pc) && decide (r.lc[1] ≠ 0))

/-- The bundle stands at an armed loop end, where R410 allows no branch, LOOP or END. -/
def GCore.atLoopEnd (c : GCore) : Bool := c.ageLoops.regs.atEnd c.pc

/-- Where both levels are armed, level 1's body lies within level 0's (R410). -/
def GRegs.nested (r : GRegs) : Bool :=
  decide (r.lc[0] = 0) || decide (r.lc[1] = 0) || (decide (r.ls[0] ≤ r.ls[1]) && decide (r.le[1] ≤ r.le[0]))

/-- End the bundle in progress: loop ends, ROT, the next address; none at a loop end of bodies that R410 does not
allow. -/
def GCore.finish (c : GCore) (rot : Bool) : Option GCore :=
  let c1 := c.ageLoops
  if c1.regs.atEnd c.pc ∧ c1.regs.nested = false then none else
  let e1 := c1.regs.loopEnd c.pc 1
  let e0 := match e1.2 with
    | some t => (e1.1, some t)
    | none => e1.1.loopEnd c.pc 0
  let r := if rot ∧ !(c.base.getD c.regs).inEvt then { e0.1 with rb := e0.1.rb + 1 } else e0.1
  some { c1 with
    regs := r, base := none, wrote := [], own := 0, nextPc := none
    pc := (c.nextPc.orElse (fun _ => e0.2)).getD (c.pc + 1)
    running := if c.endTask then none else c.running
    endTask := false }

/-- Finish the bundle on a core. -/
def State.coreFinish (s : State) (n : Fin 10) (rot : Bool) : Option State :=
  (s.core[n].finish rot).map (fun c => { s with core := s.core.set n c })

end Sys2Proof.Machine
end

