-- ==== Sys2Proof/Machine/GougeM.lean ====
section
/-! DEFINITION. The M-slot operations of a Gouge core (R398 to R402). A command runs the M slot of one bundle;
where an L-slot command announced it, both slots read the registers as they stood before the bundle (R406). -/
namespace Sys2Proof.Machine

abbrev Out := Host.Outcome State Fault Refusal

/-- Run an M slot: `locs` the D registers it needs, `dsts` what it writes, `f` the registers before the bundle and
now to the registers after. -/
def State.mSlot (s : State) (n : Fin 10) (rot : Bool) (locs : GRegs → List DLoc) (dsts : GRegs → List GDst)
    (f : GRegs → GRegs → GRegs) : Out :=
  if s.coreDead n || s.off then .next s else
  let b0 := s.core[n].base.getD s.core[n].regs
  let s1 := s.interlock n (locs b0)
  if s1.coreDead n then .next s1 else
  let c := s1.core[n]
  let b := c.base.getD c.regs
  if (dsts b).any (fun d => c.wrote.contains d) then .refused .unpredictable else
  match { c with regs := f b c.regs }.finish rot with
  | some c1 => .next { s1 with core := s1.core.set n c1 }
  | none => .refused .unpredictable

/-- Write an accumulator of the bank in use before the bundle. -/
def GRegs.setAcc (r b : GRegs) (d : Fin 4) (v : BitVec 56) : GRegs :=
  if b.inEvt then { r with shadow := { r.shadow with a := r.shadow.a.set d v } }
  else { r with main := { r.main with a := r.main.a.set d v } }

/-- An operation that writes accumulator `d` and needs D registers. -/
def State.mAcc (s : State) (n : Fin 10) (rot : Bool) (ds : List (Fin 16)) (d : Fin 4)
    (v : GRegs → BitVec 56) (fl : GRegs → GRegs → GRegs) : Out :=
  s.mSlot n rot (fun b => ds.map b.loc) (fun b => [.a b.inEvt d])
    (fun b r => fl b ((r.setAcc b d (v b)).zn (v b)))

/-- An accumulator operation whose exact value saturates (R384). -/
def State.mSat (s : State) (n : Fin 10) (rot : Bool) (ds : List (Fin 16)) (d : Fin 4) (x : GRegs → Int)
    (fl : GRegs → GRegs → GRegs) : Out :=
  s.mAcc n rot ds d (fun b => (sat56 (x b)).1) (fun b r => fl b (r.ovf (sat56 (x b)).2 true))

/-- An operation that writes a D register of the name `d`. -/
def State.mD (s : State) (n : Fin 10) (rot : Bool) (ds : List (Fin 16)) (d : Fin 16) (v : GRegs → BitVec 24)
    (fl : GRegs → GRegs → GRegs) : Out :=
  s.mSlot n rot (fun b => (d :: ds).map b.loc) (fun b => [.d (b.loc d)])
    (fun b r => fl b (r.put (b.loc d) (v b)))

def keepFlags (_ r : GRegs) : GRegs := r

/-! ### Shared arithmetic -/

/-- Sum of two accumulators and a carry over 56 bits: exact value, carry out, wrapped value, overflow. -/
def sum56 (a b : BitVec 56) (c : Bool) : Int × Bool × BitVec 56 × Bool :=
  let x := a.toInt + b.toInt + b2n c
  let w := BitVec.ofInt 56 x
  (x, decide (2 ^ 56 ≤ a.toNat + b.toNat + b2n c), w, decide (w.toInt ≠ x))

/-- The same over 24 bits. -/
def sum24 (a b : BitVec 24) (c : Bool) : BitVec 24 × Bool × Bool :=
  let x := a.toInt + b.toInt + b2n c
  let w := BitVec.ofInt 24 x
  (w, decide (0x100_0000 ≤ a.toNat + b.toNat + b2n c), decide (w.toInt ≠ x))

/-- Z, N, C and V of a 24-bit sum. -/
def flags24 (r : GRegs) (x : BitVec 24 × Bool × Bool) : GRegs := ((r.zn x.1).setF 2 x.2.1).setF 3 x.2.2

/-- As shifted left by `k` (R401). -/
def aslR (x : Int) (k : Nat) : Int := x * 2 ^ k
def asrR (x : Int) (k : Nat) : Int := x / 2 ^ k

/-- The signed count of SHV, clamped to ±63. -/
def shvCount (y : BitVec 24) : Int := clampI (-63) 63 y.toInt

/-- Leading sign bits below bit 55, less 8 (CLS). -/
def clsCount (a : BitVec 56) : Int :=
  let same := ((List.range 55).reverse.takeWhile (fun i => a.getLsbD i == a.msb)).length
  (same : Int) - 8

/-- The dual operations: the even accumulator of a pair, and the product with Dx or D(x⊕1) (R401). -/
def pairAcc (d : Fin 2) (k : Nat) : Fin 4 := Fin.ofNat 4 (2 * d.val + k)

def dualX (x : Fin 16) : Fin 16 := Fin.ofNat 16 (x.val ^^^ 1)

def dualTerm (b : GRegs) (x y : Fin 16) (sub : Bool) : Int :=
  let p := gProduct (b.d x) (b.d y) false false false
  if sub then -p else p

/-- Write a pair, with Z and N of the first and V if either saturates. -/
def State.mPair (s : State) (n : Fin 10) (rot : Bool) (d : Fin 2) (x y : Fin 16) (lo hi : GRegs → Int) (sticky : Bool) :
    Out :=
  s.mSlot n rot (fun b => [b.loc x, b.loc (dualX x), b.loc y])
    (fun b => [.a b.inEvt (pairAcc d 0), .a b.inEvt (pairAcc d 1)])
    (fun b r =>
      let u := sat56 (lo b)
      let v := sat56 (hi b)
      (((r.setAcc b (pairAcc d 0) u.1).setAcc b (pairAcc d 1) v.1).zn u.1).ovf (u.2 || v.2) sticky)

/-! ### The operations (R401) -/

def execMnop (dt : Nat) (n : Fin 10) (rot : Bool) (s : State) : Out :=
  (s.wait dt).mSlot n rot (fun _ => []) (fun _ => []) keepFlags

def execMpy (dt : Nat) (n : Fin 10) (rot : Bool) (d : Fin 4) (x y : Fin 16) (int ux uy : Bool) (s : State) : Out :=
  (s.wait dt).mAcc n rot [x, y] d (fun b => BitVec.ofInt 56 (gProduct (b.d x) (b.d y) int ux uy)) keepFlags

def execMac (dt : Nat) (n : Fin 10) (rot : Bool) (d : Fin 4) (x y : Fin 16) (int ux uy : Bool) (s : State) : Out :=
  (s.wait dt).mSat n rot [x, y] d (fun b => (b.a d).toInt + gProduct (b.d x) (b.d y) int ux uy) keepFlags

def execMsu (dt : Nat) (n : Fin 10) (rot : Bool) (d : Fin 4) (x y : Fin 16) (int ux uy : Bool) (s : State) : Out :=
  (s.wait dt).mSat n rot [x, y] d (fun b => (b.a d).toInt - gProduct (b.d x) (b.d y) int ux uy) keepFlags

def execMpy2 (dt : Nat) (n : Fin 10) (rot : Bool) (d : Fin 2) (x y : Fin 16) (s0 s1 : Bool) (s : State) : Out :=
  (s.wait dt).mPair n rot d x y (fun b => dualTerm b x y s0) (fun b => dualTerm b (dualX x) y s1) false

def execMac2 (dt : Nat) (n : Fin 10) (rot : Bool) (d : Fin 2) (x y : Fin 16) (s0 s1 : Bool) (s : State) : Out :=
  (s.wait dt).mPair n rot d x y (fun b => (b.a (pairAcc d 0)).toInt + dualTerm b x y s0)
    (fun b => (b.a (pairAcc d 1)).toInt + dualTerm b (dualX x) y s1) true

def execAdd (dt : Nat) (n : Fin 10) (rot : Bool) (d a : Fin 4) (s : State) : Out :=
  (s.wait dt).mSat n rot [] d (fun b => (sum56 (b.a d) (b.a a) false).1)
    (fun b r => r.setF 2 (sum56 (b.a d) (b.a a) false).2.1)

def execSub (dt : Nat) (n : Fin 10) (rot : Bool) (d a : Fin 4) (s : State) : Out :=
  (s.wait dt).mSat n rot [] d (fun b => (sum56 (b.a d) (~~~ b.a a) true).1)
    (fun b r => r.setF 2 (sum56 (b.a d) (~~~ b.a a) true).2.1)

def execAdc (dt : Nat) (n : Fin 10) (rot : Bool) (d a : Fin 4) (s : State) : Out :=
  (s.wait dt).mAcc n rot [] d (fun b => (sum56 (b.a d) (b.a a) (b.flag 2)).2.2.1)
    (fun b r =>
      let x := sum56 (b.a d) (b.a a) (b.flag 2)
      (r.setF 2 x.2.1).ovf x.2.2.2 false)

def execSbc (dt : Nat) (n : Fin 10) (rot : Bool) (d a : Fin 4) (s : State) : Out :=
  (s.wait dt).mAcc n rot [] d (fun b => (sum56 (b.a d) (~~~ b.a a) (b.flag 2)).2.2.1)
    (fun b r =>
      let x := sum56 (b.a d) (~~~ b.a a) (b.flag 2)
      (r.setF 2 x.2.1).ovf x.2.2.2 false)

def execAddd (dt : Nat) (n : Fin 10) (rot : Bool) (d : Fin 4) (x : Fin 16) (s : State) : Out :=
  (s.wait dt).mSat n rot [x] d (fun b => (b.a d).toInt + (b.d x).toInt * 0x100_0000) keepFlags

def execSubd (dt : Nat) (n : Fin 10) (rot : Bool) (d : Fin 4) (x : Fin 16) (s : State) : Out :=
  (s.wait dt).mSat n rot [x] d (fun b => (b.a d).toInt - (b.d x).toInt * 0x100_0000) keepFlags

def execNeg (dt : Nat) (n : Fin 10) (rot : Bool) (d a : Fin 4) (s : State) : Out :=
  (s.wait dt).mSat n rot [] d (fun b => -(b.a a).toInt) keepFlags

def execAbs (dt : Nat) (n : Fin 10) (rot : Bool) (d a : Fin 4) (s : State) : Out :=
  (s.wait dt).mSat n rot [] d (fun b => absI (b.a a).toInt) keepFlags

def execMova (dt : Nat) (n : Fin 10) (rot : Bool) (d a : Fin 4) (s : State) : Out :=
  (s.wait dt).mAcc n rot [] d (fun b => b.a a) keepFlags

def execClr (dt : Nat) (n : Fin 10) (rot : Bool) (d : Fin 4) (s : State) : Out :=
  (s.wait dt).mAcc n rot [] d (fun _ => 0) keepFlags

def execAsl (dt : Nat) (n : Fin 10) (rot : Bool) (d a : Fin 4) (k : Fin 64) (s : State) : Out :=
  (s.wait dt).mSat n rot [] d (fun b => aslR (b.a a).toInt k.val) keepFlags

def execAsr (dt : Nat) (n : Fin 10) (rot : Bool) (d a : Fin 4) (k : Fin 64) (s : State) : Out :=
  (s.wait dt).mAcc n rot [] d (fun b => (b.a a).sshiftRight k.val) keepFlags

def execLsr (dt : Nat) (n : Fin 10) (rot : Bool) (d a : Fin 4) (k : Fin 64) (s : State) : Out :=
  (s.wait dt).mAcc n rot [] d (fun b => (b.a a) >>> k.val) keepFlags

def execShv (dt : Nat) (n : Fin 10) (rot : Bool) (d a : Fin 4) (y : Fin 16) (s : State) : Out :=
  (s.wait dt).mSat n rot [y] d (fun b =>
    let k := shvCount (b.d y)
    if 0 ≤ k then aslR (b.a a).toInt k.toNat else asrR (b.a a).toInt (-k).toNat) keepFlags

def execRnd (dt : Nat) (n : Fin 10) (rot : Bool) (d a : Fin 4) (s : State) : Out :=
  (s.wait dt).mSat n rot [] d (fun b => ((b.a a).toInt + 0x80_0000) / 0x100_0000 * 0x100_0000) keepFlags

def execMax (dt : Nat) (n : Fin 10) (rot : Bool) (d a : Fin 4) (s : State) : Out :=
  (s.wait dt).mAcc n rot [] d (fun b => if (b.a d).toInt < (b.a a).toInt then b.a a else b.a d) keepFlags

def execMin (dt : Nat) (n : Fin 10) (rot : Bool) (d a : Fin 4) (s : State) : Out :=
  (s.wait dt).mAcc n rot [] d (fun b => if (b.a a).toInt < (b.a d).toInt then b.a a else b.a d) keepFlags

def execCmp (dt : Nat) (n : Fin 10) (rot : Bool) (d a : Fin 4) (s : State) : Out :=
  (s.wait dt).mSlot n rot (fun _ => []) (fun _ => [])
    (fun b r =>
      let x := sum56 (b.a d) (~~~ b.a a) true
      ((r.zn x.2.2.1).setF 2 x.2.1).setF 3 x.2.2.2)

def execDtoa (dt : Nat) (n : Fin 10) (rot : Bool) (d : Fin 4) (x : Fin 16) (s : State) : Out :=
  (s.wait dt).mAcc n rot [x] d (fun b => BitVec.ofInt 56 ((b.d x).toInt * 0x100_0000)) keepFlags

/-- One division step (R402); from a starting value outside the rule's the result is free. -/
def divStep (a : BitVec 56) (x : BitVec 24) (free : BitVec 64) : BitVec 56 :=
  let d := x.toNat * 0x80_0000
  if x.toInt ≤ 0 ∨ d ≤ a.toNat then free.setWidth 56
  else
    let r := 2 * a.toNat
    BitVec.ofNat 56 (if d ≤ r then r - d + 1 else r)

def execDiv (dt : Nat) (n : Fin 10) (rot : Bool) (d : Fin 4) (x : Fin 16) (s : State) : Out :=
  let r := (s.wait dt).takeFree
  r.2.mSlot n rot (fun b => [b.loc x]) (fun b => [.a b.inEvt d])
    (fun b g => g.setAcc b d (divStep (b.a d) (b.d x) r.1))

def execMovd (dt : Nat) (n : Fin 10) (rot : Bool) (d : Fin 16) (a : Fin 4) (s : State) : Out :=
  (s.wait dt).mD n rot [] d (fun b => (gConvert b.sr (b.a a)).1)
    (fun b r =>
      let x := gConvert b.sr (b.a a)
      ((r.zn x.1).stick 4 x.2.1).stick 5 x.2.2)

def execCls (dt : Nat) (n : Fin 10) (rot : Bool) (d : Fin 16) (a : Fin 4) (s : State) : Out :=
  (s.wait dt).mD n rot [] d (fun b => BitVec.ofInt 24 (clsCount (b.a a))) keepFlags

def execDadd (dt : Nat) (n : Fin 10) (rot : Bool) (d x y : Fin 16) (s : State) : Out :=
  (s.wait dt).mD n rot [x, y] d (fun b => (sum24 (b.d x) (b.d y) false).1)
    (fun b r => flags24 r (sum24 (b.d x) (b.d y) false))

def execDsub (dt : Nat) (n : Fin 10) (rot : Bool) (d x y : Fin 16) (s : State) : Out :=
  (s.wait dt).mD n rot [x, y] d (fun b => (sum24 (b.d x) (~~~ b.d y) true).1)
    (fun b r => flags24 r (sum24 (b.d x) (~~~ b.d y) true))

def execDaddi (dt : Nat) (n : Fin 10) (rot : Bool) (d x : Fin 16) (imm : BitVec 6) (s : State) : Out :=
  (s.wait dt).mD n rot [x] d (fun b => (sum24 (b.d x) (imm.signExtend 24) false).1)
    (fun b r => flags24 r (sum24 (b.d x) (imm.signExtend 24) false))

def execDand (dt : Nat) (n : Fin 10) (rot : Bool) (d x y : Fin 16) (s : State) : Out :=
  (s.wait dt).mD n rot [x, y] d (fun b => b.d x &&& b.d y) (fun b r => r.zn (b.d x &&& b.d y))

def execDor (dt : Nat) (n : Fin 10) (rot : Bool) (d x y : Fin 16) (s : State) : Out :=
  (s.wait dt).mD n rot [x, y] d (fun b => b.d x ||| b.d y) (fun b r => r.zn (b.d x ||| b.d y))

def execDxor (dt : Nat) (n : Fin 10) (rot : Bool) (d x y : Fin 16) (s : State) : Out :=
  (s.wait dt).mD n rot [x, y] d (fun b => b.d x ^^^ b.d y) (fun b r => r.zn (b.d x ^^^ b.d y))

def execDshl (dt : Nat) (n : Fin 10) (rot : Bool) (d x : Fin 16) (k : Fin 64) (s : State) : Out :=
  (s.wait dt).mD n rot [x] d (fun b => b.d x <<< k.val) (fun b r => r.zn (b.d x <<< k.val))

def execDshr (dt : Nat) (n : Fin 10) (rot : Bool) (d x : Fin 16) (k : Fin 64) (s : State) : Out :=
  (s.wait dt).mD n rot [x] d (fun b => (b.d x).sshiftRight k.val) (fun b r => r.zn ((b.d x).sshiftRight k.val))

def execDlsr (dt : Nat) (n : Fin 10) (rot : Bool) (d x : Fin 16) (k : Fin 64) (s : State) : Out :=
  (s.wait dt).mD n rot [x] d (fun b => b.d x >>> k.val) (fun b r => r.zn (b.d x >>> k.val))

end Sys2Proof.Machine
end

