-- ==== Sys2Proof/Machine/GougeL.lean ====
section
/-! DEFINITION. The L-slot operations of a Gouge core (R400, R403 to R412). `more` says that the M slot of the same
bundle follows as the next command of the core; otherwise the bundle's M slot is MNOP. -/
namespace Sys2Proof.Machine

/-- Run an L slot: `locs` the D registers it needs, `dsts` what it writes, `f` the effect, none where it is
unpredictable. -/
def State.lSlot (s : State) (n : Fin 10) (more : Bool) (locs : GRegs → List DLoc) (dsts : GRegs → List GDst)
    (f : State → GRegs → Option State) : Out :=
  if s.coreDead n || s.off then .next s else
  match (if s.core[n].base.isSome then s.coreFinish n false else some s) with
  | none => .refused .unpredictable
  | some s0 =>
    let s1 := s0.interlock n (locs s0.core[n].regs)
    let r := s1.core[n].regs
    if s1.coreDead n then .next s1 else
    match f s1 r with
    | none => .refused .unpredictable
    | some s2 =>
      if s2.coreDead n then .next s2
      else if more then .next (s2.modCore n (fun c => { c with base := some r, wrote := dsts r }))
      else match s2.coreFinish n false with
        | some s3 => .next s3
        | none => .refused .unpredictable

def noLocs (_ : GRegs) : List DLoc := []
def noDsts (_ : GRegs) : List GDst := []

/-- Change the registers only. -/
def State.modRegs (s : State) (n : Fin 10) (f : GRegs → GRegs) : State :=
  s.modCore n (fun c => { c with regs := f c.regs })

/-! ### Local memory (R394, R407, R428) -/

/-- A local word as a core reads it, with the error that bad parity raises. -/
def State.localRead (s : State) (n : Fin 10) (w : Nat) : BitVec 24 × State :=
  let a := localAddr (s.owner n) w
  (BitVec.ofNat 24 (s.mem24 a),
   if s.parityBad a then (s.coreReplay n).memFault .gouge ((s.owner n).val * 2 ^ 28 + w) else s)

def State.localWrite (s : State) (n : Fin 10) (w : Nat) (v : BitVec 24) : State :=
  let a := localAddr (s.owner n) w
  s.localPut a v.toNat

/-- The spaces of R393: local, Pantry, or reserved. -/
def isLocal (a : Nat) : Bool := decide (a < 0x8000)
def isPantry (a : Nat) : Bool := decide (0x2_0000 ≤ a)

/-- LD and LDH (R394). -/
def State.gLoad (s : State) (n : Fin 10) (more : Bool) (reg : Fin 16) (p : Fin 8) (k : PMod) (imm : BitVec 16)
    (high : Bool) : Out :=
  s.lSlot n more (fun r => [r.loc reg]) (fun r => [.d (r.loc reg)]) (fun s1 r =>
    match r.access p k imm with
    | none => none
    | some (a, r1) =>
      let s2 := s1.modRegs n (fun _ => r1)
      if isLocal a then
        let v := s2.localRead n a
        some (v.2.modRegs n (fun g => g.put (r.loc reg) v.1))
      else if isPantry a then some (s2.panIssue n (.load (panAddr r.sr a) high (r.loc reg) s.phys))
      else none)

def execLd (dt : Nat) (n : Fin 10) (more : Bool) (reg : Fin 16) (p : Fin 8) (k : PMod) (imm : BitVec 16)
    (s : State) : Out := (s.wait dt).gLoad n more reg p k imm false

def execLdh (dt : Nat) (n : Fin 10) (more : Bool) (reg : Fin 16) (p : Fin 8) (k : PMod) (imm : BitVec 16)
    (s : State) : Out := (s.wait dt).gLoad n more reg p k imm true

/-- A store of a 24-bit value: `word` is what a Pantry word becomes (R394); `fl` the flags it leaves. -/
def State.gStore (s : State) (n : Fin 10) (more : Bool) (locs : GRegs → List DLoc) (p : Fin 8) (k : PMod)
    (imm : BitVec 16) (v : GRegs → BitVec 24) (word : BitVec 24 → Nat) (fl : GRegs → GRegs → GRegs) : Out :=
  s.lSlot n more locs noDsts (fun s1 r =>
    match r.access p k imm with
    | none => none
    | some (a, r1) =>
      let s2 := s1.modRegs n (fun _ => fl r r1)
      if isLocal a then some (s2.localWrite n a (v r))
      else if isPantry a then
        some (s2.panIssue n (.store (panAddr r.sr a) (BitVec.ofNat 32 (word (v r)))))
      else none)

def wordExt (v : BitVec 24) : Nat := ofS 32 v.toInt
def wordHigh (v : BitVec 24) : Nat := v.toNat * 256

def execSt (dt : Nat) (n : Fin 10) (more : Bool) (reg : Fin 16) (p : Fin 8) (k : PMod) (imm : BitVec 16)
    (s : State) : Out :=
  (s.wait dt).gStore n more (fun r => [r.loc reg]) p k imm (fun r => r.d reg) wordExt keepFlags

def execSth (dt : Nat) (n : Fin 10) (more : Bool) (reg : Fin 16) (p : Fin 8) (k : PMod) (imm : BitVec 16)
    (s : State) : Out :=
  (s.wait dt).gStore n more (fun r => [r.loc reg]) p k imm (fun r => r.d reg) wordHigh keepFlags

/-- STA (R385): sets L and S. -/
def execSta (dt : Nat) (n : Fin 10) (more : Bool) (a : Fin 4) (p : Fin 8) (k : PMod) (imm : BitVec 16)
    (s : State) : Out :=
  (s.wait dt).gStore n more noLocs p k imm (fun r => (gConvert r.sr (r.a a)).1) wordExt
    (fun r r1 => (r1.stick 4 (gConvert r.sr (r.a a)).2.1).stick 5 (gConvert r.sr (r.a a)).2.2)

/-- XADD and XSWP (R403, R435): to a local address unpredictable. -/
def State.gAtomic (s : State) (n : Fin 10) (more : Bool) (reg : Fin 16) (p : Fin 8) (k : PMod) (imm : BitVec 16)
    (mk : Nat → BitVec 24 → DLoc → PanAcc) : Out :=
  s.lSlot n more (fun r => [r.loc reg]) (fun r => [.d (r.loc reg)]) (fun s1 r =>
    match r.access p k imm with
    | none => none
    | some (a, r1) =>
      if isPantry a then some ((s1.modRegs n (fun _ => r1)).panIssue n (mk (panAddr r.sr a) (r.d reg) (r.loc reg)))
      else none)

def execXadd (dt : Nat) (n : Fin 10) (more : Bool) (reg : Fin 16) (p : Fin 8) (k : PMod) (imm : BitVec 16)
    (s : State) : Out := (s.wait dt).gAtomic n more reg p k imm .xadd

def execXswp (dt : Nat) (n : Fin 10) (more : Bool) (reg : Fin 16) (p : Fin 8) (k : PMod) (imm : BitVec 16)
    (s : State) : Out := (s.wait dt).gAtomic n more reg p k imm .xswp

/-! ### PAR (R400) -/

def parReg : ParSide → Option (Fin 16)
  | .none => none
  | .load r _ _ => some r
  | .store r _ _ => some r

def xmod : XMod → PMod
  | .none => .none
  | .inc => .inc
  | .dec => .dec
  | .addM => .addM

/-- One side of a parallel access through P register `base + p`; address bits [17:14] are ignored. -/
def State.parSide (s : State) (n : Fin 10) (r : GRegs) (x : ParSide) (y : Bool) : Option State :=
  let go := fun (p : Fin 4) (m : XMod) =>
    let i : Fin 8 := Fin.ofNat 8 (p.val + if y then 4 else 0)
    (r.access i (xmod m) 0).map (fun z => (z.1 % 0x4000 + (if y then 0x4000 else 0), i, z.2.p i))
  match x with
  | .none => some s
  | .load reg p m => (go p m).map (fun z =>
      let v := s.localRead n z.1
      v.2.modRegs n (fun g => (g.put (r.loc reg) v.1).setP z.2.1 z.2.2))
  | .store reg p m => (go p m).map (fun z =>
      (s.localWrite n z.1 (r.d reg)).modRegs n (fun g => g.setP z.2.1 z.2.2))

/-- Both sides load one register: the spec states no value. -/
def parClash : ParSide → ParSide → Option (Fin 16)
  | .load a _ _, .load b _ _ => if a = b then some a else none
  | _, _ => none

def parDst (r : GRegs) : ParSide → List GDst
  | .load a _ _ => [.d (r.loc a)]
  | _ => []

def execPar (dt : Nat) (n : Fin 10) (more : Bool) (x y : ParSide) (s : State) : Out :=
  (s.wait dt).lSlot n more
    (fun r => ((parReg x).toList ++ (parReg y).toList).map r.loc)
    (fun r => parDst r x ++ parDst r y)
    (fun s1 r =>
      match s1.parSide n r x false with
      | none => none
      | some s2 => (s2.parSide n r y true).map (fun s3 =>
          match parClash x y with
          | some a =>
            let f := s3.takeFree
            f.2.modRegs n (fun g => g.put (r.loc a) (f.1.setWidth 24))
          | none => s3))

/-! ### Register operations (R403) -/

/-- The D register or accumulator a register name touches. -/
def gregLocs (r : GRegs) : GReg → List DLoc
  | .d i => [r.loc i]
  | _ => []

def gregDst (r : GRegs) : GReg → List GDst
  | .d i => [.d (r.loc i)]
  | .part a _ => [.a r.inEvt a]
  | _ => []

def execLdi (dt : Nat) (n : Fin 10) (more : Bool) (g : GReg) (imm : BitVec 16) (s : State) : Out :=
  (s.wait dt).lSlot n more (fun r => gregLocs r g) (fun r => gregDst r g)
    (fun s1 _ => some (s1.modCore n (fun c => c.write g imm.toInt)))

/-- LDIH: bits 16 and above of a register wider than 16 bits. -/
def execLdih (dt : Nat) (n : Fin 10) (more : Bool) (g : GReg) (imm : BitVec 16) (s : State) : Out :=
  (s.wait dt).lSlot n more (fun r => gregLocs r g) (fun r => gregDst r g)
    (fun s1 r =>
      if gregWidth g ≤ 16 then some s1
      else
        let old := s1.core[n].bits r n.val (s1.ccnt n) g
        some (s1.modCore n (fun c => c.write g ((imm.toNat * 2 ^ 16 + old % 2 ^ 16 : Nat) : Int))))

def execMovc (dt : Nat) (n : Fin 10) (more : Bool) (g src : GReg) (s : State) : Out :=
  (s.wait dt).lSlot n more (fun r => gregLocs r g ++ gregLocs r src) (fun r => gregDst r g)
    (fun s1 r => some (s1.modCore n (fun c => c.write g (c.value r n.val (s1.ccnt n) src))))

def execPadd (dt : Nat) (n : Fin 10) (more : Bool) (p : Fin 8) (imm : BitVec 16) (s : State) : Out :=
  (s.wait dt).lSlot n more noLocs noDsts
    (fun s1 r => some (s1.modRegs n (fun g => g.setP p (BitVec.ofInt 18 ((r.p p).toNat + imm.toInt)))))

/-- CLRF: L, S and OVG where IMM16 bits 0, 1 and 2 are 1. -/
def execClrf (dt : Nat) (n : Fin 10) (more : Bool) (imm : BitVec 16) (s : State) : Out :=
  (s.wait dt).lSlot n more noLocs noDsts
    (fun s1 _ => some (s1.modRegs n (fun g =>
      let g1 := if imm.getLsbD 0 then g.setF 4 false else g
      let g2 := if imm.getLsbD 1 then g1.setF 5 false else g1
      if imm.getLsbD 2 then g2.setF 6 false else g2)))

def execTfault (dt : Nat) (n : Fin 10) (more : Bool) (s : State) : Out :=
  (s.wait dt).lSlot n more noLocs noDsts (fun s1 _ => some (s1.coreFault n .tfault))

/-- SIG DUTY for link `l`, axis `a` (R422). -/
def execDuty (dt : Nat) (n : Fin 10) (more : Bool) (l : Fin 16) (a : Bool) (s : State) : Out :=
  (s.wait dt).lSlot n more noLocs noDsts (fun s1 _ => some (s1.giveDuty l a))

/-! ### Control -/

/-- A control operation: unpredictable at an armed loop end (R410). -/
def State.cSlot (s : State) (n : Fin 10) (more : Bool) (locs : GRegs → List DLoc)
    (f : State → GRegs → Option State) : Out :=
  s.lSlot n more locs noDsts (fun s1 r => if s1.core[n].atLoopEnd then none else f s1 r)

/-- R404. -/
def condHolds (r : GRegs) : Cond → Bool
  | .al => true
  | .eq => r.flag 0
  | .ne => !r.flag 0
  | .mi => r.flag 1
  | .pl => !r.flag 1
  | .cs => r.flag 2
  | .cc => !r.flag 2
  | .vs => r.flag 3
  | .vc => !r.flag 3
  | .lt => r.flag 1 != r.flag 3
  | .ge => r.flag 1 == r.flag 3
  | .gt => !r.flag 0 && r.flag 1 == r.flag 3
  | .le => r.flag 0 || r.flag 1 != r.flag 3
  | .og => r.flag 6

def State.setNext (s : State) (n : Fin 10) (t : BitVec 14) : State :=
  s.modCore n (fun c => { c with nextPc := some t })

def execLnop (dt : Nat) (n : Fin 10) (more : Bool) (s : State) : Out :=
  (s.wait dt).lSlot n more noLocs noDsts (fun s1 _ => some s1)

def execBra (dt : Nat) (n : Fin 10) (more : Bool) (c : Cond) (t : BitVec 14) (s : State) : Out :=
  (s.wait dt).cSlot n more noLocs (fun s1 r => some (if condHolds r c then s1.setNext n t else s1))

def execCall (dt : Nat) (n : Fin 10) (more : Bool) (t : BitVec 14) (s : State) : Out :=
  (s.wait dt).cSlot n more noLocs (fun s1 _ =>
    if 8 ≤ s1.core[n].stack.length then none
    else some ((s1.modCore n (fun c => { c with stack := (c.pc + 1) :: c.stack })).setNext n t))

def execRet (dt : Nat) (n : Fin 10) (more : Bool) (s : State) : Out :=
  (s.wait dt).cSlot n more noLocs (fun s1 _ =>
    match s1.core[n].stack with
    | [] => none
    | t :: ts => some ((s1.modCore n (fun c => { c with stack := ts })).setNext n t))

/-- RETE (R392): in the main bank unpredictable. -/
def execRete (dt : Nat) (n : Fin 10) (more : Bool) (s : State) : Out :=
  (s.wait dt).cSlot n more noLocs (fun s1 r =>
    if !r.inEvt then none
    else
      let s2 := (s1.modCore n (fun c => { c with
        regs := { c.regs with sr := r.esr, inEvt := false }, event := none })).setNext n r.epc
      some (s2.setFlag F.GOUGE_CUR_INEVT false n))

/-- LOOP (R408): `reg` names a D register, or the count is immediate. -/
def execLoop (dt : Nat) (n : Fin 10) (more : Bool) (level : Fin 2) (reg : Option (Fin 16)) (count : BitVec 14)
    (eofs : BitVec 8) (s : State) : Out :=
  (s.wait dt).cSlot n more (fun r => reg.toList.map r.loc) (fun s1 r =>
    let pc := s1.core[n].pc
    let k : BitVec 16 := match reg with
      | some i => (r.d i).setWidth 16
      | none => count.setWidth 16
    let le := pc + 1 + eofs.setWidth 14
    let s2 := s1.modCore n (fun c => { c with
      loopWrites := c.loopWrites.filter (fun w => w.2.1 % 2 != level.val)
      regs := { c.regs with
        ls := c.regs.ls.set level (pc + 1), le := c.regs.le.set level le, lc := c.regs.lc.set level k } })
    some (if k = 0 then s2.setNext n (le + 1) else s2))

/-- END (R419): in the shadow bank unpredictable (R392). -/
def execEnd (dt : Nat) (n : Fin 10) (more : Bool) (s : State) : Out :=
  (s.wait dt).cSlot n more noLocs (fun s1 r =>
    if r.inEvt then none else some (s1.modCore n (fun c => { c with endTask := true })))

/-- FENCE (R403): the core waits while a Pantry access is outstanding. -/
def execFence (dt : Nat) (n : Fin 10) (more : Bool) (s : State) : Out :=
  (s.wait dt).lSlot n more noLocs noDsts (fun s1 _ =>
    some (s1.modCore n (fun c => { c with fence := !c.outst.isEmpty })))

/-! ### Arrivals -/

/-- PANTRY_LOAD_ARRIVAL (R405): at least 12 cycles after the access reached the arbiter. -/
def execPantryLoadArrival (dt : Nat) (n : Fin 10) (s : State) : Out :=
  let s := s.wait dt
  let c := s.core[n]
  if s.off then .next s
  else if !c.arrivals.isEmpty then .next (s.panArrive n)
  else match c.outst with
    | .load _ _ _ t :: _ => if s.phys < t + 12 then .next s else .next (s.panComplete n)
    | _ => .next s

/-- PANTRY_STORE_COMPLETE (R407): the oldest access is a store or an atomic. -/
def execPantryStoreComplete (dt : Nat) (n : Fin 10) (s : State) : Out :=
  let s := s.wait dt
  if s.off then .next s else
  match s.core[n].outst with
  | [] => .next s
  | .load _ _ _ _ :: _ => .next s
  | _ => .next (s.panComplete n)

end Sys2Proof.Machine
end

