-- ==== Sys2Proof/Machine/Tasks.lean ====
section
/-! DEFINITION. Gouge tasks (R416, R419 to R424, R429): slots, events and what a cycle start does to a core. -/
namespace Sys2Proof.Machine

/-- A core works its slot table and events: RUN, SPARE with EN, or HOSTING (R429, R430). -/
def State.coreActive (s : State) (n : Fin 10) : Bool :=
  match s.coreState n with
  | 1 => true
  | 2 => s.flag F.GOUGE_CTRL_EN n
  | 4 => true
  | _ => false

/-- Held slot-table writes take effect (R444). -/
def State.slotCommit (s : State) (n : Fin 10) : State :=
  let s1 := forList s.core[n].held (fun w t => t.setReg w.1 w.2) s
  s1.modCore n (fun c => { c with held := [] })

/-- A cycle start at a core (R419, R420, R429). -/
def State.coreCycle (s : State) (n : Fin 10) : State :=
  let s1 := (s.slotCommit n).coreRestate n true
  if !s1.coreActive n then s1.modCore n (fun c => { c with todo := [], replay := [], ran := [] })
  else
    let o := s1.owner n
    let c := s1.core[n]
    let s2 := if c.running.isSome ∨ !c.todo.isEmpty then s1.raise F.GOUGE_STATUS_SLIP n else s1
    s2.modCore n (fun c => { c with todo := (List.range 32).filter (fun i => s1.slotNow o i), replay := [], ran := [] })

/-- The law of a current-loop task for one of its axes (R266, R292). -/
def State.loopCycle (s : State) (n : Fin 64) : State :=
  match s.axKind n with
  | 1 => s.fieldCycle n
  | 3 => s.stepperCycle n
  | _ => s

/-- SLOT_TASK_START: core `n` starts slot `i`, which serves `axes` if it is a current-loop slot (R419 to R421). A task that the
faulted core had already begun in this cycle comes, replayed from its checkpoint, to the results that its mailbox holds
(R431). None where an axis's configuration makes the law unpredictable. -/
def State.slotStart (s : State) (n : Fin 10) (i : Fin 32) (axes : List (Fin 64)) : Option State :=
  let o := s.owner n
  let c := s.core[n]
  let due := s.seq.start + nsU (20 * s.fget F.GOUGE_SLOT_PHASE o i.val)
  if !s.coreActive n ∨ !s.running ∨ c.running.isSome ∨ c.event.isSome ∨ c.todo.head? ≠ some i.val ∨ s.run < due then
    some s
  else
    let again := c.replay.contains i.val
    let cl := s.flag F.GOUGE_SLOT_CL o i.val
    if cl ∧ !axes.all (fun a => s.fieldLegal a) then none
    else
      let s1 := (s.localPut (localAddr o 0x7FFF) (b2n again)).localPut (localAddr o 0x7FFE) s.seq.k
      let s2 := (s1.fset F.GOUGE_CUR_SLOT i.val n).modCore n (fun c => { c with
        todo := c.todo.drop 1, replay := c.replay.filter (fun x => x != i.val), running := some i.val
        pc := BitVec.ofNat 14 (s.fget F.GOUGE_SLOT_START o i.val)
        axes := axes
        served := if cl then (i.val, axes) :: c.served.filter (fun x => x.1 != i.val) else c.served
        ran := if cl then i.val :: c.ran else c.ran })
      some (if cl && !(again && c.ran.contains i.val) then forList axes (fun a t => t.loopCycle a) s2 else s2)

/-- The lowest pending event of a core. -/
def State.lowestEvent (s : State) (o : Fin 10) : Option Nat :=
  (List.range 256).find? (fun e => bit (s.fget F.GOUGE_EVPEND o (e / 32)) (e % 32))

/-- EVENT_TASK_START (R391, R424). -/
def State.eventStart (s : State) (n : Fin 10) : State :=
  let o := s.owner n
  let c := s.core[n]
  let inCl := match c.running with
    | some i => s.flag F.GOUGE_SLOT_CL o i
    | none => false
  if !s.coreActive n ∨ c.event.isSome ∨ c.base.isSome ∨ inCl = true then s
  else match s.lowestEvent o with
    | none => s
    | some e =>
      let p := s.fget F.GOUGE_EVPEND o (e / 32)
      let s1 := s.fset F.GOUGE_EVPEND (p - 2 ^ (e % 32)) o (e / 32)
      let s2 := (s1.fset F.GOUGE_CUR_EVT e n).setFlag F.GOUGE_CUR_INEVT true n
      s2.modCore n (fun c => { c with
        event := some e, pc := BitVec.ofNat 14 (s.fget F.GOUGE_EVENT_START o e)
        regs := { c.regs with
          epc := c.pc, esr := c.regs.sr, sr := BitVec.ofNat 32 (c.regs.sr.toNat / 128 * 128), inEvt := true } })

/-- Current-loop tasks of a core that have not written their duties: those not started, and those of which an axis has no
DUTY yet; in the cycle of a takeover a fault has been detected, and none counts (R30). -/
def State.tasksLate (s : State) (n : Fin 10) : Nat :=
  let c := s.core[n]
  if !s.coreActive n ∨ c.tookOver = some s.seq.k then 0 else
  ((s.clSlots (s.owner n)).filter (fun i =>
    !(c.ran.contains i && (c.servedBy i).all (fun a => s.dutyGiven a)))).length

/-- DUTY_DEADLINE (R30): once, at D or later. -/
def State.dutyDeadline (s : State) : State :=
  if !s.running ∨ s.seq.dutyDone ∨ s.run < s.dutyD then s
  else
    let k := (List.finRange 10).foldl (fun a n => a + s.tasksLate n) 0
    let s1 := { s with seq := { s.seq with dutyDone := true } }
    if k = 0 then s1 else (s1.finc F.CYC_MISS 0 0 k).raise F.CYC_STATUS_OVERRUN

/-- EN of a core is written (R429). -/
def State.coreEnable (s : State) (n : Fin 10) : State :=
  let s1 := s.coreRestate n false
  if s.flag F.GOUGE_CTRL_EN n then s1
  else if s.coreState n = 4 ∨ s.coreState n = 3 then s1
  else s1.modCore n (fun c => { c with running := none, todo := [], event := none })

end Sys2Proof.Machine
end

