-- ==== Sys2Proof/Machine/Cycle.lean ====
section
/-! DEFINITION. CYCLE_START (R20, R21, R35 to R38): the sequencer's move to the next cycle, the cycle snapshot, the
outer-loop work of the tick, and what each block does at a cycle start. -/
namespace Sys2Proof.Machine

/-! ### The sequencer -/

/-- The moves of a walk over the next `c` cycles (R27). -/
def State.walkSum (s : State) : Nat → Int → Int
  | 0, _ => 0
  | c + 1, e => s.walkMove e + s.walkSum c (e - s.walkMove e)

/-- The instant of the next F_P tick by the continuing index, as the cycle in progress begins with walk error `e`. -/
def State.nextFp (s : State) (e : Int) : Nat :=
  let nm := s.seq.nDiv * s.seq.mDiv
  let c := nm - s.seq.k % nm
  ((s.seq.start + c * s.tiU : Nat) - s.walkSum c e).toNat

/-- The next cycle begins at `at'` (R20 to R27). -/
def State.cycleBegin (s : State) (at' : Nat) : State :=
  let first := s.seq.starting.isSome
  let fresh := first || s.seq.predict
  let k := if fresh then s.indexAt at' else s.seq.k + 1
  let e := s.seq.walk
  let c := s.walkMove e
  let nxt := ((at' + s.tiU : Nat) - c).toNat
  let s1 := (s.setFlag F.CYC_STATUS_RUNNING true).setFlag F.CYC_STATUS_ALIGNED (decide (e = 0))
  let s2 := if fresh then s1.setFlag F.CYC_STATUS_KSYNC true else s1
  (s2.wset F.CYC_COUNT k).modSeq (fun q => { q with
    k := k, start := at', next := some nxt, walk := e - c, moved := c, starting := none, predict := false
    firstTick := q.firstTick || first, missDone := false, dutyDone := false })

/-! ### What takes effect at the cycle start (R34, R224, R290, R537) -/

/-- Outputs of the previous cycle's outer-loop work come into force; `tick` if it ran Headstock. -/
def State.latchAxis (s : State) (tick : Bool) (n : Fin 64) : State :=
  let s1 := s.modLp n (fun l => { l with icmd := s.fgetS F.AX_ICMD n })
  if !tick then s1 else
  s1.modFld n (fun f => { f with
    spAt := s.seq.start, spPos := s.wgetS F.AX_SP_POS n, spVel := s.wgetS F.AX_SP_VEL n })

/-! ### The snapshot (R35, R120, R254, R418) -/

def State.snapWords (s : State) : List Nat :=
  let l := s.snap.lclk
  let ns := l / unitNs
  [s.snap.k % 2 ^ 32, s.snap.k / 2 ^ 32 % 2 ^ 32, l % unitNs / 128, ns % 10 ^ 9, ns / 10 ^ 9 % 2 ^ 32, ns / 10 ^ 9 / 2 ^ 32 % 2 ^ 16] ++
    s.snap.spin.toList.flatMap (fun x =>
      [ofS 32 x.pos, ofS 64 x.pos / 2 ^ 32, ofS 32 x.vel, ofS 64 x.vel / 2 ^ 32]) ++
    s.snap.chuck.toList.map (fun c => ofS 32 c) ++
    (List.range 8).map (fun c => ofS 32 (s.fgetS F.CMD_SNAP c)) ++ List.replicate 17 0 ++ [s.snap.k % 2 ^ 32]

/-- The snapshot page in the Pantry, word 127 last (R418). -/
def State.snapPage (s : State) : State :=
  let a := s.fget F.PAN_SNAPBASE
  if a = 0 then s else
  ((forList s.snapWords.zipIdx (fun x t => t.panWrite (a + 4 * x.2) x.1) s).marchTouch a).marchTouch (a + 256)

/-- Spindles whose source is an axis take its values (R71, R80): the actual value at each cycle start, the set-point in
force at an F_P tick (R186). -/
def State.axisSpindles (s : State) (fp : Bool) : State :=
  forFin 64 (fun n t =>
    let t1 := t.spinAxis 3 n (t.wgetS F.AX_ACT_POS n) (t.wgetS F.AX_VACT n) 0
    if fp then t1.spinAxis 2 n (t1.wgetS F.AX_SP_POS n) (t1.wgetS F.AX_SP_VEL n) (t1.wgetS F.AX_SP_ACC n) else t1) s

/-- Latch the snapshot; T_P in ns. -/
def State.takeSnapshot (s : State) (first fp : Bool) : State :=
  let s1 := forFin 32 (fun c t => t.chLatch c) s
  let s2 := forFin 8 (fun k t => t.cmdLatch k) s1
  let s3 := (forFin 64 (fun n t => (t.axFeedback n).fieldLatch n) s2.recExtend).axisSpindles fp
  let s4 := if first then forFin 16 (fun n t => t.modSp n (fun p => { p with prevVel := none })) s3 else s3
  let s5 := if fp then forFin 16 (fun n t => t.spinAccTick n (s.tiNs * s.seq.nDiv * s.seq.mDiv)) s4 else s4
  let sn : Snapshot := ⟨s5.lclk, Vector.ofFn (fun n => s5.spinSnap n),
    Vector.ofFn (fun (c : Fin 32) => s5.fgetS F.CHUCK_SNAP c), s5.seq.k⟩
  { s5 with snap := sn }.snapPage

/-! ### Joist (R535, R537, R542) -/

def sat32 (x : Rat) : Nat := ofS 32 (clampI (-(2 ^ 31 : Int)) (2 ^ 31 - 1 : Int) (nearest x))

/-- What the outer-loop work writes for a remote servo axis: the words of its record (R535). -/
def State.txRecord (s : State) (n : Fin 64) : Nat × List Nat :=
  let fb := s.axQ F.AX_FBSCALE n
  let cmd := if s.flag F.AX_LOOP_CFG_RMODE n then ofS 32 (s.fgetS F.AX_ICMD n)
    else sat32 (divR (s.axQ F.AX_VCMD n) fb)
  let r := s.fget F.AX_CFG_ATT n
  (r, [r, cmd, ofS 32 (nearest (divR (s.axQ F.AX_SP_POS n - s.axQ F.AX_POSOFS n) fb)),
    sat32 (divR (s.axQ F.AX_SP_ACC n) fb)])

def State.txRecords (s : State) : State :=
  s.modJo (fun j => { j with
    txNext := ((List.finRange 64).filter (fun (n : Fin 64) => s.axKind n == 2)).map (fun n => s.txRecord n) })

def State.joistOn (s : State) : Bool := s.flag F.HW_J_CFG_EN

/-- A Joist tick: the frame due, and the records counted (R537, R542). -/
def State.joistTick (s : State) : State :=
  if !s.joistOn then s else
  let at' := s.seq.start + s.fget F.HW_J_TXPHASE * unitNs
  let ns := ns32 (s.runToLclk s.seq.start / unitNs + s.fget F.HW_J_APPLY)
  (s.modJo (fun j => { j with due := j.due ++ [(s.seq.k, at', ns)] })).joistCount

/-! ### Fault conditions that persist (R241, R247) -/

/-- The Chuck channels an axis may use. -/
def State.axChannels (s : State) (n : Fin 64) : List Nat :=
  [s.fget F.AX_LOOP_CFG_PFB n, s.fget F.AX_LOOP_CFG_VFB n, s.fget F.AX_FLD_CFG_CFB n]

/-- A channel the axis uses is in fault (R241). -/
def State.feedbackHeld (s : State) (n : Fin 64) (c : Nat) : Bool :=
  (s.usesCfb n c || s.usesPfb n c) && s.flag F.CHUCK_FLT_ACTIVE c

/-- The condition of a cause persists (R241). -/
def State.causePersists (s : State) (n : Fin 64) (cause : Nat) : Bool :=
  match cause with
  | 2 => (s.axChannels n).any (fun c => s.feedbackHeld n c)
  | 3 => (s.fget F.AX_LOOP_CFG_REFSRC n == 1 && s.flag F.CMD_STATUS_LOSS (s.fget F.AX_LOOP_CFG_REFCMD n)) || s.refHeld n
  | 4 => s.driveHeld n
  | 6 => s.powerPersists n
  | 7 => s.stoHeld n
  | _ => false

/-- Conditions that persist are recorded again at a cycle start. -/
def State.persistent (s : State) (n : Fin 64) : State :=
  let virt := s.axKind n == 0
  let s1 := if virt then s else
    forList (s.axChannels n) (fun c t => if s.feedbackHeld n c then t.feedbackFault n c else t) s
  forList (if virt then [3] else [3, 4, 6, 7]) (fun c t => if t.causePersists n c then t.axisFault n c else t) s1

/-! ### The cycle start -/

/-- Outer-loop work of a tick: Headstock, position loops, velocity loops, the Joist records (R186, R190, R224). -/
def State.outerLoops (s : State) (fv fp : Bool) : State :=
  if !fv then { s with outer := {} } else
  let T : Rat := s.tiSec * (s.seq.nDiv * s.seq.mDiv : Nat)
  let s := { s with outer := ⟨true, s.regs, s.ax, s.lp⟩ }
  let s1 := if fp then
      let first := s.seq.firstTick
      let jumps : Vector Int 16 := Vector.ofFn (fun i => s.sp[i].jumps)
      let u := if first then { s with prevTick := s.snap.spin, prevJumps := jumps } else s
      let t0 := forFin 64 (fun n t => t.grpTick n T) (forFin 64 (fun n t => t.axTake n first) u)
      let t1 := forFin 64 (fun n t => t.grpShow n) (forFin 64 (fun n t => t.axRun n T) t0)
      let t2 := forFin 64 (fun n t => t.posTick n) t1
      { (t2.modSeq (fun q => { q with firstTick := false })) with prevTick := s.snap.spin, prevJumps := jumps }
    else s
  (forFin 64 (fun n t => t.velTick n) s1).txRecords

/-- A rate field selects this cycle (R21). -/
def rateSelects (rate : Nat) (fv fp : Bool) : Bool := rate == 0 || (rate == 1 && fv) || (rate == 2 && fp)

/-- What the blocks do at the start of a cycle that has begun. `first`: the first since a start; `pred`: after a step by
R26; `tick`: the previous cycle ran Headstock; `e`: the walk error at its start. -/
def State.cycleWork (s : State) (first pred tick : Bool) (e : Int) : State :=
  let fv := s.isFv
  let fp := s.isFp
  let s0 := if first then forFin 64 (fun n t => forFin 3 (fun f u => u.filtCompute n f) t) s else s
  let s1 := (forFin 64 (fun n t => t.latchAxis tick n) { s0 with stpOld := [] }).latchJoist.takeSnapshot first fp
  let s2 := forFin 16 (fun l t => t.blCycle l) (forFin 10 (fun n t => t.coreCycle n) s1)
  let s3 := (forFin 32 (fun c t => t.ssiArm c fv fp) s2).celCycle s.seq.k first fv fp
  let s4 := if rateSelects (s.fget F.SILL_CTRL_RATE) fv fp then s3.sillStart s.seq.k else s3
  let nextAt := s.nextFp e
  let every := s.seq.nDiv * s.seq.mDiv * 2 ^ s.fget F.SKEW_CTRL_SDIV
  let s5 := if fp || pred then (s4.ledTick nextAt fp).skewTick fp nextAt s.seq.k every else s4
  let s6 := s5.outerLoops fv fp
  let s7 := if (if s.flag F.HW_J_CFG_RATE then fv else fp) then s6.joistTick else s6
  let s8 := forFin 64 (fun n t => match t.axStp n with
    | some o => t.stpPulses n o
    | none => t) s7
  forFin 64 (fun n t => t.persistent n) s8

/-- HOSTDEFER counts the cycle just ended if a HOST request waited more than 16 slots in it (R439): the slots of the arbiter are
not modelled, and whether one did, where there was any, is a free choice. -/
def State.hostDefer (s : State) : State :=
  if !s.hostPan then s else
  let r := s.takeFree
  let t := { r.2 with hostPan := false }
  if r.1.getLsbD 0 then t.finc F.PAN_HOSTDEFER else t

/-- CYCLE_START: the cycle that is due starts. -/
def State.cycleStart (s0 : State) : State :=
  let s := s0.seqSettle
  match s.seq.next with
  | none => s
  | some at' =>
    if s.run < at' then s
    else
      let first := s.seq.starting.isSome
      (s.cycleBegin at').hostDefer.cycleWork first s.seq.predict (first || s.isFp) s.seq.walk

/-- What an axis slot is attached to (R183): a link half, a Joist record or an STP output. -/
def State.attachment (s : State) (n : Fin 64) : Option (Nat × Nat) :=
  let att := s.fget F.AX_CFG_ATT n
  let k := s.axKind n
  if k = 0 then none
  else if k = 2 then some (1, att)
  else if k = 3 ∧ s.flag F.AX_CFG_STPPIN n then some (2, att % 16)
  else some (0, att % 32)

def distinctKeys : List (Nat × Nat) → Bool
  | [] => true
  | x :: r => !r.contains x && distinctKeys r

/-- The group an axis names is led by a member and has at most 8 members (R215). -/
def State.groupLegal (s : State) (n : Fin 64) : Bool :=
  let g := s.fget F.AX_CFG_GROUP n
  !s.flag F.AX_CFG_GRPEN n || (s.isLeader g && decide ((s.grpMembers g).length ≤ 8))

/-- The axis that an axis in GEAR follows: the source of its master spindle (R71). -/
def State.gearSource (s : State) (n : Nat) : Option Nat :=
  let sp := Fin.ofNat 16 s.ax[Fin.ofNat 64 n].masterSpin
  let src := s.fget F.SP_CTRL_SRC sp
  if s.axState n == 4 && s.spinEn sp && (src == 2 || src == 3) then some (s.fget F.SP_CTRL_SEL sp) else none

/-- Following the gear sources from axis `m`, `k` axes far, leads to axis `n`. -/
def State.gearReaches (s : State) (n : Nat) : Nat → Nat → Bool
  | 0, _ => false
  | k + 1, m => match s.gearSource m with
    | none => false
    | some a => a == n || s.gearReaches n k a

/-- The axis is geared, through other geared axes or at once, to itself (R14, R71). -/
def State.gearLoop (s : State) (n : Fin 64) : Bool := s.gearReaches n 64 n

/-- The MODE of a servo axis is not a reserved one (R222, R248). -/
def State.modeLegal (s : State) (n : Fin 64) : Bool :=
  let m := s.fget F.AX_LOOP_CFG_MODE n
  !(s.axKind n == 1 || s.axKind n == 2) || (m != 3 && !(m == 2 && s.fget F.AX_LOOP_CFG_REFSRC n == 0))

/-- What the cycle start would do is defined: no servo axis has a reserved MODE, TXPHASE lies inside T_I while Joist runs (R537), no two slots share an
attachment (R183), groups are well formed (R215) and no gear sources form a loop (R14, R71). -/
def State.cycleLegal (s : State) : Bool :=
  (!s.joistOn || decide (s.fget F.HW_J_TXPHASE < s.tiNs)) &&
    distinctKeys ((List.finRange 64).filterMap (fun (n : Fin 64) => s.attachment n)) &&
    (List.finRange 64).all (fun (n : Fin 64) => s.groupLegal n && !s.gearLoop n && s.modeLegal n)

/-- A write of 1 bits to FAULT (R247). -/
def State.axFaultClear (s : State) (n : Fin 64) (m : Nat) : State := s.faultClear n m (fun c => s.causePersists n c)

end Sys2Proof.Machine
end

