-- ==== Sys2Proof/Machine/Landing.lean ====
section
/-! DEFINITION. The Landing CAN FD controllers (R553 to R573). What comes over the bus is given as frames, errors and runs of
recessive bits; a frame sent is given as its bits. Frame formats, CRCs and the counter rules are those of ISO 11898-1:2015 that
R553 and R564 name (PRESUMED). -/
namespace Sys2Proof.Machine

def State.modCan (s : State) (n : Fin 2) (f : Can → Can) : State := { s with can := s.can.set n (f s.can[n]) }

/-- A bit of a pair of mask registers (R573); the high word lies 4 above the low one. -/
def State.canBit (s : State) (f : Fld) (n b : Nat) : Bool := bit (s.words (f.addr n 0) 2) b

def State.canPut (s : State) (f : Fld) (n b : Nat) (v : Bool) : State :=
  s.setWords (f.addr n 0) 2 (putBits (s.words (f.addr n 0) 2) b b (b2n v))

/-- The device sets a bit that software clears (R5). -/
def State.canRaise (s : State) (f : Fld) (n b : Nat) : State :=
  (s.canPut f n b true).noteSet (f.addr n 0 + 4 * (b / 32)) (2 ^ (b % 32))

/-- The address of word `o` of a message buffer. -/
def canBuf (n b o : Nat) : Nat := 0x00A0_4000 + 0x2000 * n + 0x80 * b + o

def State.canState (s : State) (n : Nat) : Nat := s.fget F.CAN_STATUS_STATE n

/-- On the bus: error active or passive (R557). -/
def State.canOn (s : State) (n : Nat) : Bool := s.canState n == 2 || s.canState n == 3

/-- Restricted or monitoring (R567, R568). -/
def State.canQuiet (s : State) (n : Fin 2) : Bool := s.can[n].rom || s.can[n].mon

/-! ### Counters (R564) -/

/-- A request ends (R563); one written in this FCLK cycle stays (R6). -/
def State.canEndReq (s : State) (n : Fin 2) (b : Nat) (f : Fld) : State :=
  let again := bit (s.justWrote (F.CAN_TXREQ_LO.addr n 0 + 4 * (b / 32))) (b % 32)
  ((s.canPut F.CAN_TXREQ_LO n b again).canRaise f n b).modCan n (fun c => { c with
    cancel := c.cancel.filter (fun x => x != b) })

/-- A frame that ends without success: with SSHOT or a cancel its request ends too (R563). -/
def State.canFailed (s : State) (n : Fin 2) (b : Nat) : State :=
  if s.flag F.CAN_CFG_SSHOT n || s.can[n].cancel.contains b then s.canEndReq n b F.CAN_TXFAIL_LO else s

/-- Bus-off (R564, R566): the frame in progress has failed; other requests stay. -/
def State.canOff (s : State) (n : Fin 2) : State :=
  let s1 := match s.can[n].tx with
    | some x => s.canFailed n x.buf
    | none => s
  ((s1.fset F.CAN_STATUS_STATE 4 n).raise F.CAN_STATUS_BOFEVT n).modCan n (fun c => { c with tx := none })

/-- EWARN, the error state and its events after a change of the counters. -/
def State.canCounts (s : State) (n : Fin 2) (tec rec' : Nat) : State :=
  let s1 := (s.fset F.CAN_ERRCNT_TEC tec n).fset F.CAN_ERRCNT_REC (min rec' 128) n
  let s2 := s1.setFlag F.CAN_STATUS_EWARN (decide (96 ≤ tec) || decide (96 ≤ rec')) n
  if !s2.canOn n then s2
  else if 255 < tec then s2.canOff n
  else if 128 ≤ tec ∨ 128 ≤ rec' then
    if s2.canState n = 3 then s2 else (s2.fset F.CAN_STATUS_STATE 3 n).raise F.CAN_STATUS_EPEVT n
  else s2.fset F.CAN_STATUS_STATE 2 n

def State.canTec (s : State) (n : Nat) : Nat := s.fget F.CAN_ERRCNT_TEC n
def State.canRec (s : State) (n : Nat) : Nat := s.fget F.CAN_ERRCNT_REC n

/-! ### CTRL (R557, R566 to R569) -/

/-- At a bus idle, CTRL's INIT, SLEEP, ROM and MON take effect. -/
def State.canIdle (s : State) (n : Fin 2) : State :=
  if s.can[n].tx.isSome then s.modCan n (fun c => { c with pend := true }) else
  let rom := s.flag F.CAN_CTRL_ROM n
  let mon := s.flag F.CAN_CTRL_MON n
  let s1 := (s.modCan n (fun c => { c with rom := rom, mon := mon, pend := false })).setFlag F.CAN_STATUS_RESTR
    (rom || mon) n
  if !s1.canOn n then s1
  else if s1.flag F.CAN_CTRL_INIT n then
    (s1.fset F.CAN_STATUS_STATE 0 n).modCan n (fun c => { c with fromBusoff := false })
  else if s1.flag F.CAN_CTRL_SLEEP n then s1.fset F.CAN_STATUS_STATE 5 n
  else s1

/-- After a frame or an error the bus comes to idle: changes that waited take effect. -/
def State.canAfter (s : State) (n : Fin 2) : State := if s.can[n].pend then s.canIdle n else s

/-- A write of INIT = 1 off the bus takes effect at once; INIT = 0 in INIT leaves it (R557). -/
def State.canInit (s : State) (n : Fin 2) : State :=
  let st := s.canState n
  if s.flag F.CAN_CTRL_INIT n then
    if st = 0 ∨ s.canOn n then s
    else (s.fset F.CAN_STATUS_STATE 0 n).modCan n (fun c => { c with fromBusoff := st == 4, waiting := false })
  else if st ≠ 0 then s
  else
    let s1 := (s.canCounts n 0 0).fset F.CAN_STATUS_STATE (if s.can[n].fromBusoff then 6 else 1) n
    s1.modCan n (fun c => { c with fromBusoff := false, waiting := false })

/-- A write to CTRL (R557, R566 to R569); `idle` says whether the bus is idle. -/
def State.canCtrl (s : State) (n : Fin 2) (w : Nat) (idle : Bool) : State :=
  let old := s.flag F.CAN_CTRL_SLEEP n
  let s1 := s.setReg (F.CAN_CTRL_INIT.addr n 0) (BitVec.ofNat 32 (w &&& 0x1D))
  let s2 := s1.canInit n
  let s3 := if bit w 5 ∧ s2.canState n = 4 then s2.fset F.CAN_STATUS_STATE 6 n else s2
  let s4 := if old ∧ !bit w 2 ∧ s3.canState n = 5 then s3.fset F.CAN_STATUS_STATE 1 n else s3
  if idle then s4.canIdle n else s4.modCan n (fun c => { c with pend := true })

/-- 11 consecutive recessive bits (R556, R557, R567). -/
def State.canIntegrated (s : State) (n : Fin 2) : State :=
  let s1 := s.modCan n (fun c => { c with waiting := false })
  let s2 := if s1.canState n = 1 then
      (s1.fset F.CAN_STATUS_STATE 2 n).canCounts n (s1.canTec n) (s1.canRec n) else s1
  s2.canAfter n

/-- 128 occurrences of 11 consecutive recessive bits (R557). -/
def State.canRecovered (s : State) (n : Fin 2) : State :=
  if s.canState n = 6 then ((s.fset F.CAN_STATUS_STATE 2 n).canCounts n 0 0).canAfter n else s

/-! ### Frames (R559 to R563) -/

/-- Data bytes by DLC (R559). -/
def canLength (fdf : Bool) (dlc : Nat) : Nat :=
  if dlc ≤ 8 then dlc else if !fdf then 8
  else match dlc with
    | 9 => 12
    | 10 => 16
    | 11 => 20
    | 12 => 24
    | 13 => 32
    | 14 => 48
    | _ => 64

/-- The data bytes of a frame (R559). -/
def canBytes (f : CanFrame) : List Nat :=
  (List.range (if f.rtr then 0 else canLength f.fdf f.dlc.toNat)).map (fun i => ((f.data[i]?).getD 0).toNat)

/-- A frame matches a receive buffer (R560). -/
def State.canMatches (s : State) (n b : Nat) (f : CanFrame) : Bool :=
  let w0 := s.mem32 (canBuf n b 0)
  let mask := s.mem32 (canBuf n b 8) % 2 ^ 29
  let d := ((f.id.toNat ^^^ (w0 % 2 ^ 29)) &&& mask)
  s.mem32 (canBuf n b 4) / 2 ^ 30 == 1 && bit w0 31 == f.ide && bit w0 30 == f.rtr &&
    (if f.ide then d else d / 2 ^ 18) == 0

/-- The compact stamp of an instant `ago` ns before now, on its FCLK edge and by the timescale of then (R572). -/
def State.canStamp (s : State) (ago : Nat) : Nat :=
  ns32 (((s.lclk : Int) - s.stepsSince ago - (ago + 1) / 2 * s.rate) / unitNs).toNat

/-- A store or a completed transmission of a buffer with EVT = 1 raises the Gouge event (R572). -/
def State.canEvent (s : State) (n b : Nat) : State :=
  if bit (s.mem32 (canBuf n b 4)) 28 then s.gougeEvent (s.fget F.CAN_CFG_EVT n) else s

/-- The store of a frame (R561). -/
def State.canStore (s : State) (n : Fin 2) (b : Nat) (f : CanFrame) (stamp : Nat) : State :=
  let s0 := if s.canBit F.CAN_NEWDAT_LO n b then s.canRaise F.CAN_MSGLOST_LO n b else s
  let s1 := (s0.canRaise F.CAN_NEWDAT_LO n b).modCan n (fun c => { c with store := some (b, s.phys) })
  let s2 := { s1 with mem := s1.mem.writeBytes (canBuf n b 0x20) (canBytes f) }
  let s3 := s2.setMem32 (canBuf n b 0x10) (b2n f.ide * 2 ^ 31 + b2n f.rtr * 2 ^ 30 + f.id.toNat)
  let s4 := s3.setMem32 (canBuf n b 0x14) (b2n f.fdf * 2 ^ 19 + b2n f.brs * 2 ^ 18 + b2n f.esi * 2 ^ 17 +
    f.dlc.toNat * 2 ^ 12)
  (s4.setMem32 (canBuf n b 0x18) stamp).canEvent n b

/-- A successful reception lowers REC; above 127 it goes to a value between 119 and 127. -/
def State.canGood (s : State) (n : Fin 2) : State :=
  if s.canQuiet n then s else
  let r := s.canRec n
  if 127 < r then
    let f := s.takeFree
    f.2.canCounts n (s.canTec n) (119 + f.1.toNat % 9)
  else s.canCounts n (s.canTec n) (r - 1)

/-- A frame received without error, `ago` ns after its SOF edge (R560, R561). -/
def State.canReceive (s : State) (n : Fin 2) (f : CanFrame) (ago : Nat) : State :=
  if !s.canOn n || s.can[n].waiting || s.can[n].tx.isSome || (f.fdf && !s.flag F.CAN_CFG_FDEN n) then s else
  let s1 := s.canGood n
  let hits := (List.range 64).filter (fun b => s1.canMatches n b f)
  let s2 := if hits.isEmpty then s1
    else match hits.find? (fun b => !s1.canBit F.CAN_NEWDAT_LO n b || bit (s1.mem32 (canBuf n b 4)) 29) with
      | none => s1.finc F.CAN_RXLOST n
      | some b => s1.canStore n b f (s1.canStamp ago)
  s2.canAfter n

/-- A write of ones to NEWDAT (R562): a buffer that a store is still running into is not cleared. A store ends within
200 ns; whether it has, before that, is not given. A bit set in this FCLK cycle stays (R5). -/
def State.canNewdat (s : State) (n : Fin 2) (hi : Bool) (w : Nat) : State :=
  let f := if hi then F.CAN_NEWDAT_HI else F.CAN_NEWDAT_LO
  let r := s.takeFree
  let busy : Nat := match s.can[n].store with
    | none => 0
    | some (b, t) => if s.phys < t + 200 ∧ hi = decide (32 ≤ b) ∧ r.1.toNat % 2 = 1 then 2 ^ (b % 32) else 0
  let kept := busy ||| s.justSet (f.addr n 0)
  let clear := w - (w &&& kept)
  r.2.fset f (s.fget f n - (s.fget f n &&& clear)) n

/-- The arbitration field as the bus compares it, dominant lower (R563). -/
def arbKey (w0 : Nat) : Nat :=
  let rtr := b2n (bit w0 30)
  if bit w0 31 then bitsOf w0 28 18 * 2 ^ 21 + 2 ^ 20 + 2 ^ 19 + bitsOf w0 17 0 * 2 + rtr
  else bitsOf w0 28 18 * 2 ^ 21 + rtr * 2 ^ 20

/-- The requested buffer that would win on the bus, the lower number first (R563). -/
def State.canWinner (s : State) (n : Nat) : Option Nat :=
  ((List.range 64).filter (s.canBit F.CAN_TXREQ_LO n)).foldl (fun w b =>
    match w with
    | none => some b
    | some a => if arbKey (s.mem32 (canBuf n b 0)) < arbKey (s.mem32 (canBuf n a 0)) then some b else some a) none

/-! ### Frames as bits (R553) -/

/-- After five equal bits comes the opposite one; `n` bits of value `p` stand before. -/
def canStuff : Nat → Bool → List Bool → List Bool
  | _, _, [] => []
  | n, p, b :: r =>
    let k := if b = p then n + 1 else 1
    if k = 5 then [b, !b] ++ canStuff 1 (!b) r else b :: canStuff k b r

/-- In the CRC field of an FD frame a fixed stuff bit, the opposite of the bit before, comes before every fourth bit. -/
def canFixed : Nat → Bool → List Bool → List Bool
  | _, _, [] => []
  | i, p, b :: r => (if i % 4 = 0 then [!p, b] else [b]) ++ canFixed (i + 1) b r

/-- A frame from SOF to its last data bit, without stuff bits; true is recessive. -/
def canHead (f : CanFrame) : List Bool :=
  let rtr := f.rtr && !f.fdf
  let control := if f.fdf then [true, false, f.brs, f.esi] else [false]
  let id := bitsMSB 29 f.id.toNat
  [false] ++ id.take 11 ++
    (if f.ide then [true, true] ++ id.drop 11 ++ [rtr] ++ control ++ (if f.fdf then [] else [false])
      else [rtr, false] ++ control) ++
    bitsMSB 4 f.dlc.toNat ++ (canBytes f).flatMap (bitsMSB 8)

/-- A frame as its bits go out, to the end of EOF: ACK is left recessive. -/
def canBits (f : CanFrame) : List Bool :=
  let body := canHead f
  (if f.fdf then
    let all := canStuff 0 true body
    let sent := if all.getLast? = body.getLast? then all else all.dropLast
    let gray := (sent.length - body.length) % 8 ^^^ ((sent.length - body.length) % 8 / 2)
    let count := bitsMSB 3 gray ++ [(bitsMSB 3 gray).foldl xor false]
    let crc := if (canBytes f).length ≤ 16 then bitsMSB 17 (crcBits 17 0x1685B 0x1_0000 (sent ++ count))
      else bitsMSB 21 (crcBits 21 0x10_2899 0x10_0000 (sent ++ count))
    sent ++ canFixed 0 (sent.getLast?.getD true) (count ++ crc)
  else canStuff 0 true (body ++ bitsMSB 15 (crcBits 15 0x4599 0 body))) ++ List.replicate 10 true

/-- The frame that a transmit buffer holds (R559); ESI by the error state (R563). -/
def State.canFrameOf (s : State) (n : Fin 2) (b : Nat) : CanFrame :=
  let w0 := s.mem32 (canBuf n b 0)
  let w1 := s.mem32 (canBuf n b 4)
  { ide := bit w0 31, rtr := bit w0 30, fdf := bit w1 19, brs := bit w1 18, esi := s.canState n == 3
    id := BitVec.ofNat 29 w0, dlc := BitVec.ofNat 4 (bitsOf w1 15 12)
    data := (List.range 64).map (fun i => BitVec.ofNat 8 (s.readN (canBuf n b (0x20 + i)) 1)) }

/-- The controller starts the winning frame (R563). -/
def State.canStart (s : State) (n : Fin 2) : State :=
  if !s.canOn n || s.canQuiet n || s.can[n].waiting || s.can[n].tx.isSome then s else
  match s.canWinner n with
  | none => s
  | some b =>
    let f := s.canFrameOf n b
    s.modCan n (fun c => { c with tx := some ⟨b, s.canStamp 0, f, canBits f⟩ })

/-- LOOPDLY of a delay measured at an FD frame's FDF edge: not below SSP.MIN (R555). -/
def State.canLoop (s : State) (n : Fin 2) (fd : Bool) (loop : Option Nat) : State :=
  match loop with
  | some d => if s.flag F.CAN_CFG_SSPEN n && fd then
      s.fset F.CAN_STATUS_LOOPDLY (min (max d (s.fget F.CAN_SSP_MIN n)) 127) n else s
  | none => s

/-- The transmission in progress ends (R563); `loop` is the delay measured, where it came to an FDF edge (R555). -/
def State.canEnd (s : State) (n : Fin 2) (how : CanEnd) (loop : Option Nat) : State :=
  match s.can[n].tx with
  | none => s
  | some x =>
    let b := x.buf
    let stamp := x.stamp
    let s1 := (s.modCan n (fun c => { c with tx := none })).canLoop n x.frame.fdf loop
    let s2 := match how with
      | .sent =>
        let t := (s1.canEndReq n b F.CAN_TXDONE_LO).setMem32 (canBuf n b 0x18) stamp
        (t.canCounts n (t.canTec n - 1) (t.canRec n)).canEvent n b
      | _ => s1.canFailed n b
    s2.canAfter n

/-- A write of ones to TXCANCEL (R563). -/
def State.canCancel (s : State) (n : Fin 2) (hi : Bool) (w : Nat) : State :=
  forList (setBits 32 w) (fun i t =>
    let b := if hi then i + 32 else i
    if !t.canBit F.CAN_TXREQ_LO n b then t
    else match t.can[n].tx with
      | some x => if x.buf = b then t.modCan n (fun c => { c with cancel := b :: c.cancel })
          else t.canEndReq n b F.CAN_TXFAIL_LO
      | none => t.canEndReq n b F.CAN_TXFAIL_LO) s

/-- A buffer that may be requested: MODE transmit, no host error of R563. -/
def State.canMayTx (s : State) (n b : Nat) : Bool :=
  let w1 := s.mem32 (canBuf n b 4)
  w1 / 2 ^ 30 == 2 && !(bit w1 19 && (!s.flag F.CAN_CFG_FDEN n || bit (s.mem32 (canBuf n b 0)) 30))

/-! ### Errors (R556, R564, R565) -/

def codeNum : CanCode → Nat
  | .crc => 1
  | .ack => 2
  | .form => 3
  | .stuff => 4
  | .bit1 => 5
  | .bit0 => 6

/-- A bus error (R564): the counters by the rule, LASTERR, DATAERR in a data phase, NOACK. While restricted or monitoring
the counters stand and the controller waits for 11 recessive bits (R567). -/
def State.canError (s : State) (n : Fin 2) (code : CanCode) (rule : CanRule) (dataPhase : Bool) : State :=
  if !s.canOn n || s.can[n].waiting then s else
  let sending := s.can[n].tx.isSome
  let s1 := s.fset F.CAN_STATUS_LASTERR (codeNum code) n
  let s2 := if dataPhase then s1.fset F.CAN_STATUS_DATAERR (codeNum code) n else s1
  let s3 := if sending && code == .ack then s2.finc F.CAN_NOACK n else s2
  if s.canQuiet n then (s3.modCan n (fun c => { c with waiting := true })).canAfter n
  else
    let passiveAck := sending && code == .ack && s.canState n == 3
    let by' := match rule with
      | .flag => 8
      | .exempt => 0
      | .frame => if passiveAck then 0 else if sending then 8 else 1
    if sending then s3.canCounts n (s.canTec n + by') (s.canRec n)
    else (s3.canCounts n (s.canTec n) (s.canRec n + by')).canAfter n

/-- A protocol exception event (R556). -/
def State.canException (s : State) (n : Fin 2) : State :=
  if !s.canOn n then s
  else if s.flag F.CAN_CFG_EXCERR n then s.canError n .form .frame false
  else (s.raise F.CAN_STATUS_EXC n).modCan n (fun c => { c with waiting := true })

/-! ### Wake-up (R570, R571) -/

/-- The controller wakes (R571). -/
def State.canWoken (s : State) (n : Fin 2) (cause : Nat) : State :=
  let s1 := (s.raise F.CAN_WAKE_STATUS_WAKE n).fset F.CAN_WAKE_STATUS_WCAUSE cause n
  if s1.canState n = 5 then (s1.setFlag F.CAN_CTRL_SLEEP false n).fset F.CAN_STATUS_STATE 1 n else s1

/-- A good classical frame wakes (R570). -/
def State.canWakeMatch (s : State) (n : Nat) (f : CanFrame) : Bool :=
  let d := (f.id.toNat ^^^ s.fget F.CAN_WAKE_ID_ID n) &&& s.fget F.CAN_IDMASK n
  let data := ofBytesLE (canBytes { f with fdf := false })
  let wd := s.wget F.CAN_WDMASK n
  f.ide == s.flag F.CAN_WAKE_ID_IDE n && (if f.ide then d else d / 2 ^ 18) == 0 &&
    (s.flag F.CAN_WAKE_ID_DLCIGN n || s.fget F.CAN_WAKE_DLC_WDLC n == f.dlc.toNat) && (wd == 0 || data &&& wd != 0)

/-- What the wake logic sees; the answer says whether it has woken. Of a frame with less than 8 data bytes, the spec does not say what
the rest of WAKE_RXDATA holds: free. -/
def State.canSeen (s : State) (n : Fin 2) (x : CanSeen) : Bool × State :=
  match x, s.flag F.CAN_WAKE_CFG_WMODE n with
  | .dominant ns, false =>
    if s.fget F.CAN_WAKE_CFG_WFILT n * 1000 ≤ ns then (true, s.canWoken n 1) else (false, s)
  | .frame fd good f, true =>
    if fd then (false, s)
    else if good then
      let s1 := s.modCan n (fun c => { c with werr := c.werr - 1 })
      if s1.canWakeMatch n f then
        let data := canBytes { f with fdf := false }
        let r := s1.takeFree
        let s2 := r.2.fset F.CAN_WAKE_RXID (b2n f.ide * 2 ^ 31 + b2n f.rtr * 2 ^ 30 + f.id.toNat) n
        let rest := r.1.toNat / 2 ^ (8 * data.length) * 2 ^ (8 * data.length)
        (true, (s2.wset F.CAN_WAKE_RXDATA (ofBytesLE data + rest) n).canWoken n 2)
      else (false, s1)
    else
      let s1 := s.modCan n (fun c => { c with werr := c.werr + 1 })
      let lim := s.fget F.CAN_WAKE_CFG_WERRLIM n
      if lim ≠ 0 ∧ lim < s1.can[n].werr then (true, s1.canWoken n 3) else (false, s1)
  | _, _ => (false, s)

end Sys2Proof.Machine
end

