-- ==== Sys2Proof/Machine/Mark.lean ====
section
/-! DEFINITION. MARK captures (R107 to R110). -/
namespace Sys2Proof.Machine

/-- The stamp of an edge whose filtered level changes now: the first raw sample that showed the new level
(R107, R122), in the step-free timescale. -/
def State.markStamp (s : State) (n : Fin 16) : Nat := s.run - s.fget F.MT_MARK_CFG_FILT 0 n * 4 * unitNs

/-- The filtered level of an input at the present sample (R107). -/
def State.markLevel (s : State) (n : Fin 16) (w : BitVec 16) : Bool :=
  filtered (s.fget F.MT_MARK_CFG_FILT 0 n) (s.flag F.MT_MARK_STATUS_INLVL 0 n) w

/-- EDGE selects this edge and EN is 1 (R108). -/
def State.markSelected (s : State) (n : Fin 16) (rise : Bool) : Bool :=
  s.flag F.MT_MARK_CFG_EN 0 n && bit (s.fget F.MT_MARK_CFG_EDGE 0 n) (if rise then 0 else 1)

/-- The edge captures: selected, and its stamp outside the dead time (R108). -/
def State.markCaptures (s : State) (n : Fin 16) (rise : Bool) : Bool :=
  s.markSelected n rise && decide (s.mark[n].deadEnd ≤ s.markStamp n)

/-- The record of a capture: LCLK and every spindle position at the stamp, as they stood then (R107). -/
def State.markRecord (s : State) (n : Fin 16) (rise : Bool) : MarkRec :=
  let t := s.backTo (2 * s.fget F.MT_MARK_CFG_FILT 0 n)
  { lclk := t.runToLclk (s.markStamp n)
    pos := (List.finRange 16).map (fun i => wrap64 (t.spinPos i (s.markStamp n)))
    rise := rise, seq := s.mark[n].seq }

/-- A filtered edge of input `n` (R107 to R109). -/
def State.markEdge (s : State) (n : Fin 16) (rise : Bool) : State :=
  if s.flag F.MT_MARK_STATUS_INLVL 0 n == rise then s else
  let s0 := s.setFlag F.MT_MARK_STATUS_INLVL rise 0 n
  if !s.markSelected n rise then s0 else
  let s1 := s0.modMark n (fun m => { m with seq := (m.seq + 1) % 256 })
  if !s.markCaptures n rise then s1 else
  let dead := max (s.fget F.MT_MARK_CFG_DEAD 0 n * 4) 32
  let s2 := (s1.modMark n (fun m => { m with deadEnd := s.markStamp n + dead * unitNs })).celEvent 10 n.val (s.markStamp n) 0 0
  if s.mark[n].fifo.length < 256 then
    s2.modMark n (fun m => { m with fifo := m.fifo ++ [s.markRecord n rise] })
  else (s2.finc F.MT_MARK_DROP 0 n).raise F.MT_MARK_STATUS_OVF 0 n

/-- A write of 1 to POP (R110). -/
def State.markPop (s : State) (n : Fin 16) : State := s.modMark n (fun m => { m with fifo := m.fifo.drop 1 })

/-- The record the head window shows (R110). -/
def State.markHead (s : State) : Option MarkRec :=
  (s.mark[Fin.ofNat 16 (s.fget F.MT_VSEL_INPUT)]).fifo.head?

end Sys2Proof.Machine
end

