-- ==== Sys2Proof/Machine/Hooks.lean ====
section
/-! DEFINITION. What a register write does beyond storing its fields: one function for each block. `s` is the state before
the write and `p` the state with the fields stored by their access types (R3, R11); none where a rule calls the result
of the value written unpredictable. A rule that ignores the write answers `some s`. -/
namespace Sys2Proof.Machine

/-- A write accepted only where the value is a legal one. -/
def okIf (b : Bool) (p : State) : Option State := if b then some p else none

/-- A Pantry address with an alignment, or 0 (R626). -/
def panAddrLegal (v k : Nat) : Bool :=
  v == 0 || (decide (0x0800_0000 ≤ v) && decide (v < 0x0820_0000) && v % k == 0)

/-- The cycle sequencer (R22 to R25, R39, R40). -/
def State.effCyc (s p : State) (o v : Nat) : Option State :=
  if o = 0 then
    let q := s.setFlag F.CYC_CTRL_RALN (bit v 1)
    some (if bit v 0 then q.seqRun else q.seqStop)
  else if o = 4 then if s.seqBusy then some s else okIf (bitsOf v 5 4 != 3) p
  else if o = 8 then some (if s.seqBusy then s else p)
  else some p

/-- The Lodge (R55, R65). -/
def State.effLodge (s p : State) (o v : Nat) : Option State :=
  let locked := s.flag F.LODGE_CTRL_LOCK
  if o = 0 then some (if locked then p.setFlag F.LODGE_CTRL_ATTIC (s.flag F.LODGE_CTRL_ATTIC) else p)
  else if o < 0x10 then some p
  else if o < 0x30 then
    some (if locked then s
      else s.setReg (0x20000 + o) (BitVec.ofNat 32 (v &&& bworldMask ((o - 0x10) / 4))))
  else if 0x100 ≤ o then some (if locked then s else p)
  else some p

def State.effDev (s p : State) (o v : Nat) : Option State := some (if o = 0x40 then s.fuseWrite v else p)

/-- A spindle's source is a listed one (R71). -/
def srcLegal (src sel : Nat) : Bool :=
  decide (src < 6) && (src != 0 || decide (sel < 32)) && (src != 4 || decide (sel < 8)) && (src != 5 || decide (sel < 4))

/-- Where an axis source stands as its spindle is enabled. -/
def State.srcStart (s : State) (src sel : Nat) : Int :=
  if src = 2 then s.wgetS F.AX_SP_POS sel else if src = 3 then s.wgetS F.AX_ACT_POS sel else 0

/-- Spindle `n` (R72 to R74). -/
def State.effSpindle (s p : State) (n : Fin 16) (o v : Nat) : Option State :=
  if o = 0 then
    if s.spinEn n then
      if bit v 0 then some s
      else some (((s.spinHold n).setFlag F.SP_CTRL_EN false n).ledPause (fun l => l == n.val))
    else if bit v 0 then
      let src := bitsOf v 3 1
      let sel := bitsOf v 13 8
      okIf (srcLegal src sel)
        (p.spinEnable n (s.srcStart src sel) (src == 0 && s.flag F.CHUCK_FLT_ACTIVE sel))
    else some (p.setFlag F.SP_STATUS_SRCBAD (bitsOf v 3 1 == 0 && s.flag F.CHUCK_FLT_ACTIVE (bitsOf v 13 8)) n)
  else if o = 0xC then some (p.spinRescale s n)
  else if o = 0x14 then some (p.spinLoad n (p.wgetS F.SP_LOAD n))
  else some p

/-- A Ledger entry that the table of R84 gives a meaning. -/
def Entry.legal (e : Entry) (lane : Nat) : Bool :=
  decide (e.action < 7) && (decide (16 ≤ lane) || e.dir != 3) &&
    (match e.action with
      | 0 => true
      | 4 => true
      | 5 => decide (e.target < 4)
      | 6 => decide (e.target < 8)
      | _ => decide (e.target < 16))

/-- The Ledger's control registers (R85 to R90, R99, R106). -/
def State.effLedger (s p : State) (o v : Nat) : Option State :=
  if o = 0 then
    if bit v 0 then
      if s.flag F.LED_CTRL_EN || s.halted then some s else some (p.lclkLate true)
    else if s.flag F.LED_CTRL_EN then some (p.ledPause (fun _ => true)) else some p
  else if o = 4 then
    let lane := bitsOf v 20 16
    let slot := bitsOf v 14 0
    let e := s.entry slot
    okIf (decide (lane ≤ 16) && (s.isArmed slot || e.count == 0 || e.legal lane)) ((s.parityFind .ledger (slotAddr slot) 16).ledSubmit false lane slot)
  else if o = 8 then some (s.ledSubmit true 0 (bitsOf v 14 0))
  else if o = 0x24 then some (if bit v 0 then s.ledPop else s)
  else some p

/-- MARK and TOUT (R110 to R112). -/
def State.effMarkTout (s p : State) (o v : Nat) : Option State :=
  let n := Fin.ofNat 16 (o / 16)
  if o < 0x100 then some (if o % 16 = 0xC then (if bit v 0 then s.markPop n else s) else p)
  else if o < 0x200 then
    some (if o % 16 = 0 then p.toutConfig n (s.flag F.MT_TOUT_CFG_EN 0 n)
      else if o % 16 = 8 then s.toutForce n (v % 4) else p)
  else some p

/-- A Chuck channel (R117, R119, R132, R146). -/
def State.effChuck (s p : State) (c : Fin 32) (o v : Nat) : Option State :=
  if o = 0 then
    okIf (bitsOf v 19 18 != 3) (if s.chMode c = bitsOf v 1 0 then (p.chShowSector c).chGate c else p.chModeChange c)
  else if o = 8 then okIf (decide (v % 8 < 6)) (p.chShowSector c)
  else if o = 0xC then okIf (bitsOf v 3 2 != 3) p
  else if o = 0x44 then some (s.chOffset c v)
  else if o = 0x70 then some (s.chFltClear c v)
  else some p

/-- Hearth (R149, R151, R156, R163). -/
def State.effHearth (s p : State) (o v : Nat) : Option State :=
  let between (lo hi x : Int) : Bool := decide (lo ≤ x) && decide (x ≤ hi)
  if o = 0 then some (if bit v 0 && !s.ptpMode then p.servoAdj
    else if !bit v 0 && s.ptpMode && s.flag F.HEARTH_STATUS_HOLDOVER then p.holdEnd else p)
  else if o = 0x2C then some p.lclkSet
  else if o = 0x34 then p.lclkBy (p.wgetS F.HEARTH_STEP)
  else if o = 0x38 then some (if s.ptpMode then s else p)
  else if o = 0x80 then okIf (bitsOf v 3 2 != 3 && (bitsOf v 5 4 != 3 || bitsOf v 3 2 == 2)) p
  else if o = 0x84 then
    okIf (between (-7) 5 (toS 8 (v / 2 ^ 16)) && between (-3) 4 (toS 8 (v / 2 ^ 8)) && between (-7) 1 (toS 8 v)) p
  else if o = 0x88 then okIf (decide (2 ≤ bitsOf v 15 8) && decide (2 ≤ bitsOf v 7 0)) p
  else some p

/-- Rafter (R171, R177, R178). -/
def State.effRafter (s p : State) (o v : Nat) : Option State :=
  if o = 0x20 then some (s.rafFire v)
  else if o = 0x50 then
    some (if bit v 6 then if s.flag F.RAFTER_MEAS_RES_BUSY then s else p.rafMeasure else p)
  else some p

/-- A table entry that is written keeps its old word until the next cycle start (R271, R291). -/
def State.keepOld (s p : State) (a : Nat) : State :=
  if (lookupWord s.stpOld a).isSome then p else { p with stpOld := insertKey a (s.reg a) p.stpOld }

/-- The filters of an axis (R231, R233). -/
def State.effFilter (s p : State) (n : Fin 64) (o v : Nat) : Option State :=
  let f : Fin 3 := Fin.ofNat 3 ((o - 0x300) / 32)
  let w := (o - 0x300) % 32
  let a := 0x500000 + 0x1000 * n.val + o
  if w < 8 then some (p.modLp n (fun l => { l with recompute := l.recompute.set f true }))
  else if s.fget F.AX_FILT_CFG_MODE n f = 3 then
    let t := s.modLp n (fun l => { l with
      rawHeld := l.rawHeld.filter (fun x => x.1 != a) ++ [(a, BitVec.ofNat 32 v)] })
    some (if w = 24 then t.modLp n (fun l => { l with rawCommit := l.rawCommit.set f true }) else t)
  else some p

/-- LOOP_CFG (R222, R248, R249): reserved codes. MODE is ignored for virtual and stepper axes. -/
def loopCfgLegal (servo : Bool) (v : Nat) : Bool :=
  decide (bitsOf v 15 14 < 2) && (!servo || (v % 4 != 3 && !(v % 4 == 2 && bitsOf v 3 2 == 0)))

/-- REACT (R243): reserved codes. -/
def reactLegal (v : Nat) : Bool := (List.range 5).all (fun i => decide (bitsOf v (3 * i + 2) (3 * i) < 5))

/-- An axis window (R184, R187, R206, R214 to R219, R225, R234, R247, R249, R299). -/
def State.effAxis (s p : State) (n : Fin 64) (o v : Nat) : Option State :=
  if 0x800 ≤ o then
    if !s.isLeader n then some s
    else if o = 0x800 then some (if bit v 0 then s.grpAbort n else s)
    else if o = 0x880 then some (if bit v 0 then s.grpPush n else s)
    else some p
  else if 0x300 ≤ o ∧ o < 0x360 then s.effFilter p n o v
  else match o with
    | 0x0 => some (if s.running then s else p.persistent n)
    | 0x4 => okIf (decide (v % 16 < 11)) (s.axCmdWrite n (v % 16))
    | 0x70 => some (if s.fget F.AX_LOOP_CFG_EXTSRC n = 1 then s else p)
    | 0x74 => some (if s.fget F.AX_LOOP_CFG_EXTSRC n = 1 then s else p)
    | 0x10C => some (p.modAx n (fun x => { x with newRamp := true }))
    | 0x144 => okIf (panAddrLegal v 16) p
    | 0x148 => okIf (panAddrLegal v 16) p
    | 0x184 => some (p.axShift n (p.wgetS F.AX_SHIFT n))
    | 0x200 => if s.flag F.AX_LOOP_CTRL_EN n then some s else okIf (loopCfgLegal (s.axKind n == 1 || s.axKind n == 2) v) (p.persistent n)
    | 0x204 => some (s.loopCtrl n v)
    | 0x380 => some (s.axFaultClear n (v % 256))
    | 0x384 => okIf (reactLegal v) (p.faultRelease n)
    | 0x400 => if s.fstate n ≠ 0 then some s else okIf (v % 4 != 3) (p.persistent n)
    | _ => some (if 0x500 ≤ o ∧ o < 0x540 then s.keepOld p (0x500000 + 0x1000 * n.val + o) else p)

/-- A CMD input (R250). -/
def State.effCmd (s p : State) (k : Fin 8) (o _v : Nat) : Option State :=
  some (if o = 0 then p.cmdConfig k (s.fget F.CMD_CFG_MODE k) else p)

/-- Sill (R256). -/
def State.effSill (_s p : State) (o v : Nat) : Option State :=
  if o = 0 then okIf (decide (bitsOf v 13 8 ≤ 32) && bitsOf v 3 2 != 3) p else some p

/-- An output that is no longer driven emits no further pulse of its cycle (R300). -/
def State.stpOff (s : State) (o : Fin 16) : State :=
  let q := s.stp[o]
  { s with stp := s.stp.set o { q with pulses := q.emitted } }

/-- Step/direction outputs and the microstep table (R291, R300). -/
def State.effStp (s p : State) (o v : Nat) : Option State :=
  if o < 0x200 then
    if o % 0x20 = 0 then okIf (decide (bitsOf v 7 4 < 9)) (if bit v 0 then p else p.stpOff (Fin.ofNat 16 (o / 0x20))) else some p
  else some (s.keepOld p (0x710000 + o))

/-- A bridge link (R308, R319, R322). -/
def State.effBridge (s p : State) (l : Fin 16) (o v : Nat) : Option State :=
  if o = 0 then some (p.blCtrl l (s.flag F.BL_CTRL_EN l) v)
  else if o = 4 then
    let ds := toS 16 (v / 2 ^ 16)
    okIf (decide (-2000 ≤ ds) && decide (ds ≤ 1000)) p
  else some p

/-- The Skew engine (R330, R345, R509). -/
def State.effSkew (s p : State) (o v : Nat) : Option State :=
  if o = 0 then
    let q := if s.halted && !s.flag F.SKEW_CTRL_EN then p.setFlag F.SKEW_CTRL_EN false else p
    some (if !s.flag F.SKEW_CTRL_EN && q.flag F.SKEW_CTRL_EN then { q with skew := { q.skew with seq := 0 } } else q).skewConfig
  else if o = 4 then okIf (panAddrLegal v 128) p
  else some p

/-- A bar (R347, R351). -/
def State.effBar (s p : State) (b : Fin 16) (o v : Nat) : Option State :=
  if o = 0 then
    if s.flag F.BAR_CFG_EN b then some (if bit v 0 then s else (s.setFlag F.BAR_CFG_EN false b).skewConfig)
    else okIf (bitsOf v 5 4 != 3) p.skewConfig
  else if o = 0x20 ∨ o = 0x24 ∨ o = 0x30 then
    some (if p.fget F.BAR_OPSLEW b = 0 then p.wsetS F.BAR_OPE (p.wgetS F.BAR_OPOFS b) b else p)
  else if o = 0xA0 then some (if bit v 0 then s.barCreset b else s)
  else some p

/-- A jet link (R367, R368, R376). -/
def State.effJet (s p : State) (l : Fin 8) (o v : Nat) : Option State :=
  if o = 0 then some (p.jlCtrl l (s.flag F.JL_CTRL_EN l) v)
  else if o = 4 then okIf (decide (v ≤ 16)) p
  else if o = 0xC then some (if bit v 4 then p.jlDownload l else p)
  else some p

/-- A Gouge core (R426, R429, R444). -/
def State.effGouge (s p : State) (n : Fin 10) (o v : Nat) : Option State :=
  if o = 0 then
    let t := p.coreEnable n
    some (if bit v 1 then t.coreFault n .force else t)
  else if 0x100 ≤ o ∧ o < 0x200 then
    let a := 0x600000 + 0x1000 * n.val + o
    let legal := if o % 8 = 0 then bitsOf v 30 29 != 3 else panAddrLegal (v / 256 * 256) 1
    okIf legal (if s.flag F.GOUGE_CTRL_EN n then
        s.modCore n (fun c => { c with held := c.held.filter (fun x => x.1 != a) ++ [(a, BitVec.ofNat 32 v)] })
      else p)
  else some p

/-- The registers the cores share (R417, R429, R445). -/
def State.effGs (s p : State) (o v : Nat) : Option State :=
  if o = 0 then
    if (List.finRange 10).any (fun (n : Fin 10) => s.coreState n == 4) then some s
    else okIf (decide (v % 16 < 10) || v % 16 == 15) p
  else if o = 8 ∨ o = 0xC then okIf ((List.range 8).all (fun i => decide (bitsOf v (4 * i + 3) (4 * i) < 10))) p
  else some p

/-- The Pantry (R418, R626). -/
def State.effPan (_s p : State) (o v : Nat) : Option State :=
  if o = 0 then okIf (panAddrLegal v 512) p else some p

/-- The Cellar's registers (R453, R458, R465): a write of several of ARM, STOP and FORCE stops, then arms, then forces. -/
def State.effCellar (s p : State) (o v : Nat) : Option State :=
  if o = 4 then
    let t1 := if bit v 1 then s.celStop else s
    let arms := bit v 0 && !t1.celActive
    let t2 := if arms then t1.celArm else t1
    okIf (!arms || t1.celLegal) (if bit v 2 then t2.celForce else t2)
  else if o = 0x38 then okIf (decide (64 ≤ bitsOf v 15 0) && decide (bitsOf v 15 0 ≤ 8972)) p
  else if s.celActive && (o == 0 || (decide (0xC ≤ o) && decide (o < 0x20)) || o == 0x44 ||
      (decide (0x100 ≤ o) && decide (o < 0x180)) || decide (0x200 ≤ o)) then some s
  else some p

/-- Threshold's requests (R480, R490). -/
def State.effThr (s p : State) (o v : Nat) : Option State :=
  some (if o = 4 then s.thrRequest (bitsOf v 31 16) (v % 16) else p)

/-- Faults and the Attic (R521 to R523). -/
def State.effFault (s p : State) (o v : Nat) : Option State :=
  if o = 0 then some (p.fset F.FLT_FAULT_CFG_REC (bitsOf v 31 28 ||| 8))
  else if o = 0x38 then some (s.atticClear (bitsOf v 31 16) (bit v 0))
  else if o = 0x58 then some (s.atticUser (bitsOf v 31 24) (bitsOf v 15 0))
  else some p

/-- The 64-bit FLTRST mask asks the remote axes named for a fault reset (R537). -/
def State.joistFltrst (s : State) (m : Nat) : State := s.modJo (fun j => { j with fltrst := j.fltrst ||| m })

/-- Hallway and Joist (R524 to R530, R537). -/
def State.effHallway (s p : State) (o v : Nat) : Option State :=
  if o < 0x200 then
    let q : Fin 4 := Fin.ofNat 4 (o / 0x80)
    let pend := s.flag F.HW_QBV_CTRL_PEND 0 q
    match o % 0x80 with
    | 0x0 => okIf (modeAllowed q (v % 8)) (p.portDown q)
    | 0x20 =>
      let t := p.qbvApply q
      some (if bit v 1 then t.qbvCommit q else t)
    | 0x24 => some (if pend then s else p)
    | 0x28 => some (if pend then s else p)
    | 0x2C => some (if pend then s else p)
    | 0x30 => if pend then some s else okIf (decide (v ≤ 64)) p
    | _ => some p
  else if 0x1000 ≤ o ∧ o < 0x1800 then some (if s.flag F.HW_QBV_CTRL_PEND 0 ((o - 0x1000) / 0x200) then s else p)
  else match o with
    | 0x404 => okIf (decide (v ≤ 9022)) p
    | 0x424 =>
      if s.flag F.HW_MDIO_CMD_BUSY then some s
      else okIf (bitsOf v 28 27 != 3) (s.mdioWrite v)
    | 0x202C => some (p.joistFltrst (p.wget F.HW_J_FLTRST))
    | _ => some p

/-- Buffers newly requested may be sent (R563). -/
def State.canMayTxAll (s : State) (n : Nat) (hi : Bool) (v : Nat) : Bool :=
  (setBits 32 v).all (fun i => s.canMayTx n (if hi then i + 32 else i))

/-- A CAN controller (R554 to R569). `idle` says whether the bus is idle; where the command does not say, it is free. -/
def State.effCan (s p : State) (n : Fin 2) (o v : Nat) (idle : Option Bool) : Option State :=
  let frozen := !s.flag F.CAN_CTRL_INIT n
  match o with
  | 0x0 => match idle with
    | some b => some (s.canCtrl n v b)
    | none =>
      let r := s.takeFree
      some (r.2.canCtrl n v (r.1.getLsbD 0))
  | 0x4 => some (if frozen then s else p)
  | 0x8 => if frozen then some s else okIf (decide (8 ≤ bitsOf v 23 16 + bitsOf v 15 9 + 3)) p
  | 0xC => if frozen then some s else okIf (decide (5 ≤ bitsOf v 12 8 + bitsOf v 19 16 + 3)) p
  | 0x10 => some (if frozen then s else p)
  | 0x40 => okIf (s.canMayTxAll n false v) p
  | 0x44 => okIf (s.canMayTxAll n true v) p
  | 0x48 => some (s.canCancel n false v)
  | 0x4C => some (s.canCancel n true v)
  | 0x60 => some (s.canNewdat n false v)
  | 0x64 => some (s.canNewdat n true v)
  | _ => some p

/-- Power, resets and the watchdog (R594, R597, R598). -/
def State.effPower (s p : State) (o v : Nat) : Option State :=
  match o with
  | 0x0 => some (s.pwrReset v)
  | 0x20 => some (s.sleepRequest v)
  | 0x40 => some (s.wdtStart v)
  | 0x44 => some (s.wdtKick (v % 2 ^ 16))
  | _ => some p

/-- What a write to a listed register does (R3 to R11 and the rules of its block). -/
def State.regEffect (s p : State) (a v : Nat) (idle : Option Bool) : Option State :=
  let o := a % 0x1000
  if a < 0x20000 then s.effDev p o v
  else if a < 0x30000 then s.effLodge p o v
  else if a < 0x30400 then s.effPower p o v
  else if a < 0x30600 then s.effCyc p (o - 0x400) v
  else if a < 0x30800 then s.effGs p (o - 0x600) v
  else if a < 0x30A00 then s.effPan p (o - 0x800) v
  else if a < 0x30C00 then s.effThr p (o - 0xA00) v
  else if a < 0x100000 then s.effFault p (o - 0xC00) v
  else if a < 0x110000 then s.effHearth p o v
  else if a < 0x200000 then s.effRafter p o v
  else if a < 0x300000 then s.effHallway p (a - 0x200000) v
  else if a < 0x400000 then s.effChuck p (Fin.ofNat 32 ((a - 0x300000) / 0x400)) (a % 0x400) v
  else if a < 0x410000 then s.effSpindle p (Fin.ofNat 16 ((a - 0x400000) / 0x100)) (a % 0x100) v
  else if a < 0x500000 then s.effLedger p o v
  else if a < 0x600000 then s.effAxis p (Fin.ofNat 64 ((a - 0x500000) / 0x1000)) o v
  else if a < 0x700000 then s.effGouge p (Fin.ofNat 10 ((a - 0x600000) / 0x1000)) o v
  else if a < 0x710000 then s.effBridge p (Fin.ofNat 16 ((a - 0x700000) / 0x200)) (a % 0x200) v
  else if a < 0x720000 then s.effStp p o v
  else if a < 0x730000 then s.effCmd p (Fin.ofNat 8 ((a - 0x720000) / 0x20)) (a % 0x20) v
  else if a < 0x740000 then s.effSill p o v
  else if a < 0x800000 then s.effMarkTout p o v
  else if a < 0x801000 then s.effSkew p o v
  else if a < 0x802000 then s.effBar p (Fin.ofNat 16 ((a - 0x801000) / 0x100)) (a % 0x100) v
  else if a < 0x810000 then some p
  else if a < 0x900000 then s.effJet p (Fin.ofNat 8 ((a - 0x810000) / 0x200)) (a % 0x200) v
  else if a < 0xA00000 then s.effCellar p o v
  else s.effCan p (Fin.ofNat 2 ((a - 0xA00000) / 0x1000)) o v idle

end Sys2Proof.Machine
end

