-- ==== Sys2Proof/Machine/Bus.lean ====
section
/-! DEFINITION. Fabric accesses (R3 to R11, R47 to R50, R413, R414, R625): a read or a write of a register, of a memory
window, or of a part of the register space that is memory, by a master, checked by the Lodge. -/
namespace Sys2Proof.Machine

/-- Bytes of an access. -/
def sizeBytes : Size → Nat
  | .b8 => 1
  | .b16 => 2
  | .b32 => 4

/-! ### What registers show -/

/-- A field put over a word. -/
def withPart (f : Fld) (v w : Nat) : Nat := putBits w f.hi f.lo v

/-- Word `i` of a number of 32-bit words. -/
def wordOf (v : Int) (i : Nat) : Nat := ofS 32 (v / ((2 ^ (32 * i) : Nat) : Int))

/-- The registers of a spindle that show it live (R70 to R77). -/
def State.viewSpindle (s : State) (n : Fin 16) (o w : Nat) : Nat :=
  let i := o / 4 % 2
  if o = 0x18 ∨ o = 0x1C then wordOf (s.spinPos n s.run) i
  else if o = 0x20 ∨ o = 0x24 then wordOf (s.spinVel n s.run) i
  else if o = 0x28 ∨ o = 0x2C then wordOf (s.spinAcc n) i
  else w

/-- The Ledger's completion FIFO and armed counts (R102, R105, R106). -/
def State.viewLedger (s : State) (o w : Nat) : Nat :=
  if o = 0x18 then
    match s.led.done.head? with
    | none => 0
    | some d => withPart F.LED_DONE_LO_VALID 1 (withPart F.LED_DONE_LO_LANE d.lane (withPart F.LED_DONE_LO_CODE d.code
        (withPart F.LED_DONE_LO_LAST (b2n d.last) d.slot)))
  else if o = 0x1C then ((s.led.done.head?).map (·.ns32)).getD 0
  else if o = 0x20 then withPart F.LED_DONE_STATUS_LEVEL s.led.done.length w
  else if 0x40 ≤ o then (s.led.armed.filter (fun a => a.lane == (o - 0x40) / 4)).length
  else w

/-- The MARK inputs and the head window (R107 to R110). -/
def State.viewMark (s : State) (o w : Nat) : Nat :=
  if o < 0x100 then
    if o % 16 = 4 then withPart F.MT_MARK_STATUS_LEVEL (s.mark[Fin.ofNat 16 (o / 16)]).fifo.length w else w
  else if o < 0x200 then
    if o % 16 = 4 then withPart F.MT_TOUT_STATUS_LEVEL (b2n (s.toutShown (Fin.ofNat 16 (o / 16)))) w else w
  else if o < 0x300 then w
  else match s.markHead with
    | none => 0
    | some r =>
      let ns := r.lclk / unitNs
      if o = 0x300 then ns / 10 ^ 9 % 2 ^ 32
      else if o = 0x304 then ns % 10 ^ 9
      else if o = 0x308 then withPart F.MT_REC_VALID 1 (withPart F.MT_REC_RISE (b2n r.rise) r.seq)
      else if o < 0x310 then 0
      else wordOf ((r.pos[(o - 0x310) / 8]?).getD 0) (o / 4 % 2)

/-- Hearth's live registers (R1, R148, R165). LCLK's FRAC is in units of 2⁻³² ns. -/
def State.viewHearth (s : State) (o w : Nat) : Nat :=
  let ns := s.nowNs
  if o = 0x10 then s.lclk % unitNs / 2 ^ 7
  else if o = 0x14 then ns % 10 ^ 9
  else if o = 0x18 then ns / 10 ^ 9 % 2 ^ 32
  else if o = 0x1C then ns / 10 ^ 9 / 2 ^ 32 % 2 ^ 16
  else if o = 0x20 then ns32 ns
  else if o = 0x64 then s.holdTime
  else if 0xC0 ≤ o ∧ o < 0x100 then
    if o % 16 = 8 then withPart F.HEARTH_PORT_STATE (s.portState (Fin.ofNat 4 ((o - 0xC0) / 16))) w
    else if o % 16 = 12 then s.linkDly (Fin.ofNat 4 ((o - 0xC0) / 16))
    else w
  else w

/-- Rafter's STATUS: lines busy and RAFCLK (R169, R180). Whether another unit drives RAFCLK is the environment's; a unit
strapped to it runs on it. -/
def State.viewRafter (s : State) (o w : Nat) : Nat :=
  if o = 0x90 then
    withPart F.RAFTER_STATUS_BUSY (maskOf ((List.finRange 4).filter (fun (l : Fin 4) => s.rafBusy l) |>.map (fun l => l.val)))
      (withPart F.RAFTER_STATUS_CLKOK
        (b2n (if s.boot.refsel then !s.raf.noEdges else s.flag F.RAFTER_CFG_CLKDRV || Config.rafclkSeen s.phys)) w)
  else w

/-- What the Skew engine's THERM (R337), a jet link's MODOK (R379) and its BUSY (R376) read. -/
def State.viewPrint (s : State) (a w : Nat) : Nat :=
  let l : Fin 8 := Fin.ofNat 8 ((a - 0x81_0000) / 0x200)
  if 0x80_0200 ≤ a ∧ a < 0x80_0400 then withPart F.SKEW_MODH_THERM (ofS 16 (s.therm ((a - 0x80_0200) / 4))) w
  else if a < 0x81_0000 ∨ 0x81_1000 ≤ a then w
  else if a % 0x200 = 8 then withPart F.JL_STATUS_MODOK (s.modOk l) w
  else if a % 0x200 = 0x10 then withPart F.JL_DLSTAT_BUSY (b2n (s.dlBusy l)) w
  else w

/-- What a register holds as a read shows it. -/
def State.view (s : State) (a : Nat) : Nat :=
  let w := (s.reg a).toNat
  let o := a % 0x1000
  if a < 0x20000 then
    if o = 8 then Config.uid.toNat % 2 ^ 32
    else if o = 0xC then Config.uid.toNat / 2 ^ 32
    else if o = 0x10 then s.fuse 0
    else if 0x20 ≤ o ∧ o < 0x40 then s.fuse (8 + (o - 0x20) / 4)
    else w
  else if a < 0x30000 then w
  else if a < 0x100000 then if a = 0x30048 then s.wdtLeft else w
  else if a < 0x110000 then s.viewHearth o w
  else if a < 0x200000 then s.viewRafter o w
  else if a < 0x400000 then w
  else if a < 0x410000 then s.viewSpindle (Fin.ofNat 16 ((a - 0x400000) / 0x100)) (a % 0x100) w
  else if a < 0x500000 then s.viewLedger o w
  else if a < 0x600000 then if 0x800 ≤ o ∧ !s.isLeader ((a - 0x500000) / 0x1000) then 0 else w
  else if 0x710000 ≤ a ∧ a < 0x710200 ∧ a % 0x20 = 8 then
    withPart F.STP_STATUS_DIRLVL (b2n (s.stpDir ((a - 0x710000) / 0x20))) w
  else if a < 0x730000 then w
  else if a < 0x740000 then if o = 4 then withPart F.SILL_STATUS_BUSY (b2n s.sillBusy) w else w
  else if a < 0x800000 then s.viewMark o w
  else if a < 0x820000 then s.viewPrint a w
  else w

/-- Bring what is counted as time passes up to date: the end of a stopping cycle (R25) and the step outputs (R294). -/
def State.settle (s : State) : State :=
  forFin 64 (fun n t => match t.axStp n with
    | some o => t.stpSettle n o
    | none => t) s.seqSettle

/-- The same for an access at `a`: a spindle's standstill and wrap (R75, R77) as its STATUS shows them, a committed gate
list (R530); they came about before this FCLK cycle. -/
def State.settleAt (s : State) (a : Nat) : State :=
  let t := s.settle
  if 0x40_0000 ≤ a ∧ a < 0x40_1000 then
    let n : Fin 16 := Fin.ofNat 16 ((a - 0x40_0000) / 0x100)
    { (t.spinStandstill n).spinNorm n with strobe := t.strobe }
  else if 0x20_0000 ≤ a ∧ a < 0x20_2000 then forFin 4 (fun p u => u.qbvStart p) t
  else t

/-! ### Registers -/

/-- A row that holds a field of the secure world alone (R4). -/
def RegD.guarded (r : RegD) : Bool := r.fields.any (fun f => f.secure)

/-- A byte of these `n` from byte `b` belongs to a field of the secure world alone. -/
def RegD.guardedBytes (r : RegD) (b n : Nat) : Bool :=
  r.fields.any (fun f => f.secure && decide (f.lo < 8 * (b + n)) && decide (8 * b ≤ f.hi))

def RegD.writeMask (r : RegD) (t : Access) : Nat := r.mask (fun f => f.ty == t)

/-- A word stored by the access types of its fields (R3). `set`: the bits the device has set in this FCLK cycle, which a
write of this cycle does not clear (R5). -/
def RegD.store (r : RegD) (old set v : Nat) : Nat :=
  let rw := r.writeMask .rw
  let w1c := r.writeMask .w1c
  let w1s := r.writeMask .w1s
  let w := old - (old &&& rw) + (v &&& rw)
  (w - (w &&& (v &&& w1c))) ||| (old &&& set &&& w1c) ||| (v &&& w1s)

/-- A word of a wide value as it is stored: WO fields too (R11). -/
def RegD.storeWide (r : RegD) (old v : Nat) : Nat :=
  let m := r.writeMask .rw ||| r.writeMask .wo
  old - (old &&& m) + (v &&& m)

/-- The write of a highest word commits the whole value (R11): lower words as held, or as last committed. -/
def State.commitWide (s : State) (r : RegD) (a v : Nat) : State :=
  let base := a - 4 * r.word
  let lower := (List.range r.word).map (fun i => base + 4 * i)
  let s1 := forList lower (fun x t => match lookupWord t.held x with
    | some w => { t with regs := t.regs.set x w, held := eraseKey x t.held }
    | none => t) s
  s1.setReg a (BitVec.ofNat 32 (r.storeWide (s1.reg a).toNat v))

/-- A register with its fields written (R3, R5, R6, R11). -/
def State.plainWrite (s : State) (r : RegD) (a v : Nat) : State :=
  if r.words = 1 then
    let t := s.setReg a (BitVec.ofNat 32 (r.store (s.reg a).toNat (s.justSet a) v))
    if v &&& r.writeMask .w1s = 0 then t else t.noteWrote a (v &&& r.writeMask .w1s)
  else if r.writeMask .rw ||| r.writeMask .wo = 0 then s
  else if r.word + 1 = r.words then s.commitWide r a v
  else { s with held := insertKey a (BitVec.ofNat 32 (r.storeWide (s.reg a).toNat v)) s.held }

/-- A 32-bit write to a listed register by a master the Lodge lets through (R4, R8). -/
def State.regWrite (s : State) (m : Master) (r : RegD) (a v : Nat) (idle : Option Bool) :
    Except Refusal State :=
  if r.guarded && !s.masterSecure m then .ok (s.violate m .wwrite a)
  else if v - (v &&& r.mask (fun _ => true)) ≠ 0 then .error .reservedField
  else match s.regEffect (s.plainWrite r a v) a v idle with
    | some t => .ok t
    | none => .error .unpredictable

/-- A register whose words are one number wider than 32 bits (R10): a read of the lowest word takes a snapshot. -/
def State.readWide (s : State) (r : RegD) (a : Nat) : Nat × State :=
  if r.word = 0 then
    (s.view a, forList (List.range (r.words - 1)) (fun i t =>
      { t with snaps := insertKey (a + 4 * i + 4) (BitVec.ofNat 32 (s.view (a + 4 * i + 4))) t.snaps }) s)
  else ((lookupWord s.snaps a).map (·.toNat) |>.getD (s.view a), s)

/-- A field of a word, still in its place. -/
def FieldD.part (f : FieldD) (w : Nat) : Nat := bitsOf w f.hi f.lo * 2 ^ f.lo

/-- What a read of RC fields returns and leaves: a field that the device has set in this FCLK cycle (`set`) returns its value
at the cycle's start, `old`, and keeps the new one (R7), and any other is cleared (R3). -/
def RegD.readClear (r : RegD) (old set now : Nat) : Nat × Nat :=
  (r.fields.filter (fun f => f.ty == .rc)).foldl (fun x f =>
    if f.part set ≠ 0 then (x.1 - f.part now + f.part old, x.2) else (x.1, x.2 - f.part now)) (now, now)

/-- A read of a listed register, as an access at `at'` in it: WO fields read zero, RC fields are cleared by it (R3, R4, R10). -/
def State.regRead (s : State) (m : Master) (r : RegD) (a at' : Nat) : Nat × State :=
  if r.guarded && !s.masterSecure m then (0, s.violate m .wread at')
  else
    let x := if r.words = 1 then (s.view a, s) else s.readWide r a
    let wo := r.writeMask .wo
    if r.writeMask .rc = 0 then ((x.1 &&& r.mask (fun _ => true)) - (x.1 &&& wo), x.2)
    else
      let y := r.readClear (x.2.cycleRegs.get a).toNat (x.2.justSet a) (x.2.reg a).toNat
      ((y.1 &&& r.mask (fun _ => true)) - (y.1 &&& wo), x.2.setReg a (BitVec.ofNat 32 y.2))

/-! ### The CAN message RAM (R559, R563) -/

/-- The bits of a message buffer's word that the table names or leaves to data. -/
def canWordMask (o : Nat) : Nat :=
  if o = 4 then 0xF00C_F000 else if o = 0x10 then 0xDFFF_FFFF else if o = 0x14 then 0x000E_F000
  else if o = 0x1C ∨ 0x60 ≤ o then 0 else 0xFFFF_FFFF

def State.canRamWrite (s : State) (a v : Nat) : Except Refusal State :=
  let i := a - 0x00A0_4000
  let o := i % 0x80
  if v - (v &&& canWordMask o) ≠ 0 then .error .reservedField
  else if s.canBit F.CAN_TXREQ_LO (i / 0x2000) (i % 0x2000 / 0x80) ∨ (o = 4 ∧ v / 2 ^ 30 = 3) then .error .unpredictable
  else .ok (s.setMem32 a v)

/-! ### Memory windows -/

/-- The window an address lies in and its parity memory; none where there is no window. -/
def memKindOf (a : Nat) : Option MemKind :=
  match entryOf a with
  | none => none
  | some e =>
    if e < 158 then none
    else if e = 158 then some .ledger
    else if e = 159 then some .loft
    else if e = 160 then some .cellar
    else if e = 161 then some .pantry
    else some .gouge

/-- A read finds the word's parity bad (R428, R513, R625). -/
def State.parityRead (s : State) (k : MemKind) (a : Nat) : State :=
  if s.parityBad a then s.memFault k (a / 4 * 4) else s

/-- The word number of a Gouge word in GOUGE_MERR's form: core in [31:28], local word address below (R445). -/
def merrAddr (a : Nat) : Nat :=
  let n := (a - 0x1000_0000) / 0x10_0000
  let o := a % 0x10_0000
  n * 2 ^ 28 + (if 0x2_0000 ≤ o then (o - 0x2_0000) / 4 else o / 4)

/-- A write into a window that holds 32-bit words with one parity bit (R625): a narrower write merges, and cures
nothing. -/
def State.memMerge (s : State) (k : MemKind) (a n v : Nat) : State :=
  if n = 4 then (s.setMem32 a v).parityCure a 4 else (s.parityRead k a).writeN a n v

/-- A module's bar is enabled (R326, R330). -/
def State.moduleBusy (s : State) (m : Nat) : Bool :=
  s.modEn m && (s.bar[Fin.ofNat 16 (s.modBarNo m)]).on

/-- A module's columns are being downloaded (R325). -/
def State.columnsBusy (s : State) (m : Nat) : Bool :=
  let l : Fin 8 := Fin.ofNat 8 (m / 16)
  s.dlBusy l && s.jet[l].dl.any (fun d => d.1 == m % 16)

/-- A write into Loft, and the host errors of R325 and R326. A geometry record is memory: its bits that must be zero, and
the regions marked Reserved, are stored as written and mean nothing (DESIGN CHOICE: R325 and R326 state no
consequence). -/
def State.loftWrite (s : State) (a n v : Nat) : Except Refusal State :=
  let o := a - 0x0500_0000
  let t := s.memMerge .loft a n v
  if o < 0x1000 then
    if s.moduleBusy (o / 32) then .error .unpredictable
    else
      let w := t.mem32 (a / 4 * 4)
      if o % 32 / 4 = 3 ∧ 2048 < bitsOf w 11 0 then .error .unpredictable
      else .ok t
  else if o < 0x4000 then .ok t
  else if o < 0xC000 then if s.moduleBusy ((o - 0x4000) / 256) then .error .unpredictable else .ok t
  else if 0x4_0000 ≤ o ∧ o < 0xC_0000 then
    if s.columnsBusy ((o - 0x4_0000) / 4096) then .error .unpredictable else .ok t
  else .ok t

/-- A write into Ledger memory: an armed slot ignores it, and so does ARMED (R83, R87). -/
def State.ledgerWrite (s : State) (a n v : Nat) : State :=
  let slot := (a - 0x0400_0000) / 16
  if s.isArmed slot then s
  else
    let t := s.memMerge .ledger a n v
    let w := slotAddr slot + 8
    if bit (t.mem32 w) 16 then t.setMem32 w (putBits (t.mem32 w) 16 16 0) else t

/-- A Gouge local window: program memory, and X and Y as 24-bit words (R413 to R415). -/
def State.gougeWrite (s : State) (m : Master) (a n v : Nat) : Except Refusal State :=
  if a % 0x10_0000 < 0x2_0000 then
    if n ≠ 4 then .ok (s.violate m .size a)
    else if s.flag F.GOUGE_CTRL_EN ((a - 0x1000_0000) / 0x10_0000) then .error .unpredictable
    else .ok ((s.setMem32 a v).parityCure a 4)
  else
    let keep := min n (3 - a % 4)
    .ok ((s.writeN a keep v).parityCure a n)

def State.gougeRead (s : State) (m : Master) (a n : Nat) : Nat × State :=
  if a % 0x10_0000 < 0x2_0000 ∧ n ≠ 4 then (0, s.violate m .size a)
  else
    let w := a / 4 * 4
    let v := if a % 0x10_0000 < 0x2_0000 then s.mem32 w else ofS 32 (toS 24 (s.mem24 w))
    (v / 2 ^ (8 * (a % 4)) % 2 ^ (8 * n), if s.parityBad a then s.memFault .gouge (merrAddr a) else s)

def State.memWrite (s : State) (m : Master) (k : MemKind) (a n v : Nat) : Except Refusal State :=
  match k with
  | .gouge => s.gougeWrite m a n v
  | .ledger => .ok (s.ledgerWrite a n v)
  | .loft => s.loftWrite a n v
  | _ => .ok (s.memMerge k a n v)

def State.memRead (s : State) (m : Master) (k : MemKind) (a n : Nat) : Nat × State :=
  match k with
  | .gouge => s.gougeRead m a n
  | _ => (s.readN a n, s.parityRead k a)

/-! ### Accesses -/

/-- A part of the register space that is memory: the Floorplan table, the message RAM, the Attic window. -/
def State.flatWord (s : State) (a : Nat) : Option Nat :=
  if a < 0x1000 then some (s.floorWord a)
  else if 0xA04000 ≤ a ∧ a < 0xA08000 then some (s.mem32 a)
  else if 0xC00000 ≤ a ∧ a < 0xC40000 then some (s.mem32 a)
  else none

/-- A write to the register space past the Lodge (R45, R48, R504). -/
def State.spaceWrite (s : State) (m : Master) (n a v : Nat) (idle : Option Bool) :
    Except Refusal State :=
  let r := regAt (a / 4 * 4)
  if n ≠ 4 then
    let g := match r with
      | some d => d.guardedBytes (a % 4) n
      | none => false
    .ok (s.violate m (if g && !s.masterSecure m then .wwrite else .size) a)
  else if a < 0x1000 ∨ (0xB00000 ≤ a ∧ a < 0xB01000) ∨ (0xC00000 ≤ a ∧ a < 0xC40000) then .ok s
  else if 0xA04000 ≤ a ∧ a < 0xA08000 then s.canRamWrite a v
  else match r with
    | none => .error .unlistedAddress
    | some d => s.regWrite m d a v idle

/-- A read of VAL or MEAS of a CMD input forms its frequency anew (R76, R252). -/
def State.readForms (s : State) (w : Nat) : State :=
  let k : Fin 8 := Fin.ofNat 8 ((w - 0x720000) / 0x20)
  if w = F.CMD_VAL.addr k 0 ∨ w = F.CMD_MEAS.addr k 0 then s.cmdRefresh k else s

/-- A read of the register space past the Lodge: the whole register, of which a narrow read returns its bytes (R48). An
unlisted address gives a free value (R9). -/
def State.spaceRead (s0 : State) (m : Master) (n a : Nat) : Nat × State :=
  let w := a / 4 * 4
  let s := s0.readForms w
  let x := match s.flatWord w with
    | some v => (v, s)
    | none => match regAt w with
      | some d => s.regRead m d w a
      | none =>
        let r := s.takeFree
        (r.1.toNat % 2 ^ 32, r.2)
  (x.1 / 2 ^ (8 * (a % 4)) % 2 ^ (8 * n), x.2)

/-- An access of a HOST master to the Pantry (R436, R439). -/
def State.hostMark (s : State) (m : Master) (k : MemKind) : State :=
  match m with
  | .gouge _ => s
  | .skew => s
  | _ => if k = .pantry then { s with hostPan := true } else s

/-- A fabric write (R48 to R62). `idle`: for a CAN CTRL register, whether its bus is idle. -/
def State.busWrite (s : State) (m : Master) (size : Size) (a v : Nat) (idle : Option Bool := none) :
    Except Refusal State :=
  let n := sizeBytes size
  if a % n ≠ 0 then .error .unaligned
  else
    let l := (s.settleAt a).lodge m true a
    if !l.1 then .ok l.2
    else if a < 0x0400_0000 then l.2.spaceWrite m n a v idle
    else match memKindOf a with
      | none => .error .unlistedAddress
      | some k => (l.2.hostMark m k).memWrite m k a n (v % 2 ^ (8 * n))

/-- A fabric read and what it returns. -/
def State.busRead (s : State) (m : Master) (size : Size) (a : Nat) : Except Refusal (Nat × State) :=
  let n := sizeBytes size
  if a % n ≠ 0 then .error .unaligned
  else
    let l := (s.settleAt a).lodge m false a
    if !l.1 then .ok (0, l.2)
    else if a < 0x0400_0000 then .ok (l.2.spaceRead m n a)
    else match memKindOf a with
      | none =>
        let r := l.2.takeFree
        .ok (r.1.toNat % 2 ^ (8 * n), r.2)
      | some k => .ok ((l.2.hostMark m k).memRead m k a n)

/-! ### REGS records (R580) -/

/-- One 32-bit read by the loader. -/
def State.loaderRead (s : State) (a : Nat) : Except Refusal (Nat × State) := s.busRead .loader .b32 a

/-- Drop the first record and its wait. -/
def State.regsNext (s : State) : State :=
  s.modBoot (fun b => { b with load := b.load.map (fun l => { l with recs := l.recs.drop 1, wait := none }) })

/-- The first record waits from now on. -/
def State.regsWait (s : State) : State :=
  s.modBoot (fun b => { b with load := b.load.map (fun l => { l with wait := some s.phys }) })

/-- Carry out records until a POLL or a DELAY waits; after the last the load is done (R586). -/
def State.regsRun : Nat → State → Except Refusal State
  | 0, s => .ok s
  | k + 1, s =>
    match s.boot.load with
    | none => .ok s
    | some l =>
      match l.recs with
      | [] => .ok (if l.pass2 then s.bootDone l else s)
      | (a, v, m) :: _ =>
        let at' := a / 4 * 4
        match a % 4 with
        | 0 => (s.busWrite .loader .b32 at' v).bind (fun t => State.regsRun k t.regsNext)
        | 1 => (s.loaderRead at').bind (fun x =>
            (x.2.busWrite .loader .b32 at' (x.1 - (x.1 &&& m) + (v &&& m))).bind (fun t => State.regsRun k t.regsNext))
        | 2 => (s.loaderRead at').bind (fun x =>
            if x.1 &&& m = v then State.regsRun k x.2.regsNext
            else .ok (if l.wait.isSome then x.2 else x.2.regsWait))
        | _ => if at' ≠ 0 then .error .unpredictable
          else if v = 0 then State.regsRun k s.regsNext
          else .ok (if l.wait.isSome then s else s.regsWait)

/-- As many steps as there are records, and one to finish. -/
def State.regsGo (s : State) : Except Refusal State :=
  State.regsRun (((s.boot.load.map (fun l => l.recs.length)).getD 0) + 1) s

/-- The attempt that pass 1 ends would leave sections placed over each other: unpredictable (R579). -/
def State.loadOverlap (s : State) (read : Option Nat) : Bool :=
  read.isNone && s.boot.load.any (fun l => (s.formatError l.slot).isNone && (s.signCheck l.slot).1.isNone &&
    sectionsOverlap (s.sections l.slot))

/-- LOAD_PASS_1_END, and the records of pass 2 up to the first that waits. -/
def State.loadPass (s : State) (read : Option Nat) : Except Refusal State :=
  if s.boot.load.any (fun l => !l.pass2) then
    if s.loadOverlap read then .error .unpredictable else (s.bootPass read).regsGo
  else .ok s

/-- The operation and value of the record that waits, and since when. -/
def State.regsHead (s : State) : Option (Nat × Nat × Nat) :=
  s.boot.load.bind (fun l => match l.recs.head?, l.wait with
    | some (a, v, _), some t => some (a % 4, v, t)
    | _, _ => none)

/-- REGS_POLL: a POLL that waits reads again. -/
def State.regsPoll (s : State) : Except Refusal State :=
  match s.regsHead with
  | some (2, _, _) => s.regsGo
  | _ => .ok s

/-- REGS_POLL_TIMEOUT: after 100 ms. -/
def State.regsTimeout (s : State) : Except Refusal State :=
  match s.regsHead with
  | some (2, _, t) =>
    if t + 100000000 ≤ s.phys then ((s.setFlag F.PWR_BOOT_STATUS_POLLTMO true).regsNext).regsGo else .ok s
  | _ => .ok s

/-- REGS_DELAY: after VALUE µs. -/
def State.regsDelay (s : State) : Except Refusal State :=
  match s.regsHead with
  | some (3, v, t) => if t + v * 1000 ≤ s.phys then s.regsNext.regsGo else .ok s
  | _ => .ok s

end Sys2Proof.Machine
end

