-- ==== Sys2Proof/Machine/Acts.lean ====
section
/-! DEFINITION. The frame of every command's meaning, time passing and then its effect, and the commands that join the
operations of several blocks. -/
namespace Sys2Proof.Machine

/-! ### The frame of a command -/

/-- A command of any block but Threshold: nothing happens while the block is without power or in reset (R588, R595,
R608). -/
def State.act (s : State) (dt : Nat) (f : State → State) : Out :=
  let t := s.wait dt
  .next (if t.off then t else f t)

/-- The same where a rule may call the result unpredictable. -/
def State.actE (s : State) (dt : Nat) (f : State → Except Refusal State) : Out :=
  let t := s.wait dt
  match (if t.off then Except.ok t else f t) with
  | .ok u => .next u
  | .error e => .refused e

/-- A command of the Threshold island: it runs through BOOTFAIL and Sleep, not without power (R588, R595, R608). -/
def State.actThr (s : State) (dt : Nat) (f : State → State) : Out :=
  let t := s.wait dt
  .next (if t.boot.held then t else f t)

/-- A command of the wake and reset logic, which looks itself at what has power. -/
def State.actPower (s : State) (dt : Nat) (f : State → State) : Out := .next (f (s.wait dt))

/-- What happens on an empty queue: one FCLK cycle, 2 ns, passes (R17), and the management core takes a frame from its
receive queue (R533). -/
def State.idle (s : State) : State :=
  let t := s.wait 2
  if t.off then t else t.mgmtTake

/-! ### Operands -/

/-- A written word with the bits of a mask set. -/
def setB (v : Word) (m : Nat) : Nat := v.toNat ||| m

/-- A written word with the bits of a mask clear. -/
def clrB (v : Word) (m : Nat) : Nat := v.toNat - (v.toNat &&& m)

def nats (bs : List Byte) : List Nat := bs.map BitVec.toNat

def orUnpredictable : Option State → Except Refusal State
  | some t => .ok t
  | none => .error .unpredictable

/-- The attempt code of a read of the flash (R587). -/
def readError : FlashRead → Option Nat
  | .ok => none
  | .noFlash => some 1
  | .readError => some 9

def clockNum : ClockFault → Nat
  | .stopped => 0
  | .offFrequency => 1
  | .unlocked => 2

/-! ### Reads -/

/-- A fabric read: its result is the word last read. -/
def State.fabricRead (s : State) (m : Master) (size : Size) (a : Nat) : Except Refusal State :=
  (s.busRead m size a).map (fun x => { x.2 with rdata := BitVec.ofNat 32 x.1 })

/-! ### The cycle (R20, R28, R29) -/

/-- CYCLE_START: of a cycle that is due; unpredictable where the configuration is (R71, R183, R215, R537). -/
def State.startCycle (s : State) : Except Refusal State :=
  let due : Bool := match s.seqSettle.seq.next with
    | none => false
    | some t => decide (t ≤ s.run)
  if due && !s.seqSettle.cycleLegal then .error .unpredictable else .ok s.cycleStart

/-- UPSTREAM_DEADLINE: 3 µs into a cycle, once (R29). -/
def State.upstreamDeadline (s : State) : State :=
  if !s.running ∨ s.seq.missDone ∨ s.run < s.seq.start + 3000 * unitNs then s
  else forFin 16 (fun l t => t.blDeadline l) (s.modSeq (fun q => { q with missDone := true }))

/-- REPLAY_WINDOW_END: at R, a frame that has not departed no longer may (R30, R31). -/
def State.replayEnd (s : State) : State :=
  if !s.running ∨ s.run < s.replayR then s
  else forFin 16 (fun l t => if t.bl[l].departed then t else t.modBl l (fun b => { b with closed := true })) s

/-! ### MARK and Skew (R109, R342) -/

/-- A sample of a MARK input: where its filtered level changes, the capture is passed to the Skew engine where SKEW is 1. -/
def State.markSkew (s : State) (n : Fin 16) (w : BitVec 16) : State :=
  let rise := s.markLevel n w
  let t := s.markEdge n rise
  if s.flag F.MT_MARK_STATUS_INLVL 0 n != rise && s.markCaptures n rise && s.flag F.MT_MARK_CFG_SKEW 0 n then t.skewCapture n (s.markRecord n rise).pos else t

/-! ### SSI (R135, R139) -/

/-- An SSI request; a format or a divider outside its limits is unpredictable. -/
def State.ssiGo (s : State) (c : Fin 32) (ready : Bool) : Except Refusal State :=
  let due : Bool := match s.chuck[c].ssiDue with
    | [] => false
    | t :: _ => decide (t ≤ s.run)
  if due && s.chMode c == 3 && !s.ssiLegal c then .error .unpredictable else .ok (s.ssiRequest c ready)

/-! ### Hallway and Joist -/

/-- A received frame, delivered to port J too where it goes there (R534, R540). -/
def State.receiveFrame (s : State) (p : Fin 4) (frame : List Nat) (ago : Nat) : State :=
  let r := s.hwReceive p frame ago
  if r.1 then r.2.joistReceive ((frRest (frame.take (frame.length - 4))).drop 2) else r.2

/-- A port that is free sends; the management core may first queue a frame of its own (R531, R533). -/
def State.transmit (s : State) (p : Fin 4) (own : Option MgmtTx) : State :=
  (match own with
    | some m => s.mgmtSend m
    | none => s).hwTransmit p

/-! ### Zensor commands (R546, R547) -/

/-- Reads of `k` words in ascending address (R546). -/
def State.readWords (m : Master) : Nat → Nat → State → Except Refusal (List Nat × State)
  | 0, _, s => .ok ([], s)
  | k + 1, a, s =>
    match s.busRead m .b32 a with
    | .error e => .error e
    | .ok x =>
      match State.readWords m k (a + 4) x.2 with
      | .error e => .error e
      | .ok y => .ok (x.1 :: y.1, y.2)

/-- Writes of words in ascending address (R546). -/
def State.writeWords (m : Master) : List Nat → Nat → State → Except Refusal State
  | [], _, s => .ok s
  | v :: vs, a, s =>
    match s.busWrite m .b32 a v with
    | .error e => .error e
    | .ok t => State.writeWords m vs (a + 4) t

/-- The answer of a request that is done at once. -/
def answered (status : Nat) (payload : List Nat) (t : State) : Act := .ok (some (status, payload), t)

def wordBytes (l : List Nat) : List Nat := l.flatMap (bytesLE 4)

def actReads (a k : Nat) (x : Session) (t : State) : Act :=
  (State.readWords (.session x.secure) k a t).bind (fun r => answered 0 (wordBytes r.1) r.2)

def actWrites (a : Nat) (ws : List Nat) (x : Session) (t : State) : Act :=
  (State.writeWords (.session x.secure) ws a t).bind (fun u => answered 0 [] u)

def State.zenReadWord (s : State) (h : ZHead) (a : Nat) : Except Refusal State :=
  s.zenServe h 1 (bytesLE 4 a) (actReads a 1)

def State.zenWriteWord (s : State) (h : ZHead) (a v : Nat) : Except Refusal State :=
  s.zenServe h 2 (bytesLE 4 a ++ bytesLE 4 v) (actWrites a [v])

/-- BLOCK_READ: at most 256 words. -/
def State.zenReadBlock (s : State) (h : ZHead) (a k : Nat) : Except Refusal State :=
  s.zenServe h 3 (bytesLE 4 a ++ bytesLE 2 k ++ [0, 0]) (fun x t =>
    if 256 < k then answered 5 [] t else actReads a k x t)

/-- BLOCK_WRITE: at most 256 words, as many as COUNT says. -/
def State.zenWriteBlock (s : State) (h : ZHead) (a k : Nat) (ws : List Nat) : Except Refusal State :=
  s.zenServe h 4 (bytesLE 4 a ++ bytesLE 2 k ++ [0, 0] ++ wordBytes ws) (fun x t =>
    if 256 < k then answered 5 [] t
    else if ws.length ≠ k then answered 1 [] t
    else actWrites a ws x t)

/-- LEDGER_INSERT: the slot, then ARM, then word 2 read back. -/
def actInsert (slot lane entry : Nat) (x : Session) (t : State) : Act :=
  let m : Master := .session x.secure
  let a := 0x0400_0000 + 16 * slot
  let ws := (List.range 4).map (fun i => entry / 2 ^ (32 * i) % 2 ^ 32)
  (State.writeWords m ws a t).bind (fun t1 =>
    (t1.busWrite m .b32 (F.LED_ARM_SLOT.addr 0 0) (slot + 2 ^ 16 * lane)).bind (fun t2 =>
      (t2.busRead m .b32 (a + 8)).bind (fun r => answered 0 (bytesLE 4 r.1) r.2)))

def State.zenInsert (s : State) (h : ZHead) (slot lane entry : Nat) : Except Refusal State :=
  s.zenServe h 5 (bytesLE 2 slot ++ [lane, 0] ++ bytesLE 16 entry) (actInsert slot lane entry)

/-- FLASH_WRITE: what lies outside the slot it names is a host error (R14). -/
def actFlash (seq slot erase offset : Nat) (data : List Nat) (x : Session) (t : State) : Act :=
  if 1024 < data.length then answered 1 [] t
  else if x.secure ∧ (1 < slot ∨ 1 < erase ∨ slotSize < offset + data.length) then .error .unpredictable
  else .ok (t.flashStart x seq slot offset (erase == 1) data slotSize)

def State.zenFlash (s : State) (h : ZHead) (slot erase offset : Nat) (data : List Nat) : Except Refusal State :=
  s.zenServe h 6 ([slot, erase, 0, 0] ++ bytesLE 4 offset ++ data) (actFlash h.seq.toNat slot erase offset data)

/-- RELOAD: the response, and the reset that MODE names to follow. -/
def actReload (mode : Nat) (x : Session) (t : State) : Act :=
  if !x.secure then answered 3 [] t
  else if 1 < mode then .error .unpredictable
  else answered 0 [] { t with resetReq := some (if mode = 0 then 4 else 3) }

def State.zenReload (s : State) (h : ZHead) (mode : Nat) : Except Refusal State :=
  s.zenServe h 7 [mode] (actReload mode)

/-- SESSION_OPEN in its two modes (R548). -/
def State.zenOpenReq (s : State) (seq : Nat) : OpenReq → State
  | .plain => s.zenOpen seq
  | .secure hkey nc form qx qy r sg => s.zenOpenSecure seq hkey.toNat nc form.toNat qx qy r sg

/-- SESSION_CLOSE (R550). -/
def State.zenClose (s : State) (h : ZHead) : Except Refusal State :=
  s.zenServe h 0x11 [] (fun x t => answered 0 [] (t.endSession x.sid))

/-- The payload of STREAM_OPEN (R546). -/
def streamPayload (q : StreamReq) : List Nat :=
  [q.eport.toNat, q.pcp.toNat] ++ bytesLE 2 q.vid.toNat ++ [q.family.toNat, 0, 0, 0] ++ nats q.addr

/-- STREAM_OPEN (R547, R551): EPORT above 3, and values its fields do not have, are unpredictable. -/
def actStream (seq : Nat) (q : StreamReq) (mac : Option Nat) (x : Session) (t : State) : Act :=
  let free := t.stream.isNone && t.zen.resolving.isNone
  let legal := decide (q.eport.toNat ≤ 3) && decide (q.pcp.toNat ≤ 7) && decide (q.vid.toNat < 4096) &&
    (q.family == 4 || q.family == 6)
  if q.addr.length ≠ 16 then answered 1 [] t
  else if t.mayStream x && free && !legal then .error .unpredictable
  else .ok (t.streamOpen x seq
    ⟨q.eport.toNat, q.pcp.toNat, q.vid.toNat, q.family.toNat, nats q.addr, 0, x.sid⟩ mac)

def State.zenStream (s : State) (h : ZHead) (q : StreamReq) (mac : Option Nat) : Except Refusal State :=
  s.zenServe h 0x12 (streamPayload q) (actStream h.seq.toNat q mac)

end Sys2Proof.Machine
end

