-- ==== Sys2Proof/Machine/ExecBoot.lean ====
section
/-! DEFINITION. The meanings of the commands: power, boot and resets. -/
namespace Sys2Proof.Machine

/-- POWER_ON_RESET: Power-on reset is released (R590). -/
def execPowerOnReset (dt : Nat) (refsel : Bool) (s : State) : Out :=
  s.actPower dt (fun t => t.doReset 0 refsel)

/-- RESET_N: RESET_N low for some ns (R590). -/
def execResetN (dt : Nat) (ns : Nat) (refsel : Bool) (s : State) : Out :=
  s.actPower dt (fun t => t.resetN ns refsel)

/-- WATCHDOG: The watchdog expires (R597). -/
def execWatchdog (dt : Nat) (refsel : Bool) (s : State) : Out :=
  s.act dt (fun t => t.watchdog refsel)

/-- ZENSOR_SOFT_RESET: A requested soft reset (R590). -/
def execZensorSoftReset (dt : Nat) (refsel : Bool) (s : State) : Out :=
  s.act dt (fun t => t.requestedReset 3 refsel)

/-- WARM_RELOAD: A requested warm reload (R590). -/
def execWarmReload (dt : Nat) (refsel : Bool) (s : State) : Out :=
  s.act dt (fun t => t.requestedReset 4 refsel)

/-- PWR_RESET_SOFT: A write of PWR_RESET with KIND = 1 (R598). -/
def execPwrResetSoft (dt : Nat) (acc : Master) (v : Word) (s : State) : Out :=
  s.actE dt (fun t => t.busWrite acc .b32 (F.PWR_RESET_KEY.addr 0 0) (setB (v &&& 0xFFFF_FFFC#32) 1))

/-- PWR_RESET_WARM: A write of PWR_RESET with KIND = 2 (R598). -/
def execPwrResetWarm (dt : Nat) (acc : Master) (v : Word) (s : State) : Out :=
  s.actE dt (fun t => t.busWrite acc .b32 (F.PWR_RESET_KEY.addr 0 0) (setB (v &&& 0xFFFF_FFFC#32) 2))

/-- LOAD_PASS_1_END: Pass 1 of a load ends (R585 to R587). -/
def execLoadPass1End (dt : Nat) (read : FlashRead) (s : State) : Out :=
  s.actE dt (fun t => t.loadPass (readError read))

/-- REGS_POLL: A POLL reads again (R580). -/
def execRegsPoll (dt : Nat) (s : State) : Out :=
  s.actE dt (fun t => t.regsPoll)

/-- REGS_POLL_TIMEOUT: A POLL after 100 ms (R580). -/
def execRegsPollTimeout (dt : Nat) (s : State) : Out :=
  s.actE dt (fun t => t.regsTimeout)

/-- REGS_DELAY: A DELAY ends (R580). -/
def execRegsDelay (dt : Nat) (s : State) : Out :=
  s.actE dt (fun t => t.regsDelay)

/-- SLEEP_REQUEST: A write of PWR_SLEEP GO (R594). -/
def execSleepRequest (dt : Nat) (acc : Master) (v : Word) (s : State) : Out :=
  s.actE dt (fun t => t.busWrite acc .b32 (F.PWR_SLEEP_KEY.addr 0 0) (setB v 1))

/-- SLEEP_ENTRY: The device enters Sleep (R594). -/
def execSleepEntry (dt : Nat) (refsel : Bool) (s : State) : Out :=
  s.act dt (fun t => t.sleepEntry refsel)

/-- WAKE_N: WAKE_N low for some ns (R595). -/
def execWakeN (dt : Nat) (ns : Nat) (refsel : Bool) (s : State) : Out :=
  s.actPower dt (fun t => t.wakePin ns refsel)

/-- WAKE_TIMER: The wake timer expires (R595). -/
def execWakeTimer (dt : Nat) (refsel : Bool) (s : State) : Out :=
  s.actPower dt (fun t => t.wakeTimer refsel)

/-- WDT_START: A write of 1 to WDT_CTRL.EN (R597). -/
def execWdtStart (dt : Nat) (acc : Master) (v : Word) (s : State) : Out :=
  s.actE dt (fun t => t.busWrite acc .b32 (F.PWR_WDT_CTRL_EN.addr 0 0) (setB v 1))

/-- WDT_KICK: A write to WDT_KICK (R597). -/
def execWdtKick (dt : Nat) (acc : Master) (v : Word) (s : State) : Out :=
  s.actE dt (fun t => t.busWrite acc .b32 (F.PWR_WDT_KICK_KEY.addr 0 0) (v.toNat))

/-- SUPPLY_BELOW_FALLING_THRESHOLD: A supply falls below its threshold (R608). -/
def execSupplyBelowFallingThreshold (dt : Nat) (s : State) : Out :=
  s.actPower dt (fun t => t.supplyLow)

end Sys2Proof.Machine
end

