-- ==== Sys2Proof/Machine/ExecBus.lean ====
section
/-! DEFINITION. The meanings of the commands: fabric accesses. -/
namespace Sys2Proof.Machine

/-- REGISTER_WRITE: A fabric write to a register (R3 to R11, R48). -/
def execRegisterWrite (dt : Nat) (acc : Master) (size : Size) (addr : BitVec 32) (v : Word) (s : State) : Out :=
  s.actE dt (fun t => t.busWrite acc size addr.toNat v.toNat)

/-- RC_READ: A read of a read-to-clear field (R3, R7). -/
def execRcRead (dt : Nat) (acc : Master) (size : Size) (addr : BitVec 32) (s : State) : Out :=
  s.actE dt (fun t => t.fabricRead acc size addr.toNat)

/-- REGISTER_READ: A fabric read of a register (R10, R48, R56). -/
def execRegisterRead (dt : Nat) (acc : Master) (size : Size) (addr : BitVec 32) (s : State) : Out :=
  s.actE dt (fun t => t.fabricRead acc size addr.toNat)

/-- MEMORY_WINDOW_ACCESS: A fabric access to a memory window (R49, R58 to R61, R413, R625). -/
def execMemoryWindowAccess (dt : Nat) (acc : Master) (size : Size) (write : Bool) (addr : BitVec 32) (v : Word)
    (s : State) : Out :=
  s.actE dt (fun t => if write then t.busWrite acc size addr.toNat v.toNat else t.fabricRead acc size addr.toNat)

end Sys2Proof.Machine
end

