-- ==== Sys2Proof/Machine/ExecCan.lean ====
section
/-! DEFINITION. The meanings of the commands: landing. -/
namespace Sys2Proof.Machine

/-- CAN_INIT: A write of INIT = 1 (R557); whether the bus is idle. -/
def execCanInit (dt : Nat) (acc : Master) (n : Fin 2) (v : Word) (idle : Bool) (s : State) : Out :=
  s.actE dt (fun t => t.busWrite acc .b32 (F.CAN_CTRL_INIT.addr n 0) (setB v 1) (some idle))

/-- CAN_INIT_RELEASE: A write of INIT = 0 (R557); whether the bus is idle. -/
def execCanInitRelease (dt : Nat) (acc : Master) (n : Fin 2) (v : Word) (idle : Bool) (s : State) : Out :=
  s.actE dt (fun t => t.busWrite acc .b32 (F.CAN_CTRL_INIT.addr n 0) (clrB v 1) (some idle))

/-- BORCV: A write of 1 to BORCV (R566); whether the bus is idle. -/
def execCanBorcv (dt : Nat) (acc : Master) (n : Fin 2) (v : Word) (idle : Bool) (s : State) : Out :=
  s.actE dt (fun t => t.busWrite acc .b32 (F.CAN_CTRL_INIT.addr n 0) (setB v 32) (some idle))

/-- ROM: A change of ROM (R567); whether the bus is idle. -/
def execCanRom (dt : Nat) (acc : Master) (n : Fin 2) (v : Word) (idle : Bool) (s : State) : Out :=
  s.actE dt (fun t => t.busWrite acc .b32 (F.CAN_CTRL_INIT.addr n 0) (v.toNat) (some idle))

/-- MON: A change of MON (R568); whether the bus is idle. -/
def execCanMon (dt : Nat) (acc : Master) (n : Fin 2) (v : Word) (idle : Bool) (s : State) : Out :=
  s.actE dt (fun t => t.busWrite acc .b32 (F.CAN_CTRL_INIT.addr n 0) (v.toNat) (some idle))

/-- SLEEP: A write of SLEEP (R569); whether the bus is idle. -/
def execCanSleep (dt : Nat) (acc : Master) (n : Fin 2) (v : Word) (idle : Bool) (s : State) : Out :=
  s.actE dt (fun t => t.busWrite acc .b32 (F.CAN_CTRL_INIT.addr n 0) (v.toNat) (some idle))

/-- TXREQ: A write of ones to TXREQ (R563); the upper word if hi. -/
def execCanTxreq (dt : Nat) (acc : Master) (n : Fin 2) (hi : Bool) (v : Word) (s : State) : Out :=
  s.actE dt (fun t => t.busWrite acc .b32 (F.CAN_TXREQ_LO.addr n 0 + 4 * b2n hi) v.toNat)

/-- TXCANCEL: A write of ones to TXCANCEL (R563); the upper word if hi. -/
def execCanTxcancel (dt : Nat) (acc : Master) (n : Fin 2) (hi : Bool) (v : Word) (s : State) : Out :=
  s.actE dt (fun t => t.busWrite acc .b32 (F.CAN_TXCANCEL_LO.addr n 0 + 4 * b2n hi) v.toNat)

/-- NEWDAT_CLEAR: A write of ones to NEWDAT (R562); the upper word if hi. -/
def execCanNewdatClear (dt : Nat) (acc : Master) (n : Fin 2) (hi : Bool) (v : Word) (s : State) : Out :=
  s.actE dt (fun t => t.busWrite acc .b32 (F.CAN_NEWDAT_LO.addr n 0 + 4 * b2n hi) v.toNat)

/-- CAN_INTEGRATED: 11 recessive bits (R557). -/
def execCanIntegrated (dt : Nat) (n : Fin 2) (s : State) : Out :=
  s.act dt (fun t => t.canIntegrated n)

/-- CAN_RECOVERED: 128 occurrences of 11 recessive bits (R557). -/
def execCanRecovered (dt : Nat) (n : Fin 2) (s : State) : Out :=
  s.act dt (fun t => t.canRecovered n)

/-- CAN_FRAME_RECEIVE: A valid frame; how long ago its SOF was, in ns (R560, R561). -/
def execCanFrameReceive (dt : Nat) (n : Fin 2) (f : CanFrame) (ago : Nat) (s : State) : Out :=
  s.act dt (fun t => t.canReceive n f ago)

/-- CAN_TRANSMIT_START: The winning frame starts (R563). -/
def execCanTransmitStart (dt : Nat) (n : Fin 2) (s : State) : Out :=
  s.act dt (fun t => t.canStart n)

/-- CAN_TRANSMIT_END: A transmission ends; the loop delay measured (R555, R563). -/
def execCanTransmitEnd (dt : Nat) (n : Fin 2) (how : CanEnd) (loopDelay : Option Nat) (s : State) : Out :=
  s.act dt (fun t => t.canEnd n how loopDelay)

/-- CAN_ERROR: A bus error (R564, R565). -/
def execCanError (dt : Nat) (n : Fin 2) (code : CanCode) (rule : CanRule) (dataPhase : Bool) (s : State) : Out :=
  s.act dt (fun t => t.canError n code rule dataPhase)

/-- PROTOCOL_EXCEPTION: A protocol exception (R556). -/
def execProtocolException (dt : Nat) (n : Fin 2) (s : State) : Out :=
  s.act dt (fun t => t.canException n)

/-- CAN_WAKE: What the wake logic sees (R570, R571). -/
def execCanWake (dt : Nat) (n : Fin 2) (seen : CanSeen) (refsel : Bool) (s : State) : Out :=
  s.actPower dt (fun t => t.canWake n seen refsel State.canSeen)

end Sys2Proof.Machine
end

