-- ==== Sys2Proof/Machine/ExecCellar.lean ====
section
/-! DEFINITION. The meanings of the commands: the Cellar. -/
namespace Sys2Proof.Machine

/-- ARM: A write of 1 to ARM (R453). -/
def execCelArm (dt : Nat) (acc : Master) (v : Word) (s : State) : Out :=
  s.actE dt (fun t => t.busWrite acc .b32 (F.CEL_CTRL_ARM.addr 0 0) (setB v 1))

/-- CEL_STOP: A write of 1 to STOP (R453). -/
def execCelStop (dt : Nat) (acc : Master) (v : Word) (s : State) : Out :=
  s.actE dt (fun t => t.busWrite acc .b32 (F.CEL_CTRL_ARM.addr 0 0) (setB v 2))

/-- CEL_FORCE: A write of 1 to FORCE (R458). -/
def execCelForce (dt : Nat) (acc : Master) (v : Word) (s : State) : Out :=
  s.actE dt (fun t => t.busWrite acc .b32 (F.CEL_CTRL_ARM.addr 0 0) (setB v 4))

/-- CEL_SAMPLE: A sample instant, with the levels of the balls at it and at the FCLK edges before it, newest first (R448, R449, R451). -/
def execCelSample (dt : Nat) (balls : List Balls) (s : State) : Out :=
  s.act dt (fun t => t.celSample balls)

/-- AUTO_TRIGGER: AUTOTMO without a trigger (R458). -/
def execAutoTrigger (dt : Nat) (s : State) : Out :=
  s.act dt (fun t => t.celAuto)

/-- DATAGRAM: A stream datagram is sent (R465). -/
def execDatagram (dt : Nat) (s : State) : Out :=
  s.act dt (fun t => t.celSendDatagram)

end Sys2Proof.Machine
end

