-- ==== Sys2Proof/Machine/ExecChuck.lean ====
section
/-! DEFINITION. The meanings of the commands: Chuck feedback channels. -/
namespace Sys2Proof.Machine

/-- CHUCK_MODE_CHANGE: A write to CFG that changes MODE (R117). -/
def execChuckModeChange (dt : Nat) (acc : Master) (c : Fin 32) (v : Word) (s : State) : Out :=
  s.actE dt (fun t => t.busWrite acc .b32 (F.CHUCK_CFG_MODE.addr c 0) (v.toNat))

/-- CHUCK_OFFSET_WRITE: A write to OFFSET (R119). -/
def execChuckOffsetWrite (dt : Nat) (acc : Master) (c : Fin 32) (v : Word) (s : State) : Out :=
  s.actE dt (fun t => t.busWrite acc .b32 (F.CHUCK_OFFSET.addr c 0) (v.toNat))

/-- QUAD_COUNT_CHANGE: A sample of B and A, their raw levels newest first in bit 0: a change of the filtered state counts (R121 to R126). -/
def execQuadCountChange (dt : Nat) (c : Fin 32) (b a : BitVec 16) (s : State) : Out :=
  s.act dt (fun t => t.quadChange c b a)

/-- CHUCK_INDEX: A sample of Z, its raw levels newest first in bit 0: a filtered edge may be an index (R121, R127 to R131). -/
def execChuckIndex (dt : Nat) (c : Fin 32) (z : BitVec 16) (s : State) : Out :=
  s.act dt (fun t => t.chIndex c z)

/-- HALL_SECTOR_CHANGE: A sample of H3, H2 and H1, their raw levels newest first in bit 0: a change of the filtered state counts (R121, R132 to R134). -/
def execHallSectorChange (dt : Nat) (c : Fin 32) (h3 h2 h1 : BitVec 16) (s : State) : Out :=
  s.act dt (fun t => t.hallSample c h3 h2 h1)

/-- HALLINV: A Hall state invalid for more than HINVT (R134). -/
def execHallinv (dt : Nat) (c : Fin 32) (s : State) : Out :=
  s.act dt (fun t => t.hallInv c)

/-- SSI_REQUEST: An SSI frame request (R135 to R138). -/
def execSsiRequest (dt : Nat) (c : Fin 32) (ready : Bool) (s : State) : Out :=
  s.actE dt (fun t => t.ssiGo c ready)

/-- SSI_FRAME_END: An SSI frame ends; its bits, first in bit 0 (R139 to R144). -/
def execSsiFrameEnd (dt : Nat) (c : Fin 32) (frame : BitVec 40) (s : State) : Out :=
  s.act dt (fun t => t.ssiFrameEnd c frame.toNat)

/-- CHUCK_FLT_CLEAR: A write of ones to FLT (R146). -/
def execChuckFltClear (dt : Nat) (acc : Master) (c : Fin 32) (v : Word) (s : State) : Out :=
  s.actE dt (fun t => t.busWrite acc .b32 (F.CHUCK_FLT_ACTIVE.addr c 0) (v.toNat))

end Sys2Proof.Machine
end

