-- ==== Sys2Proof/Machine/ExecCycle.lean ====
section
/-! DEFINITION. The meanings of the commands: the cycle sequencer, fuses, spindles, the Ledger, MARK and TOUT. -/
namespace Sys2Proof.Machine

/-- RUN_START: A write of 1 to RUN (R22, R23). -/
def execRunStart (dt : Nat) (acc : Master) (v : Word) (s : State) : Out :=
  s.actE dt (fun t => t.busWrite acc .b32 (F.CYC_CTRL_RUN.addr 0 0) (setB v 1))

/-- RUN_STOP: A write of 0 to RUN (R25). -/
def execRunStop (dt : Nat) (acc : Master) (v : Word) (s : State) : Out :=
  s.actE dt (fun t => t.busWrite acc .b32 (F.CYC_CTRL_RUN.addr 0 0) (clrB v 1))

/-- CYCLE_START: A control cycle starts at its instant (R20). -/
def execCycleStart (dt : Nat) (s : State) : Out :=
  s.actE dt (fun t => t.startCycle)

/-- UPSTREAM_DEADLINE: t0 + 3 µs (R29). -/
def execUpstreamDeadline (dt : Nat) (s : State) : Out :=
  s.act dt (fun t => t.upstreamDeadline)

/-- DUTY_DEADLINE: The instant D (R30). -/
def execDutyDeadline (dt : Nat) (s : State) : Out :=
  s.act dt (fun t => t.dutyDeadline)

/-- REPLAY_WINDOW_END: The instant R (R28, R313). -/
def execReplayWindowEnd (dt : Nat) (s : State) : Out :=
  s.act dt (fun t => t.replayEnd)

/-- DOWNSTREAM_FRAME_DEPART: A downstream frame departs (R313). -/
def execDownstreamFrameDepart (dt : Nat) (l : Fin 16) (s : State) : Out :=
  s.act dt (fun t => t.blDepart l)

/-- FUSE_PROGRAM: A write of GO (R68, R69). -/
def execFuseProgram (dt : Nat) (acc : Master) (v : Word) (s : State) : Out :=
  s.actE dt (fun t => t.busWrite acc .b32 (F.DEV_FUSE_PGM_GO.addr 0 0) (setB v 2))

/-- FUSE_PROGRAM_DONE: Fuse programming ends (R69). -/
def execFuseProgramDone (dt : Nat) (s : State) : Out :=
  s.actPower dt (fun t => t.fuseDone)

/-- SPINDLE_ENABLE: EN of a spindle from 0 to 1 (R72). -/
def execSpindleEnable (dt : Nat) (acc : Master) (n : Fin 16) (v : Word) (s : State) : Out :=
  s.actE dt (fun t => t.busWrite acc .b32 (F.SP_CTRL_EN.addr n 0) (setB v 1))

/-- SPINDLE_RESCALE: A commit of SCALE (R73). -/
def execSpindleRescale (dt : Nat) (acc : Master) (n : Fin 16) (v : Word) (s : State) : Out :=
  s.actE dt (fun t => t.busWrite acc .b32 (F.SP_SCALE.addr n 0 + 4) (v.toNat))

/-- SPINDLE_LOAD: A write to LOAD_HI (R74). -/
def execSpindleLoad (dt : Nat) (acc : Master) (n : Fin 16) (v : Word) (s : State) : Out :=
  s.actE dt (fun t => t.busWrite acc .b32 (F.SP_LOAD.addr n 0 + 4) (v.toNat))

/-- SPINDLE_STANDSTILL: STILLT without a count change (R77). -/
def execSpindleStandstill (dt : Nat) (n : Fin 16) (s : State) : Out :=
  s.act dt (fun t => t.spinStandstill n)

/-- LEDGER_ARM: A write to ARM (R85 to R88). -/
def execLedgerArm (dt : Nat) (acc : Master) (v : Word) (s : State) : Out :=
  s.actE dt (fun t => t.busWrite acc .b32 (F.LED_ARM_SLOT.addr 0 0) (v.toNat))

/-- LEDGER_CANCEL: A write to CANCEL (R90). -/
def execLedgerCancel (dt : Nat) (acc : Master) (v : Word) (s : State) : Out :=
  s.actE dt (fun t => t.busWrite acc .b32 (F.LED_CANCEL_SLOT.addr 0 0) (v.toNat))

/-- LEDGER_FIRE: An entry of a spindle lane fires at its predicted instant (R91 to R93). -/
def execLedgerFire (dt : Nat) (n : Fin 16) (slot : BitVec 15) (s : State) : Out :=
  s.act dt (fun t => t.ledFireNow n slot.toNat)

/-- LCLK_LANE_FIRE: An entry of lane 16 fires (R100). -/
def execLclkLaneFire (dt : Nat) (slot : BitVec 15) (s : State) : Out :=
  s.act dt (fun t => t.ledLclkFireNow slot.toNat)

/-- DONE_POP: A write of 1 to DONE_POP (R106). -/
def execDonePop (dt : Nat) (acc : Master) (v : Word) (s : State) : Out :=
  s.actE dt (fun t => t.busWrite acc .b32 (F.LED_DONE_POP.addr 0 0) (setB v 1))

/-- MARK_CAPTURE: A sample of a MARK input, its raw levels newest first in bit 0: a filtered edge captures (R107 to R109, R342). -/
def execMarkCapture (dt : Nat) (n : Fin 16) (raw : BitVec 16) (s : State) : Out :=
  s.act dt (fun t => t.markSkew n raw)

/-- MARK_POP: A write of 1 to POP (R110). -/
def execMarkPop (dt : Nat) (acc : Master) (n : Fin 16) (v : Word) (s : State) : Out :=
  s.actE dt (fun t => t.busWrite acc .b32 (F.MT_MARK_POP.addr 0 n) (setB v 1))

/-- TOUT_FORCE: A write to FORCE (R112). -/
def execToutForce (dt : Nat) (acc : Master) (n : Fin 16) (v : Word) (s : State) : Out :=
  s.actE dt (fun t => t.busWrite acc .b32 (F.MT_TOUT_FORCE_OP.addr 0 n) (v.toNat))

end Sys2Proof.Machine
end

