-- ==== Sys2Proof/Machine/ExecFaults.lean ====
section
/-! DEFINITION. The meanings of the commands: faults and the Attic. -/
namespace Sys2Proof.Machine

/-- F3RESET: 1 ms after a halt with F3RESET = 1 (R509). -/
def execF3reset (dt : Nat) (refsel : Bool) (s : State) : Out :=
  s.act dt (fun t => t.f3reset refsel)

/-- CLOCK: REFCLK is lost or a PLL unlocked (R511). -/
def execClockFault (dt : Nat) (cause : ClockFault) (s : State) : Out :=
  s.actThr dt (fun t => t.clockLost (clockNum cause))

/-- ATTIC_COMMIT: A queued record is written; what the slots that do not read back the same then hold (R517, R520). -/
def execAtticCommit (dt : Nat) (slots : List (List Byte)) (s : State) : Out :=
  s.act dt (fun t => t.atticCommit (slots.map nats))

/-- ATTIC_SCAN_DONE: The power-on scan completes (R518). -/
def execAtticScanDone (dt : Nat) (s : State) : Out :=
  s.act dt (fun t => t.atticScan)

/-- USER: A write to ATTIC_UWRITE (R521). -/
def execAtticUser (dt : Nat) (acc : Master) (v : Word) (s : State) : Out :=
  s.actE dt (fun t => t.busWrite acc .b32 (F.FLT_ATTIC_UWRITE_INST.addr 0 0) (v.toNat))

/-- CLEAR: A write to ATTIC_CLEAR (R522). -/
def execAtticClear (dt : Nat) (acc : Master) (v : Word) (s : State) : Out :=
  s.actE dt (fun t => t.busWrite acc .b32 (F.FLT_ATTIC_CLEAR_KEY.addr 0 0) (setB v 1))

end Sys2Proof.Machine
end

