-- ==== Sys2Proof/Machine/ExecField.lean ====
section
/-! DEFINITION. The meanings of the commands: field control and steppers. -/
namespace Sys2Proof.Machine

/-- LISTEN_TIMEOUT: 50 ms in LISTEN (R280). -/
def execListenTimeout (dt : Nat) (n : Fin 64) (s : State) : Out :=
  s.act dt (fun t => t.listenTimeout n)

/-- ALIGN_END: The end of TALIGN (R281). -/
def execAlignEnd (dt : Nat) (n : Fin 64) (s : State) : Out :=
  s.act dt (fun t => t.alignEnd n)

/-- BRAKE_TIMEOUT: 2 s in BRAKE (R282). -/
def execBrakeTimeout (dt : Nat) (n : Fin 64) (s : State) : Out :=
  s.act dt (fun t => t.brakeTimeout n)

/-- IFHOLD_TIMEOUT: IFHOLD after IFEND (R283). -/
def execIfholdTimeout (dt : Nat) (n : Fin 64) (s : State) : Out :=
  s.act dt (fun t => t.ifholdTimeout n)

/-- RECATCH: The observer is lost at speed (R285). -/
def execRecatch (dt : Nat) (n : Fin 64) (s : State) : Out :=
  s.act dt (fun t => t.fieldRecatch n)

/-- IFLOW: The speed falls below OBSMIN (R285). -/
def execIflow (dt : Nat) (n : Fin 64) (s : State) : Out :=
  s.act dt (fun t => t.fieldIflow n)

/-- RECATCH_TIMEOUT: 50 ms in RECATCH (R286). -/
def execRecatchTimeout (dt : Nat) (n : Fin 64) (s : State) : Out :=
  s.act dt (fun t => t.recatchTimeout n)

/-- ZVEC_TIMEOUT: The zero-vector reaction ends (R242, R282). -/
def execZvecTimeout (dt : Nat) (n : Fin 64) (s : State) : Out :=
  s.act dt (fun t => t.zvecEnd n)

/-- HOLD_CURRENT: HOLDT without a microstep (R293). -/
def execHoldCurrent (dt : Nat) (n : Fin 64) (s : State) : Out :=
  s.act dt (fun t => t.holdCurrent n)

/-- STALL: The load angle beyond STALLANG (R298). -/
def execStall (dt : Nat) (n : Fin 64) (s : State) : Out :=
  s.act dt (fun t => t.stall n)

end Sys2Proof.Machine
end

