-- ==== Sys2Proof/Machine/ExecJet.lean ====
section
/-! DEFINITION. The meanings of the commands: the Skew engine and jet links. -/
namespace Sys2Proof.Machine

/-- CRESET: A write of 1 to CRESET (R347). -/
def execCreset (dt : Nat) (acc : Master) (b : Fin 16) (s : State) : Out :=
  s.actE dt (fun t => t.busWrite acc .b32 (F.BAR_CRESET.addr b 0) 1)

/-- JL_TRAIN: EN = 1, or TRAIN = 1 (R367). -/
def execJlTrain (dt : Nat) (acc : Master) (l : Fin 8) (v : Word) (s : State) : Out :=
  s.actE dt (fun t => t.busWrite acc .b32 (F.JL_CTRL_EN.addr l 0) (setB v 3))

/-- JL_DISABLE: EN = 0 (R367). -/
def execJlDisable (dt : Nat) (acc : Master) (l : Fin 8) (v : Word) (s : State) : Out :=
  s.actE dt (fun t => t.busWrite acc .b32 (F.JL_CTRL_EN.addr l 0) (clrB v 1))

/-- JL_ALIGNED: 64 valid FILL sets (R367). -/
def execJlAligned (dt : Nat) (l : Fin 8) (s : State) : Out :=
  s.act dt (fun t => t.jlAligned l)

/-- ENUM: An ENUM frame returns (R368). -/
def execJlEnum (dt : Nat) (l : Fin 8) (gs : List (BitVec 10)) (rd : Bool) (s : State) : Out :=
  s.act dt (fun t => t.jlEnum l gs rd)

/-- ENUM_TIMEOUT: 100 µs without an ENUM (R367). -/
def execJlEnumTimeout (dt : Nat) (l : Fin 8) (s : State) : Out :=
  s.act dt (fun t => t.jlEnumTimeout l)

/-- REQ: An ECHO REQ (R627). -/
def execJlReq (dt : Nat) (l : Fin 8) (s : State) : Out :=
  s.act dt (fun t => t.jlReq l)

/-- RSP: An ECHO RSP, and the instant of its SOF edge in unit intervals (R369). -/
def execJlRsp (dt : Nat) (l : Fin 8) (gs : List (BitVec 10)) (rd : Bool) (ui : Nat) (s : State) : Out :=
  s.act dt (fun t => t.jlRsp l gs rd ui)

/-- JL_MEASURE_END: The end of MEASURE (R627). -/
def execJlMeasureEnd (dt : Nat) (l : Fin 8) (s : State) : Out :=
  s.act dt (fun t => t.jlMeasureEnd l)

/-- TMARK: A TMARK with its FINE (R371). -/
def execJlTmark (dt : Nat) (l : Fin 8) (fine : Fin 10) (s : State) : Out :=
  s.act dt (fun t => t.jlTmark l fine.val)

/-- TIME_IDLE: A time IDLE (R372). -/
def execJlTimeIdle (dt : Nat) (l : Fin 8) (s : State) : Out :=
  s.act dt (fun t => t.jlIdle l)

/-- JL_FRAME_DEPART: The next frame departs (R359). -/
def execJlFrameDepart (dt : Nat) (l : Fin 8) (s : State) : Out :=
  s.act dt (fun t => t.jlDepart l)

/-- STAT: A STAT frame (R377). -/
def execJlStat (dt : Nat) (l : Fin 8) (gs : List (BitVec 10)) (rd : Bool) (s : State) : Out :=
  s.act dt (fun t => t.jlStat l gs rd)

/-- DL: A write of GO (R376). -/
def execJlDl (dt : Nat) (acc : Master) (l : Fin 8) (v : Word) (s : State) : Out :=
  s.actE dt (fun t => t.busWrite acc .b32 (F.JL_DL_GO.addr l 0) (setB v 16))

/-- DL_TIMEOUT: 4 ms without a matching STAT (R376). -/
def execJlDlTimeout (dt : Nat) (l : Fin 8) (s : State) : Out :=
  s.act dt (fun t => t.jlDlTimeout l)

/-- JL_LOSS: Alignment lost, or code groups outside a frame (R355, R379). -/
def execJlLoss (dt : Nat) (l : Fin 8) (aligned : Bool) (gs : List (BitVec 10)) (rd : Bool) (s : State) : Out :=
  s.act dt (fun t => t.jlLoss l aligned gs rd)

/-- MODLOST: 4 ms without a STAT of a position (R379). -/
def execJlModlost (dt : Nat) (l : Fin 8) (p : Fin 16) (s : State) : Out :=
  s.act dt (fun t => t.jlModLost l p)

end Sys2Proof.Machine
end

