-- ==== Sys2Proof/Machine/ExecLinks.lean ====
section
/-! DEFINITION. The meanings of the commands: Bridge links. -/
namespace Sys2Proof.Machine

/-- BL_TRAIN: EN = 1, or TRAIN = 1 (R308). -/
def execBlTrain (dt : Nat) (acc : Master) (l : Fin 16) (v : Word) (s : State) : Out :=
  s.actE dt (fun t => t.busWrite acc .b32 (F.BL_CTRL_EN.addr l 0) (setB v 3))

/-- BL_DISABLE: EN = 0 (R308). -/
def execBlDisable (dt : Nat) (acc : Master) (l : Fin 16) (v : Word) (s : State) : Out :=
  s.actE dt (fun t => t.busWrite acc .b32 (F.BL_CTRL_EN.addr l 0) (clrB v 1))

/-- BL_CLRFLT: A write of 1 to CLRFLT (R319). -/
def execBlClrflt (dt : Nat) (acc : Master) (l : Fin 16) (v : Word) (s : State) : Out :=
  s.actE dt (fun t => t.busWrite acc .b32 (F.BL_CTRL_EN.addr l 0) (setB v 8))

/-- BL_ALIGNED: 64 valid IDLE sets (R308). -/
def execBlAligned (dt : Nat) (l : Fin 16) (s : State) : Out :=
  s.act dt (fun t => t.blAligned l)

/-- PING: A latency PING (R308). -/
def execPing (dt : Nat) (l : Fin 16) (s : State) : Out :=
  s.act dt (fun t => t.blPing l)

/-- PONG: A PONG, and the instant of its leading edge in unit intervals (R309). -/
def execPong (dt : Nat) (l : Fin 16) (tag : BitVec 8) (ui : Nat) (s : State) : Out :=
  s.act dt (fun t => t.blPong l tag.toNat ui)

/-- BL_MEASURE_END: The end of MEASURE (R308). -/
def execBlMeasureEnd (dt : Nat) (l : Fin 16) (s : State) : Out :=
  s.act dt (fun t => t.blMeasureEnd l)

/-- SYNC_LAUNCH: A SYNC is launched (R312). -/
def execSyncLaunch (dt : Nat) (l : Fin 16) (s : State) : Out :=
  s.act dt (fun t => t.blSync l)

/-- UPSTREAM_FRAME: An upstream frame: its code groups from SOF on, and the running disparity before them (R302, R306, R315, R318). -/
def execUpstreamFrame (dt : Nat) (l : Fin 16) (gs : List (BitVec 10)) (rd : Bool) (s : State) : Out :=
  s.act dt (fun t => t.blUpstream l gs rd)

/-- BL_CODE_ERROR_BURST: Code groups outside a frame, and the running disparity before them (R302, R318). -/
def execBlCodeErrorBurst (dt : Nat) (l : Fin 16) (gs : List (BitVec 10)) (rd : Bool) (s : State) : Out :=
  s.act dt (fun t => t.blErrors l gs rd)

end Sys2Proof.Machine
end

