-- ==== Sys2Proof/Machine/ExecMotion.lean ====
section
/-! DEFINITION. The meanings of the commands: headstock, loops and CMD and Sill inputs. -/
namespace Sys2Proof.Machine

/-- NONE: The axis command NONE (R187, R191). -/
def execAxNone (dt : Nat) (acc : Master) (n : Fin 64) (s : State) : Out :=
  s.actE dt (fun t => t.busWrite acc .b32 (F.AX_CMD_OP.addr n 0) 0)

/-- SYNC: The axis command SYNC (R190). -/
def execAxSync (dt : Nat) (acc : Master) (n : Fin 64) (s : State) : Out :=
  s.actE dt (fun t => t.busWrite acc .b32 (F.AX_CMD_OP.addr n 0) 1)

/-- MOVE: The axis command MOVE (R192). -/
def execAxMove (dt : Nat) (acc : Master) (n : Fin 64) (s : State) : Out :=
  s.actE dt (fun t => t.busWrite acc .b32 (F.AX_CMD_OP.addr n 0) 2)

/-- JOG: The axis command JOG (R197). -/
def execAxJog (dt : Nat) (acc : Master) (n : Fin 64) (s : State) : Out :=
  s.actE dt (fun t => t.busWrite acc .b32 (F.AX_CMD_OP.addr n 0) 3)

/-- EXT: The axis command EXT (R198). -/
def execAxExt (dt : Nat) (acc : Master) (n : Fin 64) (s : State) : Out :=
  s.actE dt (fun t => t.busWrite acc .b32 (F.AX_CMD_OP.addr n 0) 4)

/-- GEAR: The axis command GEAR (R201). -/
def execAxGear (dt : Nat) (acc : Master) (n : Fin 64) (s : State) : Out :=
  s.actE dt (fun t => t.busWrite acc .b32 (F.AX_CMD_OP.addr n 0) 5)

/-- CAM: The axis command CAM (R209). -/
def execAxCam (dt : Nat) (acc : Master) (n : Fin 64) (s : State) : Out :=
  s.actE dt (fun t => t.busWrite acc .b32 (F.AX_CMD_OP.addr n 0) 6)

/-- GROUP: The axis command GROUP (R217). -/
def execAxGroup (dt : Nat) (acc : Master) (n : Fin 64) (s : State) : Out :=
  s.actE dt (fun t => t.busWrite acc .b32 (F.AX_CMD_OP.addr n 0) 7)

/-- STOP: The axis command STOP (R191). -/
def execAxStop (dt : Nat) (acc : Master) (n : Fin 64) (s : State) : Out :=
  s.actE dt (fun t => t.busWrite acc .b32 (F.AX_CMD_OP.addr n 0) 8)

/-- QSTOP: The axis command QSTOP (R191). -/
def execAxQstop (dt : Nat) (acc : Master) (n : Fin 64) (s : State) : Out :=
  s.actE dt (fun t => t.busWrite acc .b32 (F.AX_CMD_OP.addr n 0) 9)

/-- DISENGAGE: The axis command DISENGAGE (R204). -/
def execAxDisengage (dt : Nat) (acc : Master) (n : Fin 64) (s : State) : Out :=
  s.actE dt (fun t => t.busWrite acc .b32 (F.AX_CMD_OP.addr n 0) 10)

/-- SHIFT: A write to SHIFT_HI (R214). -/
def execAxShift (dt : Nat) (acc : Master) (n : Fin 64) (v : Word) (s : State) : Out :=
  s.actE dt (fun t => t.busWrite acc .b32 (F.AX_SHIFT.addr n 0 + 4) (v.toNat))

/-- PUSH: A write of 1 to GRP.PUSH (R216). -/
def execGrpPush (dt : Nat) (acc : Master) (n : Fin 64) (s : State) : Out :=
  s.actE dt (fun t => t.busWrite acc .b32 (F.AX_GRP_PUSH.addr n 0) 1)

/-- GRP_STOP: A write of 1 to GRP.CTRL.STOP (R219). -/
def execGrpStop (dt : Nat) (acc : Master) (n : Fin 64) (s : State) : Out :=
  s.actE dt (fun t => t.busWrite acc .b32 (F.AX_GRP_CTRL_STOP.addr n 0) 1)

/-- LOOP_ENABLE: A write of 1 to LOOP_CTRL.EN (R234). -/
def execLoopEnable (dt : Nat) (acc : Master) (n : Fin 64) (v : Word) (s : State) : Out :=
  s.actE dt (fun t => t.busWrite acc .b32 (F.AX_LOOP_CTRL_EN.addr n 0) (setB v 1))

/-- LOOP_DISABLE: A write of 0 to LOOP_CTRL.EN (R236). -/
def execLoopDisable (dt : Nat) (acc : Master) (n : Fin 64) (v : Word) (s : State) : Out :=
  s.actE dt (fun t => t.busWrite acc .b32 (F.AX_LOOP_CTRL_EN.addr n 0) (clrB v 1))

/-- RESETI: A write of 1 to RESETI (R229). -/
def execLoopResetI (dt : Nat) (acc : Master) (n : Fin 64) (v : Word) (s : State) : Out :=
  s.actE dt (fun t => t.busWrite acc .b32 (F.AX_LOOP_CTRL_EN.addr n 0) (setB v 2))

/-- CLRPK: A write of 1 to CLRPK (R237). -/
def execLoopClrPk (dt : Nat) (acc : Master) (n : Fin 64) (v : Word) (s : State) : Out :=
  s.actE dt (fun t => t.busWrite acc .b32 (F.AX_LOOP_CTRL_EN.addr n 0) (setB v 4))

/-- FILTER_RAW_COMMIT: A write to A2 (R233). -/
def execFilterRawCommit (dt : Nat) (acc : Master) (n : Fin 64) (f : Fin 3) (v : Word) (s : State) : Out :=
  s.actE dt (fun t => t.busWrite acc .b32 (F.AX_FILT_A2.addr n f) (v.toNat))

/-- AXIS_FAULT_CLEAR: A write of ones to FAULT (R247). -/
def execAxisFaultClear (dt : Nat) (acc : Master) (n : Fin 64) (v : Word) (s : State) : Out :=
  s.actE dt (fun t => t.busWrite acc .b32 (F.AX_FAULT_CAUSE.addr n 0) (v.toNat))

/-- CMD_DUTY_EDGE: A sample of a CMD input, its raw levels newest first in bit 0, and the direction ball: in duty mode a rising edge measures (R251). -/
def execCmdDutyEdge (dt : Nat) (k : Fin 8) (raw : BitVec 16) (pair : Bool) (s : State) : Out :=
  s.act dt (fun t => t.cmdSample k raw pair)

/-- CMD_FREQ_EDGE: A sample of a CMD input, its raw levels newest first in bit 0, and the direction ball: in frequency mode a rising edge measures (R252). -/
def execCmdFreqEdge (dt : Nat) (k : Fin 8) (raw : BitVec 16) (pair : Bool) (s : State) : Out :=
  s.act dt (fun t => t.cmdSample k raw pair)

/-- CMD_LOSS: No measurement for TMO (R255). -/
def execCmdLoss (dt : Nat) (k : Fin 8) (s : State) : Out :=
  s.act dt (fun t => t.cmdLoss k)

/-- SILL_RESULT: A Sill conversion completes (R256, R258). -/
def execSillResult (dt : Nat) (code : BitVec 16) (s : State) : Out :=
  s.act dt (fun t => t.sillNext code.toNat)

end Sys2Proof.Machine
end

