-- ==== Sys2Proof/Machine/ExecNet.lean ====
section
/-! DEFINITION. The meanings of the commands: Hallway and Joist. -/
namespace Sys2Proof.Machine

/-- PORT_CFG_WRITE: A write to PORT[p].CFG (R524). -/
def execPortCfgWrite (dt : Nat) (acc : Master) (p : Fin 4) (v : Word) (s : State) : Out :=
  s.actE dt (fun t => t.busWrite acc .b32 (F.HW_PORT_CFG_MODE.addr 0 p) (v.toNat))

/-- LINK_CHANGE: A link comes up or goes down (R524). -/
def execLinkChange (dt : Nat) (p : Fin 4) (up : Bool) (speed : Fin 3) (half : Bool) (s : State) : Out :=
  s.act dt (fun t => t.linkChange p up speed half)

/-- ADDRESS: A clause 45 address frame (R525). -/
def execMdioAddress (dt : Nat) (acc : Master) (v : Word) (s : State) : Out :=
  s.actE dt (fun t => t.busWrite acc .b32 (F.HW_MDIO_CMD_GO.addr 0 0) (setB (v &&& 0x67FF_FFFF#32) 0xA000_0000))

/-- MDIO_WRITE: A write frame (R525). -/
def execMdioWrite (dt : Nat) (acc : Master) (v : Word) (s : State) : Out :=
  s.actE dt (fun t => t.busWrite acc .b32 (F.HW_MDIO_CMD_GO.addr 0 0) (setB (v &&& 0x67FF_FFFF#32) 0x8800_0000))

/-- MDIO_READ: A read frame (R525). -/
def execMdioRead (dt : Nat) (acc : Master) (v : Word) (s : State) : Out :=
  s.actE dt (fun t => t.busWrite acc .b32 (F.HW_MDIO_CMD_GO.addr 0 0) (setB (v &&& 0x67FF_FFFF#32) 0x9000_0000))

/-- MDIO_FRAME_END: An MDIO frame ends (R525). -/
def execMdioFrameEnd (dt : Nat) (data : BitVec 16) (s : State) : Out :=
  s.act dt (fun t => t.mdioEnd data.toNat)

/-- HW_FRAME_RECEIVE: A frame is received, FCS included; how long ago its stamp was, in ns (R526, R527, R534). -/
def execHwFrameReceive (dt : Nat) (p : Fin 4) (frame : List Byte) (ago : Nat) (s : State) : Out :=
  s.act dt (fun t => t.receiveFrame p (nats frame) ago)

/-- HW_FRAME_TRANSMIT: A free port starts the frame that may go; first the management core may queue one of its own (R531, R533). -/
def execHwFrameTransmit (dt : Nat) (p : Fin 4) (own : Option MgmtTx) (s : State) : Out :=
  s.act dt (fun t => t.transmit p own)

/-- MAC_AGEING: A learned address ages out (R526). -/
def execMacAgeing (dt : Nat) (mac : BitVec 48) (s : State) : Out :=
  s.act dt (fun t => t.macAge mac.toNat)

/-- QBV_COMMIT: A write of 1 to COMMIT (R530). -/
def execQbvCommit (dt : Nat) (acc : Master) (p : Fin 4) (v : Word) (s : State) : Out :=
  s.actE dt (fun t => t.busWrite acc .b32 (F.HW_QBV_CTRL_EN.addr 0 p) (setB v 2))

/-- QBV_LIST_START: The committed list starts (R530). -/
def execQbvListStart (dt : Nat) (p : Fin 4) (s : State) : Out :=
  s.act dt (fun t => t.qbvStart p)

/-- QBV_ENTRY: The next entry applies (R529). -/
def execQbvEntry (dt : Nat) (p : Fin 4) (s : State) : Out :=
  s.act dt (fun t => t.qbvApply p)

/-- JOIST_DEPART: The Joist frame departs (R537). -/
def execJoistDepart (dt : Nat) (s : State) : Out :=
  s.act dt (fun t => t.joistDepart)

/-- JOIST_TIMEOUT: A record times out (R542). -/
def execJoistTimeout (dt : Nat) (r : Fin 64) (s : State) : Out :=
  s.act dt (fun t => t.joistTimeout r)

end Sys2Proof.Machine
end

