-- ==== Sys2Proof/Machine/ExecTasks.lean ====
section
/-! DEFINITION. The meanings of the commands: Gouge tasks, core faults and the March engine. -/
namespace Sys2Proof.Machine

/-- SLOT_TASK_START: A slot starts; the axes its task serves (R419 to R421). -/
def execSlotTaskStart (dt : Nat) (n : Fin 10) (i : Fin 32) (axes : List (Fin 64)) (s : State) : Out :=
  s.actE dt (fun t => orUnpredictable (t.slotStart n i axes))

/-- EVENT_TASK_START: The lowest pending event starts (R424). -/
def execEventTaskStart (dt : Nat) (n : Fin 10) (s : State) : Out :=
  s.act dt (fun t => t.eventStart n)

/-- FORCE: A write of 1 to FORCE (R426). -/
def execGougeForce (dt : Nat) (acc : Master) (n : Fin 10) (v : Word) (s : State) : Out :=
  s.actE dt (fun t => t.busWrite acc .b32 (F.GOUGE_CTRL_EN.addr n 0) (setB v 2))

/-- CORE_FAULT: A core is faulted (R426, R430 to R432). -/
def execCoreFault (dt : Nat) (n : Fin 10) (cause : CoreCause) (s : State) : Out :=
  s.act dt (fun t => t.coreFault n cause)

/-- MARCH_SLICE: A slice is tested; the line of a mismatch (R440, R442). -/
def execMarchSlice (dt : Nat) (bad : Option (Fin 16)) (s : State) : Out :=
  s.act dt (fun t => t.marchSlice bad)

/-- MARCH_BACKOFF_END: BACKOFF after a yield (R441). -/
def execMarchBackoffEnd (dt : Nat) (bad : Option (Fin 16)) (s : State) : Out :=
  s.act dt (fun t => t.marchBackoffEnd bad)

/-- MARCH_PASS_START: INTERVAL after the last slice (R440). -/
def execMarchPassStart (dt : Nat) (bad : Option (Fin 16)) (s : State) : Out :=
  s.act dt (fun t => t.marchPassStart bad)

end Sys2Proof.Machine
end

