-- ==== Sys2Proof/Machine/ExecThreshold.lean ====
section
/-! DEFINITION. The meanings of the commands: the Threshold island. -/
namespace Sys2Proof.Machine

/-- THR_INPUT_SAMPLE: A sample of the STO inputs and of the readback bands (R476, R483). -/
def execThrInputSample (dt : Nat) (c : Fin 2) (ins bands : BitVec 8) (s : State) : Out :=
  s.actThr dt (fun t => t.thrSample c ins bands)

/-- THR_TICK: A tick of a channel (R482). -/
def execThrTick (dt : Nat) (c : Fin 2) (refclk : Refclk) (badParity : Bool) (s : State) : Out :=
  s.actThr dt (fun t => t.thrTick c refclk badParity)

/-- THR_RSTREQ: A write to THR_RSTREQ (R490). -/
def execThrRstreq (dt : Nat) (acc : Master) (v : Word) (s : State) : Out :=
  s.actE dt (fun t => t.busWrite acc .b32 (F.THRQ_THR_RSTREQ_KEY.addr 0 0) (v.toNat))

/-- THR_DEMAND: A write to THR_DEMAND (R480). -/
def execThrDemand (dt : Nat) (acc : Master) (v : Word) (s : State) : Out :=
  s.actE dt (fun t => t.busWrite acc .b32 (F.THRQ_THR_DEMAND.addr 0 0) (v.toNat))

/-- DARK_TEST: The high-side dark test starts (R487). -/
def execDarkTest (dt : Nat) (g : Fin 4) (s : State) : Out :=
  s.actThr dt (fun t => t.thrDark g)

/-- DARK_TEST_LOW_SIDE: The low-side dark test starts (R487). -/
def execDarkTestLowSide (dt : Nat) (g : Fin 4) (s : State) : Out :=
  s.actThr dt (fun t => t.thrDarkLow g)

/-- DARK_TEST_END: The end of TTEST (R487). -/
def execDarkTestEnd (dt : Nat) (g : Fin 4) (s : State) : Out :=
  s.actThr dt (fun t => t.thrDarkEnd g)

/-- GRACE_EXPIRY: The grace timer expires (R495). -/
def execGraceExpiry (dt : Nat) (g : Fin 4) (s : State) : Out :=
  s.actThr dt (fun t => t.thrGrace g)

/-- CROSS_LINK_MESSAGE: A cross-link message arrives (R491, R496). -/
def execCrossLinkMessage (dt : Nat) (c : Fin 2) (sameCrc : Bool) (interval : Nat) (s : State) : Out :=
  s.actThr dt (fun t => t.thrMessage c sameCrc interval)

/-- CROSS_LINK_TIMEOUT: 1 ms without a message (R496). -/
def execCrossLinkTimeout (dt : Nat) (c : Fin 2) (s : State) : Out :=
  s.actThr dt (fun t => t.thrSilence c)

/-- THR_STARTUP_TEST: A start-up test ends (R497). -/
def execThrStartupTest (dt : Nat) (c : Fin 2) (pass : Bool) (s : State) : Out :=
  s.actThr dt (fun t => t.thrStarted c pass)

/-- CHANNEL_SUPPLY_FAIL: A channel's supply fails (R472). -/
def execChannelSupplyFail (dt : Nat) (c : Fin 2) (s : State) : Out :=
  s.actThr dt (fun t => t.thrMute c)

end Sys2Proof.Machine
end

