-- ==== Sys2Proof/Machine/ExecTime.lean ====
section
/-! DEFINITION. The meanings of the commands: Hearth and Rafter. -/
namespace Sys2Proof.Machine

/-- LCLK_SET: A write to SET_SEC_HI (R151). -/
def execLclkSet (dt : Nat) (acc : Master) (v : Word) (s : State) : Out :=
  s.actE dt (fun t => t.busWrite acc .b32 (F.HEARTH_SET.addr 0 0 + 8) (v.toNat))

/-- LCLK_STEP_WRITE: A write to STEP_HI (R151). -/
def execLclkStepWrite (dt : Nat) (acc : Master) (v : Word) (s : State) : Out :=
  s.actE dt (fun t => t.busWrite acc .b32 (F.HEARTH_STEP.addr 0 0 + 4) (v.toNat))

/-- SERVO_MEASUREMENT: A Sync accepted at a port gives an offset in 2⁻¹⁶ ns, the Sync interval in ns, the parent, the mean path delay in ns and the grandmaster (R157, R163, R164). -/
def execServoMeasurement (dt : Nat) (p : Fin 4) (dom : BitVec 8) (theta : Int) (ts : Nat) (parent : BitVec 80)
    (delay : Int) (gmid : BitVec 64) (s : State) : Out :=
  s.actE dt (fun t => orUnpredictable (t.servoMeasure p dom.toNat ⟨theta, ts, parent.toNat, delay, gmid.toNat⟩))

/-- PARENT_LOSS: The parent is lost (R165). -/
def execParentLoss (dt : Nat) (s : State) : Out :=
  s.act dt (fun t => t.parentLoss)

/-- BMCA_GRANDMASTER: The device becomes grandmaster (R167). -/
def execBmcaGrandmaster (dt : Nat) (s : State) : Out :=
  s.act dt (fun t => t.grandmaster)

/-- RAFTER_FIRE: A write to FIRE (R171). -/
def execRafterFire (dt : Nat) (acc : Master) (v : Word) (s : State) : Out :=
  s.actE dt (fun t => t.busWrite acc .b32 (F.RAFTER_FIRE_LINES.addr 0 0) (v.toNat))

/-- RAFTER_DEFERRED_LAUNCH: A launch deferred by a busy line is made (R172). -/
def execRafterDeferredLaunch (dt : Nat) (l : Fin 4) (s : State) : Out :=
  s.act dt (fun t => t.rafDeferred l)

/-- RAFTER_BURST_RECEIVE: A burst on a line: its bits as they reach the ball, whether every bit is stable, and how long ago its start edge came, in ns (R170, R173). -/
def execRafterBurstReceive (dt : Nat) (l : Fin 4) (bits : BitVec 7) (stable : Bool) (ago : Nat) (s : State) : Out :=
  s.act dt (fun t => t.rafReceive l bits stable ago)

/-- RAFTER_ACTION: The actions of a line that are due (R174, R175). -/
def execRafterAction (dt : Nat) (l : Fin 4) (s : State) : Out :=
  s.act dt (fun t => t.rafActions l)

/-- RAFTER_MEAS: A write of GO (R177). -/
def execRafterMeas (dt : Nat) (acc : Master) (v : Word) (s : State) : Out :=
  s.actE dt (fun t => t.busWrite acc .b32 (F.RAFTER_MEAS_GO.addr 0 0) (setB v 64))

/-- MRSP: The response to an MREQ (R177). -/
def execMrsp (dt : Nat) (l : Fin 4) (s : State) : Out :=
  s.act dt (fun t => t.rafRespond l)

/-- RAFTER_MEAS_TIMEOUT: 4 µs without an MRSP (R178). -/
def execRafterMeasTimeout (dt : Nat) (s : State) : Out :=
  s.act dt (fun t => t.rafTimeout)

/-- RAFCLK_LOSS: RAFCLK is lost (R180). -/
def execRafclkLoss (dt : Nat) (s : State) : Out :=
  s.act dt (fun t => t.rafclkLoss)

end Sys2Proof.Machine
end

