-- ==== Sys2Proof/Machine/ExecZensor.lean ====
section
/-! DEFINITION. The meanings of the commands: the Zensor server. -/
namespace Sys2Proof.Machine

/-- READ: READ (R546). -/
def execZenRead (dt : Nat) (h : ZHead) (addr : BitVec 32) (s : State) : Out :=
  s.actE dt (fun t => t.zenReadWord h addr.toNat)

/-- WRITE: WRITE (R546). -/
def execZenWrite (dt : Nat) (h : ZHead) (addr : BitVec 32) (data : Word) (s : State) : Out :=
  s.actE dt (fun t => t.zenWriteWord h addr.toNat data.toNat)

/-- BLOCK_READ: BLOCK_READ (R546). -/
def execZenBlockRead (dt : Nat) (h : ZHead) (addr : BitVec 32) (count : BitVec 16) (s : State) : Out :=
  s.actE dt (fun t => t.zenReadBlock h addr.toNat count.toNat)

/-- BLOCK_WRITE: BLOCK_WRITE (R546). -/
def execZenBlockWrite (dt : Nat) (h : ZHead) (addr : BitVec 32) (count : BitVec 16) (data : List Word)
    (s : State) : Out :=
  s.actE dt (fun t => t.zenWriteBlock h addr.toNat count.toNat (data.map BitVec.toNat))

/-- LEDGER_INSERT: LEDGER_INSERT (R546). -/
def execZenLedgerInsert (dt : Nat) (h : ZHead) (slot : BitVec 16) (lane : Byte) (entry : BitVec 128)
    (s : State) : Out :=
  s.actE dt (fun t => t.zenInsert h slot.toNat lane.toNat entry.toNat)

/-- FLASH_WRITE: FLASH_WRITE (R546). -/
def execZenFlashWrite (dt : Nat) (h : ZHead) (slot : Byte) (erase : Byte) (offset : BitVec 32) (data : List Byte)
    (s : State) : Out :=
  s.actE dt (fun t => t.zenFlash h slot.toNat erase.toNat offset.toNat (nats data))

/-- RELOAD: RELOAD (R546). -/
def execZenReload (dt : Nat) (h : ZHead) (mode : Byte) (s : State) : Out :=
  s.actE dt (fun t => t.zenReload h mode.toNat)

/-- SESSION_OPEN: SESSION_OPEN (R548). -/
def execSessionOpen (dt : Nat) (seq : BitVec 32) (req : OpenReq) (s : State) : Out :=
  s.act dt (fun t => t.zenOpenReq seq.toNat req)

/-- SESSION_CLOSE: SESSION_CLOSE (R550). -/
def execSessionClose (dt : Nat) (h : ZHead) (s : State) : Out :=
  s.actE dt (fun t => t.zenClose h)

/-- STREAM_OPEN: STREAM_OPEN; the MAC address where it is resolved at once (R551). -/
def execStreamOpen (dt : Nat) (h : ZHead) (req : StreamReq) (mac : Option (BitVec 48)) (s : State) : Out :=
  s.actE dt (fun t => t.zenStream h req (mac.map BitVec.toNat))

/-- SESSION_TIMEOUT: SESSTMO without an accepted request (R550). -/
def execSessionTimeout (dt : Nat) (sid : BitVec 32) (s : State) : Out :=
  s.act dt (fun t => t.zenTimeout sid.toNat)

/-- STREAM_OPEN_NOROUTE: 1 s without a MAC address (R551). -/
def execStreamOpenNoroute (dt : Nat) (s : State) : Out :=
  s.act dt (fun t => t.streamNoRoute)

/-- FLASH_WRITE_COMPLETE: The erase and programming finish; what the bytes then read as where the flash failed (R546). -/
def execFlashWriteComplete (dt : Nat) (found : Option (List Byte)) (s : State) : Out :=
  s.act dt (fun t => t.flashDone (found.map nats))

end Sys2Proof.Machine
end

