-- ==== Sys2Proof/Machine/Dispatch.lean ====
section
/-! DEFINITION. The meaning of each command. -/
namespace Sys2Proof.Machine

def exec (i : Instr) (s : State) : Host.Outcome State Fault Refusal :=
  match i with
  | .registerWrite dt acc size addr v => Sys2Proof.Machine.execRegisterWrite dt acc size addr v s
  | .rcRead dt acc size addr => Sys2Proof.Machine.execRcRead dt acc size addr s
  | .registerRead dt acc size addr => Sys2Proof.Machine.execRegisterRead dt acc size addr s
  | .memoryWindowAccess dt acc size write addr v => Sys2Proof.Machine.execMemoryWindowAccess dt acc size write addr v s
  | .runStart dt acc v => Sys2Proof.Machine.execRunStart dt acc v s
  | .runStop dt acc v => Sys2Proof.Machine.execRunStop dt acc v s
  | .cycleStart dt => Sys2Proof.Machine.execCycleStart dt s
  | .upstreamDeadline dt => Sys2Proof.Machine.execUpstreamDeadline dt s
  | .dutyDeadline dt => Sys2Proof.Machine.execDutyDeadline dt s
  | .replayWindowEnd dt => Sys2Proof.Machine.execReplayWindowEnd dt s
  | .downstreamFrameDepart dt l => Sys2Proof.Machine.execDownstreamFrameDepart dt l s
  | .fuseProgram dt acc v => Sys2Proof.Machine.execFuseProgram dt acc v s
  | .fuseProgramDone dt => Sys2Proof.Machine.execFuseProgramDone dt s
  | .spindleEnable dt acc n v => Sys2Proof.Machine.execSpindleEnable dt acc n v s
  | .spindleRescale dt acc n v => Sys2Proof.Machine.execSpindleRescale dt acc n v s
  | .spindleLoad dt acc n v => Sys2Proof.Machine.execSpindleLoad dt acc n v s
  | .spindleStandstill dt n => Sys2Proof.Machine.execSpindleStandstill dt n s
  | .ledgerArm dt acc v => Sys2Proof.Machine.execLedgerArm dt acc v s
  | .ledgerCancel dt acc v => Sys2Proof.Machine.execLedgerCancel dt acc v s
  | .ledgerFire dt n slot => Sys2Proof.Machine.execLedgerFire dt n slot s
  | .lclkLaneFire dt slot => Sys2Proof.Machine.execLclkLaneFire dt slot s
  | .donePop dt acc v => Sys2Proof.Machine.execDonePop dt acc v s
  | .markCapture dt n raw => Sys2Proof.Machine.execMarkCapture dt n raw s
  | .markPop dt acc n v => Sys2Proof.Machine.execMarkPop dt acc n v s
  | .toutForce dt acc n v => Sys2Proof.Machine.execToutForce dt acc n v s
  | .chuckModeChange dt acc c v => Sys2Proof.Machine.execChuckModeChange dt acc c v s
  | .chuckOffsetWrite dt acc c v => Sys2Proof.Machine.execChuckOffsetWrite dt acc c v s
  | .quadCountChange dt c b a => Sys2Proof.Machine.execQuadCountChange dt c b a s
  | .chuckIndex dt c z => Sys2Proof.Machine.execChuckIndex dt c z s
  | .hallSectorChange dt c h3 h2 h1 => Sys2Proof.Machine.execHallSectorChange dt c h3 h2 h1 s
  | .hallinv dt c => Sys2Proof.Machine.execHallinv dt c s
  | .ssiRequest dt c ready => Sys2Proof.Machine.execSsiRequest dt c ready s
  | .ssiFrameEnd dt c frame => Sys2Proof.Machine.execSsiFrameEnd dt c frame s
  | .chuckFltClear dt acc c v => Sys2Proof.Machine.execChuckFltClear dt acc c v s
  | .lclkSet dt acc v => Sys2Proof.Machine.execLclkSet dt acc v s
  | .lclkStepWrite dt acc v => Sys2Proof.Machine.execLclkStepWrite dt acc v s
  | .servoMeasurement dt p dom theta ts parent delay gmid => Sys2Proof.Machine.execServoMeasurement dt p dom theta ts parent delay gmid s
  | .parentLoss dt => Sys2Proof.Machine.execParentLoss dt s
  | .bmcaGrandmaster dt => Sys2Proof.Machine.execBmcaGrandmaster dt s
  | .rafterFire dt acc v => Sys2Proof.Machine.execRafterFire dt acc v s
  | .rafterDeferredLaunch dt l => Sys2Proof.Machine.execRafterDeferredLaunch dt l s
  | .rafterBurstReceive dt l bits stable ago => Sys2Proof.Machine.execRafterBurstReceive dt l bits stable ago s
  | .rafterAction dt l => Sys2Proof.Machine.execRafterAction dt l s
  | .rafterMeas dt acc v => Sys2Proof.Machine.execRafterMeas dt acc v s
  | .mrsp dt l => Sys2Proof.Machine.execMrsp dt l s
  | .rafterMeasTimeout dt => Sys2Proof.Machine.execRafterMeasTimeout dt s
  | .rafclkLoss dt => Sys2Proof.Machine.execRafclkLoss dt s
  | .axNone dt acc n => Sys2Proof.Machine.execAxNone dt acc n s
  | .axSync dt acc n => Sys2Proof.Machine.execAxSync dt acc n s
  | .axMove dt acc n => Sys2Proof.Machine.execAxMove dt acc n s
  | .axJog dt acc n => Sys2Proof.Machine.execAxJog dt acc n s
  | .axExt dt acc n => Sys2Proof.Machine.execAxExt dt acc n s
  | .axGear dt acc n => Sys2Proof.Machine.execAxGear dt acc n s
  | .axCam dt acc n => Sys2Proof.Machine.execAxCam dt acc n s
  | .axGroup dt acc n => Sys2Proof.Machine.execAxGroup dt acc n s
  | .axStop dt acc n => Sys2Proof.Machine.execAxStop dt acc n s
  | .axQstop dt acc n => Sys2Proof.Machine.execAxQstop dt acc n s
  | .axDisengage dt acc n => Sys2Proof.Machine.execAxDisengage dt acc n s
  | .axShift dt acc n v => Sys2Proof.Machine.execAxShift dt acc n v s
  | .grpPush dt acc n => Sys2Proof.Machine.execGrpPush dt acc n s
  | .grpStop dt acc n => Sys2Proof.Machine.execGrpStop dt acc n s
  | .loopEnable dt acc n v => Sys2Proof.Machine.execLoopEnable dt acc n v s
  | .loopDisable dt acc n v => Sys2Proof.Machine.execLoopDisable dt acc n v s
  | .loopResetI dt acc n v => Sys2Proof.Machine.execLoopResetI dt acc n v s
  | .loopClrPk dt acc n v => Sys2Proof.Machine.execLoopClrPk dt acc n v s
  | .filterRawCommit dt acc n f v => Sys2Proof.Machine.execFilterRawCommit dt acc n f v s
  | .axisFaultClear dt acc n v => Sys2Proof.Machine.execAxisFaultClear dt acc n v s
  | .cmdDutyEdge dt k raw pair => Sys2Proof.Machine.execCmdDutyEdge dt k raw pair s
  | .cmdFreqEdge dt k raw pair => Sys2Proof.Machine.execCmdFreqEdge dt k raw pair s
  | .cmdLoss dt k => Sys2Proof.Machine.execCmdLoss dt k s
  | .sillResult dt code => Sys2Proof.Machine.execSillResult dt code s
  | .listenTimeout dt n => Sys2Proof.Machine.execListenTimeout dt n s
  | .alignEnd dt n => Sys2Proof.Machine.execAlignEnd dt n s
  | .brakeTimeout dt n => Sys2Proof.Machine.execBrakeTimeout dt n s
  | .ifholdTimeout dt n => Sys2Proof.Machine.execIfholdTimeout dt n s
  | .recatch dt n => Sys2Proof.Machine.execRecatch dt n s
  | .iflow dt n => Sys2Proof.Machine.execIflow dt n s
  | .recatchTimeout dt n => Sys2Proof.Machine.execRecatchTimeout dt n s
  | .zvecTimeout dt n => Sys2Proof.Machine.execZvecTimeout dt n s
  | .holdCurrent dt n => Sys2Proof.Machine.execHoldCurrent dt n s
  | .stall dt n => Sys2Proof.Machine.execStall dt n s
  | .blTrain dt acc l v => Sys2Proof.Machine.execBlTrain dt acc l v s
  | .blDisable dt acc l v => Sys2Proof.Machine.execBlDisable dt acc l v s
  | .blClrflt dt acc l v => Sys2Proof.Machine.execBlClrflt dt acc l v s
  | .blAligned dt l => Sys2Proof.Machine.execBlAligned dt l s
  | .ping dt l => Sys2Proof.Machine.execPing dt l s
  | .pong dt l tag ui => Sys2Proof.Machine.execPong dt l tag ui s
  | .blMeasureEnd dt l => Sys2Proof.Machine.execBlMeasureEnd dt l s
  | .syncLaunch dt l => Sys2Proof.Machine.execSyncLaunch dt l s
  | .upstreamFrame dt l gs rd => Sys2Proof.Machine.execUpstreamFrame dt l gs rd s
  | .blCodeErrorBurst dt l gs rd => Sys2Proof.Machine.execBlCodeErrorBurst dt l gs rd s
  | .creset dt acc b => Sys2Proof.Machine.execCreset dt acc b s
  | .jlTrain dt acc l v => Sys2Proof.Machine.execJlTrain dt acc l v s
  | .jlDisable dt acc l v => Sys2Proof.Machine.execJlDisable dt acc l v s
  | .jlAligned dt l => Sys2Proof.Machine.execJlAligned dt l s
  | .jlEnum dt l gs rd => Sys2Proof.Machine.execJlEnum dt l gs rd s
  | .jlEnumTimeout dt l => Sys2Proof.Machine.execJlEnumTimeout dt l s
  | .jlReq dt l => Sys2Proof.Machine.execJlReq dt l s
  | .jlRsp dt l gs rd ui => Sys2Proof.Machine.execJlRsp dt l gs rd ui s
  | .jlMeasureEnd dt l => Sys2Proof.Machine.execJlMeasureEnd dt l s
  | .jlTmark dt l fine => Sys2Proof.Machine.execJlTmark dt l fine s
  | .jlTimeIdle dt l => Sys2Proof.Machine.execJlTimeIdle dt l s
  | .jlFrameDepart dt l => Sys2Proof.Machine.execJlFrameDepart dt l s
  | .jlStat dt l gs rd => Sys2Proof.Machine.execJlStat dt l gs rd s
  | .jlDl dt acc l v => Sys2Proof.Machine.execJlDl dt acc l v s
  | .jlDlTimeout dt l => Sys2Proof.Machine.execJlDlTimeout dt l s
  | .jlLoss dt l aligned gs rd => Sys2Proof.Machine.execJlLoss dt l aligned gs rd s
  | .jlModlost dt l p => Sys2Proof.Machine.execJlModlost dt l p s
  | .mnop dt n rot => Sys2Proof.Machine.execMnop dt n rot s
  | .mpy dt n rot d x y int ux uy => Sys2Proof.Machine.execMpy dt n rot d x y int ux uy s
  | .mac dt n rot d x y int ux uy => Sys2Proof.Machine.execMac dt n rot d x y int ux uy s
  | .msu dt n rot d x y int ux uy => Sys2Proof.Machine.execMsu dt n rot d x y int ux uy s
  | .mpy2 dt n rot d x y s0 s1 => Sys2Proof.Machine.execMpy2 dt n rot d x y s0 s1 s
  | .mac2 dt n rot d x y s0 s1 => Sys2Proof.Machine.execMac2 dt n rot d x y s0 s1 s
  | .add dt n rot d a => Sys2Proof.Machine.execAdd dt n rot d a s
  | .sub dt n rot d a => Sys2Proof.Machine.execSub dt n rot d a s
  | .adc dt n rot d a => Sys2Proof.Machine.execAdc dt n rot d a s
  | .sbc dt n rot d a => Sys2Proof.Machine.execSbc dt n rot d a s
  | .addd dt n rot d x => Sys2Proof.Machine.execAddd dt n rot d x s
  | .subd dt n rot d x => Sys2Proof.Machine.execSubd dt n rot d x s
  | .neg dt n rot d a => Sys2Proof.Machine.execNeg dt n rot d a s
  | .abs dt n rot d a => Sys2Proof.Machine.execAbs dt n rot d a s
  | .mova dt n rot d a => Sys2Proof.Machine.execMova dt n rot d a s
  | .clr dt n rot d => Sys2Proof.Machine.execClr dt n rot d s
  | .asl dt n rot d a k => Sys2Proof.Machine.execAsl dt n rot d a k s
  | .asr dt n rot d a k => Sys2Proof.Machine.execAsr dt n rot d a k s
  | .lsr dt n rot d a k => Sys2Proof.Machine.execLsr dt n rot d a k s
  | .shv dt n rot d a y => Sys2Proof.Machine.execShv dt n rot d a y s
  | .rnd dt n rot d a => Sys2Proof.Machine.execRnd dt n rot d a s
  | .max dt n rot d a => Sys2Proof.Machine.execMax dt n rot d a s
  | .min dt n rot d a => Sys2Proof.Machine.execMin dt n rot d a s
  | .cmp dt n rot d a => Sys2Proof.Machine.execCmp dt n rot d a s
  | .dtoa dt n rot d x => Sys2Proof.Machine.execDtoa dt n rot d x s
  | .div dt n rot d x => Sys2Proof.Machine.execDiv dt n rot d x s
  | .movd dt n rot d a => Sys2Proof.Machine.execMovd dt n rot d a s
  | .cls dt n rot d a => Sys2Proof.Machine.execCls dt n rot d a s
  | .dadd dt n rot d x y => Sys2Proof.Machine.execDadd dt n rot d x y s
  | .dsub dt n rot d x y => Sys2Proof.Machine.execDsub dt n rot d x y s
  | .daddi dt n rot d x imm => Sys2Proof.Machine.execDaddi dt n rot d x imm s
  | .dand dt n rot d x y => Sys2Proof.Machine.execDand dt n rot d x y s
  | .dor dt n rot d x y => Sys2Proof.Machine.execDor dt n rot d x y s
  | .dxor dt n rot d x y => Sys2Proof.Machine.execDxor dt n rot d x y s
  | .dshl dt n rot d x k => Sys2Proof.Machine.execDshl dt n rot d x k s
  | .dshr dt n rot d x k => Sys2Proof.Machine.execDshr dt n rot d x k s
  | .dlsr dt n rot d x k => Sys2Proof.Machine.execDlsr dt n rot d x k s
  | .lnop dt n more => Sys2Proof.Machine.execLnop dt n more s
  | .ld dt n more reg p k imm => Sys2Proof.Machine.execLd dt n more reg p k imm s
  | .ldh dt n more reg p k imm => Sys2Proof.Machine.execLdh dt n more reg p k imm s
  | .st dt n more reg p k imm => Sys2Proof.Machine.execSt dt n more reg p k imm s
  | .sth dt n more reg p k imm => Sys2Proof.Machine.execSth dt n more reg p k imm s
  | .sta dt n more a p k imm => Sys2Proof.Machine.execSta dt n more a p k imm s
  | .xadd dt n more reg p k imm => Sys2Proof.Machine.execXadd dt n more reg p k imm s
  | .xswp dt n more reg p k imm => Sys2Proof.Machine.execXswp dt n more reg p k imm s
  | .par dt n more x y => Sys2Proof.Machine.execPar dt n more x y s
  | .ldi dt n more g imm => Sys2Proof.Machine.execLdi dt n more g imm s
  | .ldih dt n more g imm => Sys2Proof.Machine.execLdih dt n more g imm s
  | .movc dt n more g src => Sys2Proof.Machine.execMovc dt n more g src s
  | .padd dt n more p imm => Sys2Proof.Machine.execPadd dt n more p imm s
  | .clrf dt n more imm => Sys2Proof.Machine.execClrf dt n more imm s
  | .tfault dt n more => Sys2Proof.Machine.execTfault dt n more s
  | .duty dt n more l half => Sys2Proof.Machine.execDuty dt n more l half s
  | .bra dt n more c target => Sys2Proof.Machine.execBra dt n more c target s
  | .call dt n more target => Sys2Proof.Machine.execCall dt n more target s
  | .ret dt n more => Sys2Proof.Machine.execRet dt n more s
  | .rete dt n more => Sys2Proof.Machine.execRete dt n more s
  | .hwLoop dt n more level reg count eofs => Sys2Proof.Machine.execLoop dt n more level reg count eofs s
  | .endTask dt n more => Sys2Proof.Machine.execEnd dt n more s
  | .fence dt n more => Sys2Proof.Machine.execFence dt n more s
  | .pantryLoadArrival dt n => Sys2Proof.Machine.execPantryLoadArrival dt n s
  | .pantryStoreComplete dt n => Sys2Proof.Machine.execPantryStoreComplete dt n s
  | .slotTaskStart dt n idx axes => Sys2Proof.Machine.execSlotTaskStart dt n idx axes s
  | .eventTaskStart dt n => Sys2Proof.Machine.execEventTaskStart dt n s
  | .gougeForce dt acc n v => Sys2Proof.Machine.execGougeForce dt acc n v s
  | .coreFault dt n cause => Sys2Proof.Machine.execCoreFault dt n cause s
  | .marchSlice dt bad => Sys2Proof.Machine.execMarchSlice dt bad s
  | .marchBackoffEnd dt bad => Sys2Proof.Machine.execMarchBackoffEnd dt bad s
  | .marchPassStart dt bad => Sys2Proof.Machine.execMarchPassStart dt bad s
  | .celArm dt acc v => Sys2Proof.Machine.execCelArm dt acc v s
  | .celStop dt acc v => Sys2Proof.Machine.execCelStop dt acc v s
  | .celForce dt acc v => Sys2Proof.Machine.execCelForce dt acc v s
  | .celSample dt balls => Sys2Proof.Machine.execCelSample dt balls s
  | .autoTrigger dt => Sys2Proof.Machine.execAutoTrigger dt s
  | .datagram dt => Sys2Proof.Machine.execDatagram dt s
  | .thrInputSample dt c ins bands => Sys2Proof.Machine.execThrInputSample dt c ins bands s
  | .thrTick dt c refclk badParity => Sys2Proof.Machine.execThrTick dt c refclk badParity s
  | .thrRstreq dt acc v => Sys2Proof.Machine.execThrRstreq dt acc v s
  | .thrDemand dt acc v => Sys2Proof.Machine.execThrDemand dt acc v s
  | .darkTest dt g => Sys2Proof.Machine.execDarkTest dt g s
  | .darkTestLowSide dt g => Sys2Proof.Machine.execDarkTestLowSide dt g s
  | .darkTestEnd dt g => Sys2Proof.Machine.execDarkTestEnd dt g s
  | .graceExpiry dt g => Sys2Proof.Machine.execGraceExpiry dt g s
  | .crossLinkMessage dt c sameCrc interval => Sys2Proof.Machine.execCrossLinkMessage dt c sameCrc interval s
  | .crossLinkTimeout dt c => Sys2Proof.Machine.execCrossLinkTimeout dt c s
  | .thrStartupTest dt c pass => Sys2Proof.Machine.execThrStartupTest dt c pass s
  | .channelSupplyFail dt c => Sys2Proof.Machine.execChannelSupplyFail dt c s
  | .f3reset dt refsel => Sys2Proof.Machine.execF3reset dt refsel s
  | .clockFault dt cause => Sys2Proof.Machine.execClockFault dt cause s
  | .atticCommit dt slots => Sys2Proof.Machine.execAtticCommit dt slots s
  | .atticScanDone dt => Sys2Proof.Machine.execAtticScanDone dt s
  | .atticUser dt acc v => Sys2Proof.Machine.execAtticUser dt acc v s
  | .atticClear dt acc v => Sys2Proof.Machine.execAtticClear dt acc v s
  | .portCfgWrite dt acc p v => Sys2Proof.Machine.execPortCfgWrite dt acc p v s
  | .linkChange dt p up speed half => Sys2Proof.Machine.execLinkChange dt p up speed half s
  | .mdioAddress dt acc v => Sys2Proof.Machine.execMdioAddress dt acc v s
  | .mdioWrite dt acc v => Sys2Proof.Machine.execMdioWrite dt acc v s
  | .mdioRead dt acc v => Sys2Proof.Machine.execMdioRead dt acc v s
  | .mdioFrameEnd dt data => Sys2Proof.Machine.execMdioFrameEnd dt data s
  | .hwFrameReceive dt p frame ago => Sys2Proof.Machine.execHwFrameReceive dt p frame ago s
  | .hwFrameTransmit dt p own => Sys2Proof.Machine.execHwFrameTransmit dt p own s
  | .macAgeing dt mac => Sys2Proof.Machine.execMacAgeing dt mac s
  | .qbvCommit dt acc p v => Sys2Proof.Machine.execQbvCommit dt acc p v s
  | .qbvListStart dt p => Sys2Proof.Machine.execQbvListStart dt p s
  | .qbvEntry dt p => Sys2Proof.Machine.execQbvEntry dt p s
  | .joistDepart dt => Sys2Proof.Machine.execJoistDepart dt s
  | .joistTimeout dt r => Sys2Proof.Machine.execJoistTimeout dt r s
  | .zenRead dt h addr => Sys2Proof.Machine.execZenRead dt h addr s
  | .zenWrite dt h addr data => Sys2Proof.Machine.execZenWrite dt h addr data s
  | .zenBlockRead dt h addr count => Sys2Proof.Machine.execZenBlockRead dt h addr count s
  | .zenBlockWrite dt h addr count data => Sys2Proof.Machine.execZenBlockWrite dt h addr count data s
  | .zenLedgerInsert dt h slot lane entry => Sys2Proof.Machine.execZenLedgerInsert dt h slot lane entry s
  | .zenFlashWrite dt h slot erase offset data => Sys2Proof.Machine.execZenFlashWrite dt h slot erase offset data s
  | .zenReload dt h mode => Sys2Proof.Machine.execZenReload dt h mode s
  | .sessionOpen dt seq req => Sys2Proof.Machine.execSessionOpen dt seq req s
  | .sessionClose dt h => Sys2Proof.Machine.execSessionClose dt h s
  | .streamOpen dt h req mac => Sys2Proof.Machine.execStreamOpen dt h req mac s
  | .sessionTimeout dt sid => Sys2Proof.Machine.execSessionTimeout dt sid s
  | .streamOpenNoroute dt => Sys2Proof.Machine.execStreamOpenNoroute dt s
  | .flashWriteComplete dt found => Sys2Proof.Machine.execFlashWriteComplete dt found s
  | .canInit dt acc n v idle => Sys2Proof.Machine.execCanInit dt acc n v idle s
  | .canInitRelease dt acc n v idle => Sys2Proof.Machine.execCanInitRelease dt acc n v idle s
  | .canBorcv dt acc n v idle => Sys2Proof.Machine.execCanBorcv dt acc n v idle s
  | .canRom dt acc n v idle => Sys2Proof.Machine.execCanRom dt acc n v idle s
  | .canMon dt acc n v idle => Sys2Proof.Machine.execCanMon dt acc n v idle s
  | .canSleep dt acc n v idle => Sys2Proof.Machine.execCanSleep dt acc n v idle s
  | .canTxreq dt acc n hi v => Sys2Proof.Machine.execCanTxreq dt acc n hi v s
  | .canTxcancel dt acc n hi v => Sys2Proof.Machine.execCanTxcancel dt acc n hi v s
  | .canNewdatClear dt acc n hi v => Sys2Proof.Machine.execCanNewdatClear dt acc n hi v s
  | .canIntegrated dt n => Sys2Proof.Machine.execCanIntegrated dt n s
  | .canRecovered dt n => Sys2Proof.Machine.execCanRecovered dt n s
  | .canFrameReceive dt n f ago => Sys2Proof.Machine.execCanFrameReceive dt n f ago s
  | .canTransmitStart dt n => Sys2Proof.Machine.execCanTransmitStart dt n s
  | .canTransmitEnd dt n how loopDelay => Sys2Proof.Machine.execCanTransmitEnd dt n how loopDelay s
  | .canError dt n code rule dataPhase => Sys2Proof.Machine.execCanError dt n code rule dataPhase s
  | .protocolException dt n => Sys2Proof.Machine.execProtocolException dt n s
  | .canWake dt n seen refsel => Sys2Proof.Machine.execCanWake dt n seen refsel s
  | .powerOnReset dt refsel => Sys2Proof.Machine.execPowerOnReset dt refsel s
  | .resetN dt ns refsel => Sys2Proof.Machine.execResetN dt ns refsel s
  | .watchdog dt refsel => Sys2Proof.Machine.execWatchdog dt refsel s
  | .zensorSoftReset dt refsel => Sys2Proof.Machine.execZensorSoftReset dt refsel s
  | .warmReload dt refsel => Sys2Proof.Machine.execWarmReload dt refsel s
  | .pwrResetSoft dt acc v => Sys2Proof.Machine.execPwrResetSoft dt acc v s
  | .pwrResetWarm dt acc v => Sys2Proof.Machine.execPwrResetWarm dt acc v s
  | .loadPass1End dt read => Sys2Proof.Machine.execLoadPass1End dt read s
  | .regsPoll dt => Sys2Proof.Machine.execRegsPoll dt s
  | .regsPollTimeout dt => Sys2Proof.Machine.execRegsPollTimeout dt s
  | .regsDelay dt => Sys2Proof.Machine.execRegsDelay dt s
  | .sleepRequest dt acc v => Sys2Proof.Machine.execSleepRequest dt acc v s
  | .sleepEntry dt refsel => Sys2Proof.Machine.execSleepEntry dt refsel s
  | .wakeN dt ns refsel => Sys2Proof.Machine.execWakeN dt ns refsel s
  | .wakeTimer dt refsel => Sys2Proof.Machine.execWakeTimer dt refsel s
  | .wdtStart dt acc v => Sys2Proof.Machine.execWdtStart dt acc v s
  | .wdtKick dt acc v => Sys2Proof.Machine.execWdtKick dt acc v s
  | .supplyBelowFallingThreshold dt => Sys2Proof.Machine.execSupplyBelowFallingThreshold dt s

end Sys2Proof.Machine
end

