-- ==== Sys2Proof/Safety.lean ====
section
/-! DEFINITION. What the statements mean by a sound state, by a command that completes, and by a register write that
reaches its register. -/
namespace Sys2Proof.Machine

/-- The registers, R10's snapshots, R11's held writes, the memories and the flash are in their canonical forms. -/
def State.Sound (s : State) : Prop :=
  s.regs.wf = true ∧ keysRise s.snaps = true ∧ keysRise s.held = true ∧ s.mem.wf = true ∧ s.flash.wf = true

/-- Not one of the parts of the register space that is memory (R45, R504, R559). -/
def plainAddr (a : Nat) : Bool :=
  decide (0x1000 ≤ a) && decide (a < 0x0400_0000) && decide (a % 4 = 0) &&
    !(decide (0xB00000 ≤ a) && decide (a < 0xB01000)) && !(decide (0xC00000 ≤ a) && decide (a < 0xC40000)) &&
    !(decide (0xA04000 ≤ a) && decide (a < 0xA08000))

/-- Bit `b` of fuse word `w` has been programmed since manufacture (R69). -/
def State.burntBit (s : State) (w b : Nat) : Bool :=
  bit (((s.fuses.burnt.find? (fun x => x.1 == w)).map (·.2)).getD 0) b

/-- Command `c` answers a next state, of which `P` holds. -/
def Completes (c : Instr) (s : State) (P : State → Prop) : Prop := ∃ t, exec c s = .next t ∧ P t

/-- From `s` to `t` every register outside `p` and every byte of memory reads as before. -/
def State.Within (s t : State) (p : Nat → Prop) : Prop :=
  (∀ a, ¬ p a → t.reg a = s.reg a) ∧ ∀ a, Memory.read t.mem a = Memory.read s.mem a

/-- From `s` to `t` every register outside `p` and every byte of memory outside `q` reads as before. -/
def State.Touches (s t : State) (p q : Nat → Prop) : Prop :=
  (∀ a, ¬ p a → t.reg a = s.reg a) ∧ ∀ a, ¬ q a → Memory.read t.mem a = Memory.read s.mem a

/-- `dt` ns from now the blocks but Threshold have power and are out of reset (R588, R595, R608). -/
def State.Live (s : State) (dt : Nat) : Prop := (s.wait dt).off = false

/-- The state that an access to address `a` finds: what is counted as time passes has been brought up to date (R25, R75,
R77, R294, R530). -/
def State.found (s : State) (dt a : Nat) : State := (s.wait dt).settleAt a

/-- No bit of `v` is 1 that the register at `a` does not list (R8). -/
def ReservedClear (a v : Nat) : Prop := ∀ d, regAt a = some d → v - (v &&& d.mask (fun _ => true)) = 0

/-- A 32-bit write of `v` by `m` to the register at `a` reaches it: there is power, the Lodge lets it through (R56), a field
of the secure world alone is written by a secure master (R4), and no reserved bit is 1 (R8). -/
structure State.Reaches (s : State) (dt : Nat) (m : Master) (a v : Nat) : Prop where
  live : s.Live dt
  allowed : ((s.found dt a).lodge m true a).1 = true
  world : ∀ d, regAt a = some d → d.guarded = true → (s.found dt a).masterSecure m = true
  reserved : ReservedClear a v

/-! ### Gouge bundles -/

/-- Accumulator `i` of a bank. -/
def GRegs.acc (r : GRegs) (sh : Bool) (i : Fin 4) : BitVec 56 := (if sh then r.shadow else r.main).a[i]

/-- P register `i` of a bank. -/
def GRegs.ptr (r : GRegs) (sh : Bool) (i : Fin 8) : BitVec 18 := (if sh then r.shadow else r.main).p[i]

/-- What a slot may change: accumulators, D registers and P registers, M registers, bits of SR, ESR, EPC and the bank. -/
structure GMay where
  a : List (Bool × Fin 4) := []
  d : List DLoc := []
  p : List (Bool × Fin 8) := []
  m : List (Fin 8) := []
  sr : List Nat := []
  esr : Bool := false
  epc : Bool := false
  bank : Bool := false

/-- Every register outside `k` is in `g` what it is in `r`, the hardware-loop registers and RB apart. -/
def GRegs.KeptBut (r g : GRegs) (k : GMay) : Prop :=
  (∀ sh i, (sh, i) ∉ k.a → g.acc sh i = r.acc sh i) ∧ (∀ l, l ∉ k.d → g.at' l = r.at' l) ∧
  (∀ sh i, (sh, i) ∉ k.p → g.ptr sh i = r.ptr sh i) ∧ (∀ i : Fin 8, i ∉ k.m → g.m[i] = r.m[i]) ∧
  (∀ i : Fin 32, i.val ∉ k.sr → g.sr.getLsbD i.val = r.sr.getLsbD i.val) ∧ (k.esr = false → g.esr = r.esr) ∧
  (k.epc = false → g.epc = r.epc) ∧ (k.bank = false → g.inEvt = r.inEvt)

/-- The hardware-loop registers. -/
def GRegs.loops (r : GRegs) : Vector (BitVec 16) 2 × Vector (BitVec 14) 2 × Vector (BitVec 14) 2 := (r.lc, r.ls, r.le)

/-- The registers as they stood before the bundle in progress (R406). -/
def State.before (x : State) (n : Fin 10) : GRegs := x.core[n].base.getD x.core[n].regs

/-- Core `n` stands at an armed loop end whose bodies do not nest, where R410 leaves the result unpredictable. -/
def State.badLoops (x : State) (n : Fin 10) : Prop :=
  x.core[n].atLoopEnd = true ∧ x.core[n].ageLoops.regs.nested = false

/-- From `x` to `t` core `n` has ended its bundle and goes on at `next`, else at the following bundle, with the loop
registers `loops`; at a loop end R409 says where and with which. The other cores stay. -/
def State.BundleEnds (x t : State) (n : Fin 10) (next : Option (BitVec 14))
    (loops : Vector (BitVec 16) 2 × Vector (BitVec 14) 2 × Vector (BitVec 14) 2) : Prop :=
  (∀ i, i ≠ n → t.core[i] = x.core[i]) ∧ t.core[n].base = none ∧ t.core[n].wrote = [] ∧ t.core[n].nextPc = none ∧
  (x.core[n].atLoopEnd = false → t.core[n].pc = next.getD (x.core[n].pc + 1) ∧
    (x.core[n].loopWrites = [] → t.core[n].regs.loops = loops))

/-- Core `n`'s accesses, results on their way and call stack, every register of the fabric and every byte of memory stay. -/
def State.SameAround (x t : State) (n : Fin 10) : Prop :=
  t.core[n].outst = x.core[n].outst ∧ t.core[n].arrivals = x.core[n].arrivals ∧ t.core[n].stack = x.core[n].stack ∧
  x.Within t (fun _ => False)

/-- What an M slot writes: accumulators of the bank in use, a D register by name, and bits of SR. -/
structure MOut where
  accs : List (Fin 4 × Int) := []
  ds : List (Fin 16 × Int) := []
  fl : List (Nat × Bool) := []

/-- The M slot `c` of a bundle of core `n`, issued at `u`, which needs the D registers `need` and writes what `w` says of the
registers before the bundle and now. A core that is FAULTED executes nothing (R430); the bundle waits for its operands (R405);
a register that the L slot has written too, and loop ends that R410 does not allow, are unpredictable. -/
def MSlot (c : Instr) (s u : State) (n : Fin 10) (rot : Bool) (need : List (Fin 16)) (w : GRegs → GRegs → MOut) : Prop :=
  u.off = false →
  let x := u.interlock n (need.map (u.before n).loc)
  let b := x.before n
  let r := x.core[n].regs
  let o := w b r
  let twice := o.accs.any (fun q => x.core[n].wrote.contains (.a b.inEvt q.1)) = true ∨
    o.ds.any (fun q => x.core[n].wrote.contains (.d (b.loc q.1))) = true
  (u.coreDead n = true → Completes c s (fun t => t = u)) ∧
  (u.coreDead n = false → x.coreDead n = true → Completes c s (fun t => t = x)) ∧
  (u.coreDead n = false → x.coreDead n = false → (twice ∨ x.badLoops n) → exec c s = .refused .unpredictable) ∧
  (u.coreDead n = false → x.coreDead n = false → ¬ (twice ∨ x.badLoops n) → Completes c s (fun t =>
    let g := t.core[n].regs
    (∀ q, q ∈ o.accs → g.acc b.inEvt q.1 = BitVec.ofInt 56 q.2) ∧ (∀ q, q ∈ o.ds → g.at' (b.loc q.1) = BitVec.ofInt 24 q.2) ∧
    (∀ q, q ∈ o.fl → g.sr.getLsbD q.1 = q.2) ∧
    r.KeptBut g { a := o.accs.map (fun q => (b.inEvt, q.1)), d := o.ds.map (fun q => b.loc q.1), sr := o.fl.map (·.1) } ∧
    g.rb = (if rot = true ∧ b.inEvt = false then r.rb + 1 else r.rb) ∧ x.SameAround t n ∧
    x.BundleEnds t n x.core[n].nextPc r.loops))

/-- How a statement describes an L slot: the D registers it needs, what it writes, the states it finds for which it is
unpredictable, where it branches, the loop registers it leaves, and what holds of the state it finds and the next. -/
structure LOut where
  need : List (Fin 16) := []
  dsts : GRegs → List GDst := fun _ => []
  bad : State → Bool := fun _ => false
  next : State → Option (BitVec 14) := fun _ => none
  loops : GRegs → Vector (BitVec 16) 2 × Vector (BitVec 14) 2 × Vector (BitVec 14) 2 := GRegs.loops
  post : State → State → Prop

/-- The L slot `c` of a bundle of core `n`, issued at `u`; `more` says that the M slot of the same bundle follows. A bundle
whose announced M slot did not come is ended first, with MNOP. -/
def LSlot (c : Instr) (s u : State) (n : Fin 10) (more : Bool) (o : LOut) : Prop :=
  u.off = false →
  let start := if u.core[n].base.isSome then u.coreFinish n false else some u
  (u.coreDead n = true → Completes c s (fun t => t = u)) ∧
  (u.coreDead n = false → start = none → exec c s = .refused .unpredictable) ∧
  (u.coreDead n = false → ∀ x0, start = some x0 →
    let x := x0.interlock n (o.need.map x0.core[n].regs.loc)
    let r := x.core[n].regs
    (x.coreDead n = true → Completes c s (fun t => t = x)) ∧
    (x.coreDead n = false → o.bad x = true → exec c s = .refused .unpredictable) ∧
    (x.coreDead n = false → o.bad x = false → more = false → x.badLoops n → x.badPar = [] →
      exec c s = .refused .unpredictable) ∧
    (x.coreDead n = false → o.bad x = false → ¬ (more = false ∧ x.badLoops n) → Completes c s (fun t =>
      let next := (o.next x).or x.core[n].nextPc
      o.post x t ∧
      (t.coreDead n = false → more = true → t.core[n].base = some r ∧ t.core[n].wrote = o.dsts r ∧ t.core[n].nextPc = next ∧
        t.core[n].pc = x.core[n].pc ∧ t.core[n].regs.loops = o.loops r ∧ ∀ i, i ≠ n → t.core[i] = x.core[i]) ∧
      (t.coreDead n = false → more = false → x.BundleEnds t n next (o.loops r)))))

end Sys2Proof.Machine
end

