-- ==== Sys2Proof/Certificates/Slice0/Obligations.lean ====
section
/-! DEFINITION. The statements for the provers. -/

section
open Sys2Proof Sys2Proof.Machine

/-- A step runs the command at the front of the queue (the model's queue, log entry 2). -/
def Obligations.StepTakesTheFrontCommand : Prop :=
  ∀ (s : State) (c : Instr) (rest : List Instr), s.pending = c :: rest → step s = exec c { s with pending := rest }

/-- An idle step is one FCLK cycle: LCLK advances on FCLK at the rate that Hearth sets (R17, R149; log entry 2). -/
def Obligations.IdleStepIsOneClockCycle : Prop :=
  ∀ s : State, s.pending = [] → ∃ t, step s = .next t ∧ t.pending = [] ∧ t.phys = s.phys + 2 ∧
    ((∀ b ∈ s.raf.rx, s.run + s.pace s.phys < b.due) → (∀ o ∈ s.led.ops, s.phys + 2 < o.due) →
      t.lclk = s.lclk + s.pace s.phys ∧ t.run = s.run + s.pace s.phys ∧ (s.boot.refLost = false → s.pace s.phys = s.rate) ∧
      t.regs = s.regs ∧ t.mem = s.mem ∧ t.flash = s.flash)

/-- The state after reset: every register at its row's reset value, nothing running, nothing waiting. -/
def Obligations.ResetStateIsSound : Prop :=
  State.reset.Sound ∧ State.reset.pending = [] ∧ (∀ a, State.reset.reg a = resetWord a) ∧ State.reset.lclk = 0 ∧
    State.reset.running = false ∧ State.reset.seq.next = none ∧ ∀ a, Memory.read State.reset.mem a = 0

/-- Soundness is an invariant of every step. -/
def Obligations.StepKeepsSound : Prop :=
  ∀ s t : State, s.Sound → step s = .next t → t.Sound

/-- A step consumes exactly the front command and lets time pass forward only (log entry 2). -/
def Obligations.StepConsumesOneCommand : Prop :=
  ∀ s t : State, step s = .next t → t.pending = s.pending.tail ∧ s.phys ≤ t.phys

/-- A programmed fuse cannot return to 0 (R69): whatever the command, resets and warm reload included. -/
def Obligations.ProgrammedFusesStayProgrammed : Prop :=
  ∀ (s t : State) (w b : Nat), s.burntBit w b = true → step s = .next t → t.burntBit w b = true

/-- R50: an access that is not naturally aligned has an unpredictable result: the model stops there, by name. -/
def Obligations.MisalignedAccessIsRefused : Prop :=
  ∀ (s : State) (dt : Nat) (m : Master) (size : Size) (a : BitVec 32) (v : Word), s.Live dt → a.toNat % sizeBytes size ≠ 0 →
    exec (.registerWrite dt m size a v) s = .refused .unaligned ∧ exec (.registerRead dt m size a) s = .refused .unaligned ∧
    exec (.rcRead dt m size a) s = .refused .unaligned ∧
    ∀ w, exec (.memoryWindowAccess dt m size w a v) s = .refused .unaligned

/-- R9: a read of an unlisted address returns an unpredictable value, and a write has an unpredictable result. -/
def Obligations.UnlistedAddressReadsAFreeValue : Prop :=
  ∀ (s : State) (dt : Nat) (m : Master) (a : BitVec 32) (v : Word), s.Live dt → plainAddr a.toNat = true → regAt a.toNat = none →
    (((s.found dt a.toNat).lodge m false a.toNat).1 = true →
      Completes (.registerRead dt m .b32 a) s (fun t =>
        t.rdata = BitVec.ofNat 32 (Config.freeValue (s.found dt a.toNat).freeCtr).toNat ∧
        (s.found dt a.toNat).Within t (fun _ => False))) ∧
    (((s.found dt a.toNat).lodge m true a.toNat).1 = true →
      exec (.registerWrite dt m .b32 a v) s = .refused .unlistedAddress)

/-- R8: reserved fields read as zero, and writing another value has an unpredictable result. -/
def Obligations.ReservedBitsReadZeroAndRefuseOnes : Prop :=
  ∀ (s : State) (dt : Nat) (m : Master) (a : BitVec 32) (v : Word), s.Live dt → plainAddr a.toNat = true →
    ∀ d, regAt a.toNat = some d →
    (((s.found dt a.toNat).lodge m false a.toNat).1 = true →
      Completes (.registerRead dt m .b32 a) s (fun t =>
        ∀ i, (d.mask (fun _ => true)).testBit i = false → t.rdata.toNat.testBit i = false)) ∧
    (((s.found dt a.toNat).lodge m true a.toNat).1 = true →
      (d.guarded = true → (s.found dt a.toNat).masterSecure m = true) → ¬ ReservedClear a.toNat v.toNat →
      exec (.registerWrite dt m .b32 a v) s = .refused .reservedField)

/-- R56 and R62: the worlds of blocks and masters decide what an access does. -/
def Obligations.WorldsGovernAccesses : Prop :=
  ∀ (s : State) (dt : Nat) (m : Master) (size : Size) (a : BitVec 32) (v : Word), s.Sound → s.Live dt →
    a.toNat % sizeBytes size = 0 → (s.found dt a.toNat).asOfCycle.regions a.toNat = [] → ∀ e, entryOf a.toNat = some e →
    let u := s.found dt a.toNat
    let noted := fun (t : State) (k : Nat) => u.Within t (fun r => 0x20040 ≤ r ∧ r < 0x20050 ∨ 0x30C00 ≤ r ∧ r < 0x30E00) ∧
      t.fget F.LODGE_VIOL_STATUS_VALID = 1 ∧ (u.fget F.LODGE_VIOL_STATUS_VALID = 0 → t.fget F.LODGE_VIOL_STATUS_KIND = k ∧
        t.fget F.LODGE_VIOL_STATUS_WORLD = 0 ∧ t.fget F.LODGE_VIOL_STATUS_MASTER = masterId m ∧
        t.fget F.LODGE_VIOL_ADDR = a.toNat)
    (u.masterSecure m = true → ∀ w, u.lodge m w a.toNat = (true, u)) ∧
    (u.masterSecure m = false → u.asOfCycle.entryWorld e = 1 →
      Completes (.registerRead dt m size a) s (fun t => t.rdata = 0 ∧ noted t 0) ∧
      Completes (.registerWrite dt m size a v) s (fun t => noted t 1))

/-- Registers on which nothing but storage follows a write. -/
def plainRegisters : List Nat :=
  [0x100048, 0x110030, 0x200408, 0x300004, 0x400030, 0x500210, 0x50042C, 0x600040, 0x700028, 0x740000]

/-- R3: a write stores its RW fields, and RO fields ignore it. -/
def Obligations.PlainRegisterWriteStoresItsFields : Prop :=
  ∀ (s : State) (dt : Nat) (m : Master) (a : BitVec 32) (v : Word), s.Sound → a.toNat ∈ plainRegisters →
    ∀ d, regAt a.toNat = some d → s.Reaches dt m a.toNat v.toNat →
    Completes (.registerWrite dt m .b32 a v) s (fun t =>
      (∀ i < 32, (t.reg a.toNat).toNat.testBit i =
        if (d.writeMask .rw).testBit i then v.toNat.testBit i else ((s.found dt a.toNat).reg a.toNat).toNat.testBit i) ∧
      (s.found dt a.toNat).Within t (fun r => r = a.toNat))

/-- R3 and R7 on a register that is one RC field. -/
def Obligations.ReadClearFieldReturnsAndClears : Prop :=
  ∀ (s : State) (dt : Nat) (m : Master) (a : BitVec 32), s.Sound → s.Live dt →
    plainAddr a.toNat = true → ∀ d, regAt a.toNat = some d → d.words = 1 → ∀ f, d.fields = [f] → f.ty = .rc → f.hi = 31 → f.lo = 0 →
    let u := s.found dt a.toNat
    (u.lodge m false a.toNat).1 = true → (d.guarded = true → u.masterSecure m = true) →
    let old := u.cycleRegs.get a.toNat
    let now := u.reg a.toNat
    Completes (.rcRead dt m .b32 a) s (fun t =>
      (if bitsOf (u.justSet a.toNat) 31 0 ≠ 0 then t.rdata = old ∧ t.reg a.toNat = now else t.rdata = now ∧ t.reg a.toNat = 0) ∧
      u.Within t (fun r => r = a.toNat))

/-- The 64-bit values of an axis that only its masters write. -/
def axisWides : List Wide :=
  [F.AX_TARGET, F.AX_VTGT, F.AX_VMAX, F.AX_ACC, F.AX_DEC, F.AX_DEC_MAX, F.AX_FBSCALE, F.AX_POSOFS]

/-- R10 and R11 on the 64-bit values of an axis. -/
def Obligations.WideValuesAreReadAndCommittedWhole : Prop :=
  ∀ (s : State) (dt : Nat) (m : Master) (n : Fin 64) (v : Word), s.Sound → ∀ w, w ∈ axisWides →
    ∀ lo : BitVec 32, lo.toNat = w.addr n 0 → ∀ hi : BitVec 32, hi.toNat = w.addr n 0 + 4 →
    let u := s.found dt lo.toNat
    (s.Reaches dt m lo.toNat v.toNat → Completes (.registerWrite dt m .b32 lo v) s (fun t =>
      lookupWord t.held lo.toNat = some v ∧ t.wget w n = u.wget w n ∧ u.Within t (fun _ => False))) ∧
    (s.Reaches dt m hi.toNat v.toNat → Completes (.registerWrite dt m .b32 hi v) s (fun t =>
      t.wget w n = 2 ^ 32 * v.toNat + ((lookupWord u.held lo.toNat).getD (u.reg lo.toNat)).toNat ∧
      lookupWord t.held lo.toNat = none ∧ u.Within t (fun r => r = lo.toNat ∨ r = hi.toNat))) ∧
    (s.Live dt → (u.lodge m false lo.toNat).1 = true → Completes (.registerRead dt m .b32 lo) s (fun t =>
      t.rdata = u.reg lo.toNat ∧ lookupWord t.snaps hi.toNat = some (u.reg hi.toNat) ∧ u.Within t (fun _ => False))) ∧
    (s.Live dt → (u.lodge m false hi.toNat).1 = true → Completes (.registerRead dt m .b32 hi) s (fun t =>
      t.rdata = (lookupWord u.snaps hi.toNat).getD (u.reg hi.toNat) ∧ u.Within t (fun _ => False)))

/-- R1, R49 and R625 on the windows of plain 32-bit words. -/
def Obligations.MemoryWindowsStoreBytes : Prop :=
  ∀ (s : State) (dt : Nat) (m : Master) (size : Size) (a : BitVec 32) (v : Word), s.Sound → s.Live dt →
    (0x0600_0000 ≤ a.toNat ∧ a.toNat < 0x0640_0000 ∨ 0x0800_0000 ≤ a.toNat ∧ a.toNat < 0x0820_0000) →
    a.toNat % sizeBytes size = 0 →
    let u := s.found dt a.toNat
    let k := sizeBytes size
    ((u.lodge m true a.toNat).1 = true → (size = .b32 ∨ u.parityBad a.toNat = false) →
      Completes (.memoryWindowAccess dt m size true a v) s (fun t =>
        (∀ i < k, Memory.read t.mem (a.toNat + i) = BitVec.ofNat 8 (v.toNat / 2 ^ (8 * i))) ∧
        (∀ b, b < a.toNat ∨ a.toNat + k ≤ b → Memory.read t.mem b = Memory.read u.mem b) ∧ ∀ r, t.reg r = u.reg r)) ∧
    ((u.lodge m false a.toNat).1 = true → u.parityBad a.toNat = false →
      Completes (.memoryWindowAccess dt m size false a v) s (fun t =>
        t.rdata = BitVec.ofNat 32 (ofBytesLE ((List.range k).map (fun i => (Memory.read u.mem (a.toNat + i)).toNat))) ∧
        u.Within t (fun _ => False)))

/-- R45: the end of the Floorplan table, and writes to the table. -/
def Obligations.FloorplanEndReadsZero : Prop :=
  ∀ (s : State) (dt : Nat) (m : Master) (a : BitVec 32) (v : Word), s.Live dt → a.toNat < 0x1000 → a.toNat % 4 = 0 →
    Completes (.registerWrite dt m .b32 a v) s (fun t => (s.found dt a.toNat).Within t (fun _ => False)) ∧
    (0xAD0 ≤ a.toNat → Completes (.registerRead dt m .b32 a) s (fun t =>
      t.rdata = 0 ∧ (s.found dt a.toNat).Within t (fun _ => False)))

/-- Floorplan entry `e` exists and the Lodge can assign its world. -/
def assignable (e : Nat) : Bool := floorplan.any (fun r => decide (r.entry ≤ e) && decide (e < r.entry + r.count) && !r.fixed)

/-- R55, and R65 on BWORLD. -/
def Obligations.WorldAssignmentFollowsBworldAndLock : Prop :=
  ∀ (s : State) (dt : Nat) (m : Master) (j : Fin 8) (v : Word), s.Sound → ∀ a : BitVec 32, a.toNat = F.LODGE_BWORLD.addr 0 j →
    s.Reaches dt m a.toNat v.toNat →
    let u := s.found dt a.toNat
    Completes (.registerWrite dt m .b32 a v) s (fun t => u.Within t (fun r => r = a.toNat) ∧
      (u.fget F.LODGE_CTRL_LOCK = 1 → t.reg a.toNat = u.reg a.toNat) ∧
      (u.fget F.LODGE_CTRL_LOCK = 0 → ∀ b < 32,
        (t.reg a.toNat).toNat.testBit b = (assignable (32 * j + b) && v.toNat.testBit b) ∧
        (assignable (32 * j + b) = true → t.entryWorld (32 * j + b) = b2n (v.toNat.testBit b))))

/-- R23, and the first cycle start of R20 and R22. -/
def Obligations.RunStartChecksAndSchedules : Prop :=
  ∀ (s : State) (dt : Nat) (m : Master) (v : Word), s.Sound → s.Reaches dt m 0x30400 (setB v 1) →
    let u := s.found dt 0x30400
    let fi := u.fget F.CYC_CFG_FISEL
    let bad := fi = 7 ∨ (if fi = 6 then 16 else 32) < ((List.finRange 64).filter (fun (n : Fin 64) => u.fget F.AX_CFG_KIND n == 1)).length
    u.fget F.FLT_DEVFLT_HALT = 0 → u.seq.next = none → u.seq.restart = none → u.seq.stopEnd = none →
    Completes (.runStart dt m v) s (fun t => u.Within t (fun a => a = 0x30400 ∨ a = 0x3040C) ∧
      (bad → t.fget F.CYC_STATUS_CFGERR = 1 ∧ t.seq.next = none) ∧
      (¬ bad → u.fget F.CYC_CTRL_RUN = 0 → t.fget F.CYC_CTRL_RUN = 1 ∧ t.reg 0x3040C = u.reg 0x3040C ∧
        ∃ n, t.seq.next = some n ∧ u.run + 500 * u.rate ≤ n ∧ n < u.run + 500 * u.rate + tiOf fi * unitNs ∧
          ((u.lclk : Int) + n - u.run - ((u.fget F.CYC_PHASE % tiOf fi * unitNs : Nat) : Int)) % ((tiOf fi * unitNs : Nat) : Int) = 0))

/-- R25, and the cycle starts of R20 and R27. -/
def Obligations.RunStopAndCycleStart : Prop :=
  (∀ (s : State) (dt : Nat) (m : Master) (v : Word), s.Sound → s.Reaches dt m 0x30400 (clrB v 1) →
    let u := s.found dt 0x30400
    u.fget F.CYC_CTRL_RUN = 1 → u.seq.stopEnd = none →
    Completes (.runStop dt m v) s (fun t => u.Within t (fun a => a = 0x30400) ∧ t.fget F.CYC_CTRL_RUN = 0 ∧ t.seq.next = none ∧
      t.seq.stopEnd = (if u.seq.starting.isSome then none else u.seq.next))) ∧
  (∀ (s : State) (dt : Nat), s.Sound → s.Live dt → s.seq.stopEnd = none → ∀ n, s.seq.next = some n →
    let u := s.wait dt
    (u.run < n → exec (.cycleStart dt) s = .next u) ∧
    (n ≤ u.run → u.cycleLegal = false → exec (.cycleStart dt) s = .refused .unpredictable) ∧
    (n ≤ u.run → u.cycleLegal = true → ∃ b,
      exec (.cycleStart dt) s =
        .next (b.cycleWork u.seq.starting.isSome u.seq.predict (u.seq.starting.isSome || u.isFp) u.seq.walk) ∧
      b.seq.start = n ∧ b.fget F.CYC_STATUS_RUNNING = 1 ∧ b.wget F.CYC_COUNT = b.seq.k % 2 ^ 64 ∧
      b.seq.k = (if u.seq.starting.isSome || u.seq.predict then u.indexAt n else u.seq.k + 1) ∧
      b.seq.next = some (((n + u.tiU : Nat) : Int) - u.walkMove u.seq.walk).toNat ∧
      u.Within b (fun a => 0x3040C ≤ a ∧ a < 0x30418 ∨ u.hostPan = true ∧ a = F.PAN_HOSTDEFER.addr 0 0)))

/-- R29 to R31: what happens at t0 + 3 µs, at D, and up to R. -/
def Obligations.DeadlinesOfACycle : Prop :=
  ∀ (s : State) (dt : Nat), s.Sound → s.Live dt → s.fget F.CYC_STATUS_RUNNING = 1 →
    let u := s.wait dt
    let missing := fun (l : Fin 16) => u.fget F.BL_STATUS_STATE l = 3 ∧ u.bl[l].arrived = false
    (u.seq.missDone = false → u.seq.start + 3000 * unitNs ≤ u.run →
      (∀ l, missing l → bitsOf u.bl[l].cfgNow 7 4 = 0 ∨ u.bl[l].missRun + 1 < bitsOf u.bl[l].cfgNow 7 4) →
      Completes (.upstreamDeadline dt) s (fun t => t.seq.missDone = true ∧
        (∀ l, missing l → t.fget F.BL_MISSUP l = min (u.fget F.BL_MISSUP l + 1) (2 ^ 32 - 1) ∧ t.bl[l].missRun = u.bl[l].missRun + 1) ∧
        u.Within t (fun a => ∃ l, missing l ∧ a = F.BL_MISSUP.addr l 0))) ∧
    (u.seq.dutyDone = false → u.dutyD ≤ u.run →
      let k := (List.finRange 10).foldl (fun c n => c + u.tasksLate n) 0
      Completes (.dutyDeadline dt) s (fun t => t.seq.dutyDone = true ∧
        (0 < k → t.fget F.CYC_MISS = min (u.fget F.CYC_MISS + k) (2 ^ 32 - 1) ∧ t.fget F.CYC_STATUS_OVERRUN = 1) ∧
        u.Within t (fun a => 0 < k ∧ (a = 0x3040C ∨ a = 0x3041C)))) ∧
    (u.replayR ≤ u.run → Completes (.replayWindowEnd dt) s (fun t =>
      (∀ l : Fin 16, t.bl[l].closed = (u.bl[l].closed || !u.bl[l].departed)) ∧ u.Within t (fun _ => False))) ∧
    ∀ l : Fin 16, u.fget F.BL_STATUS_STATE l = 3 → u.bl[l].departed = false → u.bl[l].closed = false → u.blReady l = true →
      Completes (.downstreamFrameDepart dt l) s (fun t => t.bl[l].departed = true ∧ t.bl[l].lastFrame = u.blFrame l ∧
        t.bl[l].frames = u.bl[l].frames + 1 ∧ (∀ l', l' ≠ l → t.bl[l'] = u.bl[l']) ∧ u.Within t (fun _ => False))

/-- R68, and the start and end of programming of R69. -/
def Obligations.FuseProgrammingObeysItsKey : Prop :=
  (∀ (s : State) (dt : Nat) (m : Master) (v : Word), s.Sound → s.Reaches dt m 0x10040 (setB v 2) →
    let u := s.found dt 0x10040
    let word := bitsOf v.toNat 7 2
    let good := bitsOf v.toNat 31 16 = 0x5A3C ∧ u.fuses.prog = none ∧ (word = 0 ∨ 8 ≤ word ∧ word ≤ 15)
    (¬ good → Completes (.fuseProgram dt m v) s (fun t => u.Within t (fun _ => False) ∧ t.fuses = u.fuses)) ∧
    (good → Completes (.fuseProgram dt m v) s (fun t => t.fget F.DEV_FUSE_PGM_BUSY = 1 ∧ t.fget F.DEV_FUSE_PGM_WORD = word ∧
      t.fuses.prog = some (word, u.fget F.DEV_FUSE_DATA) ∧ t.fuses.burnt = u.fuses.burnt ∧ u.Within t (fun a => a = 0x10040)))) ∧
  ∀ (s : State) (dt w d : Nat), s.Sound → s.fuses.prog = some (w, d) →
    Completes (.fuseProgramDone dt) s (fun t => t.fget F.DEV_FUSE_PGM_BUSY = 0 ∧ t.fuses.prog = none ∧
      (∀ b, d.testBit b = true → t.burntBit w b = true) ∧ (s.wait dt).Within t (fun a => a = 0x10040))

/-- R72 to R74 and R77. -/
def Obligations.SpindleWritesSetThePosition : Prop :=
  ∀ (s : State) (dt : Nat) (m : Master) (n : Fin 16) (v : Word), s.Sound →
    let own := fun (a : Nat) => 0x400000 + 0x100 * n.val ≤ a ∧ a < 0x400100 + 0x100 * n.val
    let same := fun (x t : State) => x.Within t own ∧ ∀ i, i ≠ n → t.sp[i] = x.sp[i]
    let u := s.found dt (F.SP_CTRL_EN.addr n 0)
    (∀ c ∈ u.sp[n].changes, c.1 ≤ u.run) →
    (s.Reaches dt m (F.SP_CTRL_EN.addr n 0) (setB v 1) → u.fget F.SP_CTRL_EN n = 0 →
      srcLegal (bitsOf v.toNat 3 1) (bitsOf v.toNat 13 8) = true → Completes (.spindleEnable dt m n v) s (fun t =>
        t.fget F.SP_CTRL_EN n = 1 ∧ t.spinPos n t.run = 0 ∧ t.sp[n].acc = 0 ∧ same u t)) ∧
    (s.Reaches dt m (F.SP_CTRL_EN.addr n 0) (setB v 1) → u.fget F.SP_CTRL_EN n = 1 →
      Completes (.spindleEnable dt m n v) s (fun t => u.Within t (fun _ => False) ∧ t.sp = u.sp)) ∧
    (s.Reaches dt m (F.SP_SCALE.addr n 0 + 4) v.toNat → u.fget F.SP_CTRL_EN n = 1 → u.sp[n].frozen = none →
      Completes (.spindleRescale dt m n v) s (fun t =>
        t.spinPos n t.run = wrap64 (u.spinPos n u.run) ∧ t.sp[n].S = 0 ∧ same u t)) ∧
    (s.Reaches dt m (F.SP_LOAD.addr n 0 + 4) v.toNat → Completes (.spindleLoad dt m n v) s (fun t =>
        (u.fget F.SP_CTRL_EN n = 1 → u.sp[n].frozen = none → t.spinPos n t.run = wrap64 (t.wgetS F.SP_LOAD n)) ∧
        (u.fget F.SP_CTRL_EN n = 0 → t.sp[n].held = wrap64 (t.wgetS F.SP_LOAD n)) ∧ same u t)) ∧
    let e := s.wait dt
    (s.Live dt → e.fget F.SP_CTRL_EN n = 1 → countingSrc (e.fget F.SP_CTRL_SRC n) = true →
      (∀ c, e.sp[n].changes.head? = some c → e.fget F.SP_EST_STILLT n * 1000 * unitNs ≤ e.run - c.1) →
      Completes (.spindleStandstill dt n) s (fun t => t.fget F.SP_STATUS_STILL n = 1 ∧ t.sp = e.sp ∧ e.Within t own))

/-- R85, R86, R88 and R90. -/
def Obligations.LedgerArmAndCancel : Prop :=
  (∀ (s : State) (dt : Nat) (m : Master) (v : Word), s.Sound → s.Reaches dt m (F.LED_ARM_SLOT.addr 0 0) v.toNat →
    let u := s.found dt (F.LED_ARM_SLOT.addr 0 0)
    let slot := bitsOf v.toNat 14 0
    let lane := bitsOf v.toNat 20 16
    let e := u.entry slot
    (16 < lane → exec (.ledgerArm dt m v) s = .refused .unpredictable) ∧
    (lane ≤ 16 → u.isArmed slot = false → e.count ≠ 0 → e.legal lane = false →
      exec (.ledgerArm dt m v) s = .refused .unpredictable) ∧
    (u.badPar = [] → u.led.ops = [] → (∀ t, u.led.opAt = some t → t + 20 ≤ u.phys) →
      u.lodge .ledger false (slotAddr slot) = (true, u) → u.lodge .ledger true (slotAddr slot) = (true, u) →
      (lane ≤ 16 → u.isArmed slot = true → Completes (.ledgerArm dt m v) s (fun t =>
        t.fget F.LED_REJECT = min (u.fget F.LED_REJECT + 1) (2 ^ 32 - 1) ∧ t.led.armed = u.led.armed ∧ t.led.done = u.led.done ∧
        u.Within t (fun a => a = F.LED_REJECT.addr 0 0))) ∧
      (lane ≤ 16 → u.isArmed slot = false → e.count = 0 → Completes (.ledgerArm dt m v) s (fun t =>
        t.led.armed = u.led.armed ∧ u.Within t (fun a => a = F.LED_DONE_STATUS_OVF.addr 0 0) ∧
        (e.notify = true → u.led.done.length < 512 → t.led.done = u.led.done ++ [⟨lane, slot, 3, true, u.stamp32⟩]) ∧
        (e.notify = true → 512 ≤ u.led.done.length → t.led.done = u.led.done ∧ t.fget F.LED_DONE_STATUS_OVF = 1) ∧
        (e.notify = false → t.led.done = u.led.done))) ∧
      (lane < 16 → u.isArmed slot = false → e.count ≠ 0 → e.legal lane = true → u.laneLive (Fin.ofNat 16 lane) = false →
        Completes (.ledgerArm dt m v) s (fun t => t.isArmed slot = true ∧ t.led.done = u.led.done ∧
          t.led.armed = u.led.armed ++ [{ lane := lane, slot := slot, e := e, order := u.led.seq, targets := [], eval := true
                                          since := none }] ∧
          bit (t.mem32 (slotAddr slot + 8)) 16 = true ∧
          u.Touches t (fun _ => False) (fun a => slotAddr slot ≤ a ∧ a < slotAddr slot + 16))))) ∧
  (∀ (s : State) (dt : Nat) (m : Master) (v : Word), s.Sound → s.Reaches dt m (F.LED_CANCEL_SLOT.addr 0 0) v.toNat →
    let u := s.found dt (F.LED_CANCEL_SLOT.addr 0 0)
    u.led.ops = [] → (∀ t, u.led.opAt = some t → t ≤ u.phys + 180) →
    Completes (.ledgerCancel dt m v) s (fun t => t.led.ops = [⟨true, 0, bitsOf v.toNat 14 0, u.phys + 200⟩] ∧
      t.led.armed = u.led.armed ∧ t.led.done = u.led.done ∧ u.Within t (fun _ => False))) ∧
  ∀ (s : State) (slot d : Nat), s.Sound → s.pending = [] → s.raf.rx = [] → s.led.ops = [⟨true, 0, slot, d⟩] → d ≤ s.phys + 2 →
    let u := s.elapse 2
    (s.isArmed slot = false → ∃ t, step s = .next t ∧ t.led.ops = [] ∧
      t.fget F.LED_REJECT = min (u.fget F.LED_REJECT + 1) (2 ^ 32 - 1) ∧ u.Within t (fun a => a = F.LED_REJECT.addr 0 0)) ∧
    ∀ a, s.armedAt slot = some a → u.dueAt a = none → u.lodge .ledger true (slotAddr slot) = (true, u) →
      ∃ t, step s = .next t ∧ t.isArmed slot = false ∧ bit (t.mem32 (slotAddr slot + 8)) 16 = false ∧
        u.Touches t (fun r => r = F.LED_DONE_STATUS_OVF.addr 0 0) (fun b => slotAddr slot ≤ b ∧ b < slotAddr slot + 16) ∧
        (a.e.notify = true → u.led.done.length < 512 → t.led.done = u.led.done ++ [⟨a.lane, slot, 4, true, u.stamp32⟩])

/-- R89, R91, R100, R105 and R106. -/
def Obligations.LedgerEntriesFireAndRetire : Prop :=
  ∀ (s : State) (dt : Nat), s.Sound →
    let u := s.wait dt
    let fires := fun (i : Instr) (slot : Nat) (e : Entry) (lane r stamp : Nat) =>
      (u.ledAct e r).lodge .ledger true (slotAddr slot) = (true, u.ledAct e r) → Completes i s (fun t =>
      let x := u.ledAct e r
      t.isArmed slot = false ∧ t.tout = x.tout ∧ t.evs = x.evs ∧ t.raf = x.raf ∧
      x.Touches t (fun a => a = F.LED_DONE_STATUS_OVF.addr 0 0) (fun a => slotAddr slot ≤ a ∧ a < slotAddr slot + 16) ∧
      bit (t.mem32 (slotAddr slot + 8)) 16 = false ∧
      (e.notify = true → u.led.done.length < 512 → t.led.done = u.led.done ++ [⟨lane, slot, 0, true, stamp⟩]))
    (∀ (n : Fin 16) (slot : BitVec 15), s.Live dt → ∀ a, u.armedAt slot.toNat = some a → a.lane = n → u.ledFirst slot.toNat = true →
      ∀ g, a.targets = [g] → ∀ r f later, g.due = (r, f) :: later →
      u.laneLiveAt n r = true → r ≤ u.run → a.e.count = 1 →
        fires (.ledgerFire dt n slot) slot.toNat a.e n r (ns32 (u.runToLclk r / unitNs))) ∧
    (∀ slot : BitVec 15, s.Live dt → ∀ a, u.armedAt slot.toNat = some a → a.lane = 16 → u.fget F.LED_CTRL_EN = 1 →
      a.e.pos * unitNs ≤ u.lclk → u.ledFirst slot.toNat = true → a.e.period = 0 →
        fires (.lclkLaneFire dt slot) slot.toNat a.e 16 (u.lclkToRun (a.e.pos * unitNs)) (ns32 a.e.pos)) ∧
    ∀ (m : Master) (v : Word), s.Reaches dt m (F.LED_DONE_POP.addr 0 0) (setB v 1) →
      let x := s.found dt (F.LED_DONE_POP.addr 0 0)
      Completes (.donePop dt m v) s (fun t => t.led.done = x.led.done.drop 1 ∧ t.led.armed = x.led.armed ∧ x.Within t (fun _ => False))

/-- R104, R107 to R112. -/
def Obligations.MarkAndToutActAtTheirInstants : Prop :=
  ∀ (s : State) (dt : Nat) (n : Fin 16), s.Sound →
    let u := s.wait dt
    (∀ raw : BitVec 16, s.Live dt →
      let rise := u.markLevel n raw
      (b2n rise = u.fget F.MT_MARK_STATUS_INLVL 0 n → exec (.markCapture dt n raw) s = .next u) ∧
      (b2n rise ≠ u.fget F.MT_MARK_STATUS_INLVL 0 n → u.markSelected n rise = true → u.mark[n].deadEnd ≤ u.markStamp n →
        u.mark[n].fifo.length < 256 → Completes (.markCapture dt n raw) s (fun t => ∃ x : State,
        t = (if u.fget F.MT_MARK_CFG_SKEW 0 n = 0 then x else x.skewCapture n (u.markRecord n rise).pos) ∧
        x.mark[n].fifo = u.mark[n].fifo ++ [u.markRecord n rise] ∧ x.mark[n].seq = (u.mark[n].seq + 1) % 256 ∧
        x.mark[n].deadEnd = u.markStamp n + max (u.fget F.MT_MARK_CFG_DEAD 0 n * 4) 32 * unitNs ∧
        x.fget F.MT_MARK_STATUS_INLVL 0 n = b2n rise ∧ (∀ i, i ≠ n → x.mark[i] = u.mark[i]) ∧
        u.Within x (fun a => a = F.MT_MARK_STATUS_INLVL.addr 0 n))) ∧
      (u.markSelected n rise = false → Completes (.markCapture dt n raw) s (fun t =>
        t.fget F.MT_MARK_STATUS_INLVL 0 n = b2n rise ∧ t.mark = u.mark ∧ u.Within t (fun a => a = F.MT_MARK_STATUS_INLVL.addr 0 n)))) ∧
    (∀ (m : Master) (v : Word), s.Reaches dt m (F.MT_MARK_POP.addr 0 n) (setB v 1) →
      let x := s.found dt (F.MT_MARK_POP.addr 0 n)
      Completes (.markPop dt m n v) s (fun t => t.mark[n].fifo = x.mark[n].fifo.drop 1 ∧ (∀ i, i ≠ n → t.mark[i] = x.mark[i]) ∧
        x.Within t (fun _ => False))) ∧
    ∀ (m : Master) (v : Word), s.Reaches dt m (F.MT_TOUT_FORCE_OP.addr 0 n) v.toNat →
      let x := s.found dt (F.MT_TOUT_FORCE_OP.addr 0 n)
      let op := v.toNat % 4
      let new := if op = 1 then 1 else if op = 2 then 0 else 1 - x.fget F.MT_TOUT_STATUS_LEVEL 0 n
      (x.fget F.MT_TOUT_CFG_EN 0 n = 1 → op ≠ 0 → new ≠ x.fget F.MT_TOUT_STATUS_LEVEL 0 n →
        (∀ r, x.tout[n].lastEdge = some r → r + 4 * unitNs ≤ x.run) → Completes (.toutForce dt m n v) s (fun t =>
          t.fget F.MT_TOUT_STATUS_LEVEL 0 n = new ∧ t.tout[n].lastEdge = some x.run ∧ (∀ i, i ≠ n → t.tout[i] = x.tout[i]) ∧
          x.Within t (fun a => a = F.MT_TOUT_STATUS_LEVEL.addr 0 n))) ∧
      (x.fget F.MT_TOUT_CFG_EN 0 n = 0 ∨ op = 0 ∨ new = x.fget F.MT_TOUT_STATUS_LEVEL 0 n →
        Completes (.toutForce dt m n v) s (fun t => (∀ i : Fin 16, t.tout[i].lastEdge = x.tout[i].lastEdge ∧
          t.tout[i].moved = x.tout[i].moved) ∧ x.Within t (fun _ => False)))

/-- R117 to R119, R124 to R130. -/
def Obligations.ChuckQuadratureCountsAndIndexes : Prop :=
  ∀ (s : State) (dt : Nat) (c : Fin 32), s.Sound →
    let own := fun (a : Nat) => 0x300000 + 0x400 * c.val ≤ a ∧ a < 0x300400 + 0x400 * c.val
    let spin := fun (a : Nat) => 0x400000 ≤ a ∧ a < 0x401000
    let u := s.wait dt
    let lv := u.fget F.CHUCK_STATUS_LVL c
    let filt := u.fget F.CHUCK_CFG_FILT c
    (∀ wb wa : BitVec 16, s.Live dt → u.chMode c = 1 → u.chuck[c].idxPend = false →
      let b := filtered filt (bit lv 1) wb
      let a := filtered filt (bit lv 0) wa
      (∀ d, quadStep (bit lv 1) (bit lv 0) b a = some d → u.chClose c = false → Completes (.quadCountChange dt c wb wa) s (fun t =>
        t.fget F.CHUCK_COUNT c = ofS 32 (u.fgetS F.CHUCK_COUNT c + u.chDir c d) ∧
        (d ≠ 0 → t.fget F.CHUCK_POS c = (t.fget F.CHUCK_COUNT c + u.fget F.CHUCK_OFFSET c) % 2 ^ 32) ∧
        u.Within t (fun x => own x ∨ spin x))) ∧
      (∀ d, quadStep (bit lv 1) (bit lv 0) b a = some d → u.chClose c = true → u.chuck[c].errs.length < u.fget F.CHUCK_CFG_QLIM c →
        Completes (.quadCountChange dt c wb wa) s (fun t => t.fget F.CHUCK_COUNT c = u.fget F.CHUCK_COUNT c ∧
          (t.fget F.CHUCK_QERR c = u.fget F.CHUCK_QERR c ∨
            t.fget F.CHUCK_QERR c = min (u.fget F.CHUCK_QERR c + 1) (2 ^ 32 - 1)) ∧ t.sp = u.sp ∧ u.Within t own)) ∧
      (quadStep (bit lv 1) (bit lv 0) b a = none → u.chuck[c].errs.length < u.fget F.CHUCK_CFG_QLIM c →
        Completes (.quadCountChange dt c wb wa) s (fun t => t.fget F.CHUCK_COUNT c = u.fget F.CHUCK_COUNT c ∧
          t.fget F.CHUCK_QERR c = min (u.fget F.CHUCK_QERR c + 1) (2 ^ 32 - 1) ∧ t.sp = u.sp ∧ u.Within t own))) ∧
    (∀ wz : BitVec 16, s.Live dt → u.chMode c = 1 →
      let z := filtered filt (bit lv 2) wz
      z ≠ bit lv 2 →
      let selected := u.fget F.CHUCK_CFG_IDXEDGE c = (if z then 1 else 2) ∧
        (u.fget F.CHUCK_CFG_IDXGEN c = 0 ∨ lv % 4 = u.fget F.CHUCK_CFG_IDXAB c)
      (selected → u.chuck[c].idxRef = none → Completes (.chuckIndex dt c wz) s (fun t =>
        t.fget F.CHUCK_IDXPOS c = u.fget F.CHUCK_COUNT c ∧ t.fget F.CHUCK_STATUS_IDX c = 1 ∧
        t.fget F.CHUCK_IDXCNT c = (u.fget F.CHUCK_IDXCNT c + 1) % 2 ^ 32 ∧
        t.chuck[c].idxRef = some (toS 32 (u.fget F.CHUCK_COUNT c)) ∧ t.fget F.CHUCK_COUNT c = u.fget F.CHUCK_COUNT c ∧
        u.Within t own)) ∧
      (¬ selected → Completes (.chuckIndex dt c wz) s (fun t => t.fget F.CHUCK_STATUS_LVL c = lv % 4 + 4 * b2n z ∧
        u.Within t (fun x => x = F.CHUCK_STATUS_LVL.addr c 0)))) ∧
    ∀ (m : Master) (v : Word),
      (s.Reaches dt m (F.CHUCK_CFG_MODE.addr c 0) v.toNat → bitsOf v.toNat 19 18 ≠ 3 →
        let x := s.found dt (F.CHUCK_CFG_MODE.addr c 0)
        x.chMode c ≠ bitsOf v.toNat 1 0 → Completes (.chuckModeChange dt m c v) s (fun t =>
          t.fget F.CHUCK_COUNT c = x.fget F.CHUCK_COUNT c ∧ t.chuck[c].idxRef = none ∧ t.chuck[c].edges = [] ∧
          t.chuck[c].ssiPrev = none ∧ t.chuck[c].ssiFrame = none ∧ (∀ i, i ≠ c → t.chuck[i] = x.chuck[i]) ∧ x.Within t own)) ∧
      (s.Reaches dt m (F.CHUCK_OFFSET.addr c 0) v.toNat →
        let x := s.found dt (F.CHUCK_OFFSET.addr c 0)
        Completes (.chuckOffsetWrite dt m c v) s (fun t =>
          t.fget F.CHUCK_OFFSET c = v.toNat ∧ t.fget F.CHUCK_COUNT c = x.fget F.CHUCK_COUNT c ∧
          t.fget F.CHUCK_POS c = (x.fget F.CHUCK_COUNT c + v.toNat) % 2 ^ 32 ∧ x.Within t (fun y => own y ∨ spin y)))

/-- R132 to R146. -/
def Obligations.HallAndSsiFramesFollowTheirRules : Prop :=
  ∀ (s : State) (dt : Nat) (c : Fin 32), s.Sound →
    let own := fun (a : Nat) => 0x300000 + 0x400 * c.val ≤ a ∧ a < 0x300400 + 0x400 * c.val
    let spin := fun (a : Nat) => 0x400000 ≤ a ∧ a < 0x401000
    let others := fun (a : Nat) => 0x30C00 ≤ a ∧ a < 0x30E00 ∨ 0x500000 ≤ a ∧ a < 0x640000
    let u := s.wait dt
    (∀ w3 w2 w1 : BitVec 16, s.Live dt → u.chMode c = 2 →
      let h := u.hallLevels c w3 w2 w1
      h ≠ u.fget F.CHUCK_STATUS_LVL c % 8 →
      (∀ o r, u.chuck[c].sector = some o → hallRaw h = some r → (r + 6 - o) % 6 = 1 →
        Completes (.hallSectorChange dt c w3 w2 w1) s (fun t => t.fget F.CHUCK_STATUS_SECTOR c = u.chSector c r ∧
          t.fget F.CHUCK_STATUS_HALLINV c = 0 ∧ t.chuck[c].sector = some r ∧
          t.fget F.CHUCK_COUNT c = ofS 32 (u.fgetS F.CHUCK_COUNT c + u.chDir c 1) ∧ u.Within t (fun x => own x ∨ spin x))) ∧
      (hallRaw h = none → u.fget F.CHUCK_HALL_HINVT c ≠ 0 → Completes (.hallSectorChange dt c w3 w2 w1) s (fun t =>
        t.fget F.CHUCK_STATUS_HALLINV c = 1 ∧ t.fget F.CHUCK_STATUS_SECTOR c = u.fget F.CHUCK_STATUS_SECTOR c ∧
        t.chuck[c].sector = u.chuck[c].sector ∧ u.Within t (fun x => x = F.CHUCK_STATUS_LVL.addr c 0)))) ∧
    (let raised := bit (u.reg (F.CHUCK_FLT_ACTIVE.addr c 0)).toNat 3
     (s.Live dt → u.hallOverdue c = false ∨ raised = true → exec (.hallinv dt c) s = .next u) ∧
     (s.Live dt → u.hallOverdue c = true → raised = false → Completes (.hallinv dt c) s (fun t =>
      bit (t.reg (F.CHUCK_FLT_ACTIVE.addr c 0)).toNat 0 = true ∧ bit (t.reg (F.CHUCK_FLT_ACTIVE.addr c 0)).toNat 3 = true ∧
      t.fget F.CHUCK_COUNT c = u.fget F.CHUCK_COUNT c ∧ t.chuck = u.chuck ∧
      u.Within t (fun x => x = F.CHUCK_FLT_ACTIVE.addr c 0 ∨ spin x ∨ others x)))) ∧
    (∀ ready : Bool, s.Live dt → ∀ due rest, u.chuck[c].ssiDue = due :: rest → due ≤ u.run → u.chMode c = 3 →
      (u.ssiLegal c = false → exec (.ssiRequest dt c ready) s = .refused .unpredictable) ∧
      (u.ssiLegal c = true → u.run < u.chuck[c].ssiBusy → Completes (.ssiRequest dt c ready) s (fun t =>
        t.fget F.CHUCK_SSIERR_SKIPPED c = min (u.fget F.CHUCK_SSIERR_SKIPPED c + 1) 255 ∧ t.chuck[c].ssiDue = rest ∧
        t.chuck[c].ssiFrame = u.chuck[c].ssiFrame ∧ u.Within t (fun x => x = F.CHUCK_SSIERR_SKIPPED.addr c 0))) ∧
      (u.ssiLegal c = true → u.chuck[c].ssiBusy ≤ u.run → u.ssiBits c ≠ 0 → ready = true → Completes (.ssiRequest dt c ready) s (fun t =>
        t.chuck[c].ssiFrame = some u.run ∧ t.chuck[c].ssiDue = rest ∧ u.run < t.chuck[c].ssiBusy ∧ u.Within t (fun _ => False))) ∧
      (u.ssiLegal c = true → u.chuck[c].ssiBusy ≤ u.run → u.ssiBits c ≠ 0 → ready = false → u.fget F.CHUCK_SSI_CFG_ERRLIM c = 0 →
        Completes (.ssiRequest dt c ready) s (fun t =>
          t.fget F.CHUCK_SSIERR_NOREADY c = min (u.fget F.CHUCK_SSIERR_NOREADY c + 1) 255 ∧ t.fget F.CHUCK_STATUS_SSIGOOD c = 0 ∧
          t.chuck[c].ssiFrame = u.chuck[c].ssiFrame ∧ u.Within t own))) ∧
    (∀ frame : BitVec 40, s.Live dt → ∀ start, u.chuck[c].ssiFrame = some start → u.ssiLegal c = true →
      start + nsU (u.ssiBits c * u.ssiPeriod c + 4 * u.fget F.CHUCK_SSI_CFG_DLY c) ≤ u.run →
      let sk := u.fget F.CHUCK_SSI_FMT_SKIP c
      let pb := u.fget F.CHUCK_SSI_FMT_POSBITS c
      let sb := u.fget F.CHUCK_SSI_FMT_STATBITS c
      let cl := u.fget F.CHUCK_SSI_FMT_CRCLEN c
      let crc := ssiCrc cl (u.fget F.CHUCK_SSI_CRC_POLY c) (u.fget F.CHUCK_SSI_CRC_INIT c)
        ((List.range (pb + sb)).map (fun i => bit frame.toNat (sk + i)))
      let sent := frameField frame.toNat (sk + pb + sb) cl
      let wrong := cl ≠ 0 ∧ (if u.fget F.CHUCK_SSI_FMT_CRCINV c = 1 then 2 ^ cl - 1 - crc else crc) ≠ sent
      let raw := frameField frame.toNat sk pb
      let pos := if u.fget F.CHUCK_SSI_FMT_GRAY c = 1 then fromGray pb raw else raw
      let jump := u.fget F.CHUCK_SSI_JUMP c
      let diff := fun (o : Nat) => toS pb (pos + 2 ^ pb - o % 2 ^ pb)
      let beyond := jump ≠ 0 ∧ ∃ o ∈ u.chuck[c].ssiPrev, (jump : Int) < absI (diff o)
      (wrong ∨ beyond → u.fget F.CHUCK_SSI_CFG_ERRLIM c = 0 → Completes (.ssiFrameEnd dt c frame) s (fun t =>
        (wrong → t.fget F.CHUCK_SSIERR_CRC c = min (u.fget F.CHUCK_SSIERR_CRC c + 1) 255) ∧
        (beyond → t.fget F.CHUCK_SSIERR_JUMP c = min (u.fget F.CHUCK_SSIERR_JUMP c + 1) 255) ∧
        t.fget F.CHUCK_STATUS_SSIGOOD c = 0 ∧ t.chuck[c].ssiFrame = none ∧ t.fget F.CHUCK_COUNT c = u.fget F.CHUCK_COUNT c ∧
        u.Within t own)) ∧
      (¬ wrong → ¬ beyond → Completes (.ssiFrameEnd dt c frame) s (fun t =>
        t.fget F.CHUCK_STATUS_SSIGOOD c = 1 ∧ t.fget F.CHUCK_SSI_RAW c = pos ∧ t.chuck[c].ssiPrev = some pos ∧
        t.chuck[c].ssiFrame = none ∧ t.chuck[c].ssiBad = 0 ∧
        (u.chuck[c].ssiPrev = none → t.fget F.CHUCK_COUNT c = pos) ∧
        (∀ o, u.chuck[c].ssiPrev = some o → pb ≠ 0 → t.fget F.CHUCK_COUNT c = ofS 32 (u.fgetS F.CHUCK_COUNT c + diff o)) ∧
        u.Within t (fun x => own x ∨ spin x)))) ∧
    ∀ (m : Master) (v : Word), s.Reaches dt m (F.CHUCK_FLT_ACTIVE.addr c 0) v.toNat →
      let a := F.CHUCK_FLT_ACTIVE.addr c 0
      let x := s.found dt a
      let keep := fun (i : Nat) => (i == 3 && x.hallOverdue c) || (i == 4 && x.chuck[c].ssiHeld) || bit (x.justSet a) i
      let left := fun (i : Nat) => bit (x.reg a).toNat i && (!bit v.toNat i || keep i)
      bitsOf (x.reg a).toNat 31 5 = 0 → Completes (.chuckFltClear dt m c v) s (fun t =>
        (∀ i : Fin 32, bit (t.reg a).toNat i = if i.val = 0 then bit (x.reg a).toNat 0 && (left 1 || left 2 || left 3 || left 4) else left i) ∧
        t.fget F.CHUCK_COUNT c = x.fget F.CHUCK_COUNT c ∧ x.Within t (fun y => y = a ∨ spin y))

/-- R150 and R151. -/
def Obligations.HearthStepsMoveLclk : Prop :=
  ∀ (s : State) (dt : Nat) (m : Master) (v : Word), s.Sound →
    let hearth := fun (a : Nat) => 0x100000 ≤ a ∧ a < 0x100100
    (let lo := F.HEARTH_STEP.addr 0 0
     s.Reaches dt m (lo + 4) v.toNat →
      let u := s.found dt (lo + 4)
      let d := toS 64 (2 ^ 32 * v.toNat + ((lookupWord u.held lo).getD (u.reg lo)).toNat)
      let new := (u.lclk : Int) + d * (unitNs : Int)
      (new < 0 → exec (.lclkStepWrite dt m v) s = .refused .unpredictable) ∧
      (d = 0 → Completes (.lclkStepWrite dt m v) s (fun t => t.lclk = u.lclk ∧ u.Within t (fun a => lo ≤ a ∧ a < lo + 8))) ∧
      (0 ≤ new → d ≠ 0 → Completes (.lclkStepWrite dt m v) s (fun t => (t.lclk : Int) = new ∧
        t.wget F.HEARTH_LASTSTEP = ofS 64 d ∧ t.fget F.HEARTH_STATUS_STEPPED = 1 ∧ t.fget F.HEARTH_STATUS_LOCKED = 0 ∧
        t.fget F.HEARTH_STEPS = min (u.fget F.HEARTH_STEPS + 1) (2 ^ 32 - 1) ∧
        ∀ a, hearth a → ¬ (lo ≤ a ∧ a < lo + 8 ∨ a = F.HEARTH_LASTSTEP.addr 0 0 ∨ a = F.HEARTH_LASTSTEP.addr 0 0 + 4 ∨
          a = F.HEARTH_STATUS_STEPPED.addr 0 0 ∨ a = F.HEARTH_STEPS.addr 0 0) → t.reg a = u.reg a))) ∧
    let lo := F.HEARTH_SET.addr 0 0
    s.Reaches dt m (lo + 8) v.toNat →
      let u := s.found dt (lo + 8)
      Completes (.lclkSet dt m v) s (fun t =>
        t.lclk = (t.wget F.HEARTH_SET / 2 ^ 32 % 2 ^ 48 * 10 ^ 9 + t.wget F.HEARTH_SET % 2 ^ 30) * unitNs ∧
        (t.lclk / unitNs ≠ u.lclk / unitNs → t.fget F.HEARTH_STATUS_STEPPED = 1 ∧
          t.fget F.HEARTH_STEPS = min (u.fget F.HEARTH_STEPS + 1) (2 ^ 32 - 1)) ∧
        ∀ a, hearth a → ¬ (lo ≤ a ∧ a < lo + 12 ∨ a = F.HEARTH_LASTSTEP.addr 0 0 ∨ a = F.HEARTH_LASTSTEP.addr 0 0 + 4 ∨
          a = F.HEARTH_STATUS_STEPPED.addr 0 0 ∨ a = F.HEARTH_STEPS.addr 0 0) → t.reg a = u.reg a)

/-- R163 to R167. -/
def Obligations.ServoSlewsStepsAndHolds : Prop :=
  ∀ (s : State) (dt : Nat), s.Sound → s.Live dt →
    let u := s.wait dt
    let show1 := fun (t : State) => t.fget F.HEARTH_ADJ = ofS 32 (rateUnits (t.servo.f + t.servo.p)) ∧
      t.fget F.HEARTH_FRATE = ofS 32 (rateUnits t.servo.f)
    (∀ (p : Fin 4) (dom : BitVec 8) (theta : Int) (ts : Nat) (parent : BitVec 80) (delay : Int) (gmid : BitVec 64),
      let mine := u.ptpOn p = true ∧ dom.toNat = u.fget F.HEARTH_PTP_CFG_DOMAIN
      let far := 65536 * (u.fget F.HEARTH_STEPTHR : Int) < absI theta
      let report := fun (t : State) => t.fget F.HEARTH_OFFSET = ofS 32 (clampI (-2147483647) 2147483647 (quo theta 65536)) ∧
        t.wget F.HEARTH_GMID = gmid.toNat
      (¬ mine → Completes (.servoMeasurement dt p dom theta ts parent delay gmid) s (fun t => t = u)) ∧
      (mine → u.ptpMode = false → Completes (.servoMeasurement dt p dom theta ts parent delay gmid) s (fun t => report t ∧ t.lclk = u.lclk ∧
        t.servo.p = u.servo.p ∧ t.servo.f = u.servo.f ∧ t.fget F.HEARTH_ADJ = u.fget F.HEARTH_ADJ)) ∧
      (mine → u.ptpMode = true → (¬ far ∨ u.flag F.HEARTH_CTRL_NOSTEP = true) →
        let x : Rat := divR ((theta : Rat) / (65536 : Int)) (ts : Int)
        let slew : Rat := (u.fget F.HEARTH_SERVO_LIM_SLEWMAX : Int) / (1000000 : Int)
        let rmax : Rat := (min 1953 (u.fget F.HEARTH_SERVO_LIM_RATEMAX) : Nat) / (1000000 : Int)
        Completes (.servoMeasurement dt p dom theta ts parent delay gmid) s (fun t => report t ∧ show1 t ∧ t.lclk = u.lclk ∧
          t.servo.p = clampR (-slew) slew (-((u.fget F.HEARTH_SERVO_GAIN_KP : Int) / (65536 : Int) * x)) ∧
          t.servo.f = clampR (-rmax) rmax (u.servo.f - (u.fget F.HEARTH_SERVO_GAIN_KI : Int) / (65536 : Int) * x) ∧
          t.fget F.HEARTH_STATUS_BIGOFS = b2n (decide far))) ∧
      (mine → u.ptpMode = true → far → u.flag F.HEARTH_CTRL_NOSTEP = false → u.servo.parent ≠ some parent.toNat →
        let step := nearest ((-theta : Int) / (65536 : Int))
        let new := (u.lclk : Int) + step * (unitNs : Int)
        (new < 0 → exec (.servoMeasurement dt p dom theta ts parent delay gmid) s = .refused .unpredictable) ∧
        (0 ≤ new → Completes (.servoMeasurement dt p dom theta ts parent delay gmid) s (fun t => (t.lclk : Int) = new ∧
          t.fget F.HEARTH_STATUS_MASTERCHG = 1 ∧ (step ≠ 0 → t.fget F.HEARTH_STATUS_STEPPED = 1 ∧
            t.fget F.HEARTH_STATUS_LOCKED = 0 ∧ t.wget F.HEARTH_LASTSTEP = ofS 64 step))))) ∧
    (u.parentLost = false → Completes (.parentLoss dt) s (fun t => t = u)) ∧
    (u.parentLost = true → Completes (.parentLoss dt) s (fun t => t.fget F.HEARTH_STATUS_MLOSS = 1 ∧ t.servo.f = u.servo.f ∧ t.lclk = u.lclk ∧
      (u.ptpMode = true → t.fget F.HEARTH_STATUS_HOLDOVER = 1 ∧ t.fget F.HEARTH_STATUS_LOCKED = 0 ∧ t.servo.p = 0 ∧ show1 t) ∧
      (u.ptpMode = false → t.fget F.HEARTH_STATUS_HOLDOVER = u.fget F.HEARTH_STATUS_HOLDOVER ∧
        t.fget F.HEARTH_ADJ = u.fget F.HEARTH_ADJ))) ∧
    (u.mayMaster = false → Completes (.bmcaGrandmaster dt) s (fun t => t = u)) ∧
    (u.mayMaster = true → Completes (.bmcaGrandmaster dt) s (fun t => t.fget F.HEARTH_STATUS_GM = 1 ∧ t.servo.f = u.servo.f ∧ t.lclk = u.lclk ∧
      (u.ptpMode = true → t.fget F.HEARTH_STATUS_HOLDOVER = b2n u.servo.measured ∧ t.servo.p = 0 ∧ show1 t) ∧
      (u.ptpMode = false → u.Within t (fun a => a = F.HEARTH_STATUS_GM.addr 0 0))))

/-- R169 to R180. -/
def Obligations.RafterLaunchesMeasuresAndActs : Prop :=
  ∀ (s : State) (dt : Nat) (l : Fin 4), s.Sound →
    let u := s.wait dt
    let own := fun (a : Nat) => 0x110000 ≤ a ∧ a < 0x1100A0
    let none' := fun (_ : Nat) => False
    (∀ (m : Master),
      let v : Word := BitVec.ofNat 32 (2 ^ l.val)
      s.Reaches dt m (F.RAFTER_FIRE_LINES.addr 0 0) v.toNat →
      let x := s.found dt (F.RAFTER_FIRE_LINES.addr 0 0)
      (x.flag F.RAFTER_LINE_CFG_TXEN 0 l = false → Completes (.rafterFire dt m v) s (fun t => t.raf = x.raf ∧ x.Within t none')) ∧
      (x.flag F.RAFTER_CFG_EN = true → x.flag F.RAFTER_LINE_CFG_TXEN 0 l = true → x.rafMerges l x.run = false →
        (x.run < x.raf.busy[l] → Completes (.rafterFire dt m v) s (fun t => t.raf.actions = x.raf.actions ∧ t.raf.sent = x.raf.sent ∧
          (t.raf.waiting.any (fun b => b.line == l.val && b.kind == 0)) = true ∧
          t.fget F.RAFTER_DEFER = min (x.fget F.RAFTER_DEFER + 1) (2 ^ 32 - 1) ∧ x.Within t (fun a => a = F.RAFTER_DEFER.addr 0 0))) ∧
        (x.raf.busy[l] ≤ x.run → Completes (.rafterFire dt m v) s (fun t => t.raf.busy[l] = x.run + 400 * unitNs ∧
          t.raf.sent = x.raf.sent ++ [⟨x.run, x.cycleOf x.run, l, burstBits 0 (x.fget F.RAFTER_CFG_UNIT)⟩] ∧
          t.raf.actions = x.raf.actions ++
            [⟨l, x.run, x.run + x.fget F.RAFTER_CFG_ACTLAT * unitNs, x.fget F.RAFTER_CFG_UNIT⟩] ∧
          x.Within t none')))) ∧
    (s.Live dt → u.raf.busy[l] ≤ u.run → ∀ b, u.raf.waiting.find? (fun b => b.line == l.val) = some b → u.flag F.RAFTER_CFG_EN = true →
      Completes (.rafterDeferredLaunch dt l) s (fun t =>
        t.raf.busy[l] = u.raf.busy[l] + 400 * unitNs ∧
        t.raf.sent = u.raf.sent ++ [⟨u.raf.busy[l], u.cycleOf u.raf.busy[l], l, burstBits b.kind b.id⟩] ∧ t.raf.waiting = u.raf.waiting.filter (fun b => b.line != l.val) ∧
        u.Within t none')) ∧
    (∀ (bits : BitVec 7) (stable : Bool) (ago : Nat), s.Live dt → u.flag F.RAFTER_CFG_EN = true →
      (∀ b, b ∈ u.raf.rx → u.run < b.due) →
      let stamp := u.run - ago * unitNs
      let good := burstParity bits = true ∧ stable = true
      let own' := fun (a : Nat) => a = F.RAFTER_COLL.addr 0 0
      let rx : RxBurst := ⟨stamp + 320 * unitNs, l, bits, stable, stamp⟩
      let coll := fun (t : State) => t.fget F.RAFTER_COLL =
        if u.rafCollides rx then min (u.fget F.RAFTER_COLL + 1) (2 ^ 32 - 1) else u.fget F.RAFTER_COLL
      let busy := fun (t : State) => t.raf.busy[l] = max u.raf.busy[l] (stamp + 400 * unitNs)
      (u.run < rx.due → Completes (.rafterBurstReceive dt l bits stable ago) s (fun t => busy t ∧
        t.raf.rx = u.raf.rx ++ [rx] ∧ t.raf.actions = u.raf.actions ∧ u.Within t none')) ∧
      (rx.due ≤ u.run → ¬ good ∨ burstType bits = 3 → Completes (.rafterBurstReceive dt l bits stable ago) s (fun t =>
        t.fget F.RAFTER_BAD = min (u.fget F.RAFTER_BAD + 1) (2 ^ 32 - 1) ∧ t.raf.actions = u.raf.actions ∧ coll t ∧ busy t ∧
        t.raf.responses = u.raf.responses ∧ t.raf.meas = u.raf.meas ∧
        u.Within t (fun a => a = F.RAFTER_BAD.addr 0 0 ∨ own' a))) ∧
      (rx.due ≤ u.run → good → burstType bits = 0 → burstId bits ≠ u.fget F.RAFTER_CFG_UNIT →
        let e := stamp - u.fget F.RAFTER_DLY 0 (burstId bits) * unitNs
        let a := e + u.fget F.RAFTER_CFG_ACTLAT * unitNs
        u.run ≤ a → Completes (.rafterBurstReceive dt l bits stable ago) s (fun t => coll t ∧ busy t ∧
          t.raf.actions = u.raf.actions ++ [⟨l, e, a, burstId bits⟩] ∧ u.Within t own')) ∧
      (rx.due ≤ u.run → good → burstType bits = 1 → burstId bits = u.fget F.RAFTER_CFG_UNIT → u.flag F.RAFTER_CFG_MRSPEN = true →
        Completes (.rafterBurstReceive dt l bits stable ago) s (fun t => coll t ∧ busy t ∧
          t.raf.responses = u.raf.responses ++ [(l.val, stamp + 1000 * unitNs)] ∧ u.Within t own')) ∧
      (rx.due ≤ u.run → good → burstType bits = 2 → ∀ m, u.raf.meas = some m → m.line = l → m.target = burstId bits →
        m.at' / unitNs + 999 ≤ stamp / unitNs → stamp / unitNs ≤ m.at' / unitNs + 1999 →
        let one := (stamp / unitNs - m.at' / unitNs - 999) / 2
        Completes (.rafterBurstReceive dt l bits stable ago) s (fun t => coll t ∧ busy t ∧ t.raf.meas = none ∧
          t.fget F.RAFTER_MEAS_RES_ONEWAY = one ∧ t.fget F.RAFTER_MEAS_RES_DONE = 1 ∧ t.fget F.RAFTER_MEAS_RES_BUSY = 0 ∧
          t.fget F.RAFTER_DLY 0 (burstId bits) = (if u.flag F.RAFTER_MEAS_LOAD then one else u.fget F.RAFTER_DLY 0 (burstId bits)) ∧
          u.Within t own))) ∧
    (s.Live dt → u.flag F.RAFTER_LINE_CFG_RXEN 0 l = true → ∀ a : RafAct,
      u.raf.actions.filter (fun a => a.line == l.val && decide (a.a ≤ u.run)) = [a] →
      Completes (.rafterAction dt l) s (fun t => t.fget F.RAFTER_LAST_STAMP 0 l = ns32 (u.runToLclk a.e / unitNs) ∧
        t.fget F.RAFTER_LAST_SRC_ID 0 l = a.id % 8 ∧ t.fget F.RAFTER_LAST_SRC_VALID 0 l = 1 ∧
        (u.fget F.CEL_STATUS_STATE = 1 → t.evs = u.evs ++ [⟨9, a.line, a.a, a.id, a.e⟩]) ∧
        t.raf.actions = u.raf.actions.filter (fun a => !(a.line == l.val && decide (a.a ≤ u.run))) ∧
        u.Within t (fun x => 0x400000 ≤ x ∧ x < 0x401000 ∨ 0x600000 ≤ x ∧ x < 0x60A000 ∨
          x = F.RAFTER_LAST_STAMP.addr 0 l ∨ x = F.RAFTER_LAST_SRC_ID.addr 0 l))) ∧
    (∀ (m : Master) (v : Word), s.Reaches dt m (F.RAFTER_MEAS_GO.addr 0 0) (setB v 64) →
      let x := s.found dt (F.RAFTER_MEAS_GO.addr 0 0)
      (x.flag F.RAFTER_MEAS_RES_BUSY = true → Completes (.rafterMeas dt m v) s (fun t => t.raf = x.raf ∧ x.Within t none')) ∧
      (x.flag F.RAFTER_MEAS_RES_BUSY = false → x.flag F.RAFTER_CFG_EN = true → Completes (.rafterMeas dt m v) s (fun t =>
        t.fget F.RAFTER_MEAS_RES_BUSY = 1 ∧ t.fget F.RAFTER_MEAS_RES_DONE = 0 ∧ t.fget F.RAFTER_MEAS_RES_TIMEOUT = 0 ∧
        t.fget F.RAFTER_MEAS_TARGET = bitsOf v.toNat 4 2 ∧ x.Within t own))) ∧
    (s.Live dt → ∀ r, u.raf.responses.find? (fun x => x.1 == l.val && decide (x.2 ≤ u.run)) = some r →
      (r.2 < u.raf.busy[l] → Completes (.mrsp dt l) s (fun t => t.raf.sent = u.raf.sent ∧
        t.raf.responses = u.raf.responses.filter (fun x => !(x.1 == l.val && decide (x.2 ≤ u.run))) ∧ u.Within t none')) ∧
      (u.raf.busy[l] ≤ r.2 → u.flag F.RAFTER_CFG_EN = true → Completes (.mrsp dt l) s (fun t =>
        t.raf.sent = u.raf.sent ++ [⟨r.2, u.cycleOf r.2, l, burstBits 2 (u.fget F.RAFTER_CFG_UNIT)⟩] ∧
        t.raf.busy[l] = r.2 + 400 * unitNs ∧ u.Within t none'))) ∧
    (s.Live dt → ∀ m, u.raf.meas = some m → m.at' + 4000 * unitNs ≤ u.run → u.raf.rx = [] → Completes (.rafterMeasTimeout dt) s (fun t => t.raf.meas = none ∧
      t.fget F.RAFTER_MEAS_RES_TIMEOUT = 1 ∧ t.fget F.RAFTER_MEAS_RES_BUSY = 0 ∧
      u.Within t (fun a => a = F.RAFTER_MEAS_RES_BUSY.addr 0 0))) ∧
    (s.Live dt → Completes (.rafclkLoss dt) s (fun t => (u.boot.refsel = false → t = u) ∧
      (u.boot.refsel = true → bitsOf (t.view (F.RAFTER_STATUS_CLKOK.addr 0 0)) 4 4 = 0 ∧ t.boot.refLost = true ∧
        t.fget F.HEARTH_STATUS_LOCKED = 0 ∧ t.fget F.FLT_FCOUNT 0 3 = min (u.fget F.FLT_FCOUNT 0 3 + 1) (2 ^ 32 - 1))))

/-- R187, R189, R191, R214 to R219, R235. -/
def Obligations.AxisCommandsWaitForTheirTick : Prop :=
  ∀ (s : State) (dt : Nat) (m : Master) (n : Fin 64), s.Sound →
    let others := fun (x t : State) => ∀ i : Fin 64, i ≠ n → t.ax[i] = x.ax[i]
    (let a := F.AX_CMD_OP.addr n 0
     let x := s.found dt a
     ∀ p, p ∈ [(0, Instr.axNone dt m n), (1, .axSync dt m n), (2, .axMove dt m n), (3, .axJog dt m n), (4, .axExt dt m n),
         (5, .axGear dt m n), (6, .axCam dt m n), (7, .axGroup dt m n), (8, .axStop dt m n), (9, .axQstop dt m n),
         (10, .axDisengage dt m n)] → s.Reaches dt m a p.1 →
       let away := x.axKind n ≠ 0 ∧ (x.fget F.AX_LOOP_CTRL_EN n = 0 ∧ 2 ≤ p.1 ∨
         1 ≤ x.lp[n].react ∧ p.1 ≠ 0 ∧ (p.1 ≠ 1 ∨ x.ax[n].qstop = true ∨ x.ax[n].t.v ≠ 0))
       (away → Completes p.2 s (fun t => t.fget F.AX_LOOP_STATUS_CMDREF n = 1 ∧ t.ax = x.ax ∧ t.axState n = x.axState n ∧
         t.fget F.AX_STATUS_CMDLOST n = x.fget F.AX_STATUS_CMDLOST n ∧
         x.Within t (fun b => b = F.AX_STATUS_STATE.addr n 0 ∨ b = F.AX_LOOP_STATUS_CMDREF.addr n 0))) ∧
       (¬ away → Completes p.2 s (fun t => t.ax[n].cmd = some p.1 ∧ t.ax[n].t = x.ax[n].t ∧ others x t ∧ t.axState n = x.axState n ∧
         t.fget F.AX_STATUS_CMDLOST n = (if x.ax[n].cmd.isSome then 1 else x.fget F.AX_STATUS_CMDLOST n) ∧
         x.Within t (fun b => b = F.AX_STATUS_STATE.addr n 0)))) ∧
    (∀ v : Word,
     let a := F.AX_SHIFT.addr n 0 + 4
     let x := s.found dt a
     s.Reaches dt m a v.toNat →
      let own := fun (b : Nat) => a - 4 ≤ b ∧ b ≤ a ∨ b = F.AX_STATUS_STATE.addr n 0 ∨
        F.AX_SHIFTREM.addr n 0 ≤ b ∧ b < F.AX_SHIFTREM.addr n 0 + 8
      (x.axState n ≠ 4 ∧ x.axState n ≠ 5 → Completes (.axShift dt m n v) s (fun t => t.ax = x.ax ∧
        x.Within t (fun b => a - 4 ≤ b ∧ b ≤ a))) ∧
      (x.axState n = 4 ∨ x.axState n = 5 → Completes (.axShift dt m n v) s (fun t =>
        let goal := x.ax[n].shiftGoal + ofQ (t.wgetS F.AX_SHIFT n)
        t.ax[n].shiftGoal = goal ∧ t.wget F.AX_SHIFTREM n = ofS 64 (ratQ (goal - x.ax[n].shift.p)) ∧
        t.fget F.AX_STATUS_SHIFTING n = b2n (decide (goal ≠ x.ax[n].shift.p)) ∧ t.ax[n].t = x.ax[n].t ∧ others x t ∧ x.Within t own))) ∧
    (let a := F.AX_GRP_PUSH.addr n 0
     let x := s.found dt a
     s.Reaches dt m a 1 →
      (x.isLeader n = false → Completes (.grpPush dt m n) s (fun t => t.ax = x.ax ∧ x.Within t (fun _ => False))) ∧
      (x.isLeader n = true → 16 ≤ x.ax[n].queue.length → Completes (.grpPush dt m n) s (fun t => t.ax = x.ax ∧
        t.fget F.AX_GRP_STATUS_REJ n = 1 ∧ x.Within t (fun b => b = F.AX_GRP_STATUS_REJ.addr n 0))) ∧
      (x.isLeader n = true → x.ax[n].queue.length < 16 → Completes (.grpPush dt m n) s (fun t =>
        t.ax[n].queue = x.ax[n].queue ++ [(List.range (x.grpMembers n).length).map (fun j => x.wgetS F.AX_GRP_SEGj n j)] ∧
        t.fget F.AX_GRP_STATUS_LEVEL n = x.ax[n].queue.length + 1 ∧ others x t ∧
        x.Within t (fun b => b = F.AX_GRP_STATUS_LEVEL.addr n 0)))) ∧
    (let a := F.AX_GRP_CTRL_STOP.addr n 0
     let x := s.found dt a
     s.Reaches dt m a 1 → x.isLeader n = true → Completes (.grpStop dt m n) s (fun t => t.ax[n].queue = [] ∧
        t.fget F.AX_GRP_STATUS_ABORT n = 1 ∧ t.fget F.AX_GRP_STATUS_LEVEL n = 0 ∧
        t.ax[n].seg = x.ax[n].seg.map (fun g => { g with braking := true }) ∧ others x t ∧
        x.Within t (fun b => b = F.AX_GRP_STATUS_LEVEL.addr n 0)))

/-- R189 to R191, R204, R217, R219. -/
def Obligations.AxisCommandEntersItsState : Prop :=
  ∀ (s : State) (n : Fin 64) (op : Fin 11), s.Sound →
    let t := s.axCommand n op
    let st := s.axState n
    (op.val = 0 → t = s) ∧
    (op.val = 1 → t.axState n = 0 ∧ t.ax[n].t = { p := s.axQ F.AX_ACT_POS n, v := 0, a := 0 } ∧ t.ax[n].gearWait = none) ∧
    (op.val ≠ 1 → t.ax[n].t = s.ax[n].t) ∧
    (op.val = 2 ∨ op.val = 3 ∨ op.val = 4 → t.axState n = op.val - 1 ∧ t.fget F.AX_STATUS_SHIFTING n = 0 ∧ t.wget F.AX_SHIFTREM n = 0) ∧
    (op.val = 5 ∨ op.val = 6 → t.axState n = op.val - 1 ∧ t.ax[n].gearWait.isSome = true) ∧
    (op.val = 7 → (st = 6 → t = s) ∧ (st ≠ 6 → s.ax[n].t.v = 0 → t.axState n = 6) ∧
      (st ≠ 6 → s.ax[n].t.v ≠ 0 → t.axState n = 7 ∧ t.ax[n].joining = true ∧ t.ax[n].hardBrake = false)) ∧
    (op.val = 8 ∨ op.val = 9 → t.axState n = 7 ∧ t.ax[n].hardBrake = decide (op.val = 9) ∧ t.ax[n].joining = false) ∧
    (op.val = 10 → (st = 4 ∧ s.ax[n].gearWait = none → t.axState n = 4 ∧ t.ax[n].release = true) ∧
      (¬ (st = 4 ∧ s.ax[n].gearWait = none) → t.axState n = 7 ∧ t.ax[n].hardBrake = false)) ∧
    (∀ i : Fin 64, i ≠ n → t.ax[i].t = s.ax[i].t) ∧
    (let lead : Fin 64 := Fin.ofNat 64 (s.fget F.AX_CFG_GROUP n)
     op.val ≠ 0 → op.val ≠ 7 → (op.val = 5 → st = 6 ∨ s.flag F.AX_GEAR_CTRL_ENGAT n = false) → s.flag F.AX_CFG_GRPEN n = true → t.ax[lead].queue = [] ∧ t.fget F.AX_GRP_STATUS_ABORT lead = 1)

/-- R229, R233 to R237, R247. -/
def Obligations.LoopControlFiltersAndFaults : Prop :=
  ∀ (s : State) (dt : Nat) (m : Master) (n : Fin 64) (v : Word), s.Sound →
    let own := fun (b : Nat) => 0x500000 + 0x1000 * n.val ≤ b ∧ b < 0x500800 + 0x1000 * n.val
    let wide := fun (b : Nat) => own b ∨ 0x710000 ≤ b ∧ b < 0x710200
    (let a := F.AX_LOOP_CTRL_EN.addr n 0
     let x := s.found dt a
     (s.Reaches dt m a (setB v 1) → x.fget F.AX_LOOP_CTRL_EN n = 0 →
       let may := x.axKind n ≠ 0 ∧ x.fget F.AX_FAULT_ACTIVE n = 0 ∧ x.halted = false
       (may → Completes (.loopEnable dt m n v) s (fun t => t.fget F.AX_LOOP_CTRL_EN n = 1 ∧ t.lp[n].enPending = true ∧
         t.fget F.AX_LOOP_STATUS_RSTATE n = (if x.axKind n = 1 ∧ x.startsWaiting n = true then 5 else x.fget F.AX_LOOP_STATUS_RSTATE n) ∧ x.Within t own)) ∧
       (¬ may → Completes (.loopEnable dt m n v) s (fun t => t.fget F.AX_LOOP_CTRL_EN n = 0 ∧
         t.lp[n].enPending = x.lp[n].enPending ∧ x.Within t own))) ∧
     (s.Reaches dt m a (clrB v 1) → x.axKind n ≠ 0 → x.fget F.AX_LOOP_CTRL_EN n = 1 → Completes (.loopDisable dt m n v) s (fun t =>
       t.fget F.AX_LOOP_CTRL_EN n = 0 ∧ t.fget F.AX_LOOP_STATUS_RSTATE n = 0 ∧ t.fget F.AX_FLD_STATUS_FSTATE n = 0 ∧
       t.lp[n].xi = 0 ∧ t.lp[n].icmd = 0 ∧ x.Within t wide)) ∧
     (s.Reaches dt m a (setB v 2) → Completes (.loopResetI dt m n v) s (fun t => t.lp[n].resetI = true ∧ x.Within t wide)) ∧
     (s.Reaches dt m a (setB v 4) → Completes (.loopClrPk dt m n v) s (fun t => t.wget F.AX_FEPEAK n = 0 ∧ x.Within t wide))) ∧
    (∀ f : Fin 3,
     let a := F.AX_FILT_A2.addr n f
     let x := s.found dt a
     s.Reaches dt m a v.toNat →
      (x.fget F.AX_FILT_CFG_MODE n f = 3 → Completes (.filterRawCommit dt m n f v) s (fun t => t.lp[n].rawCommit[f] = true ∧
        lookupWord t.lp[n].rawHeld a = some v ∧ x.Within t (fun _ => False))) ∧
      (x.fget F.AX_FILT_CFG_MODE n f ≠ 3 → Completes (.filterRawCommit dt m n f v) s (fun t =>
        t.reg a = v ∧ t.lp = x.lp ∧ x.Within t (fun b => b = a)))) ∧
    (let a := F.AX_FAULT_CAUSE.addr n 0
     let x := s.found dt a
     s.Reaches dt m a v.toNat → Completes (.axisFaultClear dt m n v) s (fun t =>
      (∀ i : Fin 8, bit (t.fget F.AX_FAULT_CAUSE n) i =
        (bit (x.fget F.AX_FAULT_CAUSE n) i && !(bit v.toNat i && !x.causePersists n i && !bit (x.justSet a) i))) ∧
      (t.fget F.AX_FAULT_CAUSE n = 0 → t.fget F.AX_FAULT_ACTIVE n = 0 ∧
        (x.fget F.AX_FAULT_ACTIVE n = 1 → t.lp[n].react = if x.reacting n then x.lp[n].react else 0)) ∧
      x.Within t (fun b => b = a ∨ b = F.AX_LOOP_STATUS_RSTATE.addr n 0)))

/-- R250 to R259. -/
def Obligations.CommandInputsAndSillMeasure : Prop :=
  ∀ (s : State) (dt : Nat) (k : Fin 8), s.Sound → s.Live dt →
    let u := s.wait dt
    let own := fun (b : Nat) => 0x720000 + 0x20 * k.val ≤ b ∧ b < 0x720020 + 0x20 * k.val
    let spin := fun (b : Nat) => 0x400000 ≤ b ∧ b < 0x401000
    let kept := fun (t : State) => t.cmdIn = u.cmdIn ∧ t.sill = u.sill ∧ u.Within t (fun _ => False)
    let smoothed := fun (x : Rat) =>
      let db := ofQ23 (u.fget F.CMD_DB k)
      let x1 := if absR x ≤ db then 0 else x - signR x * db
      let v := ofQ23 (u.fgetS F.CMD_VAL k)
      ofS 32 (toQ23 (v + (x1 - v) / ((2 ^ u.fget F.CMD_CFG_TC k : Nat) : Int)))
    let was := u.flag F.CMD_STATUS_LVL k
    let now := filtered (u.fget F.CMD_CFG_FILT k)
    (let shown := fun (raw : BitVec 16) (c : Instr) =>
      (now was raw = was → Completes c s kept) ∧
      (now was raw ≠ was → u.fget F.CMD_CFG_MODE k < 2 ∨ was = true → Completes c s (fun t =>
        t.flag F.CMD_STATUS_LVL k = !was ∧ t.cmdIn[k].edges = u.cmdIn[k].edges ∧ (was = true → t.cmdIn[k].fell = u.cmdStamp k) ∧
        u.Within t (fun b => b = F.CMD_STATUS_LVL.addr k 0)))
     ∀ (raw : BitVec 16) (pair : Bool), shown raw (.cmdDutyEdge dt k raw pair) ∧ shown raw (.cmdFreqEdge dt k raw pair)) ∧
    (∀ (raw : BitVec 16) (pair : Bool), was = false → now was raw = true →
      (u.fget F.CMD_CFG_MODE k = 2 → ∀ e es, u.cmdIn[k].edges = e :: es →
        let period := (u.cmdStamp k - e.1) / (4 * unitNs)
        let high := (u.cmdIn[k].fell - e.1) / (4 * unitNs)
        (period < 2500 ∨ 250000 < period → Completes (.cmdDutyEdge dt k raw pair) s (fun t => t.fget F.CMD_STATUS_RANGE k = 1 ∧
          t.fget F.CMD_VAL k = u.fget F.CMD_VAL k ∧ t.fget F.CMD_MEAS k = u.fget F.CMD_MEAS k ∧ u.Within t (fun b => own b ∨ spin b))) ∧
        (2500 ≤ period → period ≤ 250000 →
          let d : Rat := ((min high period : Nat) : Int) / (period : Int)
          Completes (.cmdDutyEdge dt k raw pair) s (fun t => t.fget F.CMD_STATUS_LOSS k = 0 ∧
            t.fget F.CMD_VAL k = smoothed (if u.flag F.CMD_CFG_BIPOLAR k then 2 * d - 1 else d) ∧
            t.cmdIn[k].lastMeas = u.run ∧ t.fget F.CMD_STATUS_LVL k = 1 ∧ u.Within t (fun b => own b ∨ spin b))))) ∧
    (∀ (raw : BitVec 16) (pair : Bool), was = false → now was raw = true →
      (u.fget F.CMD_CFG_MODE k = 3 → Completes (.cmdFreqEdge dt k raw pair) s (fun t =>
        t.cmdIn[k].edges.head? = some (u.cmdStamp k, ((u.cmdIn[k].edges.head?.map (·.2)).getD 0) + u.cmdSign k pair) ∧
        t.fget F.CMD_VAL k = smoothed (divR (t.cmdFreq k) (u.fget F.CMD_FMAX k : Int)) ∧ t.fget F.CMD_STATUS_LOSS k = 0 ∧
        u.Within t (fun b => own b ∨ spin b)))) ∧
    (let late := u.cmdIn[k].lastMeas + u.fget F.CMD_CFG_TMO k * 1000 * unitNs ≤ u.run
     (¬ late → Completes (.cmdLoss dt k) s kept) ∧
     (late → u.fget F.CMD_CFG_MODE k = 1 ∨ u.fget F.CMD_CFG_MODE k = 2 → u.fget F.CMD_CFG_LOSSEN k = 1 → u.fget F.CMD_STATUS_LOSS k = 0 →
       Completes (.cmdLoss dt k) s (fun t => t.fget F.CMD_STATUS_LOSS k = 1 ∧ t.fget F.CMD_STATUS_LOSSEVT k = 1 ∧
         t.fget F.CMD_VAL k = 0 ∧ t.fget F.CMD_MEAS k = u.fget F.CMD_MEAS k))) ∧
    ∀ code : BitVec 16, ∀ q, u.sill.head? = some q →
      let sampled := q.2.1 + 500 * q.1 * unitNs
      let c := u.fget F.SILL_SEQ_CH 0 q.1
      (u.run < sampled + 500 * unitNs → Completes (.sillResult dt code) s kept) ∧
      (sampled + 500 * unitNs ≤ u.run → c = 8 + k.val → Completes (.sillResult dt code) s (fun t =>
        t.fget F.SILL_RES_CODE 0 c = code.toNat ∧ t.fget F.SILL_RES_TAG 0 c = q.2.2 % 256 ∧ t.fget F.SILL_RES_NEW 0 c = 1 ∧
        t.fget F.SILL_RES_STAMP 0 c = ns32 (u.runToLclk sampled / unitNs) ∧
        (let out := code.toNat < u.fget F.SILL_LIM_LO 0 c ∨ u.fget F.SILL_LIM_HI 0 c < code.toNat
         bit (t.fget F.SILL_STATUS_LIMCH) c = decide out ∧ (out → t.fget F.SILL_STATUS_LIMIT = 1)) ∧
        (u.fget F.CMD_CFG_MODE k = 1 → t.fget F.CMD_VAL k =
          smoothed ((((code.toNat : Int) - u.fget F.CMD_SCALE_OFS k) * (u.fget F.CMD_SCALE_GAIN k : Int) : Int) / (2 ^ 29 : Int))) ∧
        u.Within t (fun b => own b ∨ b = F.SILL_STATUS_LIMCH.addr 0 0 ∨ b = F.SILL_RES_CODE.addr 0 c ∨ b = F.SILL_RES_STAMP.addr 0 c)))

/-- R242, R275, R280 to R286, R293, R298. -/
def Obligations.TimedFieldStatesEnd : Prop :=
  ∀ (s : State) (dt : Nat) (n : Fin 64), s.Sound → s.Live dt →
    let u := s.wait dt
    let own := fun (b : Nat) => 0x500000 + 0x1000 * n.val ≤ b ∧ b < 0x500800 + 0x1000 * n.val ∨ 0x710000 ≤ b ∧ b < 0x710200 ∨
      0x30C00 ≤ b ∧ b < 0x30D00
    let same := fun (t : State) => t.fld = u.fld ∧ t.lp = u.lp ∧ u.Within t (fun _ => False)
    let c := u.fget F.AX_FAULT_CAUSE n
    let coasts := fun (t : State) => bit (t.fget F.AX_FAULT_CAUSE n) 5 = true ∧
      (bit c 5 = false → u.lp[n].react < 4 → t.fget F.AX_LOOP_CTRL_EN n = 0 ∧ t.fstate n = 0) ∧ u.Within t own
    let fails := fun (t : State) => t.fget F.AX_FLD_STARTFAIL n = min (u.fget F.AX_FLD_STARTFAIL n + 1) (2 ^ 32 - 1) ∧
      (u.fget F.AX_FLD_STATUS_ATTEMPT n < u.fget F.AX_FLD_CFG_RETRY n → t.fstate n = 1 ∧ t.fld[n].entered = u.run ∧
        t.fget F.AX_FLD_STATUS_ATTEMPT n = u.fget F.AX_FLD_STATUS_ATTEMPT n + 1 ∧ t.fget F.AX_FAULT_CAUSE n = c ∧ u.Within t own) ∧
      (u.fget F.AX_FLD_CFG_RETRY n ≤ u.fget F.AX_FLD_STATUS_ATTEMPT n → coasts t)
    let since := u.run - u.fld[n].entered
    let ms := fun (k : Nat) => k * 1000000 * unitNs
    let sensorless := u.axKind n = 1 ∧ u.fstate n = 5 ∧ u.fget F.AX_FLD_CFG_ANGSRC n = 2
    let lossn := u.fget F.AX_FLD_LOCK_LOSSN n
    (u.fstate n = 1 → (since < ms 50 → Completes (.listenTimeout dt n) s same) ∧ (ms 50 ≤ since → Completes (.listenTimeout dt n) s fails)) ∧
    (u.fstate n = 2 → (since ≤ ms 2000 → Completes (.brakeTimeout dt n) s same) ∧ (ms 2000 < since → Completes (.brakeTimeout dt n) s fails)) ∧
    (u.fstate n = 4 → ∀ r, u.fld[n].ifendAt = some r →
      let beyond := r + ms (u.fget F.AX_FLD_IFH_IFHOLD n) ≤ u.run
      (¬ beyond → Completes (.ifholdTimeout dt n) s same) ∧ (beyond → Completes (.ifholdTimeout dt n) s fails)) ∧
    (u.fstate n = 3 →
      let beyond := ms (u.fget F.AX_FLD_ALIGN_TALIGN n) ≤ since
      (¬ beyond → Completes (.alignEnd dt n) s same) ∧
      (beyond → u.fget F.AX_FLD_CFG_ANGSRC n = 2 → Completes (.alignEnd dt n) s (fun t => t.fstate n = 4 ∧
        t.fld[n].thf = u.q16 F.AX_FLD_ALIGN_ALIGNANG n ∧ t.fld[n].wf = 0 ∧ t.fld[n].entered = u.run ∧ u.Within t own)) ∧
      (beyond → u.fget F.AX_FLD_CFG_ANGSRC n ≠ 2 → Completes (.alignEnd dt n) s (fun t => t.fstate n = 5 ∧
        t.fget F.AX_FLD_CFG_ANGVAL n = 1 ∧ t.fld[n].entered = u.run ∧ u.Within t own))) ∧
    (sensorless →
      (u.fld[n].highRun < lossn → Completes (.recatch dt n) s same) ∧
      (lossn ≤ u.fld[n].highRun → Completes (.recatch dt n) s (fun t => t.fstate n = 6 ∧ t.fld[n].entered = u.run ∧
        t.fget F.AX_FLD_RELOCK n = min (u.fget F.AX_FLD_RELOCK n + 1) (2 ^ 32 - 1) ∧ u.Within t own)) ∧
      (u.fld[n].lowRun < lossn → Completes (.iflow dt n) s same) ∧
      (lossn ≤ u.fld[n].lowRun → Completes (.iflow dt n) s (fun t => t.fstate n = 7 ∧ t.fld[n].thf = u.fld[n].th ∧
        t.fld[n].wf = u.fld[n].w ∧ u.Within t own))) ∧
    (u.fstate n = 6 → u.fget F.AX_FLD_STATUS_LOCK n = 0 →
      (since < ms 50 → Completes (.recatchTimeout dt n) s same) ∧ (ms 50 ≤ since → Completes (.recatchTimeout dt n) s coasts)) ∧
    (u.fstate n = 8 →
      let beyond := u.standsStill n = true ∨ u.lp[n].reactAt + 10 ^ 9 ≤ u.phys
      (¬ beyond → Completes (.zvecTimeout dt n) s same) ∧
      (beyond → Completes (.zvecTimeout dt n) s (fun t => t.fget F.AX_LOOP_CTRL_EN n = 0 ∧ t.fstate n = 0 ∧
        t.fget F.AX_LOOP_STATUS_RSTATE n = 0 ∧ t.lp[n].icmd = 0 ∧ u.Within t own))) ∧
    (u.axKind n = 3 →
      (u.fld[n].muAt + ms (u.fget F.AX_FLD_HOLD_HOLDT n) ≤ u.run → Completes (.holdCurrent dt n) s (fun t => t.fld[n].holding = true ∧
        u.Within t (fun _ => False))) ∧
      (u.run < u.fld[n].muAt + ms (u.fget F.AX_FLD_HOLD_HOLDT n) → Completes (.holdCurrent dt n) s same) ∧
      (u.fld[n].stallRun < u.fget F.AX_FLD_HOLD_STALLN n ∨ u.loadOffset n = none → Completes (.stall dt n) s same) ∧
      (u.fget F.AX_FLD_HOLD_STALLN n ≤ u.fld[n].stallRun → (u.loadOffset n).isSome = true → u.fld[n].stalled = false → Completes (.stall dt n) s (fun t =>
        t.fget F.AX_FLD_STATUS_STALL n = 1 ∧ t.fget F.AX_FLD_STALLS n = min (u.fget F.AX_FLD_STALLS n + 1) (2 ^ 32 - 1) ∧
        t.fget F.AX_FAULT_CAUSE n = c ∧
        t.fget F.AX_LOOP_CTRL_EN n = (if u.flag F.AX_FLD_CFG_STALLACT n then 0 else u.fget F.AX_LOOP_CTRL_EN n) ∧ u.Within t own)))

/-- R307 to R312, R318 to R320. -/
def Obligations.BridgeLinksTrainMeasureAndCarryFrames : Prop :=
  ∀ (s : State) (dt : Nat) (l : Fin 16), s.Sound →
    let u := s.wait dt
    let own := fun (b : Nat) => 0x700000 + 0x200 * l.val ≤ b ∧ b < 0x700200 + 0x200 * l.val
    let wide := fun (b : Nat) => own b ∨ 0x500000 ≤ b ∧ b < 0x540000 ∨ 0x710000 ≤ b ∧ b < 0x710200 ∨ 0x30C00 ≤ b ∧ b < 0x30D00 ∨
      0x600000 ≤ b ∧ b < 0x60A000
    let none' := fun (_ : Nat) => False
    let same := fun (t : State) => t.bl = u.bl ∧ u.Within t none'
    let run := u.flag F.CYC_STATUS_RUNNING
    (∀ (m : Master) (v : Word),
      let a := F.BL_CTRL_EN.addr l 0
      let x := s.found dt a
      let p := fun (b : Nat) => b = a ∨ b = F.BL_STATUS_STATE.addr l 0
      (s.Reaches dt m a (setB v 3) → Completes (.blTrain dt m l v) s (fun t => t.blState l = 1 ∧ t.fget F.BL_CTRL_EN l = 1 ∧
        t.bl[l].needTrain = false ∧ t.bl[l].pings = [] ∧ x.Within t p)) ∧
      (s.Reaches dt m a (clrB v 1) → Completes (.blDisable dt m l v) s (fun t => t.blState l = 0 ∧ t.fget F.BL_CTRL_EN l = 0 ∧
        x.Within t p)) ∧
      (s.Reaches dt m a (setB v 8) → Completes (.blClrflt dt m l v) s (fun t => t.bl[l].clrPending = true ∧ x.Within t p))) ∧
    (s.Live dt →
      (u.blState l = 1 → u.bl[l].needTrain = false ∨ u.fget F.BL_CTRL_AUTOTRN l = 1 → Completes (.blAligned dt l) s (fun t =>
        t.blState l = 2 ∧ t.bl[l].pingsSent = 0 ∧ t.bl[l].delays = [] ∧ u.Within t (fun b => b = F.BL_STATUS_STATE.addr l 0))) ∧
      (u.bl[l].needTrain = true → u.fget F.BL_CTRL_AUTOTRN l = 0 → Completes (.blAligned dt l) s same) ∧
      (u.phys < max u.bl[l].setTill u.bl[l].frameTill → Completes (.ping dt l) s same) ∧
      (u.blState l = 2 → u.bl[l].pingsSent < 16 → max u.bl[l].setTill u.bl[l].frameTill ≤ u.phys →
        u.bl[l].pingsSent = 0 ∨ u.bl[l].pingAt + 1000 ≤ u.phys → Completes (.ping dt l) s (fun t =>
        t.bl[l].line = (u.phys, lineGroups (Config.lineDisparity l.val u.phys) [.k 0x1C, .d u.bl[l].pingsSent]) :: u.bl[l].line ∧
        t.bl[l].pings = (u.bl[l].pingsSent, u.uiNow) :: u.bl[l].pings ∧ t.bl[l].pingsSent = u.bl[l].pingsSent + 1 ∧ u.Within t none')) ∧
      (∀ (tag : BitVec 8) (ui : Nat),
        (u.bl[l].pings.find? (fun p => p.1 == tag.toNat) = none → Completes (.pong dt l tag ui) s same) ∧
        ∀ p, u.bl[l].pings.find? (fun p => p.1 == tag.toNat) = some p →
          let at' := u.uiNow + ui
          let d : Int := 400 * ((at' - p.2 : Nat) : Int) - 72000
          (p.2 + 5000 < at' → Completes (.pong dt l tag ui) s (fun t => t.bl[l].delays = u.bl[l].delays ∧ u.Within t none')) ∧
          (at' ≤ p.2 + 5000 → u.blState l = 2 → Completes (.pong dt l tag ui) s (fun t => t.bl[l].delays = d :: u.bl[l].delays ∧
            u.Within t none')) ∧
          (at' ≤ p.2 + 5000 → u.blState l = 3 → Completes (.pong dt l tag ui) s (fun t =>
            t.fget F.BL_LAT l = ofS 32 ((u.fget F.BL_LAT l : Int) + quo (d - u.fget F.BL_LAT l) 16) ∧ t.bl[l].delays = u.bl[l].delays ∧
            u.Within t (fun b => b = F.BL_LAT.addr l 0 ∨ b = F.BL_STATUS_LATCHG.addr l 0)))) ∧
      (u.blState l = 2 → 16 ≤ u.bl[l].pingsSent → u.bl[l].pings = [] ∨ u.bl[l].pingAt + 4000 < u.phys →
        let ds := u.bl[l].delays
        let d := quo (ds.foldl (· + ·) 0) ds.length
        (ds.length < 12 → Completes (.blMeasureEnd dt l) s (fun t => t.blState l = 1 ∧
          t.fget F.BL_RETRAIN l = min (u.fget F.BL_RETRAIN l + 1) (2 ^ 32 - 1) ∧ t.fget F.BL_LAT l = u.fget F.BL_LAT l ∧ u.Within t own)) ∧
        (12 ≤ ds.length → Completes (.blMeasureEnd dt l) s (fun t => t.blState l = (if d ≤ 1600000 then 3 else 4) ∧
          t.fget F.BL_LAT l = ofS 32 d ∧ t.bl[l].latSet = ofS 32 d ∧ u.Within t own))) ∧
      (∀ nx, u.seq.next = some nx → u.run < nx → u.blState l = 3 → u.fget F.CYC_STATUS_RUNNING = 1 → u.bl[l].syncFor ≠ nx →
        let fine := nearest (((((nx - u.run) * 1000 / unitNs : Nat) : Int) - u.fget F.BL_LAT l : Int) / (800 : Int))
        let b := max u.phys u.bl[l].setTill
        (100 ≤ fine → fine ≤ 109 → Completes (.syncLaunch dt l) s (fun t =>
          let left := (fine - 5 * ((b - u.phys : Nat) : Int) / 4).toNat
          t.bl[l].sync = some (b, left) ∧
          t.bl[l].line = (b, lineGroups (Config.lineDisparity l.val b) [.k 0x3C, .d left]) :: u.bl[l].line ∧
          t.bl[l].syncFor = nx ∧ u.Within t none')) ∧
        (fine < 100 ∨ 109 < fine → Completes (.syncLaunch dt l) s same)) ∧
      (u.blState l = 3 →
        (∀ (body : Vector Byte 37) (rd : Bool),
          let bs := 0x12 :: body.toList.map (·.toNat)
          let crc := crc16 bs
          let frame := lineGroups rd (frameSyms (bs ++ [crc % 256, crc / 256]))
          let b := fun (i : Nat) => (bs[i]?).getD 0
          let lw := u.linkWord l 0
          Completes (.upstreamFrame dt l frame rd) s (fun t => t.bl[l].up.take 38 = bs ∧ t.bl[l].arrived = true ∧ t.bl[l].missRun = 0 ∧
            t.fget F.BL_STATUS_UPSTAT l = b 2 + 256 * b 3 ∧ t.fget F.BL_VDC l = b 16 + 256 * b 17 ∧ t.fget F.BL_COMP_T1 l = b 31 ∧
            t.fget F.BL_SEQERR l = (if b 1 = (u.seq.k + 256 - (if u.blDs l < 0 then 2 else 1)) % 256
              then u.fget F.BL_SEQERR l else min (u.fget F.BL_SEQERR l + 1) (2 ^ 32 - 1)) ∧
            t.blState l = 3 ∧ (u.blCore l < 10 → t.mem24 lw = (b 4 + 256 * b 5) * 256 ∧ t.mem24 (lw + 64) = u.seq.k % 2 ^ 24) ∧
            u.Touches t wide (fun a => lw ≤ a ∧ a < lw + 68))) ∧
        (∀ (gs : List CodeGroup) (rd : Bool), let x := takeFrame bridgeSets [0x3C, 0x7C] gs rd
          x.begun = true → x.bytes.length ≠ 40 ∨ x.errs ≠ 0 ∨ x.whole = false → run = false ∨ u.bl[l].codeErrs + x.errs ≤ 8 →
          Completes (.upstreamFrame dt l gs rd) s (fun t => t.fget F.BL_CRCERR l = min (u.fget F.BL_CRCERR l + 1) (2 ^ 32 - 1) ∧
            t.fget F.BL_CODEERR l = min (u.fget F.BL_CODEERR l + x.errs) (2 ^ 32 - 1) ∧ t.bl[l].up = u.bl[l].up ∧ u.Within t own))) ∧
      (∀ (gs : List CodeGroup) (rd : Bool), let k := lineErrors bridgeSets gs rd
        (u.blState l = 0 → Completes (.blCodeErrorBurst dt l gs rd) s (fun t => t = u)) ∧
        (u.blState l ≠ 0 → run = false ∨ u.bl[l].codeErrs + k ≤ 8 → u.bl[l].codeErrs ≤ 8 →
          Completes (.blCodeErrorBurst dt l gs rd) s (fun t => t.blState l = u.blState l ∧
          t.fget F.BL_CODEERR l = min (u.fget F.BL_CODEERR l + k) (2 ^ 32 - 1) ∧
          t.bl[l].codeErrs = (if run then u.bl[l].codeErrs + k else 0) ∧ u.Within t (fun b => b = F.BL_CODEERR.addr l 0))) ∧
        (run = true → 8 < u.bl[l].codeErrs + k → u.blState l = 3 → Completes (.blCodeErrorBurst dt l gs rd) s (fun t => t.blState l = 1 ∧
          t.fget F.BL_STATUS_LOST l = 1 ∧ (∀ n : Fin 64, n ∈ u.blAxes l → bit (t.fget F.AX_FAULT_CAUSE n) 6 = true) ∧
          t.bl[l].needTrain = decide (u.fget F.BL_CTRL_AUTOTRN l = 0) ∧ u.Within t wide))))

/-- R358, R367 to R370, R379, R627. -/
def Obligations.JetLinksTrainAndMeasure : Prop :=
  ∀ (s : State) (dt : Nat) (l : Fin 8), s.Sound →
    let u := s.wait dt
    let own := fun (b : Nat) => 0x810000 + 0x200 * l.val ≤ b ∧ b < 0x810200 + 0x200 * l.val
    let wide := fun (b : Nat) => own b ∨ 0x30C00 ≤ b ∧ b < 0x30D00
    let none' := fun (_ : Nat) => False
    let same := fun (t : State) => t.jet = u.jet ∧ u.Within t none'
    let st := u.jlState l
    let j := u.jet[l]
    let n := u.fget F.JL_STATUS_NMOD l
    let frame := fun (ty pos : Nat) (pl : List Byte) (rd : Bool) =>
      let h := [0x10 + ty, pos, pl.length % 256, pl.length / 256] ++ pl.map (·.toNat)
      lineGroups rd (frameSyms (h ++ bytesLE 4 (crc32 h)))
    let more := fun (x : Nat) (k : Nat) => min (x + k) (2 ^ 32 - 1)
    let retrained := fun (t : State) => t.jlState l = 1 ∧ t.fget F.JL_STATUS_ENUMERR l = 1 ∧
      t.fget F.JL_RETRAIN l = more (u.fget F.JL_RETRAIN l) 1 ∧ u.Within t own
    (∀ (m : Master) (v : Word),
      let a := F.JL_CTRL_EN.addr l 0
      let x := s.found dt a
      (s.Reaches dt m a (setB v 3) → Completes (.jlTrain dt m l v) s (fun t => t.jlState l = 1 ∧ t.fget F.JL_CTRL_EN l = 1 ∧
        t.jet[l].needTrain = false ∧ x.Within t own)) ∧
      (s.Reaches dt m a (clrB v 1) → Completes (.jlDisable dt m l v) s (fun t => t.jlState l = 0 ∧ t.fget F.JL_CTRL_EN l = 0 ∧
        t.jet[l].needTrain = false ∧ x.Within t own))) ∧
    (s.Live dt →
      (st = 1 → j.needTrain = false ∨ u.fget F.JL_CTRL_AUTOTRN l = 1 → Completes (.jlAligned dt l) s (fun t => t.jlState l = 2 ∧
        t.jet[l].enumAt = u.phys ∧ t.jet[l].last = u.jetBytes l ⟨16, .enum⟩ ∧ u.Within t own)) ∧
      (j.needTrain = true → u.fget F.JL_CTRL_AUTOTRN l = 0 → Completes (.jlAligned dt l) s same) ∧
      (st = 2 → u.phys ≤ j.enumAt + 100000 → ∀ (hop : Byte) (rest : Vector Byte 6) (pos : Fin 16) (rd : Bool),
        let good := 1 ≤ hop.toNat ∧ hop.toNat ≤ 16 ∧ (u.fget F.JL_CFG_EXPN l = 0 ∨ u.fget F.JL_CFG_EXPN l = hop.toNat)
        let fr := frame 5 pos ([2, hop] ++ rest.toList) rd
        (good → Completes (.jlEnum dt l fr rd) s (fun t => t.jlState l = 3 ∧ t.fget F.JL_STATUS_NMOD l = hop.toNat ∧
          t.jet[l].reqs = 0 ∧ u.Within t own)) ∧
        (¬ good → Completes (.jlEnum dt l fr rd) s retrained)) ∧
      (st ≠ 0 → ∀ (gs : List CodeGroup) (rd : Bool), let x := takeFrame jetSets [0x3C] gs rd
        x.begun = true → x.whole = false ∨ x.errs ≠ 0 → Completes (.jlEnum dt l gs rd) s (fun t =>
          t.fget F.JL_CRCERR l = more (u.fget F.JL_CRCERR l) 1 ∧
          t.fget F.JL_CODEERR l = more (u.fget F.JL_CODEERR l) x.errs ∧ u.Within t wide)) ∧
      (st = 2 → (u.phys < j.enumAt + 100000 → Completes (.jlEnumTimeout dt l) s same) ∧
        (j.enumAt + 100000 ≤ u.phys → Completes (.jlEnumTimeout dt l) s retrained)) ∧
      (st = 3 → n ≠ 0 → j.reqs < 16 * n → j.reqs = 0 ∨ j.reqAt + 1000 ≤ u.phys → Completes (.jlReq dt l) s (fun t =>
        t.jet[l].reqs = j.reqs + 1 ∧ t.jet[l].outst = (j.tag, j.reqs % n, max u.phys j.busy) :: j.outst ∧
        t.jet[l].last = u.jetBytes l ⟨j.reqs % n, .req j.tag⟩ ∧ u.Within t none')) ∧
      (st = 4 → n ≠ 0 → (j.reqAt + 16000 ≤ u.phys → Completes (.jlReq dt l) s (fun t =>
          t.jet[l].queue = j.queue ++ [⟨j.reqs % n, .req j.tag⟩] ∧ u.Within t none')) ∧
        (u.phys < j.reqAt + 16000 → Completes (.jlReq dt l) s same)) ∧
      (st = 3 → ∀ (lo hi : Byte) (turn : Vector Byte 4) (pos : Fin 16) (rd : Bool) (ui : Nat),
        let tag := lo.toNat + 256 * hi.toNat
        let fr := frame 5 pos ([1, 0, lo, hi] ++ turn.toList) rd
        ∀ o, j.outst.find? (fun o => o.1 == tag && o.2.1 == pos.val) = some o → u.phys ≤ o.2.2 + 8000 →
        let d : Int := quo (((u.phys - o.2.2) * 1000 + ui * 200 : Nat) - 1036000 - (ofBytesLE (turn.toList.map (·.toNat)) : Int)) 2
        let mine := d :: (j.sums.filter (fun x => x.1 == pos.val)).map (·.2)
        Completes (.jlRsp dt l fr rd ui) s (fun t => t.jet[l].sums = (pos.val, d) :: j.sums ∧
          t.fget F.JL_D l pos = ofS 32 (quo (mine.foldl (· + ·) 0) mine.length) ∧ t.jlState l = 3 ∧
          u.Within t (fun b => b = F.JL_D.addr l pos))) ∧
      (st = 3 → n ≠ 0 → 16 * n ≤ j.reqs → j.outst = [] ∨ j.reqAt + 8000 ≤ u.phys →
        let all := ∀ p ∈ List.range n, 12 ≤ (j.sums.filter (fun x => x.1 == p)).length
        (all → Completes (.jlMeasureEnd dt l) s (fun t => t.jlState l = (if u.fgetS F.JL_D l (n - 1) ≤ 2500000 then 4 else 5) ∧
          t.fget F.JL_RETRAIN l = u.fget F.JL_RETRAIN l ∧ u.Within t own)) ∧
        (¬ all → Completes (.jlMeasureEnd dt l) s (fun t => t.jlState l = 1 ∧
          t.fget F.JL_RETRAIN l = more (u.fget F.JL_RETRAIN l) 1 ∧ u.Within t own))) ∧
      (2 ≤ st → ∀ (gs : List CodeGroup) (rd : Bool), Completes (.jlLoss dt l false gs rd) s (fun t => t.jlState l = 1 ∧ t.fget F.JL_STATUS_LOST l = 1 ∧
        t.jet[l].needTrain = decide (u.fget F.JL_CTRL_AUTOTRN l = 0) ∧
        t.fget F.JL_RETRAIN l = (if st < 4 then more (u.fget F.JL_RETRAIN l) 1 else u.fget F.JL_RETRAIN l) ∧ u.Within t wide)) ∧
      (∀ (gs : List CodeGroup) (rd : Bool), let k := lineErrors jetSets gs rd
        st ≠ 0 → k ≤ 16 → j.errs = [] → Completes (.jlLoss dt l true gs rd) s (fun t => t.jlState l = st ∧
        t.fget F.JL_CODEERR l = more (u.fget F.JL_CODEERR l) k ∧ u.Within t (fun b => b = F.JL_CODEERR.addr l 0))))

/-- R351, R359, R371 to R379. -/
def Obligations.JetFramesDownloadsAndReports : Prop :=
  ∀ (s : State) (dt : Nat) (l : Fin 8), s.Sound →
    let u := s.wait dt
    let own := fun (b : Nat) => 0x810000 + 0x200 * l.val ≤ b ∧ b < 0x810200 + 0x200 * l.val
    let none' := fun (_ : Nat) => False
    let same := fun (t : State) => t.jet = u.jet ∧ u.Within t none'
    let st := u.jlState l
    let j := u.jet[l]
    (∀ (m : Master) (b : Fin 16), s.Reaches dt m (F.BAR_CRESET.addr b 0) 1 →
      let x := s.found dt (F.BAR_CRESET.addr b 0)
      Completes (.creset dt m b) s (fun t => t.bar[b].creset = true ∧ (∀ i, i ≠ b → t.bar[i] = x.bar[i]) ∧ x.Within t none')) ∧
    (s.Live dt → ∀ fine : Fin 10,
      let may := st = 4 ∧ j.mark < u.nowNs / 1000 ∧ j.echoTill ≤ u.phys ∧ j.stepTill ≤ u.phys ∧
        (j.queue.any (fun f => f.rank.1 == 0)) = false
      (may → Completes (.jlTmark dt l fine) s (fun t => t.jet[l].mark = u.nowNs / 1000 ∧ t.jet[l].fine = fine.val ∧
        t.jet[l].tmark = lineGroups (Config.lineDisparity (16 + l.val) u.phys) [.k 0x3C, .d fine.val] ∧
        t.jet[l].busy = max u.phys j.busy + 4 ∧
        t.jet[l].queue = j.queue ∧ u.Within t none')) ∧
      (¬ may → Completes (.jlTmark dt l fine) s same)) ∧
    (s.Live dt → st = 4 →
      (j.queue.any (fun f => f.rank.1 == 5) = false → Completes (.jlTimeIdle dt l) s (fun t => t.jet[l].queue = j.queue ++ [⟨16, .timeIdle⟩] ∧
        u.Within t none')) ∧
      (j.queue.any (fun f => f.rank.1 == 5) = true → Completes (.jlTimeIdle dt l) s same)) ∧
    (s.Live dt → st = 4 →
      (u.phys < j.busy ∨ j.queue = [] → Completes (.jlFrameDepart dt l) s same) ∧
      (j.busy ≤ u.phys → ∀ q, u.jlPick l = some q → Completes (.jlFrameDepart dt l) s (fun t =>
        j.queue[q.2]? = some q.1 ∧ (∀ g ∈ j.queue, rankLt g.rank q.1.rank = true → g.isEcho = true ∧ u.echoBlocked = true) ∧
        t.jet[l].queue = j.queue.eraseIdx q.2 ∧ t.jet[l].last = u.jetBytes l q.1 ∧ t.jet[l].lastAt = u.phys ∧
        u.Within t (fun b => b = F.JL_DLSTAT_BUSY.addr l 0)))) ∧
    (s.Live dt → 3 ≤ st → ∀ (pl : Vector Byte 20) (samples : List Byte) (pos : Fin 16) (rd : Bool),
      let w := fun (i k : Nat) => ofBytesLE (((pl.toList.map (·.toNat)).drop i).take k)
      let data := pl.toList ++ samples
      let h := [0x14, pos.val, data.length % 256, data.length / 256] ++ data.map (·.toNat)
      let fr := lineGroups rd (frameSyms (h ++ bytesLE 4 (crc32 h)))
      let m := 16 * l.val + pos.val
      samples.length ≤ 268 → (u.lodge .skew true (0x050C_0000 + 2048 * m)).1 = true → Completes (.jlStat dt l fr rd) s (fun t => t.fget F.JL_MSTAT l pos = w 0 2 ∧
        t.fget F.JL_TBLCRC l pos = w 4 4 ∧ bit (t.fget F.JL_STATUS_MODOK l) pos = true ∧ 
        t.fget F.SKEW_MODH_TEMP 0 m = (if bit (w 0 2) 6 then w 2 1 else u.fget F.SKEW_MODH_TEMP 0 m) ∧
        t.fget F.SKEW_MODH_TVALID 0 m = b2n (bit (w 0 2) 6) ∧
        t.fget F.JL_MISSCOL l pos = min (u.fget F.JL_MISSCOL l pos + w 8 4) (2 ^ 32 - 1) ∧
        u.Touches t (fun b => own b ∨ b = F.SKEW_MODH_TEMP.addr 0 m)
          (fun a => 0x050C_0000 + 2048 * m ≤ a ∧ a < 0x050C_0000 + 2048 * (m + 1)))) ∧
    (∀ (mm : Master) (v : Word),
      let a := F.JL_DL_GO.addr l 0
      let x := s.found dt a
      s.Reaches dt mm a (setB v 16) →
      let p := bitsOf v.toNat 3 0
      let ncol := x.modNcol (16 * l.val + p)
      let open' := x.geomOpen = true ∧ (x.lodge .skew false (0x0504_0000 + 4096 * (16 * l.val + p))).1 = true ∧ x.badPar = []
      (x.dlBusy l = true ∨ x.jlState l ≠ 4 → Completes (.jlDl dt mm l v) s (fun t => t.jet = x.jet ∧
        x.Within t (fun b => b = a))) ∧
      (open' → x.dlBusy l = false → x.jlState l = 4 → ncol = 0 → Completes (.jlDl dt mm l v) s (fun t =>
        t.fget F.JL_DLSTAT_DONE l = 1 ∧ t.fget F.JL_DLSTAT_ERR l = 0 ∧ t.jet[l].queue = x.jet[l].queue ∧ x.Within t own)) ∧
      (open' → x.dlBusy l = false → x.jlState l = 4 → ncol ≠ 0 → Completes (.jlDl dt mm l v) s (fun t =>
        t.dlBusy l = true ∧ t.fget F.JL_DLSTAT_DONE l = 0 ∧ t.fget F.JL_DLSTAT_ERR l = 0 ∧
        t.fget F.JL_DLCRC l = x.tableCrc (16 * l.val + p) ncol ∧
        t.jet[l].queue.length = x.jet[l].queue.length + (ncol + 127) / 128 + 1 ∧ t.jet[l].dl = some (p, none) ∧ x.Within t own))) ∧
    (s.Live dt → ∀ d, j.dl = some d → ∀ c, d.2 = some c →
      (u.phys < c + 4000000 → Completes (.jlDlTimeout dt l) s same) ∧
      (c + 4000000 ≤ u.phys → Completes (.jlDlTimeout dt l) s (fun t => t.fget F.JL_DLSTAT_ERR l = 1 ∧ t.jet[l].dl = none ∧
        u.Within t (fun b => b = F.JL_DLSTAT_ERR.addr l 0)))) ∧
    (s.Live dt → ∀ p : Fin 16, bit (u.fget F.JL_STATUS_MODOK l) p = true →
      let fresh := j.heard.any (fun x => x.1 == p.val && decide (u.phys < x.2 + 4000000))
      (fresh = true → Completes (.jlModlost dt l p) s same) ∧
      (fresh = false → Completes (.jlModlost dt l p) s (fun t => bit (t.fget F.JL_STATUS_MODOK l) p = false ∧
        (st = 4 → t.fget F.JL_STATUS_MODLOST l = 1) ∧ t.jet = u.jet ∧
        u.Within t (fun b => b = F.JL_STATUS_MODOK.addr l 0 ∨ 0x30C00 ≤ b ∧ b < 0x30D00))))

/-- R383, R384, R387, R389, R401, R406. -/
def Obligations.GougeSumsSaturateOrWrap : Prop :=
  ∀ (s : State) (dt : Nat) (n : Fin 10) (rot : Bool) (d a : Fin 4) (x y : Fin 16), s.Sound →
    let u := s.wait dt
    let A := fun (b : GRegs) (i : Fin 4) => (b.a i).toInt
    let D := fun (b : GRegs) (i : Fin 16) => (b.d i).toInt
    let pick := fun (b : GRegs) (i : Fin 16) (un : Bool) => if un then ((b.d i).toNat : Int) else D b i
    let prod := fun (b : GRegs) (i j : Fin 16) (int ux uy : Bool) => (if int then 1 else 2) * (pick b i ux * pick b j uy)
    let sat := fun (v : Int) => max (-2 ^ 55) (min (2 ^ 55 - 1) v)
    let beyond := fun (v : Int) => decide (v < -2 ^ 55 ∨ 2 ^ 55 - 1 < v)
    let zn := fun (v : Int) => [(0, decide (v = 0)), (1, decide (v < 0))]
    let exact := fun (v : Int) => ({ accs := [(d, v)], fl := zn v } : MOut)
    let summed := fun (r : GRegs) (v : Int) (c : List (Nat × Bool)) =>
      ({ accs := [(d, sat v)], fl := zn (sat v) ++ c ++ [(3, beyond v), (6, r.sr.getLsbD 6 || beyond v)] } : MOut)
    let wrapped := fun (v : Int) (c : Bool) =>
      let w := (BitVec.ofInt 56 v).toInt
      ({ accs := [(d, v)], fl := zn w ++ [(2, c), (3, decide (w ≠ v))] } : MOut)
    let carry := fun (b : GRegs) (c : Nat) => decide (2 ^ 56 ≤ (b.a d).toNat + (b.a a).toNat + c)
    let borrow := fun (b : GRegs) (c : Nat) => decide (2 ^ 56 ≤ (b.a d).toNat + (2 ^ 56 - 1 - (b.a a).toNat) + c)
    let cin := fun (b : GRegs) => (if b.sr.getLsbD 2 then 1 else 0 : Nat)
    MSlot (.mnop dt n rot) s u n rot [] (fun _ _ => {}) ∧
    (∀ int ux uy : Bool,
      MSlot (.mpy dt n rot d x y int ux uy) s u n rot [x, y] (fun b _ => exact (prod b x y int ux uy)) ∧
      MSlot (.mac dt n rot d x y int ux uy) s u n rot [x, y] (fun b r => summed r (A b d + prod b x y int ux uy) []) ∧
      MSlot (.msu dt n rot d x y int ux uy) s u n rot [x, y] (fun b r => summed r (A b d - prod b x y int ux uy) [])) ∧
    (∀ (e : Fin 2) (s0 s1 : Bool),
      let lo : Fin 4 := ⟨2 * e.val, by omega⟩
      let hi : Fin 4 := ⟨2 * e.val + 1, by omega⟩
      let x' : Fin 16 := if x.val % 2 = 0 then Fin.ofNat 16 (x.val + 1) else Fin.ofNat 16 (x.val - 1)
      let p0 := fun (b : GRegs) => (if s0 then -1 else 1) * prod b x y false false false
      let p1 := fun (b : GRegs) => (if s1 then -1 else 1) * prod b x' y false false false
      MSlot (.mpy2 dt n rot e x y s0 s1) s u n rot [x, x', y] (fun b _ =>
        { accs := [(lo, p0 b), (hi, p1 b)], fl := zn (p0 b) ++ [(3, false)] }) ∧
      MSlot (.mac2 dt n rot e x y s0 s1) s u n rot [x, x', y] (fun b r =>
        let v0 := A b lo + p0 b
        let v1 := A b hi + p1 b
        { accs := [(lo, sat v0), (hi, sat v1)], fl := zn (sat v0) ++ [(3, beyond v0 || beyond v1),
          (6, r.sr.getLsbD 6 || beyond v0 || beyond v1)] })) ∧
    MSlot (.add dt n rot d a) s u n rot [] (fun b r => summed r (A b d + A b a) [(2, carry b 0)]) ∧
    MSlot (.sub dt n rot d a) s u n rot [] (fun b r => summed r (A b d - A b a) [(2, borrow b 1)]) ∧
    MSlot (.adc dt n rot d a) s u n rot [] (fun b _ => wrapped (A b d + A b a + cin b) (carry b (cin b))) ∧
    MSlot (.sbc dt n rot d a) s u n rot [] (fun b _ => wrapped (A b d - A b a - 1 + cin b) (borrow b (cin b))) ∧
    MSlot (.addd dt n rot d x) s u n rot [x] (fun b r => summed r (A b d + D b x * 2 ^ 24) []) ∧
    MSlot (.subd dt n rot d x) s u n rot [x] (fun b r => summed r (A b d - D b x * 2 ^ 24) []) ∧
    MSlot (.neg dt n rot d a) s u n rot [] (fun b r => summed r (-(A b a)) []) ∧
    MSlot (.abs dt n rot d a) s u n rot [] (fun b r => summed r (max (A b a) (-(A b a))) []) ∧
    MSlot (.rnd dt n rot d a) s u n rot [] (fun b r => summed r ((A b a + 2 ^ 23) / 2 ^ 24 * 2 ^ 24) []) ∧
    MSlot (.mova dt n rot d a) s u n rot [] (fun b _ => exact (A b a)) ∧
    MSlot (.clr dt n rot d) s u n rot [] (fun _ _ => exact 0) ∧
    MSlot (.max dt n rot d a) s u n rot [] (fun b _ => exact (max (A b d) (A b a))) ∧
    MSlot (.min dt n rot d a) s u n rot [] (fun b _ => exact (min (A b d) (A b a))) ∧
    MSlot (.dtoa dt n rot d x) s u n rot [x] (fun b _ => exact (D b x * 2 ^ 24)) ∧
    MSlot (.cmp dt n rot d a) s u n rot [] (fun b _ =>
      let v := A b d - A b a
      { fl := zn (BitVec.ofInt 56 v).toInt ++ [(2, borrow b 1), (3, beyond v)] })

/-- R385, R389, R401, R402. -/
def Obligations.GougeShiftsDividesConvertsAndWordOps : Prop :=
  ∀ (s : State) (dt : Nat) (n : Fin 10) (rot : Bool) (d a : Fin 4) (x y z : Fin 16) (k : Fin 64), s.Sound →
    let u := s.wait dt
    let A := fun (b : GRegs) => (b.a a).toInt
    let D := fun (b : GRegs) (i : Fin 16) => (b.d i).toInt
    let N := fun (b : GRegs) (i : Fin 16) => (b.d i).toNat
    let sat := fun (v : Int) => max (-2 ^ 55) (min (2 ^ 55 - 1) v)
    let beyond := fun (v : Int) => decide (v < -2 ^ 55 ∨ 2 ^ 55 - 1 < v)
    let zn := fun (v : Int) => [(0, decide (v = 0)), (1, decide (v < 0))]
    let exact := fun (v : Int) => ({ accs := [(d, v)], fl := zn (BitVec.ofInt 56 v).toInt } : MOut)
    let summed := fun (r : GRegs) (v : Int) =>
      ({ accs := [(d, sat v)], fl := zn (sat v) ++ [(3, beyond v), (6, r.sr.getLsbD 6 || beyond v)] } : MOut)
    let word := fun (v : Int) => ({ ds := [(z, v)], fl := zn (BitVec.ofInt 24 v).toInt } : MOut)
    let sum := fun (v : Int) (c : Bool) =>
      let w := (BitVec.ofInt 24 v).toInt
      ({ ds := [(z, v)], fl := zn w ++ [(2, c), (3, decide (w ≠ v))] } : MOut)
    MSlot (.asl dt n rot d a k) s u n rot [] (fun b r => summed r (A b * 2 ^ k.val)) ∧
    MSlot (.asr dt n rot d a k) s u n rot [] (fun b _ => exact (A b / 2 ^ k.val)) ∧
    MSlot (.lsr dt n rot d a k) s u n rot [] (fun b _ => exact (((b.a a).toNat / 2 ^ k.val : Nat) : Int)) ∧
    MSlot (.shv dt n rot d a y) s u n rot [y] (fun b r =>
      summed r (if 0 ≤ D b y then A b * 2 ^ (min 63 (D b y)).toNat else A b / 2 ^ (min 63 (-(D b y))).toNat)) ∧
    (let f := u.takeFree.2
     let g := (f.interlock n [(f.before n).loc x]).before n
     let R := (g.a d).toNat
     let e := N g x * 2 ^ 23
     (0 < D g x → R < e → MSlot (.div dt n rot d x) s f n rot [x] (fun _ _ =>
       { accs := [(d, if e ≤ 2 * R then 2 * (R : Int) - e + 1 else 2 * (R : Int))] })) ∧
     ((D g x ≤ 0 ∨ e ≤ R) → MSlot (.div dt n rot d x) s f n rot [x] (fun _ _ => { accs := [(d, u.takeFree.1.toInt)] }))) ∧
    MSlot (.movd dt n rot z a) s u n rot [z] (fun b r =>
      let sm := b.sr.toNat / 256 % 4
      let v := if sm = 0 then A b else if sm = 1 then A b / 2 else if sm = 2 then A b * 2 else A b / 4
      let q := (v + (if b.sr.getLsbD 10 then 2 ^ 23 else 0)) / 2 ^ 24
      let w := max (-2 ^ 23) (min (2 ^ 23 - 1) q)
      let lost := sm = 1 ∧ A b % 2 ≠ 0 ∨ sm = 3 ∧ A b % 4 ≠ 0 ∨ v % 2 ^ 24 ≠ 0
      { ds := [(z, w)], fl := zn w ++ [(4, r.sr.getLsbD 4 || decide (w ≠ q)), (5, r.sr.getLsbD 5 || decide (w = q ∧ lost))] }) ∧
    MSlot (.cls dt n rot z a) s u n rot [z] (fun b _ =>
      let m := (if A b < 0 then ~~~ (b.a a) else b.a a).toNat
      { ds := [(z, 47 - (if m = 0 then 0 else m.log2 + 1 : Nat))] }) ∧
    MSlot (.dadd dt n rot z x y) s u n rot [z, x, y] (fun b _ => sum (D b x + D b y) (decide (2 ^ 24 ≤ N b x + N b y))) ∧
    MSlot (.dsub dt n rot z x y) s u n rot [z, x, y] (fun b _ => sum (D b x - D b y) (decide (N b y ≤ N b x))) ∧
    (∀ imm : BitVec 6, MSlot (.daddi dt n rot z x imm) s u n rot [z, x] (fun b _ =>
      sum (D b x + imm.toInt) (decide (2 ^ 24 ≤ N b x + (imm.toInt % 2 ^ 24).toNat)))) ∧
    MSlot (.dand dt n rot z x y) s u n rot [z, x, y] (fun b _ => word (b.d x &&& b.d y).toInt) ∧
    MSlot (.dor dt n rot z x y) s u n rot [z, x, y] (fun b _ => word (b.d x ||| b.d y).toInt) ∧
    MSlot (.dxor dt n rot z x y) s u n rot [z, x, y] (fun b _ => word (b.d x ^^^ b.d y).toInt) ∧
    MSlot (.dshl dt n rot z x k) s u n rot [z, x] (fun b _ => word (D b x * 2 ^ k.val)) ∧
    MSlot (.dshr dt n rot z x k) s u n rot [z, x] (fun b _ => word (D b x / 2 ^ k.val)) ∧
    MSlot (.dlsr dt n rot z x k) s u n rot [z, x] (fun b _ => word ((N b x / 2 ^ k.val : Nat) : Int))

/-- R385, R393 to R395, R400, R403, R407. -/
def Obligations.GougeLoadsStoresAndAtomics : Prop :=
  ∀ (s : State) (dt : Nat) (n : Fin 10) (more : Bool) (reg : Fin 16) (p : Fin 8) (k : PMod) (imm : BitVec 16) (av : Fin 4), s.Sound →
    let u := s.wait dt
    let regs := fun (x : State) => x.core[n].regs
    let at' := fun (x : State) => (regs x).access p k imm
    let hole := fun (x : State) => (at' x).all (fun q => decide (0x8000 ≤ q.1 ∧ q.1 < 0x2_0000))
    let word := fun (x : State) (w : Nat) => localAddr (x.owner n) w
    let fabric := fun (x : State) (a : Nat) => 0x0800_0000 + 0x8_0000 * (((regs x).sr.toNat / 4096) % 4) + 4 * (a - 0x2_0000)
    let issued := fun (x t : State) (m : PanAcc) =>
      (x.core[n].outst.length < 4 → t.core[n].outst = x.core[n].outst ++ [m] ∧ t.core[n].arrivals = x.core[n].arrivals ∧
        x.Within t (fun _ => False)) ∧
      (x.core[n].outst.length = 4 → t.coreDead n = false → t.core[n].outst = x.core[n].outst.drop 1 ++ [m])
    let kept := fun (g0 : GRegs) (x t : State) (y : GMay) => g0.KeptBut (regs t) y ∧ (regs t).rb = (regs x).rb ∧
      t.core[n].stack = x.core[n].stack
    let quiet := fun (x t : State) => t.core[n].outst = x.core[n].outst ∧ t.core[n].arrivals = x.core[n].arrivals
    let loaded := fun (high : Bool) (x t : State) =>
      let l := (regs x).loc reg
      ∀ q, at' x = some q →
        (q.1 < 0x8000 →
          (x.parityBad (word x q.1) = true → t.fget F.GS_GOUGE_MERR = (x.owner n).val * 2 ^ 28 + q.1) ∧
          (x.parityBad (word x q.1) = false → (regs t).at' l = BitVec.ofNat 24 (x.mem24 (word x q.1)) ∧
            kept q.2 x t { d := [l] } ∧ quiet x t ∧ x.Within t (fun _ => False))) ∧
        (0x2_0000 ≤ q.1 → issued x t (.load (fabric x q.1) high l u.phys) ∧
          (x.core[n].outst.length < 4 → kept q.2 x t {}))
    let load := fun (high : Bool) =>
      ({ need := [reg], dsts := fun r => [.d (r.loc reg)], bad := hole, post := loaded high } : LOut)
    let stored := fun (v : GRegs → BitVec 24) (w : BitVec 24 → BitVec 32) (fl : GRegs → List (Nat × Bool)) (x t : State) =>
      ∀ q, at' x = some q →
        let a := word x q.1
        (q.1 < 0x8000 → t.mem24 a = (v (regs x)).toNat ∧ t.parityBad a = false ∧ quiet x t ∧
          x.Touches t (fun _ => False) (fun b => a ≤ b ∧ b < a + 3)) ∧
        (0x2_0000 ≤ q.1 → issued x t (.store (fabric x q.1) (w (v (regs x))))) ∧
        (q.1 < 0x8000 ∨ x.core[n].outst.length < 4 → kept q.2 x t { sr := (fl (regs x)).map (·.1) } ∧
          ∀ f, f ∈ fl (regs x) → (regs t).sr.getLsbD f.1 = f.2)
    let store := fun (need : List (Fin 16)) (v : GRegs → BitVec 24) (w : BitVec 24 → BitVec 32) (fl : GRegs → List (Nat × Bool)) =>
      ({ need := need, bad := hole, post := stored v w fl } : LOut)
    let swapped := fun (mk : Nat → BitVec 24 → DLoc → PanAcc) (x t : State) =>
      ∀ q, at' x = some q → issued x t (mk (fabric x q.1) ((regs x).d reg) ((regs x).loc reg)) ∧
        (x.core[n].outst.length < 4 → kept q.2 x t {})
    let atomic := fun (mk : Nat → BitVec 24 → DLoc → PanAcc) =>
      ({ need := [reg], dsts := fun r => [.d (r.loc reg)],
         bad := fun x => (at' x).all (fun q => decide (q.1 < 0x2_0000)), post := swapped mk } : LOut)
    let conv := fun (r : GRegs) =>
      let A := (r.a av).toInt
      let sm := r.sr.toNat / 256 % 4
      let v := if sm = 0 then A else if sm = 1 then A / 2 else if sm = 2 then A * 2 else A / 4
      let q := (v + (if r.sr.getLsbD 10 then 2 ^ 23 else 0)) / 2 ^ 24
      let w := max (-2 ^ 23) (min (2 ^ 23 - 1) q)
      let lost := sm = 1 ∧ A % 2 ≠ 0 ∨ sm = 3 ∧ A % 4 ≠ 0 ∨ v % 2 ^ 24 ≠ 0
      (BitVec.ofInt 24 w, decide (w ≠ q), decide (w = q ∧ lost))
    LSlot (.ld dt n more reg p k imm) s u n more (load false) ∧
    LSlot (.ldh dt n more reg p k imm) s u n more (load true) ∧
    LSlot (.st dt n more reg p k imm) s u n more (store [reg] (fun r => r.d reg) (fun v => v.signExtend 32) (fun _ => [])) ∧
    LSlot (.sth dt n more reg p k imm) s u n more (store [reg] (fun r => r.d reg) (fun v => v.setWidth 32 <<< 8) (fun _ => [])) ∧
    LSlot (.sta dt n more av p k imm) s u n more (store [] (fun r => (conv r).1) (fun v => v.signExtend 32)
      (fun r => [(4, r.sr.getLsbD 4 || (conv r).2.1), (5, r.sr.getLsbD 5 || (conv r).2.2)])) ∧
    LSlot (.xadd dt n more reg p k imm) s u n more (atomic .xadd) ∧
    LSlot (.xswp dt n more reg p k imm) s u n more (atomic .xswp) ∧
    (∀ (px py : Fin 4) (mx my : XMod) (rx ry : Fin 16) (kx ky : Fin 3),
      let side := fun (i : Fin 3) (r : Fin 16) (q : Fin 4) (m : XMod) =>
        if i = 0 then ParSide.none else if i = 1 then ParSide.load r q m else ParSide.store r q m
      let step := fun (m : XMod) => match m with
        | .none => PMod.none
        | .inc => PMod.inc
        | .dec => PMod.dec
        | .addM => PMod.addM
      let iy : Fin 8 := ⟨py.val + 4, by omega⟩
      let ix : Fin 8 := ⟨px.val, by omega⟩
      let ax := fun (x : State) => (regs x).access ix (step mx) 0
      let ay := fun (x : State) => (regs x).access iy (step my) 0
      let need := (if kx = 0 then [] else [rx]) ++ (if ky = 0 then [] else [ry])
      let loads := (if kx = 1 then [rx] else []) ++ (if ky = 1 then [ry] else [])
      let moved := fun (x t : State) =>
          let r := regs x
          let wx := word x (((ax x).map (·.1)).getD 0 % 0x4000)
          let wy := word x (((ay x).map (·.1)).getD 0 % 0x4000 + 0x4000)
          x.badPar = [] →
            (kx = 1 → (ky ≠ 1 ∨ rx ≠ ry) → (regs t).at' (r.loc rx) = BitVec.ofNat 24 (x.mem24 wx)) ∧
            (ky = 1 → (kx ≠ 1 ∨ rx ≠ ry) → (regs t).at' (r.loc ry) = BitVec.ofNat 24 (x.mem24 wy)) ∧
            (kx = 2 → t.mem24 wx = (r.d rx).toNat) ∧ (ky = 2 → t.mem24 wy = (r.d ry).toNat) ∧
            (kx ≠ 0 → ∀ q, ax x = some q → (regs t).ptr r.inEvt ix = q.2.ptr r.inEvt ix) ∧
            (ky ≠ 0 → ∀ q, ay x = some q → (regs t).ptr r.inEvt iy = q.2.ptr r.inEvt iy) ∧
            kept r x t { d := loads.map r.loc, p := (if kx = 0 then [] else [(r.inEvt, ix)]) ++ (if ky = 0 then [] else [(r.inEvt, iy)]) } ∧
            quiet x t ∧ x.Touches t (fun _ => False)
              (fun b => kx = 2 ∧ wx ≤ b ∧ b < wx + 3 ∨ ky = 2 ∧ wy ≤ b ∧ b < wy + 3)
      LSlot (.par dt n more (side kx rx px mx) (side ky ry py my)) s u n more
        { need := need, dsts := fun r => loads.map (fun i => .d (r.loc i)),
          bad := fun x => decide (kx ≠ 0 ∧ ax x = none ∨ ky ≠ 0 ∧ ay x = none), post := moved })

/-- R386, R388, R403, R411, and the table of registers. -/
def Obligations.GougeRegisterMovesWriteTheNamedBits : Prop :=
  ∀ (s : State) (dt : Nat) (n : Fin 10) (more : Bool) (g src : GReg) (imm : BitVec 16), s.Sound →
    let u := s.wait dt
    let regs := fun (x : State) => x.core[n].regs
    let names := fun (h : GReg) => match h with
      | .d i => [i]
      | _ => []
    let width := fun (h : GReg) => (match h with
      | .d _ => 24
      | .p _ => 18
      | .m _ => 32
      | .lc _ => 16
      | .ls _ => 14
      | .le _ => 14
      | .sr => 32
      | .rb => 5
      | .esr => 32
      | .epc => 14
      | .core => 4
      | .ccnt => 32
      | .part _ .r => 23
      | .part _ .f => 24
      | .part _ .i => 9 : Nat)
    let bits := fun (x : State) (r : GRegs) (h : GReg) => x.core[n].bits r n.val (x.ccnt n) h
    let fixed := decide (g = .core ∨ g = .ccnt)
    let mask := fun (v : Nat) => if g = .sr ∨ g = .esr then v &&& 0x377F else v
    let low := fun (v : Int) => mask ((v % 2 ^ width g).toNat)
    let dst := fun (r : GRegs) => match g with
      | .d i => [GDst.d (r.loc i)]
      | .part a _ => [GDst.a r.inEvt a]
      | _ => []
    let mayA := fun (r : GRegs) => match g with
      | .part i _ => [(r.inEvt, i)]
      | _ => []
    let mayP := fun (r : GRegs) => match g with
      | .p i => [(r.inEvt, i)]
      | _ => []
    let mayM := match g with
      | .m i => [i]
      | _ => []
    let may := fun (r : GRegs) =>
      ({ a := mayA r, d := (names g).map r.loc, p := mayP r, m := mayM, sr := if g = .sr then List.range 32 else [],
         esr := decide (g = .esr), epc := decide (g = .epc) } : GMay)
    let wrote := fun (v : State → Int) (x t : State) =>
      (fixed = false → t.core[n].bits (regs t) n.val (t.ccnt n) g = low (v x)) ∧
      (fixed = true → regs t = { regs x with lc := (regs t).lc, ls := (regs t).ls, le := (regs t).le }) ∧
      (regs x).KeptBut (regs t) (may (regs x)) ∧ (g ≠ .rb → (regs t).rb = (regs x).rb) ∧
      (∀ a b : APart, ∀ i : Fin 4, g = .part i a → a ≠ b → t.core[n].bits (regs t) n.val 0 (.part i b) = x.core[n].bits (regs x) n.val 0 (.part i b)) ∧
      x.SameAround t n
    let value := fun (x : State) => match src with
      | .part a .r => (((regs x).a a).toNat % 2 ^ 23 : Int)
      | _ => (BitVec.ofNat (width src) (bits x (regs x) src)).toInt
    let high := fun (x : State) => ((imm.toNat * 2 ^ 16 + bits x (regs x) g % 2 ^ 16 : Nat) : Int)
    let upper := fun (x t : State) => (16 < width g → wrote high x t) ∧
      (width g ≤ 16 → (regs x).KeptBut (regs t) {} ∧ (regs t).rb = (regs x).rb ∧ x.SameAround t n)
    let added := fun (p : Fin 8) (x t : State) => (regs t).p p = BitVec.ofInt 18 (((regs x).p p).toNat + imm.toInt) ∧
      (regs x).KeptBut (regs t) { p := [((regs x).inEvt, p)] } ∧ (regs t).rb = (regs x).rb ∧ x.SameAround t n
    let cleared := fun (x t : State) => (∀ i : Fin 3, imm.getLsbD i = true → (regs t).sr.getLsbD (4 + i) = false) ∧
      (regs x).KeptBut (regs t) { sr := ([0, 1, 2].filter imm.getLsbD).map (4 + ·) } ∧ (regs t).rb = (regs x).rb ∧
      x.SameAround t n
    LSlot (.ldi dt n more g imm) s u n more { need := names g, dsts := dst, post := wrote (fun _ => imm.toInt) } ∧
    LSlot (.ldih dt n more g imm) s u n more { need := names g, dsts := dst, post := upper } ∧
    LSlot (.movc dt n more g src) s u n more { need := names g ++ names src, dsts := dst, post := wrote value } ∧
    (∀ p : Fin 8, LSlot (.padd dt n more p imm) s u n more { post := added p }) ∧
    LSlot (.clrf dt n more imm) s u n more { post := cleared }

/-- R392, R403, R404, R408, R410, R422, R426. -/
def Obligations.GougeControlFlowBranchesCallsAndLoops : Prop :=
  ∀ (s : State) (dt : Nat) (n : Fin 10) (more : Bool), s.Sound →
    let u := s.wait dt
    let regs := fun (x : State) => x.core[n].regs
    let armed := fun (x : State) => x.core[n].atLoopEnd
    let same := fun (x t : State) => (regs x).KeptBut (regs t) {} ∧ (regs t).rb = (regs x).rb
    let idle := fun (x t : State) => same x t ∧ x.SameAround t n
    let flag := fun (x : State) (i : Nat) => (regs x).sr.getLsbD i
    let holds := fun (c : Cond) (x : State) => match c with
      | .al => true
      | .eq => flag x 0
      | .ne => !flag x 0
      | .mi => flag x 1
      | .pl => !flag x 1
      | .cs => flag x 2
      | .cc => !flag x 2
      | .vs => flag x 3
      | .vc => !flag x 3
      | .lt => decide (flag x 1 ≠ flag x 3)
      | .ge => decide (flag x 1 = flag x 3)
      | .gt => decide (flag x 0 = false ∧ flag x 1 = flag x 3)
      | .le => decide (flag x 0 = true ∨ flag x 1 ≠ flag x 3)
      | .og => flag x 6
    let stacked := fun (l : State → List (BitVec 14)) (x t : State) => same x t ∧ t.core[n].stack = l x ∧
      t.core[n].outst = x.core[n].outst ∧ t.core[n].arrivals = x.core[n].arrivals ∧ x.Within t (fun _ => False)
    let pc := fun (x : State) => x.core[n].pc
    let restored := fun (x t : State) => (regs t).sr = (regs x).esr ∧ (regs t).inEvt = false ∧ t.core[n].event = none ∧
      (regs x).KeptBut (regs t) { sr := List.range 32, bank := true } ∧ (regs t).rb = (regs x).rb ∧
      t.core[n].stack = x.core[n].stack ∧ t.fget F.GOUGE_CUR_INEVT n = 0 ∧
      x.Within t (fun b => b = F.GOUGE_CUR_INEVT.addr n 0)
    let ended := fun (x t : State) => idle x t ∧ (more = false → t.core[n].running = none) ∧
      (more = true → t.core[n].endTask = true)
    let fenced := fun (x t : State) => idle x t ∧ t.core[n].fence = !x.core[n].outst.isEmpty
    LSlot (.lnop dt n more) s u n more { post := idle } ∧
    (∀ (c : Cond) (a : BitVec 14), LSlot (.bra dt n more c a) s u n more
      { bad := armed, next := fun x => if holds c x then some a else none, post := idle }) ∧
    (∀ a : BitVec 14, LSlot (.call dt n more a) s u n more
      { bad := fun x => armed x || decide (8 ≤ x.core[n].stack.length), next := fun _ => some a,
        post := stacked (fun x => (pc x + 1) :: x.core[n].stack) }) ∧
    LSlot (.ret dt n more) s u n more
      { bad := fun x => armed x || x.core[n].stack.isEmpty, next := fun x => x.core[n].stack.head?,
        post := stacked (fun x => x.core[n].stack.drop 1) } ∧
    LSlot (.rete dt n more) s u n more
      { bad := fun x => armed x || !(regs x).inEvt, next := fun x => some (regs x).epc, post := restored } ∧
    (∀ (lv : Fin 2) (reg : Option (Fin 16)) (count : BitVec 14) (eofs : BitVec 8),
      let k := fun (x : State) => match reg with
        | some i => BitVec.ofNat 16 ((regs x).d i).toNat
        | none => BitVec.ofNat 16 count.toNat
      let le := fun (a : BitVec 14) => a + 1 + BitVec.ofNat 14 eofs.toNat
      let set := fun (x t : State) => (regs t).lc[lv] = k x ∧ (regs t).ls[lv] = pc x + 1 ∧ (regs t).le[lv] = le (pc x)
      let other := fun (x t : State) => ∀ i, i ≠ lv → (regs t).lc[i] = (regs x).lc[i] ∧ (regs t).ls[i] = (regs x).ls[i] ∧
        (regs t).le[i] = (regs x).le[i]
      u.off = false → u.coreDead n = false → u.core[n].base = none →
        let x := u.interlock n (reg.toList.map u.core[n].regs.loc)
        x.coreDead n = false →
          (armed x = true → exec (.hwLoop dt n more lv reg count eofs) s = .refused .unpredictable) ∧
          (armed x = false → Completes (.hwLoop dt n more lv reg count eofs) s (fun t => idle x t ∧ set x t ∧
            (x.core[n].loopWrites = [] → other x t) ∧
            (more = false → x.core[n].nextPc = none → pc t = if k x = 0 then le (pc x) + 1 else pc x + 1) ∧
            (more = true → pc t = pc x ∧ (k x = 0 → t.core[n].nextPc = some (le (pc x) + 1)))))) ∧
    LSlot (.endTask dt n more) s u n more
      { bad := fun x => armed x || (regs x).inEvt, post := ended } ∧
    LSlot (.fence dt n more) s u n more { post := fenced } ∧
    (u.off = false → u.coreDead n = false → u.core[n].base = none → Completes (.tfault dt n more) s (fun t =>
      let x := u.interlock n []
      x.coreDead n = false → t.coreState n = 3 ∧ t.fget F.GOUGE_STATUS_CAUSE n = 3 ∧ t.fget F.GOUGE_FPC n = (pc x).toNat)) ∧
    (∀ (l : Fin 16) (h : Bool),
      let given := fun (x : State) => if h then x.bl[l].given.2 else x.bl[l].given.1
      let duty := fun (x : State) => if h then x.bl[l].duty.2 else x.bl[l].duty.1
      let w := fun (x : State) (i : Nat) => x.mem24 (x.linkWord l (24 + (if h then 3 else 0) + i)) % 2 ^ 16
      let taken := fun (x t : State) => idle x t ∧ given t = true ∧
        duty t = (if given x then duty x else [w x 0, w x 1, w x 2]) ∧ ∀ i, i ≠ l → t.bl[i] = x.bl[i]
      LSlot (.duty dt n more l h) s u n more { post := taken })

/-- R395 to R397, R409, R411. -/
def Obligations.GougeAddressModificationsAndLoopEnds : Prop :=
  (∀ (r : GRegs) (i : Fin 8) (imm : BitVec 16),
    let p := r.p i
    let m := r.m[i]
    let K := m.toNat / 2 ^ 16 % 2 ^ 14 + 1
    let mode := m.toNat / 2 ^ 30
    let inc := (BitVec.ofNat 16 m.toNat).toInt
    let lin := fun (d : Int) => BitVec.ofInt 18 (p.toNat + d)
    let steps := fun (k : PMod) (d : Int) =>
      (mode = 0 → r.access i k imm = some (p.toNat, r.setP i (lin d))) ∧
      (mode = 1 → ∀ e : Fin 15, K ≤ 2 ^ e.val → (e.val = 0 ∨ 2 ^ (e.val - 1) < K) →
        let B := p.toNat - p.toNat % 2 ^ e.val
        (p.toNat - B < K ∧ -(K : Int) ≤ d ∧ d ≤ K → r.access i k imm =
          some (p.toNat, r.setP i (BitVec.ofInt 18 (B + (((p.toNat - B : Nat) : Int) + d) % K)))) ∧
        (¬ (p.toNat - B < K ∧ -(K : Int) ≤ d ∧ d ≤ K) → r.access i k imm = none)) ∧
      (mode = 3 → r.access i k imm = none)
    r.access i .none imm = some (p.toNat, r) ∧ r.access i .addImm imm = some (p.toNat, r.setP i (lin imm.toInt)) ∧
    r.access i .index imm = some ((lin imm.toInt).toNat, r) ∧ steps .inc 1 ∧ steps .dec (-1) ∧ steps .addM inc ∧
    (mode = 2 → r.access i .inc imm = some (p.toNat, r.setP i (lin 1)) ∧
      r.access i .dec imm = some (p.toNat, r.setP i (lin (-1))) ∧
      ((List.range 15).all (fun e => decide (K ≠ 2 ^ e)) = true → r.access i .addM imm = none) ∧
      (∀ e : Fin 15, K = 2 ^ e.val →
        let rev := fun (v : Int) => (BitVec.ofInt e.val v).reverse
        let low := (rev p.toNat + rev inc).reverse
        r.access i .addM imm =
          some (p.toNat, r.setP i (BitVec.ofNat 18 (p.toNat - p.toNat % 2 ^ e.val + low.toNat)))))) ∧
  (∀ (s : State) (dt : Nat) (n : Fin 10), s.Sound →
    let u := s.wait dt
    let x := u.interlock n []
    let c := x.core[n]
    let r := c.regs
    u.off = false → u.coreDead n = false → x.coreDead n = false → u.core[n].base = none → c.nextPc = none → c.endTask = false →
      let stop := fun (i : Fin 2) => r.le[i] = c.pc ∧ r.lc[i] ≠ 0
      let down := fun (t : State) (i : Fin 2) => t.core[n].regs.lc[i] = r.lc[i] - 1
      let keep := fun (t : State) (i : Fin 2) => t.core[n].regs.lc[i] = r.lc[i]
      let go := fun (t : State) (a : BitVec 14) => t.core[n].pc = a ∧ t.core[n].regs.ls = r.ls ∧ t.core[n].regs.le = r.le
      let runs := fun (P : State → Prop) => Completes (.lnop dt n false) s P
      (c.loopWrites = [] → r.nested = true →
        (stop 1 → r.lc[(1 : Fin 2)] ≠ 1 → runs (fun t => down t 1 ∧ keep t 0 ∧ go t r.ls[(1 : Fin 2)])) ∧
        (stop 1 → r.lc[(1 : Fin 2)] = 1 → ¬ stop 0 → runs (fun t => down t 1 ∧ keep t 0 ∧ go t (c.pc + 1))) ∧
        (stop 1 → r.lc[(1 : Fin 2)] = 1 → stop 0 → r.lc[(0 : Fin 2)] = 1 → runs (fun t => down t 1 ∧ down t 0 ∧ go t (c.pc + 1))) ∧
        (stop 1 → r.lc[(1 : Fin 2)] = 1 → stop 0 → r.lc[(0 : Fin 2)] ≠ 1 → runs (fun t => down t 1 ∧ down t 0 ∧
          go t r.ls[(0 : Fin 2)])) ∧
        (¬ stop 1 → stop 0 → r.lc[(0 : Fin 2)] ≠ 1 → runs (fun t => keep t 1 ∧ down t 0 ∧ go t r.ls[(0 : Fin 2)])) ∧
        (¬ stop 1 → stop 0 → r.lc[(0 : Fin 2)] = 1 → runs (fun t => keep t 1 ∧ down t 0 ∧ go t (c.pc + 1))) ∧
        (¬ stop 1 → ¬ stop 0 → runs (fun t => keep t 1 ∧ keep t 0 ∧ go t (c.pc + 1)))) ∧
      (∀ w, c.loopWrites = [w] → r.le[(0 : Fin 2)] ≠ c.pc → r.le[(1 : Fin 2)] ≠ c.pc →
        (2 ≤ w.1 → runs (fun t => t.core[n].loopWrites = [(w.1 - 1, w.2)] ∧ t.core[n].regs.loops = r.loops)) ∧
        (w.1 = 1 → w.2.1 = 0 → runs (fun t => t.core[n].loopWrites = [] ∧
          t.core[n].regs.lc[(0 : Fin 2)] = BitVec.ofNat 16 w.2.2 ∧ keep t 1 ∧ go t (c.pc + 1)))))

/-- R393, R394, R403, R405, R407, R435. -/
def Obligations.PantryAccessesCompleteInOrder : Prop :=
  (∀ (x : State) (n : Fin 10) (ls : List DLoc), 2 * x.core[n].outst.length + x.core[n].arrivals.length ≤ 32 →
    (x.core[n].fence = true → x.core[n].outst ≠ []) →
    let y := x.interlock n ls
    let c := y.core[n]
    let waits := fun (c : GCore) => c.fence = true ∨ (c.arrivals.any (fun q => ls.contains q.1)) = true ∨
      ((c.outst.take (c.outst.length - c.own)).any (fun q => q.dst.any ls.contains)) = true
    (¬ waits x.core[n] → y = x) ∧ (waits c → y.coreDead n = true)) ∧
  (∀ (s : State) (dt : Nat) (n : Fin 10), s.Sound → s.Live dt →
    let u := s.wait dt
    let c := u.core[n]
    let same := fun (t : State) => t.core = u.core ∧ u.Within t (fun _ => False)
    let ok := fun (w : Bool) (a : Nat) => (u.lodge (.gouge (u.owner n)) w a).1 = true
    let mayYield := fun (b : Nat) => b = F.PAN_YIELDS.addr 0 0
    let mayViolate := fun (b : Nat) => b = F.PAN_YIELDS.addr 0 0 ∨ 0x2_0000 ≤ b ∧ b < 0x3_0000 ∨ 0x3_0C00 ≤ b ∧ b < 0x3_0D00 ∨
      0x60_0000 ≤ b ∧ b < 0x61_0000
    let word := fun (a : Nat) (b : Nat) => a ≤ b ∧ b < a + 4
    (c.arrivals = [] → c.outst = [] → Completes (.pantryLoadArrival dt n) s same ∧ Completes (.pantryStoreComplete dt n) s same) ∧
    (∀ l v rest, c.arrivals = (l, v) :: rest → Completes (.pantryLoadArrival dt n) s (fun t =>
      t.core[n].regs.at' l = v ∧ c.regs.KeptBut t.core[n].regs { d := [l] } ∧ t.core[n].arrivals = rest ∧
      t.core[n].outst = c.outst ∧ (∀ i, i ≠ n → t.core[i] = u.core[i]) ∧ u.Within t (fun _ => False))) ∧
    (c.arrivals = [] → ∀ a high l at' rest, c.outst = PanAcc.load a high l at' :: rest →
      Completes (.pantryStoreComplete dt n) s same ∧
      (u.phys < at' + 12 → Completes (.pantryLoadArrival dt n) s same) ∧
      (at' + 12 ≤ u.phys → ok false a → u.parityBad a = false → Completes (.pantryLoadArrival dt n) s (fun t =>
        t.core[n].regs.at' l = BitVec.ofNat 24 (if high then u.mem32 a / 2 ^ 8 else u.mem32 a) ∧ t.core[n].outst = rest ∧
        c.regs.KeptBut t.core[n].regs { d := [l] } ∧ (∀ i, i ≠ n → t.core[i] = u.core[i]) ∧ u.Within t mayYield)) ∧
      (at' + 12 ≤ u.phys → ¬ ok false a → Completes (.pantryLoadArrival dt n) s (fun t => t.core[n].regs.at' l = 0 ∧
        t.core[n].outst = rest ∧ c.regs.KeptBut t.core[n].regs { d := [l] } ∧ u.Within t mayViolate)) ∧
      (at' + 12 ≤ u.phys → ok false a → u.parityBad a = true → Completes (.pantryLoadArrival dt n) s (fun t =>
        t.fget F.PAN_PERR = a))) ∧
    (∀ a v rest, c.outst = PanAcc.store a v :: rest →
      (c.arrivals = [] → Completes (.pantryLoadArrival dt n) s same) ∧
      (ok true a → Completes (.pantryStoreComplete dt n) s (fun t => t.mem32 a = v.toNat ∧ t.parityBad a = false ∧
        t.core[n].outst = rest ∧ c.regs = t.core[n].regs ∧ u.Touches t mayYield (word a))) ∧
      (¬ ok true a → Completes (.pantryStoreComplete dt n) s (fun t => t.core[n].outst = rest ∧ u.Within t mayViolate))) ∧
    (∀ a v l rest, c.outst = PanAcc.xadd a v l :: rest → ok false a → ok true a → u.parityBad a = false →
      Completes (.pantryStoreComplete dt n) s (fun t => t.mem32 a = ((u.mem32 a + v.toInt) % 2 ^ 32).toNat ∧
        t.core[n].arrivals = c.arrivals ++ [(l, BitVec.ofNat 24 (u.mem32 a))] ∧ t.core[n].outst = rest ∧
        c.regs = t.core[n].regs ∧ u.Touches t mayYield (word a))) ∧
    (∀ a v l rest, c.outst = PanAcc.xswp a v l :: rest → ok false a → ok true a → u.parityBad a = false →
      Completes (.pantryStoreComplete dt n) s (fun t => t.mem32 a = (v.toInt % 2 ^ 32).toNat ∧
        t.core[n].arrivals = c.arrivals ++ [(l, BitVec.ofNat 24 (u.mem32 a))] ∧ t.core[n].outst = rest ∧
        c.regs = t.core[n].regs ∧ u.Touches t mayYield (word a))))

/-- R440 to R442. -/
def Obligations.MarchEngineTestsSlicesInOrder : Prop :=
  ∀ (s : State) (dt : Nat) (bad : Option (Fin 16)), s.Sound → s.Live dt →
    let u := s.wait dt
    let m := u.march
    let same := fun (t : State) => t.march = m ∧ u.Within t (fun _ => False)
    let en := u.flag F.PAN_MARCH_CTRL_EN = true
    let ms := u.run + 1000000 * unitNs * u.fget F.PAN_MARCH_CTRL_INTERVAL
    let tested := fun (k : Nat) (t : State) => t.march = (⟨(k + 1) % 8192, some (k, u.run + 384 * unitNs), none,
        if k = 8191 then some ms else none⟩ : March) ∧
      t.fget F.PAN_PASSES = (if k = 8191 then (u.fget F.PAN_PASSES + 1) % 2 ^ 32 else u.fget F.PAN_PASSES) ∧
      (bad = none → u.Within t (fun b => b = F.PAN_PASSES.addr 0 0)) ∧
      (∀ l, bad = some l → t.fget F.PAN_MARCH_STATUS_FADDR = 256 * k + 16 * l.val ∧ t.flag F.PAN_MARCH_STATUS_FAIL = true ∧
        t.fget F.FLT_FCOUNT 0 2 = min (u.fget F.FLT_FCOUNT 0 2 + 1) (2 ^ 32 - 1) ∧
        u.Within t (fun b => b = F.PAN_PASSES.addr 0 0 ∨ b = F.PAN_MARCH_STATUS_FADDR.addr 0 0 ∨ 0x3_0C00 ≤ b ∧ b < 0x3_0D00 ∨
          u.flag F.FLT_FAULT_CFG_FEVTEN = true ∧ 0x60_0000 ≤ b ∧ b < 0x61_0000))
    let idle := ∀ q, m.under = some q → q.2 ≤ u.run
    m.slice < 8192 →
    (en ∧ idle ∧ m.backoff = none ∧ m.pause = none → Completes (.marchSlice dt bad) s (tested m.slice)) ∧
    (¬ (en ∧ idle ∧ m.backoff = none ∧ m.pause = none) → Completes (.marchSlice dt bad) s same) ∧
    (m.backoff = none → Completes (.marchBackoffEnd dt bad) s same) ∧
    (∀ b, m.backoff = some b → (u.run < b → Completes (.marchBackoffEnd dt bad) s same) ∧
      (b ≤ u.run → en → idle → m.pause = none → Completes (.marchBackoffEnd dt bad) s (tested m.slice))) ∧
    (m.pause = none → Completes (.marchPassStart dt bad) s same) ∧
    (∀ b, m.pause = some b → (u.run < b → Completes (.marchPassStart dt bad) s same) ∧
      (b ≤ u.run → en → idle → m.backoff = none → Completes (.marchPassStart dt bad) s (tested 0)))

/-- R391, R419 to R424, R426, R430 to R434, R512. -/
def Obligations.GougeTasksStartAndCoresFault : Prop :=
  ∀ (s : State) (dt : Nat) (n : Fin 10), s.Sound →
    let u := s.wait dt
    let c := u.core[n]
    let o := u.owner n
    let st := u.coreState n
    let works := st = 1 ∨ st = 2 ∧ u.flag F.GOUGE_CTRL_EN n = true ∨ st = 4
    let same := fun (t : State) => t.core = u.core ∧ u.Within t (fun _ => False)
    let y := fun (k : Nat) => localAddr o (0x7FFE + k)
    (s.Live dt → ∀ (i : Fin 32) (axes : List (Fin 64)),
      let ready := works ∧ u.flag F.CYC_STATUS_RUNNING = true ∧ c.running = none ∧ c.event = none ∧ c.todo.head? = some i.val ∧
        u.seq.start + 20 * u.fget F.GOUGE_SLOT_PHASE o i * unitNs ≤ u.run
      let started := fun (t : State) => t.mem24 (y 1) = (if c.replay.contains i.val then 1 else 0) ∧
        t.mem24 (y 0) = u.seq.k % 2 ^ 24 ∧ t.core[n].running = some i.val ∧ t.core[n].todo = c.todo.drop 1 ∧
        t.core[n].pc = BitVec.ofNat 14 (u.fget F.GOUGE_SLOT_START o i) ∧ t.core[n].regs = c.regs ∧
        t.fget F.GOUGE_CUR_SLOT n = i.val
      (¬ ready → Completes (.slotTaskStart dt n i axes) s same) ∧
      (ready → u.flag F.GOUGE_SLOT_CL o i = false → Completes (.slotTaskStart dt n i axes) s (fun t => started t ∧
        u.Touches t (fun b => b = F.GOUGE_CUR_SLOT.addr n 0) (fun a => y 0 ≤ a ∧ a < y 1 + 4))) ∧
      (ready → u.flag F.GOUGE_SLOT_CL o i = true →
        (axes.all (fun a => u.fieldLegal a) = false → exec (.slotTaskStart dt n i axes) s = .refused .unpredictable) ∧
        (axes.all (fun a => u.fieldLegal a) = true → Completes (.slotTaskStart dt n i axes) s started))) ∧
    (s.Live dt →
      let free := works ∧ c.event = none ∧ c.base = none ∧
        (c.running.any (fun i => u.flag F.GOUGE_SLOT_CL o i)) = false
      let pending := fun (e : Nat) => bit (u.fget F.GOUGE_EVPEND o (e / 32)) (e % 32)
      (free → ∀ e : Fin 256, pending e = true → (List.finRange 256).all (fun f => decide (e ≤ f) || !pending f) = true →
        Completes (.eventTaskStart dt n) s (fun t =>
          t.fget F.GOUGE_EVPEND o (e / 32) = u.fget F.GOUGE_EVPEND o (e / 32) - 2 ^ (e.val % 32) ∧
          t.fget F.GOUGE_CUR_EVT n = e.val ∧ t.fget F.GOUGE_CUR_INEVT n = 1 ∧ t.core[n].event = some e.val ∧
          t.core[n].pc = BitVec.ofNat 14 (u.fget F.GOUGE_EVENT_START o e) ∧
          t.core[n].regs = { c.regs with epc := c.pc, esr := c.regs.sr, sr := c.regs.sr &&& 0xFFFFFF80#32, inEvt := true } ∧
          (∀ i, i ≠ n → t.core[i] = u.core[i]) ∧
          u.Within t (fun b => b = F.GOUGE_EVPEND.addr o (e / 32) ∨ b = F.GOUGE_CUR_EVT.addr n 0))) ∧
      (¬ free ∨ (List.finRange 256).all (fun e => !pending e) = true → Completes (.eventTaskStart dt n) s same)) ∧
    (let faulted := fun (x : State) (cause : Nat) (t : State) =>
        let spare := x.fget F.GS_GOUGE_SPARE_CORE
        let sp := Fin.ofNat 10 spare
        let late := x.seq.start + x.tiNs * 6 / 10 * unitNs < x.run
        t.coreState n = 3 ∧ t.fget F.GOUGE_STATUS_CAUSE n = cause ∧ t.fget F.GOUGE_FPC n = x.core[n].pc.toNat ∧
        t.core[n].running = none ∧ t.core[n].todo = [] ∧
        (spare = 0xF → t.flag F.FLT_DEVFLT_HALT = true ∧ bit (t.fget F.FLT_DEVFLT_F) 3 = true) ∧
        (spare ≠ 0xF → x.coreState n = 2 → t.fget F.GS_GOUGE_SPARE_CORE = 0xF ∧ bit (t.fget F.FLT_DEVFLT_F) 2 = true) ∧
        (spare < 10 → x.coreState n ≠ 2 → x.coreState sp = 2 →
          t.coreState sp = 4 ∧ t.fget F.GOUGE_STATUS_HOSTED sp = n.val ∧ t.fget F.GS_GOUGE_SPARE_CORE = 0xF ∧
          bit (t.fget F.FLT_DEVFLT_F) 2 = true ∧ t.flag F.GS_GOUGE_MIGR_VALID = true ∧
          (x.flag F.GS_GOUGE_MIGR_VALID = false → t.fget F.GS_GOUGE_MIGR_FROM = n.val ∧ t.fget F.GS_GOUGE_MIGR_TO = spare ∧
            t.fget F.GS_GOUGE_MIGR_K = x.seq.k % 2 ^ 16 ∧ t.flag F.GS_GOUGE_MIGR_LATE = decide late) ∧
          (late ∨ x.flag F.CYC_STATUS_RUNNING = false → ∀ a, Memory.read t.mem a = Memory.read x.mem a) ∧
          (¬ late → x.flag F.CYC_STATUS_RUNNING = true → ∀ i, x.clSlots n = [i] → x.core[n].servedBy i = [] →
            x.checkpoint n i x.seq.k = none → (x.checkpoint n i (x.seq.k - 1)).isSome = true →
            t.core[sp].todo = [i] ∧ t.core[sp].replay.contains i = true))
     (s.Live dt → ∀ (cause : CoreCause),
       let num := match cause with
         | .regpar => 1
         | .plim => 2
         | .tfault => 3
         | .force => 4
       (st = 3 → Completes (.coreFault dt n cause) s same) ∧
       (st ≠ 3 → Completes (.coreFault dt n cause) s (faulted u num))) ∧
     (∀ (m : Master) (v : Word),
       let a := F.GOUGE_CTRL_EN.addr n 0
       let x := s.found dt a
       s.Reaches dt m a (setB v 2) → x.coreState n ≠ 3 → Completes (.gougeForce dt m n v) s (fun t =>
         t.coreState n = 3 ∧ t.fget F.GOUGE_STATUS_CAUSE n = 4 ∧ t.fget F.GOUGE_FPC n = x.core[n].pc.toNat ∧
         t.flag F.GOUGE_CTRL_EN n = v.getLsbD 0)))

/-- R448, R451 to R466. -/
def Obligations.CellarArmsSamplesTriggersAndStreams : Prop :=
  ∀ (s : State) (dt : Nat), s.Sound →
    let ctrl := F.CEL_CTRL_ARM.addr 0 0
    let own := fun (b : Nat) => 0x90_0000 ≤ b ∧ b < 0x90_0400
    let none' := fun (_ : Nat) => False
    let active := fun (x : State) => x.celState = 1 ∨ x.celState = 2 ∨ x.celState = 4
    let same := fun (x t : State) => t.cel = x.cel ∧ x.Within t none'
    (∀ (m : Master) (v : Word), s.Reaches dt m ctrl (setB v 1) → v.getLsbD 1 = false → v.getLsbD 2 = false →
      let x := s.found dt ctrl
      let buffer := x.fget F.CEL_CFG_MODE = 0
      let np := x.probesOn.length
      let w := np + x.fget F.CEL_CFG_STAMP
      let cap := (x.fget F.CEL_AREA_ALEN * 65536 / 2 ^ x.fget F.CEL_CFG_SEGSH - 64) / (4 * max w 1)
      let nothing := np = 0 ∨ buffer ∧ x.fget F.CEL_AREA_ALEN = 0
      let long := buffer ∧ cap < x.fget F.CEL_PRE + x.fget F.CEL_POST + 1
      let fast := x.fget F.CEL_CFG_SMODE = 0 ∧ 4 * (x.fget F.CEL_PER + 1) < w
      let shut := ¬ buffer ∧ x.stream = none
      let arms := fun (P : State → Prop) => Completes (.celArm dt m v) s (fun t => P t ∧ x.Within t own)
      let error := fun (e : Nat) => arms (fun t => t.fget F.CEL_STATUS_ARMERR = e ∧ t.celState = x.celState ∧ t.cel = x.cel)
      let cleared := fun (t : State) => t.fget F.CEL_STATUS_ARMERR = 0 ∧ t.fget F.CEL_STATUS_OVR = 0 ∧ t.fget F.CEL_STATUS_TRIGD = 0 ∧
        t.fget F.CEL_STATUS_OFFGRID = 0 ∧ t.wget F.CEL_SIDX = 0 ∧ t.fget F.CEL_DEADLAST = 0 ∧ t.fget F.CEL_DEADMAX = 0 ∧
        t.fget F.CEL_RECORDS = 0 ∧ t.fget F.CEL_INFO_NP = np ∧ t.fget F.CEL_INFO_CAP = cap % 2 ^ 24
      (active x → Completes (.celArm dt m v) s (same x)) ∧
      (¬ active x → x.celLegal = false → exec (.celArm dt m v) s = .refused .unpredictable) ∧
      let words := x.probesOn.filter (fun i => decide (10 ≤ x.fget F.CEL_PROBE_CFG_KIND 0 i))
      let quiet := x.badPar = [] ∧ ∀ i, i ∈ words → (x.lodge .cellar false (if x.fget F.CEL_PROBE_CFG_KIND 0 i = 10
        then x.fget F.CEL_PROBE_ADDR 0 i else localAddr (x.fget F.CEL_PROBE_CFG_INST 0 i) (x.fget F.CEL_PROBE_ADDR 0 i))).1 = true
      (¬ active x → x.celLegal = true →
        (nothing → arms (fun t => t.celState = 3 ∧ cleared t)) ∧
        (¬ nothing → long → error 1) ∧ (¬ nothing → ¬ long → fast → error 2) ∧ (¬ nothing → ¬ long → ¬ fast → shut → error 3) ∧
        (¬ nothing → ¬ long → ¬ fast → ¬ shut → quiet → arms (fun t => cleared t ∧ t.celState = (if x.fget F.CEL_CFG_MODE = 0 then 1 else 4) ∧
          t.fget F.CEL_STATUS_SEG = 0 ∧ t.cel.probes = x.probesOn ∧ t.cel.filled = 0 ∧ t.cel.fifo = [] ∧ t.cel.trig = none)))) ∧
    (let seg := fun (x : State) => 0x0600_0000 + 65536 * x.fget F.CEL_AREA_ABASE +
        x.fget F.CEL_STATUS_SEG * (x.fget F.CEL_AREA_ALEN * 65536 / 2 ^ x.fget F.CEL_CFG_SEGSH)
     let lets := fun (x : State) (a n : Nat) => ∀ k, k < n → (x.lodge .cellar true (a + 4 * k)).1 = true
     let header := fun (x t : State) (r : CelTrig) (post : Nat) => t.mem32 (seg x) = 0xCE110101 ∧
        t.mem32 (seg x + 4) = x.fget F.CEL_RECORDS ∧ t.mem32 (seg x + 8) = r.idx % 2 ^ 32 ∧ t.mem32 (seg x + 16) = r.ns % 2 ^ 32 ∧
        t.mem32 (seg x + 20) / 2 ^ 24 = r.mask % 256 ∧ t.mem32 (seg x + 24) = r.npre % 2 ^ 32 ∧ t.mem32 (seg x + 28) = post % 2 ^ 32
     (∀ (m : Master) (v : Word), s.Reaches dt m ctrl (setB v 2) → v.getLsbD 0 = false → v.getLsbD 2 = false →
      let x := s.found dt ctrl
      (∀ r, x.cel.trig = some r → x.celState = 2 → lets x (seg x) 16 → Completes (.celStop dt m v) s (fun t => t.celState = 0 ∧ t.cel.trig = none ∧
        header x t r (x.fget F.CEL_POST - r.left) ∧ x.Touches t own (fun a => seg x ≤ a ∧ a < seg x + 64))) ∧
      (x.cel.trig = none ∨ x.celState ≠ 2 → Completes (.celStop dt m v) s (fun t => t.celState = 0 ∧ x.Within t own))) ∧
     (∀ (m : Master) (v : Word), s.Reaches dt m ctrl (setB v 4) → v.getLsbD 0 = false → v.getLsbD 1 = false →
      let x := s.found dt ctrl
      (active x → Completes (.celForce dt m v) s (fun t => t.cel = { x.cel with force := true } ∧ x.Within t none')) ∧
      (¬ active x → Completes (.celForce dt m v) s (same x))) ∧
     (s.Live dt →
      let u := s.wait dt
      let c := u.cel
      let late := u.fget F.CEL_AUTOTMO * 1000 * unitNs
      (c.autoFrom = none → Completes (.autoTrigger dt) s (same u)) ∧
      (∀ a, c.autoFrom = some a →
        let fires := (u.celState = 1 ∨ u.celState = 4) ∧ u.fget F.CEL_CFG_ARMMODE = 1 ∧ a + late ≤ u.run
        (fires → Completes (.autoTrigger dt) s (fun t => t.cel = { c with auto := true } ∧ u.Within t none')) ∧
        (¬ fires → Completes (.autoTrigger dt) s (same u))) ∧
      (∀ balls : List Balls,
        (¬ active u → Completes (.celSample dt balls) s (same u)) ∧
        (active u → u.fget F.CEL_CFG_SMODE = 0 → (∀ a, c.nextAt = some a → u.run < a) → Completes (.celSample dt balls) s (same u)) ∧
        (active u → u.fget F.CEL_CFG_SMODE = 0 → ∀ a, c.nextAt = some a → a ≤ u.run → u.fget F.CEL_CFG_ARMMODE = 0 →
          u.fget F.CEL_CFG_RAFOUT = 0 → c.waiting = [] → c.auto = false → lets u (seg u) 16 →
          lets u (seg u + 64 + 4 * c.w * c.pos) (c.probes.length + u.fget F.CEL_CFG_STAMP) →
          let ns := u.runToLclk a / unitNs
          let samples := c.probes.map (fun i => u.probeSample balls i)
          let row := (if u.flag F.CEL_CFG_STAMP then [ns % 2 ^ 32] else []) ++ samples
          let now := c.probes.map (fun i => (i, u.probeSample balls i))
          let evs := u.evs.filter (fun e => decide (e.at' ≤ a))
          let met := (List.range 8).filter (fun j => u.celCond now evs j)
          let mask := maskOf met
          let trig := mask ≠ 0 ∨ c.force = true
          let pre := u.fget F.CEL_PRE
          let post := u.fget F.CEL_POST
          let takes := u.celState = 1 ∧ (u.fget F.CEL_CFG_REQPRE = 0 ∨ pre ≤ c.filled)
          let at' := seg u + 64 + 4 * c.w * c.pos
          let next := fun (t : State) => t.wget F.CEL_SIDX = (u.wget F.CEL_SIDX + 1) % 2 ^ 64 ∧ t.cel.prev = now ∧ t.cel.force = false ∧
            t.cel.nextAt = some (a + 4 * (u.fget F.CEL_PER + 1) * unitNs)
          let written := fun (t : State) => next t ∧ (row.zipIdx.all (fun q => t.mem32 (at' + 4 * q.2) == q.1 % 2 ^ 32)) = true
          let ring := fun (t : State) => t.cel.pos = (c.pos + 1) % max c.cap 1 ∧ t.cel.filled = c.filled + 1 ∧
            u.Touches t own (fun b => at' ≤ b ∧ b < at' + 4 * row.length)
          let r : CelTrig := ⟨u.wget F.CEL_SIDX, ns, mask, c.force, false, min pre c.filled, c.pos, post⟩
          let marked := fun (t : State) => t.fget F.CEL_STATUS_TRIGD = 1 ∧ t.fget F.CEL_LASTSRC_MASK = mask ∧
            t.fget F.CEL_LASTTRIG = ns % 2 ^ 32 ∧ t.flag F.CEL_LASTSRC_FORCED = c.force
          let ends := fun (t : State) (q : CelTrig) =>
            t.fget F.CEL_RECORDS = min (u.fget F.CEL_RECORDS + 1) (2 ^ 32 - 1) ∧ t.cel.trig = none ∧
            (if u.flag F.CEL_CFG_REARM = true ∧ u.fget F.CEL_STATUS_SEG + 1 < 2 ^ u.fget F.CEL_CFG_SEGSH then t.celState = 1 ∧
              t.fget F.CEL_STATUS_SEG = (u.fget F.CEL_STATUS_SEG + 1) % 256 ∧ t.cel.filled = 0 else t.celState = 3) ∧
            header u t q post ∧ u.Touches t own (fun b => at' ≤ b ∧ b < at' + 4 * row.length ∨ seg u ≤ b ∧ b < seg u + 64)
          (u.celState = 1 → c.trig = none → ¬ trig → Completes (.celSample dt balls) s (fun t => written t ∧ ring t ∧ t.celState = 1 ∧
            t.cel.trig = none)) ∧
          (takes → c.trig = none → trig → 0 < post → Completes (.celSample dt balls) s (fun t => written t ∧ ring t ∧ t.celState = 2 ∧
            t.cel.trig = some r ∧ marked t)) ∧
          (takes → c.trig = none → trig → post = 0 → Completes (.celSample dt balls) s (fun t => written t ∧ ends t r ∧
            marked t)) ∧
          (u.celState = 1 → c.trig = none → ¬ takes → trig → Completes (.celSample dt balls) s (fun t => written t ∧ ring t ∧
            t.fget F.CEL_TRIGMISS = (if c.deadFrom.isSome then min (u.fget F.CEL_TRIGMISS + 1) (2 ^ 32 - 1)
              else u.fget F.CEL_TRIGMISS) ∧
            t.cel.missed = (if c.deadFrom.isSome then c.missed + 1 else c.missed) ∧ t.celState = 1)) ∧
          (u.celState = 2 → ∀ q, c.trig = some q → 1 < q.left → Completes (.celSample dt balls) s (fun t => written t ∧ ring t ∧
            t.cel.trig = some { q with left := q.left - 1 } ∧ t.celState = 2 ∧
            (trig → t.fget F.CEL_TRIGMISS = min (u.fget F.CEL_TRIGMISS + 1) (2 ^ 32 - 1)))) ∧
          (u.celState = 2 → ∀ q, c.trig = some q → q.left = 1 → Completes (.celSample dt balls) s (fun t => written t ∧ ends t q)) ∧
          (u.celState = 4 → c.stepMarks = [] → c.lost = 0 → (evs.filter (fun e => e.op == 11) = [] ∨ u.fget F.CEL_CFG_CYCMARK = 0) → ¬ trig →
            let room := c.fifo.foldl (fun n x => n + x.2.bytes) 0 + 4 * row.length ≤ u.fget F.CEL_AREA_ALEN * 65536
            (room → Completes (.celSample dt balls) s (fun t => next t ∧
              t.cel.fifo = c.fifo ++ [(u.run, .row (u.wget F.CEL_SIDX) row)] ∧ u.Within t own)) ∧
            (¬ room → Completes (.celSample dt balls) s (fun t => next t ∧ t.cel.fifo = c.fifo ∧ t.cel.lost = 1 ∧
              t.fget F.CEL_DROPROWS = min (u.fget F.CEL_DROPROWS + 1) (2 ^ 32 - 1) ∧ t.fget F.CEL_STATUS_OVR = 1 ∧ u.Within t own))))) ∧
      (c.fifo = [] → Completes (.datagram dt) s (same u)) ∧
      (∀ (q i : Nat) (ws : List Nat), c.fifo = [(q, .row i ws)] →
        let fits := 28 + 4 * ws.length ≤ u.fget F.CEL_STREAM_MAXDG
        let due := q + u.fget F.CEL_STREAM_FLUSH * 1000 * unitNs ≤ u.run
        let sent := [0x11, 0xCE, 1, u.fget F.RAFTER_CFG_UNIT] ++ bytesLE 4 c.dseq ++ bytesLE 8 i ++ bytesLE 2 c.probes.length ++
          [u.fget F.CEL_CFG_STAMP, 0, 0, 0, 0, 0] ++ ((2 ^ 28 + 1) :: ws).flatMap (bytesLE 4)
        (fits → due → Completes (.datagram dt) s (fun t => t.cel.fifo = [] ∧ t.cel.dseq = c.dseq + 1 ∧ t.cel.sent = i + 1 ∧
          t.hw = (u.streamSend sent).hw ∧ ∀ a, Memory.read t.mem a = Memory.read u.mem a)) ∧
        (fits → ¬ due → Completes (.datagram dt) s (same u)) ∧
        (¬ fits → Completes (.datagram dt) s (fun t => t.cel.fifo = [] ∧ t.cel.dseq = c.dseq ∧
          t.fget F.CEL_DROPROWS = min (u.fget F.CEL_DROPROWS + 1) (2 ^ 32 - 1) ∧ t.fget F.CEL_STATUS_OVR = 1 ∧ u.Within t own)))))

/-- R475 to R497, R504, R505. -/
def Obligations.ThresholdTripsLatchesAndResets : Prop :=
  ∀ (s : State) (dt : Nat) (c : Fin 2), s.Sound →
    let u := s.wait dt
    let awake := u.boot.held = false
    let none' := fun (_ : Nat) => False
    let same := fun (x t : State) => t.thr = x.thr ∧ x.Within t none'
    let f := fun (x : State) (o k : Nat) => ofBytesLE (((x.thr.block.getD []).drop o).take k)
    let enabled := fun (x : State) (g : Fin 4) => x.thr.block ≠ none ∧ bit (f x 0x14 1) g = true
    let axes := fun (x : State) (g : Fin 4) => f x (0x18 + 16 * g.val) 8
    let links := fun (x : State) (g : Fin 4) => f x (0x20 + 16 * g.val) 2
    let k : ThrCh := u.thr.ch[c]
    let o : Fin 2 := if c = 0 then 1 else 0
    let other : ThrCh := u.thr.ch[o]
    let chA : ThrCh := u.thr.ch[(0 : Fin 2)]
    let chB : ThrCh := u.thr.ch[(1 : Fin 2)]
    let works : Prop := k.faulty = false ∧ k.started = true ∧ k.stopped = false
    let inA := fun (g : Fin 4) => k.level[2 * g.val]
    let inB := fun (g : Fin 4) => k.level[2 * g.val + 1]
    let stopped := fun (x : State) (g : Fin 4) (cause : Nat) (t : State) =>
      let w : ThrGrp := x.thr.grp[g]
      let y : ThrGrp := t.thr.grp[g]
      y.state = 1 ∧ y.cause = cause ∧ y.entries = w.entries + 1 ∧
      (x.thr.ch[(0 : Fin 2)].faulty = false → (w.hsw = true → w.wantH = true) → y.wantH = false ∧ y.hsw = false) ∧
      (x.thr.ch[(1 : Fin 2)].faulty = false → (w.lsw = true → w.wantL = true) → y.wantL = false ∧ y.lsw = false) ∧
      (x.off = false → ∀ n : Fin 64, bit (axes x g) n = true → bit (t.fget F.AX_FAULT_CAUSE n) 7 = true) ∧
      (∀ l : Fin 16, bit (links x g) l = true → bit t.gateLinks l = true)
    let faulty := fun (o : Fin 2) (t : State) => t.thr.ch[o].faulty = true ∧
      (u.thr.ch[(if o = 0 then 1 else 0 : Fin 2)].faulty = false → ∀ g : Fin 4,
        let y : ThrGrp := u.thr.grp[g]
        let z : ThrGrp := t.thr.grp[g]
        z.degr = true ∧ (y.degr = false → z.state = y.state ∧ z.graceFrom = some u.phys) ∧
        (y.degr = true → y.state ≠ 0 → z.state = 3) ∧ (y.state = 0 → z.state = 0)) ∧
      (u.thr.ch[(if o = 0 then 1 else 0 : Fin 2)].faulty = true → ∀ g : Fin 4, u.thr.grp[g].state ≠ 0 → t.thr.grp[g].state = 3)
    let band := fun (i : Fin 2) (g : Fin 4) => u.thr.ch[i].faulty = true ∨ u.thr.grp[g].rb = true ∨ u.thr.ch[i].band[g] = u.thr.expected g
    let can := fun (g : Fin 4) => let y : ThrGrp := u.thr.grp[g]
      enabled u g ∧ y.state = 1 ∧ inA g = true ∧ inB g = true ∧ y.cycled = true ∧
      y.disc = false ∧ band 0 g ∧ band 1 g ∧ bit (u.fget F.THRQ_THR_DEMAND) g = false ∧
      (chA.faulty = true → y.hsw = true) ∧ (chB.faulty = true → y.lsw = true)
    let runs := fun (g : Fin 4) (t : State) => let z : ThrGrp := t.thr.grp[g]
      z.state = 2 ∧ (chA.faulty = false → z.wantH = true) ∧ (chB.faulty = false → z.wantL = true)
    (awake → ∀ ins bands : BitVec 8,
      (¬ works → Completes (.thrInputSample dt c ins bands) s (same u)) ∧
      (works → Completes (.thrInputSample dt c ins bands) s (fun t =>
        let q : ThrCh := t.thr.ch[c]
        let tf := f u 8 2
        (∀ i : Fin 8, let x := ins.getLsbD i
          (x = k.level[i] → q.level[i] = x ∧ q.run[i] = 0) ∧
          (x ≠ k.level[i] → tf ≤ k.run[i] + 1 → q.level[i] = x ∧ q.run[i] = 0) ∧
          (x ≠ k.level[i] → k.run[i] + 1 < tf → q.level[i] = k.level[i] ∧ q.run[i] = k.run[i] + 1)) ∧
        (∀ g : Fin 4, q.band[g] = bands.toNat / 4 ^ g.val % 4) ∧
        (∀ g : Fin 4, let fell := fun (i : Fin 8) => k.level[i] = true ∧ q.level[i] = false
          let a : Fin 8 := ⟨2 * g.val, by omega⟩
          let b : Fin 8 := ⟨2 * g.val + 1, by omega⟩
          let y : ThrGrp := u.thr.grp[g]
          let z : ThrGrp := t.thr.grp[g]
          (enabled u g → y.state = 2 → fell a → stopped u g 1 t) ∧
          (enabled u g → y.state = 2 → ¬ fell a → fell b → stopped u g 2 t) ∧
          (¬ enabled u g ∨ y.state ≠ 2 ∨ ¬ fell a ∧ ¬ fell b → z.state = y.state ∧ z.cause = y.cause)) ∧
        (k.level = q.level → u.Within t none')))) ∧
    (∀ (m : Master) (v : Word),
      let a := F.THRQ_THR_DEMAND.addr 0 0
      let x := s.found dt a
      s.Reaches dt m a v.toNat → Completes (.thrDemand dt m v) s (fun t => t.fget F.THRQ_THR_DEMAND = v.toNat % 16 ∧ t.thr = x.thr ∧
        x.Within t (fun b => b = a))) ∧
    (∀ (m : Master) (v : Word),
      let a := F.THRQ_THR_RSTREQ_KEY.addr 0 0
      let x := s.found dt a
      s.Reaches dt m a v.toNat →
      (v.toNat / 2 ^ 16 ≠ 0x5AC3 → Completes (.thrRstreq dt m v) s (same x)) ∧
      (v.toNat / 2 ^ 16 = 0x5AC3 → Completes (.thrRstreq dt m v) s (fun t => x.Within t none' ∧ ∀ g : Fin 4,
        let asked : Prop := v.getLsbD g = true ∧ ¬ (enabled x g ∧ bit (f x 0x15 1) g = true)
        t.thr.grp[g] = (if asked then { x.thr.grp[g] with req := true } else x.thr.grp[g]) ∧
        (asked → ∀ i : Fin 2, t.thr.ch[i].dec[g] = false ∧ t.thr.ch[i].heard[g] = false)))) ∧
    (awake → ∀ (ref : Refclk) (bad : Bool),
      (¬ works → Completes (.thrTick dt c ref bad) s (same u)) ∧
      (works → bad = true → Completes (.thrTick dt c ref bad) s (faulty c)) ∧
      (works → bad = false → Completes (.thrTick dt c ref bad) s (fun t =>
        let lost : Prop := c = 1 ∧ ref ≠ .ok ∧ u.thr.clkloss = false
        (lost → t.thr.clkloss = true ∧ t.thr.ch[(0 : Fin 2)].faulty = true) ∧
        (c = 1 → ref = .stopped → t.thr.ch[(0 : Fin 2)].mute = true ∧ t.thr.ch[(0 : Fin 2)].stopped = true) ∧
        (c = 0 ∨ t.thr.ch[(0 : Fin 2)].faulty = true → t.flag F.THR_STATUS_ALLSTO = (List.finRange 4).all (fun g => t.thr.grp[g].state != 2) ∧
          t.flag F.THR_STATUS_CONFIG = t.thr.block.isSome ∧ t.fget F.THR_RSTREJ = t.thr.rstrej % 2 ^ 32 ∧
          ∀ g : Fin 4, let z : ThrGrp := t.thr.grp[g]
            t.fget F.THR_GRP_STATUS_STATE 0 g = z.state % 4 ∧ t.fget F.THR_GRP_STATUS_CAUSE 0 g = z.cause % 16 ∧ t.flag F.THR_GRP_FAULT_DISC 0 g = z.disc) ∧
        (¬ lost → (c = 1 → ref = .ok) → ∀ g : Fin 4,
          let y : ThrGrp := u.thr.grp[g]
          let z : ThrGrp := t.thr.grp[g]
          (y.rb = true ∨ u.phys < y.settle) →
          let n : Nat := if inA g = inB g then 0 else k.diff[g] + 1
          let latch : Prop := y.disc = false ∧ 4 * f u 0x0A 2 + (if c = 0 then 1 else 41) ≤ n
          let held : Prop := bit (u.fget F.THRQ_THR_DEMAND) g = true
          let asked : Prop := y.req = true ∨ enabled u g ∧ bit (f u 0x15 1) g = true
          (enabled u g → t.thr.ch[c].diff[g] = n) ∧
          (enabled u g → latch → z.disc = true ∧ (y.state = 2 → stopped u g 4 t)) ∧
          (enabled u g → ¬ latch → held → y.state = 2 → stopped u g 3 t) ∧
          (enabled u g → ¬ latch → ¬ held → y.state = 2 → z.state = 2) ∧
          (enabled u g → inA g = false → inB g = false → y.state = 1 → z.cycled = true) ∧
          (asked → ¬ latch → y.disc = false → can g → t.thr.ch[c].dec[g] = true ∨ z.state = 2) ∧
          (asked → ¬ latch → y.disc = false → can g → (other.faulty = true ∨ k.heard[g] = true ∧ other.dec[g] = true) →
            runs g t) ∧
          (asked → can g → ¬ (other.faulty = true ∨ k.heard[g] = true ∧ other.dec[g] = true) → z.state = 1) ∧
          (y.req = true → (inA g = false ∨ inB g = false ∨ held ∨ y.state ≠ 1 ∨ ¬ enabled u g) → z.req = false ∧
            (y.state ≠ 2 → z.state ≠ 2) ∧ (u.thr.rstrej < 2 ^ 32 → t.thr.rstrej ≠ u.thr.rstrej)))))) ∧
    (awake → ∀ (same' : Bool) (interval : Nat),
      let deaf : Prop := k.faulty = true ∨ other.faulty = true ∨ k.started = false
      let odd : Prop := same' = false ∨ interval < 225000 ∨ 275000 < interval
      (deaf → Completes (.crossLinkMessage dt c same' interval) s (same u)) ∧
      (¬ deaf → odd → Completes (.crossLinkMessage dt c same' interval) s (faulty o)) ∧
      (¬ deaf → ¬ odd → Completes (.crossLinkMessage dt c same' interval) s (fun t => t.thr.ch[c].msgAt = u.phys ∧
        ∀ g : Fin 4, (k.dec[g] = true → other.dec[g] = true → can g → runs g t) ∧
          (¬ (k.dec[g] = true ∧ other.dec[g] = true ∧ can g) → t.thr.grp[g] = u.thr.grp[g] ∧
            t.thr.ch[c].heard[g] = other.dec[g]))) ∧
      (let silent : Prop := k.faulty = false ∧ k.started = true ∧ other.started = true ∧ k.msgAt + 1000000 ≤ u.phys
       (silent → other.faulty = false → Completes (.crossLinkTimeout dt c) s (faulty o)) ∧
       (¬ silent ∨ other.faulty = true → Completes (.crossLinkTimeout dt c) s (same u))))

/-- R472, R480, R487, R488, R492, R494, R495, R497, R499 to R501. -/
def Obligations.ThresholdTestsItsSwitchesAndChannels : Prop :=
  (∀ sec : List Nat, safeGood sec = true →
    let f := fun (o k : Nat) => ofBytesLE ((sec.drop o).take k)
    let block := sec.take 124
    sec.length = 256 ∧ f 0 4 = 0x46534854 ∧ f 4 2 = 1 ∧ f 8 2 ≤ 640 ∧ 1 ≤ f 10 2 ∧ f 10 2 ≤ 500 ∧ 1 ≤ f 12 2 ∧ f 12 2 ≤ 480 ∧
    20 ≤ f 14 2 ∧ f 14 2 ≤ 500 ∧ 1 ≤ f 16 2 ∧ f 16 2 ≤ 3600 ∧ 1 ≤ f 18 2 ∧ f 18 2 ≤ 50 ∧ f 20 1 < 16 ∧ f 21 1 < 16 ∧
    f 0x7C 4 = crc32 block ∧ f 0xFC 4 = crc32 ((sec.drop 128).take 124) ∧
    ((sec.drop 128).take 124).map (fun x => 255 - x % 256) = block) ∧
  (∀ (s : State) (dt : Nat) (g : Fin 4) (c : Fin 2), s.Sound →
    let u := s.wait dt
    let y := u.thr.grp[g]
    let A := u.thr.ch[(0 : Fin 2)]
    let B := u.thr.ch[(1 : Fin 2)]
    let none' := fun (_ : Nat) => False
    let same := fun (t : State) => t.thr = u.thr ∧ u.Within t none'
    let f := fun (o k : Nat) => ofBytesLE (((u.thr.block.getD []).drop o).take k)
    let still := fun (t : State) => ∀ i, i ≠ g → t.thr.grp[i] = u.thr.grp[i]
    let quiet := fun (t : State) => u.Within t none' ∧ still t
    let locked := fun (t : State) => t.thr.grp[g].state = 3 ∧ (A.faulty = false → t.thr.grp[g].wantH = false) ∧
      (B.faulty = false → t.thr.grp[g].wantL = false) ∧ t.thr.grp[g].test = none
    u.boot.held = false →
    (let due := y.state = 2 ∧ y.nextTest ≤ u.phys ∧ y.test = none ∧ y.lowAt = none
     let later := fun (t : State) => t.thr.grp[g].nextTest = u.phys + f 16 2 * 1000000000 ∧ t.thr.grp[g].state = 2 ∧ quiet t
     (¬ due → Completes (.darkTest dt g) s same) ∧
     (due → y.rb = true ∨ A.faulty = true ∨ B.faulty = true → Completes (.darkTest dt g) s (fun t => later t ∧ t.thr.grp[g].test = none)) ∧
     (due → y.rb = false → A.faulty = false → B.faulty = false → Completes (.darkTest dt g) s (fun t => later t ∧
       t.thr.grp[g].test = some ⟨false, u.phys, false, false⟩ ∧ t.thr.grp[g].wantH = false ∧ t.thr.grp[g].wantL = true ∧
       (y.wantH = true → t.thr.grp[g].hsw = false ∧ t.thr.grp[g].settle = u.phys + f 18 2 * 1000000)))) ∧
    (y.lowAt = none → Completes (.darkTestLowSide dt g) s same) ∧
    (∀ a, y.lowAt = some a →
      (y.state ≠ 2 ∨ u.phys < a → Completes (.darkTestLowSide dt g) s same) ∧
      (y.state = 2 → a ≤ u.phys → Completes (.darkTestLowSide dt g) s (fun t => quiet t ∧ t.thr.grp[g].lowAt = none ∧
        t.thr.grp[g].test = some ⟨true, u.phys, false, false⟩ ∧ t.thr.grp[g].wantL = (if B.faulty then y.wantL else false) ∧
        t.thr.grp[g].wantH = (if A.faulty then y.wantH else true)))) ∧
    (y.test = none → Completes (.darkTestEnd dt g) s same) ∧
    (∀ d, y.test = some d →
      let till := d.at' + f 14 2 * 1000
      let ok := d.seenA = true ∧ d.seenB = true
      let half := fun (t : State) => t.thr.grp[g].test = none ∧ t.thr.grp[g].tests = y.tests + (if d.low = true ∧ ok ∧ y.testGood = true then 1 else 0)
      let known := if d.low then y.ls else y.hs
      let expired := u.thr.block ≠ none ∧ (y.graceFrom.any (fun a => decide (a + f 12 2 * 60000000000 ≤ u.phys))) = true
      (u.phys < till → Completes (.darkTestEnd dt g) s same) ∧
      (till ≤ u.phys → ok ∨ known = true → Completes (.darkTestEnd dt g) s (fun t => half t ∧ quiet t ∧
        t.thr.grp[g].lowAt = (if d.low then none else some (u.phys + 10000000)) ∧ t.thr.grp[g].state = y.state ∧
        t.thr.grp[g].wantH = (if A.faulty then y.wantH else true) ∧ t.thr.grp[g].wantL = (if B.faulty then y.wantL else true))) ∧
      (till ≤ u.phys → ¬ ok → known = false → y.degr = false → Completes (.darkTestEnd dt g) s (fun t => half t ∧ still t ∧
        t.thr.grp[g].degr = true ∧ t.thr.grp[g].graceFrom = some u.phys ∧ t.thr.grp[g].state = y.state ∧
        (if d.low then t.thr.grp[g].ls else t.thr.grp[g].hs) = true)) ∧
      (till ≤ u.phys → ¬ ok → known = false → y.degr = true → y.state = 2 → Completes (.darkTestEnd dt g) s (fun t => half t ∧ still t ∧
        locked t ∧ t.thr.grp[g].lock2 = (y.lock2 || !decide expired) ∧ t.thr.grp[g].lockGr = (y.lockGr || decide expired) ∧ t.thr.grp[g].cause = 5 ∧ t.thr.grp[g].entries = y.entries + 1))) ∧
    (y.graceFrom = none → Completes (.graceExpiry dt g) s same) ∧
    (∀ a, y.graceFrom = some a →
      let fires := u.thr.block ≠ none ∧ a + f 12 2 * 60000000000 ≤ u.phys ∧ ¬ (A.faulty = true ∧ B.faulty = true) ∧ y.state ≠ 0 ∧ y.state ≠ 3
      (fires → Completes (.graceExpiry dt g) s (fun t => locked t ∧ t.thr.grp[g].lockGr = true ∧ still t)) ∧
      (¬ fires → Completes (.graceExpiry dt g) s same)) ∧
    Completes (.channelSupplyFail dt c) s (fun t => t.thr.ch[c].mute = true ∧ u.Within t none' ∧
      ∀ i : Fin 4, t.thr.grp[i].state = u.thr.grp[i].state ∧ (if c = 0 then t.thr.grp[i].hsw else t.thr.grp[i].lsw) = false) ∧
    (∀ pass : Bool,
      let k := u.thr.ch[c]
      let o : Fin 2 := if c = 0 then 1 else 0
      let p := u.thr.ch[o]
      let begun := fun (t : State) => t.thr.ch[c].started = true ∧ t.thr.ch[c].faulty = (k.faulty || !pass)
      let judged := fun (t : State) => begun t ∧ t.thr.offer = none
      let kept := fun (t : State) => judged t ∧ t.thr.block = u.thr.block
      (k.started = true → Completes (.thrStartupTest dt c pass) s same) ∧
      (k.started = false → (p.started = false ∨ u.thr.offer = none) → Completes (.thrStartupTest dt c pass) s (fun t => begun t ∧
        t.thr.block = u.thr.block ∧ t.thr.offer = u.thr.offer)) ∧
      (k.started = false → p.started = true → ∀ sec, u.thr.offer = some sec →
        let sound := safeGood sec = true ∧ pass = true ∧ k.faulty = false ∧ p.faulty = false
        let equal := u.thr.block ≠ none ∧ f 0x7C 4 = ofBytesLE ((sec.drop 0x7C).take 4)
        let running := (u.thr.grp.any (fun x => x.state == 2)) = true
        (¬ sound → Completes (.thrStartupTest dt c pass) s (fun t => kept t ∧ t.thr.saferej = true)) ∧
        (sound → equal → Completes (.thrStartupTest dt c pass) s (fun t => kept t ∧ t.thr.saferej = false)) ∧
        (sound → ¬ equal → running → Completes (.thrStartupTest dt c pass) s (fun t => kept t ∧ t.thr.saferej = true)) ∧
        (sound → ¬ equal → ¬ running → Completes (.thrStartupTest dt c pass) s (fun t => judged t ∧ t.thr.saferej = false ∧
          t.thr.block = some (sec.take 128) ∧ ∀ i : Fin 4, let z := u.thr.grp[i]
            let on := bit (ofBytesLE ((sec.drop 0x14).take 1)) i = true
            t.thr.grp[i].state = (if on then (if z.state = 0 then 1 else z.state) else if z.state = 3 then 3 else 0) ∧
            (on → z.state = 0 → t.thr.grp[i].cycled = true ∧ t.thr.grp[i].cause = 0 ∧ t.thr.grp[i].entries = z.entries + 1))))))

/-- R508, R509, R511, R517 to R522. -/
def Obligations.FaultsHaltAndAtticRecords : Prop :=
  ∀ (s : State) (dt : Nat), s.Sound →
    let u := s.wait dt
    let none' := fun (_ : Nat) => False
    let flt := fun (b : Nat) => 0x3_0C00 ≤ b ∧ b < 0x3_0D00
    let same := fun (t : State) => t.attic = u.attic ∧ u.Within t none'
    let added := fun (old new : List AtticRec) (P : AtticRec → Prop) => new.length = old.length + 1 ∧ new.take old.length = old ∧
      ∀ r, new.getLast? = some r → P r
    let counted := fun (x t : State) (c : Nat) => t.fget F.FLT_FCOUNT 0 c = min (x.fget F.FLT_FCOUNT 0 c + 1) (2 ^ 32 - 1) ∧
      bit (t.fget F.FLT_DEVFLT_F) c = true
    (s.Live dt → ∀ cause : ClockFault,
      let num := match cause with
        | .stopped => 0
        | .offFrequency => 1
        | .unlocked => 2
      let kept := fun (t : State) => (∀ r, r ∈ u.attic.urgent → r.cycle ≠ u.phys / 2) → (u.flag F.FLT_ATTIC_STATUS_READY = true ∨ u.attic.urgent.length < 4 →
        added u.attic.urgent t.attic.urgent (fun r => r.src = 0x0C ∧ r.cls = 3 ∧ r.detail = num ∧ r.ns = u.nowNs))
      (Completes (.clockFault dt cause) s (fun t => t.boot.refLost = true ∧ counted u t 3 ∧ kept t ∧
        t.flag F.FLT_DEVFLT_HALT = true ∧ t.flag F.HEARTH_STATUS_LOCKED = false ∧
        (u.flag F.FLT_DEVFLT_HALT = false → t.flag F.LED_CTRL_EN = false ∧ t.flag F.SKEW_CTRL_EN = false ∧
          t.attic.haltAt = some u.phys ∧ ∀ n : Fin 64, t.flag F.AX_LOOP_CTRL_EN n = false ∧ t.fget F.AX_FLD_STATUS_FSTATE n = 0) ∧
        (u.flag F.FLT_DEVFLT_HALT = true → t.attic.haltAt = u.attic.haltAt ∧
          u.Within t (fun b => flt b ∨ b = F.HEARTH_STATUS_LOCKED.addr 0 0))))) ∧
    (s.Live dt → ∀ refsel : Bool,
      let due := u.flag F.FLT_FAULT_CFG_F3RESET = true ∧ (u.attic.haltAt.any (fun t => decide (t + 1000000 ≤ u.phys))) = true
      (¬ due → Completes (.f3reset dt refsel) s same) ∧
      (due → u.boot.load = none → Completes (.f3reset dt refsel) s (fun t => t.flag F.FLT_DEVFLT_HALT = false ∧ t.attic.haltAt = none ∧
        t.fget F.PWR_BOOT_STATUS_RSTKIND = 2 ∧ bit (t.fget F.FLT_DEVFLT_F) 3 = bit (u.fget F.FLT_DEVFLT_F) 3))) ∧
    (s.Live dt → ∀ slots : List (List Byte),
      let n := slots.length
      let fails := fun (r : AtticRec) => ∀ x, x ∈ slots → x.map (·.toNat) ≠ r.bytes (u.wget F.FLT_NEXTSEQ) (u.fget F.FLT_BOOTS)
      let slot := fun (i : Nat) => 0x00C0_0000 + 64 * (i % 4096)
      let head := u.fget F.FLT_ATTIC_STATUS_HEAD
      let seq := u.wget F.FLT_NEXTSEQ
      let ready := u.flag F.FLT_ATTIC_STATUS_READY = true
      let at' := fun (i : Nat) (r : AtticRec) (t : State) =>
        t.mem32 (slot i) = 0xA71C1000 + r.cls % 4 * 1024 + r.src % 256 ∧ t.mem32 (slot i + 4) = seq % 2 ^ 32 ∧
        t.mem32 (slot i + 8) = seq / 2 ^ 32 ∧ t.mem32 (slot i + 0x0C) = r.ns / 10 ^ 9 % 2 ^ 32 ∧
        t.mem32 (slot i + 0x10) = r.repeats % 2 ^ 16 * 2 ^ 16 + r.ns / 10 ^ 9 / 2 ^ 32 % 2 ^ 16 ∧ t.mem32 (slot i + 0x14) = r.ns % 10 ^ 9 ∧
        t.mem32 (slot i + 0x18) = u.fget F.FLT_BOOTS ∧ t.mem32 (slot i + 0x1C) = r.inst % 256 * 2 ^ 24 + r.detail % 2 ^ 16 ∧
        (∀ k : Fin 6, t.mem32 (slot i + 0x20 + 4 * k) = (r.data[k.val]?).getD 0 % 2 ^ 32) ∧ t.mem32 (slot i + 0x38) = r.k % 2 ^ 32 ∧
        t.mem32 (slot i + 0x3C) = crc32 ((List.range 60).map (fun k => t.readN (slot i + k) 1))
      let written := fun (r : AtticRec) (t : State) => at' (head + n) r t ∧ t.wget F.FLT_NEXTSEQ = (seq + 1) % 2 ^ 64 ∧
        t.fget F.FLT_ATTIC_STATUS_HEAD = (head + n + 1) % 4096 ∧ (0 < n → t.flag F.FLT_ATTIC_STATUS_ERR = true) ∧
        t.wget F.FLT_FIRST = (if r.src = 0x0F then seq else u.wget F.FLT_FIRST) ∧
        u.Touches t flt (fun b => ∃ j, j ≤ n ∧ slot (head + j) ≤ b ∧ b < slot (head + j) + 64)
      let small := fun (r : AtticRec) => r.cls < 4 ∧ r.src < 256 ∧ r.inst < 256 ∧ r.detail < 65536 ∧ r.repeats < 65536
      (¬ ready ∨ u.attic.urgent = [] ∧ u.attic.queue = [] → Completes (.atticCommit dt slots) s same) ∧
      (ready → ∀ r, u.attic.urgent.head? = some r → small r → fails r → Completes (.atticCommit dt slots) s (fun t => written r t ∧
        t.attic.urgent = u.attic.urgent.drop 1 ∧ t.attic.queue = u.attic.queue)) ∧
      (ready → u.attic.urgent = [] → ∀ r, u.attic.queue.head? = some r → small r → fails r → Completes (.atticCommit dt slots) s (fun t => written r t ∧
        t.attic.queue = u.attic.queue.drop 1 ∧ (u.attic.queue.length ≤ 16 → t.fget F.FLT_ATTIC_STATUS_QLEVEL = u.attic.queue.length - 1)))) ∧
    (s.Live dt →
      let recs := (List.range 4096).filterMap (fun i => (u.atticValid i).map (fun r => (i, r.1, r.2.1, r.2.2)))
      let scanned := fun (h b q f : Nat) (t : State) => t.flag F.FLT_ATTIC_STATUS_READY = true ∧ t.fget F.FLT_ATTIC_STATUS_HEAD = h % 4096 ∧
        t.fget F.FLT_BOOTS = b % 2 ^ 32 ∧ t.wget F.FLT_NEXTSEQ = q % 2 ^ 64 ∧ t.wget F.FLT_FIRST = f % 2 ^ 64 ∧ u.Within t flt
      (u.flag F.FLT_ATTIC_STATUS_READY = true → Completes (.atticScanDone dt) s same) ∧
      (u.flag F.FLT_ATTIC_STATUS_READY = false → recs = [] → Completes (.atticScanDone dt) s (scanned 0 0 0 0)) ∧
      (u.flag F.FLT_ATTIC_STATUS_READY = false → ∀ r, r ∈ recs → recs.all (fun w => decide (w.2.1 < r.2.1 ∨ w = r)) = true →
        (∀ q, q ∈ recs → recs.all (fun w => decide (q.2.1 ≤ w.2.1) && w.2.2.2 != 0x0F) = true →
          Completes (.atticScanDone dt) s (scanned (r.1 + 1) (r.2.2.1 + 1) (r.2.1 + 1) q.2.1)) ∧
        (∀ q, q ∈ recs → q.2.2.2 = 0x0F → recs.all (fun w => w.2.2.2 != 0x0F || decide (w.2.1 ≤ q.2.1)) = true →
          Completes (.atticScanDone dt) s (scanned (r.1 + 1) (r.2.2.1 + 1) (r.2.1 + 1) q.2.1)))) ∧
    (let queued := fun (x : State) (src inst detail : Nat) (data : List Nat) (t : State) => counted x t 0 ∧ x.Within t flt ∧
        t.fget F.FLT_LASTFLT_SRC = src ∧
        ((∀ r, r ∈ x.attic.queue → r.cycle ≠ x.phys / 2) →
        ((x.attic.pairs.find? (fun p => p.1 == src && p.2.1 == inst)) = none → x.attic.queue.length < 16 →
          added x.attic.queue t.attic.queue (fun r => r.src = src ∧ r.inst = inst ∧ r.detail = detail ∧ r.data = data ∧ r.cls = 0 ∧
            r.ns = x.nowNs ∧ r.repeats = 0)) ∧
        (∀ p, (x.attic.pairs.find? (fun p => p.1 == src && p.2.1 == inst)) = some p →
          (x.phys < p.2.2.1 → t.attic.queue = x.attic.queue) ∧
          (p.2.2.1 ≤ x.phys → x.attic.queue.length < 16 →
            added x.attic.queue t.attic.queue (fun r => r.src = src ∧ r.repeats = p.2.2.2))) ∧
        ((x.attic.pairs.find? (fun p => p.1 == src && p.2.1 == inst)) = none → x.attic.queue.length = 16 →
          t.attic.queue = x.attic.queue ∧ t.fget F.FLT_LOST = min (x.fget F.FLT_LOST + 1) (2 ^ 32 - 1)))
     (∀ (m : Master) (v : Word),
      let a := F.FLT_ATTIC_UWRITE_INST.addr 0 0
      let x := s.found dt a
      s.Reaches dt m a v.toNat → Completes (.atticUser dt m v) s
        (queued x 0x0E (v.toNat / 2 ^ 24) (v.toNat % 2 ^ 16) ((List.range 6).map (fun i => x.fget F.FLT_UDATA 0 i)))) ∧
     (∀ (m : Master) (v : Word),
      let a := F.FLT_ATTIC_CLEAR_KEY.addr 0 0
      let x := s.found dt a
      s.Reaches dt m a (setB v 1) →
      (v.toNat / 2 ^ 16 ≠ 0xA5C3 → Completes (.atticClear dt m v) s (fun t => t.attic = x.attic ∧ x.Within t none')) ∧
      (v.toNat / 2 ^ 16 = 0xA5C3 → Completes (.atticClear dt m v) s (queued x 0x0F 0 0 []))))

/-- R524 to R526, R529, R530. -/
def Obligations.HallwayPortsMdioAddressesAndGateLists : Prop :=
  ∀ (s : State) (dt : Nat), s.Sound →
    let none' := fun (_ : Nat) => False
    let u := s.wait dt
    let same := fun (x t : State) => t.hw = x.hw ∧ x.Within t none'
    let gatesFit := fun (x t : State) (p : Fin 4) => ∀ l, t.hw.ops.toList[p.val]? = some l → 0 < l.cycle →
      let ph := (((x.nowNs : Int) - l.base) % l.cycle).toNat
      (l.entries.all (fun e => e.2 == 0) = true → t.hw.gates[p] = 0xFF) ∧
      (∀ i, i ∈ List.range 64 → ∀ e, l.entries[i]? = some e → e.2 ≠ 0 →
        let before := ((l.entries.take i).map (·.2)).sum
        before ≤ ph → (ph < before + e.2 ∨ (l.entries.drop (i + 1)).all (fun e => e.2 == 0) = true) → t.hw.gates[p] = e.1)
    (∀ (p : Fin 4),
      let stat := F.HW_PORT_STATUS_LINK.addr 0 p
      let cfg := F.HW_PORT_CFG_MODE.addr 0 p
      let link := fun (x t : State) (up : Bool) => t.flag F.HW_PORT_STATUS_LINK 0 p = up ∧
        t.flag F.HW_PORT_STATUS_LINKCHG 0 p = (x.flag F.HW_PORT_STATUS_LINKCHG 0 p || x.flag F.HW_PORT_STATUS_LINK 0 p != up)
      (∀ (m : Master) (v : Word), s.Reaches dt m cfg v.toNat →
        let x := s.found dt cfg
        let mode := v.toNat % 8
        let allowed := mode = 0 ∨ mode = 2 ∨ mode = 3 ∨ (mode = 1 ∧ p < 2) ∨ (mode = 4 ∧ 2 ≤ p)
        (¬ allowed → exec (.portCfgWrite dt m p v) s = .refused .unpredictable) ∧
        (allowed → Completes (.portCfgWrite dt m p v) s (fun t => t.reg cfg = v ∧ link x t false ∧ t.hw = x.hw ∧
          x.Within t (fun b => b = cfg ∨ b = stat)))) ∧
      (s.Live dt → ∀ (up : Bool) (sg : Fin 3) (half : Bool),
        let mode := u.fget F.HW_PORT_CFG_MODE 0 p
        (mode = 0 ∨ up = false ∨ half = true → Completes (.linkChange dt p up sg half) s (fun t => link u t false ∧ t.hw = u.hw ∧
          u.Within t (fun b => b = stat))) ∧
        (mode ≠ 0 → up = true → half = false → Completes (.linkChange dt p up sg half) s (fun t => link u t true ∧ t.hw = u.hw ∧
          t.flag F.HW_PORT_STATUS_FDX 0 p = true ∧ (mode = 1 → t.fget F.HW_PORT_STATUS_SPEED 0 p = 4) ∧
          (mode = 2 → t.fget F.HW_PORT_STATUS_SPEED 0 p = 3) ∧ (mode = 3 → t.fget F.HW_PORT_STATUS_SPEED 0 p = 2) ∧
          (mode = 4 → t.fget F.HW_PORT_STATUS_SPEED 0 p = sg) ∧ u.Within t (fun b => b = stat))))) ∧
    (let cmd := F.HW_MDIO_CMD_GO.addr 0 0
     let dat := F.HW_MDIO_DATA_DATA.addr 0 0
     let x := s.found dt cmd
     let starts := fun (c : Instr) (v : Word) (op : Nat) (c45 : Bool) =>
      (x.flag F.HW_MDIO_CMD_BUSY = true → Completes c s (same x)) ∧
      (x.flag F.HW_MDIO_CMD_BUSY = false → Completes c s (fun t => t.flag F.HW_MDIO_CMD_BUSY = true ∧ t.flag F.HW_MDIO_DATA_DONE = false ∧
        t.fget F.HW_MDIO_CMD_OP = op ∧ t.flag F.HW_MDIO_CMD_C45 = c45 ∧ t.fget F.HW_MDIO_CMD_PHYAD = v.toNat / 2 ^ 22 % 32 ∧
        t.fget F.HW_MDIO_CMD_REGAD = v.toNat / 2 ^ 17 % 32 ∧ t.fget F.HW_MDIO_CMD_WDATA = v.toNat % 2 ^ 16 ∧
        t.fget F.HW_MDIO_DATA_DATA = x.fget F.HW_MDIO_DATA_DATA ∧ t.hw.mdio.isSome = true ∧ t.hw = { x.hw with mdio := t.hw.mdio } ∧
        x.Within t (fun b => b = cmd ∨ b = dat)))
     (∀ (m : Master) (v : Word),
      (s.Reaches dt m cmd (setB (v &&& 0x67FF_FFFF#32) 0xA000_0000) → starts (.mdioAddress dt m v) v 0 true) ∧
      (s.Reaches dt m cmd (setB (v &&& 0x67FF_FFFF#32) 0x8800_0000) → starts (.mdioWrite dt m v) v 1 (v.getLsbD 29)) ∧
      (s.Reaches dt m cmd (setB (v &&& 0x67FF_FFFF#32) 0x9000_0000) → starts (.mdioRead dt m v) v 2 (v.getLsbD 29))) ∧
     (s.Live dt → ∀ data : BitVec 16,
      (u.hw.mdio = none → Completes (.mdioFrameEnd dt data) s (same u)) ∧
      (∀ w, u.hw.mdio = some w → Completes (.mdioFrameEnd dt data) s (fun t => t.flag F.HW_MDIO_CMD_BUSY = false ∧
        t.hw = { u.hw with mdio := none } ∧ u.Within t (fun b => b = cmd ∨ b = dat) ∧
        (w / 2 ^ 27 % 4 = 2 → t.fget F.HW_MDIO_DATA_DATA = data.toNat ∧ t.flag F.HW_MDIO_DATA_DONE = true) ∧
        (w / 2 ^ 27 % 4 ≠ 2 → t.reg dat = u.reg dat))))) ∧
    (s.Live dt → ∀ mac : BitVec 48, Completes (.macAgeing dt mac) s (fun t =>
      t.hw.table = u.hw.table.filter (fun x => x.1 != mac.toNat || decide (u.phys < x.2.2 + u.fget F.HW_CTRL_AGE * 10 ^ 9)) ∧
      t.hw = { u.hw with table := t.hw.table } ∧ u.Within t none')) ∧
    (∀ p : Fin 4,
      let ctl := F.HW_QBV_CTRL_EN.addr 0 p
      let list := fun (x : State) => (x.fget F.HW_QBV_CYCLE 0 p, x.wget F.HW_QBV_BASE 0 p, x.fget F.HW_QBV_LEN 0 p)
      (∀ (m : Master) (v : Word), s.Reaches dt m ctl (setB v 2) →
        let x := s.found dt ctl
        Completes (.qbvCommit dt m p v) s (fun t => t.flag F.HW_QBV_CTRL_EN 0 p = v.getLsbD 0 ∧ t.flag F.HW_QBV_CTRL_PEND 0 p = true ∧
          (∀ i, i ≠ p → t.hw.start[i] = x.hw.start[i] ∧ t.hw.gates[i] = x.hw.gates[i]) ∧ gatesFit x t p ∧
          t.hw = { x.hw with start := t.hw.start, gates := t.hw.gates } ∧ x.Within t (fun b => b = ctl) ∧
          (x.flag F.HW_QBV_CTRL_PEND 0 p = true → t.hw.start = x.hw.start) ∧
          (x.flag F.HW_QBV_CTRL_PEND 0 p = false → 0 < (list x).1 →
            let cyc := (list x).1
            let base := (list x).2.1
            let at' := t.hw.start[p]
            base ≤ at' ∧ x.lclk ≤ at' * unitNs ∧ (at' - base) % cyc = 0 ∧ (at' = base ∨ (at' - cyc) * unitNs < x.lclk)))) ∧
      (s.Live dt →
        let due := u.flag F.HW_QBV_CTRL_PEND 0 p = true ∧ u.hw.start[p] ≤ u.nowNs
        (¬ due → Completes (.qbvListStart dt p) s (same u)) ∧
        (due → Completes (.qbvListStart dt p) s (fun t => t.flag F.HW_QBV_CTRL_PEND 0 p = false ∧
          t.flag F.HW_QBV_CTRL_EN 0 p = u.flag F.HW_QBV_CTRL_EN 0 p ∧
          (t.hw.ops[p].cycle, t.hw.ops[p].base, t.hw.ops[p].entries.length) = list u ∧
          (∀ i, i < (list u).2.2 → t.hw.ops[p].entries[i]? =
            some (u.fget F.HW_GATE_GATES 0 (64 * p.val + i), u.fget F.HW_GATE_INTERVAL 0 (64 * p.val + i))) ∧
          (∀ i, i ≠ p → t.hw.ops[i] = u.hw.ops[i] ∧ t.hw.gates[i] = u.hw.gates[i]) ∧ gatesFit u t p ∧
          t.hw = { u.hw with ops := t.hw.ops, gates := t.hw.gates } ∧ u.Within t (fun b => b = ctl))) ∧
        Completes (.qbvEntry dt p) s (fun t => (∀ i, i ≠ p → t.hw.gates[i] = u.hw.gates[i]) ∧ gatesFit u t p ∧
          t.hw = { u.hw with gates := t.hw.gates } ∧ u.Within t none')))

/-- R158, R159, R526 to R528, R533; frames to port J are another statement's. -/
def Obligations.HallwayFramesAreCheckedLearnedAndForwarded : Prop :=
  ∀ (s : State) (dt : Nat), s.Sound → s.Live dt → ∀ (p : Fin 4) (dst src : BitVec 48) (tag : Option (BitVec 3 × BitVec 12))
      (type : BitVec 16) (data : List Byte) (flip : BitVec 32) (ago : Nat),
    let u := s.wait dt
    let pl := data.map BitVec.toNat
    let put := fun (t : Option (BitVec 3 × BitVec 12)) => bytesBE 6 dst.toNat ++ bytesBE 6 src.toNat ++
      (match t with
        | some (pcp, vid) => [0x81, 0x00] ++ bytesBE 2 (pcp.toNat * 2 ^ 13 + vid.toNat)
        | none => []) ++ bytesBE 2 type.toNat ++ pl
    let b := put tag
    let frame := (b ++ bytesLE 4 (BitVec.ofNat 32 (crc32 b) ^^^ flip).toNat).map (BitVec.ofNat 8)
    let cmd : Instr := .hwFrameReceive dt p frame ago
    let on := u.flag F.HW_CTRL_EN = true ∧ u.flag F.HW_PORT_STATUS_LINK 0 p = true
    let error := fun (t : State) => t.hw = u.hw ∧ t.jo = u.jo ∧
      t.fget F.HW_RXERR 0 p = min (u.fget F.HW_RXERR 0 p + 1) (2 ^ 32 - 1) ∧ u.Within t (fun a => a = F.HW_RXERR.addr 0 p)
    let ipAt := fun (k : Nat) => (pl[k]?).getD 0
    let port319 := fun (k : Nat) => ipAt k * 256 + ipAt (k + 1) = 319
    let ptp : Option Nat := if type = 0x88F7 then some 0
      else if type = 0x0800 ∧ ipAt 9 = 17 ∧ port319 22 then some 28
      else if type = 0x86DD ∧ ipAt 6 = 17 ∧ port319 42 then some 48 else none
    let mac := BitVec.ofNat 48 (u.wget F.HW_MAC)
    let forJ := type = 0x88B5 ∧ (dst = mac ∨ dst = BitVec.ofNat 48 (u.wget F.HW_J_DMAC))
    let bare := match tag with
      | some (_, vid) => vid == 0
      | none => true
    let vid := match bare, tag with
      | false, some (_, vid) => vid
      | _, _ => BitVec.ofNat 12 (u.fget F.HW_PORT_CFG_PVID 0 p)
    let pcp := match bare, tag with
      | false, some (pcp, _) => pcp
      | _, _ => BitVec.ofNat 3 (u.fget F.HW_PORT_CFG_DEFPCP 0 p)
    let entries := (List.range 64).filter (fun v => u.flag F.HW_VLAN_EN 0 v && u.fget F.HW_VLAN_VID 0 v == vid.toNat)
    (tag = none → type ≠ 0x8100) →
    (type = 0x0800 → ipAt 0 % 16 = 5) →
    (¬ on → Completes cmd s (fun t => t.hw = u.hw ∧ t.jo = u.jo ∧ u.Within t (fun _ => False))) ∧
    (on → flip ≠ 0 ∨ u.fget F.HW_MAXLEN < frame.length → Completes cmd s error) ∧
    (on → flip = 0 → frame.length ≤ u.fget F.HW_MAXLEN → entries = [] → Completes cmd s error) ∧
    (on → flip = 0 → frame.length ≤ u.fget F.HW_MAXLEN → ∀ v, entries = [v] →
      let member := fun (q : Nat) => u.fget F.HW_VLAN_MEMBER 0 v / 2 ^ q % 2 = 1
      (¬ member p → Completes cmd s error) ∧
      (member p → ¬ forJ →
        let group := fun (a : BitVec 48) => a.getLsbD 40
        let toMgmt := dst = mac ∨ dst = BitVec.allOnes 48 ∧ type = 0x0806 ∨ ptp.isSome = true
        let ty := (ptp.map (fun k => ipAt k % 16)).getD 15
        let transparent := u.fget F.HEARTH_PTP_CFG_ROLE = 3 ∧ (u.fget F.HEARTH_PTP_CFG_PROFILE = 0 ∨ ty ≠ 2 ∧ ty ≠ 3 ∧ ty ≠ 10)
        let onward := if ptp.isSome = true then transparent else ¬ toMgmt
        let stamp := (((u.lclk : Int) - u.stepsSince ago) / (unitNs : Int) - ago - (BitVec.ofNat 16 (u.fget F.HEARTH_PORT_LAT_RXLAT 0 p)).toInt).toNat
        let tc := u.fget F.HW_TCMAP / 8 ^ pcp.toNat % 8
        Completes cmd s (fun t =>
          let alive := fun (x : Nat × Nat × Nat) => decide (u.phys < x.2.2 + u.fget F.HW_CTRL_AGE * 10 ^ 9)
          let others := u.hw.table.filter (fun x => x.1 != src.toNat && alive x)
          let learns := u.flag F.HW_CTRL_LEARN = true ∧ group src = false ∧ others.length < 2048
          let where' := t.hw.table.find? (fun x => x.1 == dst.toNat && alive x)
          let floods := group dst = true ∨ where' = none
          let reaches := fun (q : Fin 4) => onward ∧ q ≠ p ∧ member q ∧ (group dst = false → ∀ x, where' = some x → x.2.1 = q)
          let n := max (frame.length + 4) 64
          let outAt := fun (q : Fin 4) => (⟨put (if u.fget F.HW_VLAN_UNTAG 0 v / 2 ^ q.val % 2 = 1 then none else some (pcp, vid)), tc,
            if ty < 4 then .forwarded stamp p else .none⟩ : EFrame)
          let shared := u.bufferHeld + 5 * n ≤ 2 ^ 20
          t.jo = u.jo ∧ t.fget F.HW_RXFRAMES 0 p = min (u.fget F.HW_RXFRAMES 0 p + 1) (2 ^ 32 - 1) ∧
          (learns → t.hw.table = others ++ [(src.toNat, p.val, u.phys)]) ∧ (¬ learns → t.hw.table = u.hw.table) ∧
          (¬ (toMgmt ∨ floods ∧ member 4) → t.hw.rx = u.hw.rx) ∧
          (toMgmt ∨ floods ∧ member 4 → u.hw.rx.length = 256 → t.hw.rx = u.hw.rx) ∧
          (toMgmt ∨ floods ∧ member 4 → shared → (u.hw.rx.foldl (fun k f => k + frLen f.bytes) 0) + n ≤ 0x3_C000 → u.hw.rx.length < 256 →
            t.hw.rx = u.hw.rx ++ [⟨b, tc, p, if ty < 4 then 1 else 0, stamp⟩]) ∧
          (∀ q : Fin 4, (¬ reaches q → t.hw.q[q] = u.hw.q[q] ∧ t.fget F.HW_DROPS 0 q = u.fget F.HW_DROPS 0 q) ∧
            (reaches q → shared → bytesHeld u.hw.q[q] + n ≤ 0x3_C000 → t.hw.q[q] = u.hw.q[q] ++ [outAt q] ∧
              t.fget F.HW_DROPS 0 q = u.fget F.HW_DROPS 0 q) ∧
            (reaches q → 0x4_0000 - 64 < bytesHeld u.hw.q[q] → t.hw.q[q] = u.hw.q[q] ∧
              t.fget F.HW_DROPS 0 q = min (u.fget F.HW_DROPS 0 q + 1) (2 ^ 32 - 1))) ∧
          t.hw = { u.hw with table := t.hw.table, q := t.hw.q, rx := t.hw.rx } ∧
          u.Within t (fun a => a = F.HW_RXFRAMES.addr 0 p ∨ ∃ q : Fin 4, a = F.HW_DROPS.addr 0 q))))

/-- R158, R160 to R162, R529, R531, R533. -/
def Obligations.HallwayPortsSendByClassAndGates : Prop :=
  ∀ (s : State) (dt : Nat), s.Sound → s.Live dt → ∀ (p : Fin 4),
    let u := s.wait dt
    let sends := fun (c : Instr) (x : State) =>
      let l := x.hw.ops[p]
      let queue := x.hw.q[p]
      let slow := match x.fget F.HW_PORT_STATUS_SPEED 0 p with
        | 0 => 8000
        | 1 => 800
        | 2 => 80
        | 3 => 32
        | _ => 8
      let need := fun (f : EFrame) => ((max f.bytes.length 60 + 24) * slow + 9) / 10
      let gated := x.flag F.HW_QBV_CTRL_EN 0 p = true ∧ l.cycle ≠ 0 ∧ l.entries.any (fun e => e.2 != 0) = true
      let fits := fun (f : EFrame) => ¬ gated ∨ bit x.hw.gates[p] f.tc = true ∧
        (List.range (need f)).all (fun j => bit (qbvGates l (x.nowNs + j)) f.tc) = true
      let never := fun (f : EFrame) => gated ∧
        (List.range l.cycle).all (fun a => (List.range (need f)).any (fun j => !bit (qbvGates l (l.base + a + j)) f.tc)) = true
      let heads := [7, 6, 5, 4, 3, 2, 1, 0].filterMap (fun tc => queue.find? (fun f => f.tc == tc))
      let idle := x.flag F.HW_CTRL_EN = false ∨ x.flag F.HW_PORT_STATUS_LINK 0 p = false ∨ x.phys < x.hw.busy[p]
      let same := fun (t : State) => t.hw = x.hw ∧ x.Within t (fun _ => False)
      (gated → x.rate = 2 ^ 40 ∧ x.lclk % unitNs = 0) →
      (idle → Completes c s same) ∧
      (¬ idle → (∀ f, f ∈ heads → ¬ fits f ∧ ¬ never f) → Completes c s same) ∧
      (¬ idle → ∀ f, queue = [f] → f.tc < 8 → never f → Completes c s (fun t => t.hw = { x.hw with q := x.hw.q.set p [] } ∧
        t.fget F.HW_TOOLONG 0 p = min (x.fget F.HW_TOOLONG 0 p + 1) (2 ^ 32 - 1) ∧ x.Within t (fun b => b = F.HW_TOOLONG.addr 0 p))) ∧
      (¬ idle → (heads.all (fun g => !decide (never g))) = true → ∀ f, heads.find? (fun g => decide (fits g)) = some f →
        let b := f.bytes
        let byte := fun (l : List Nat) (i : Nat) => (l[i]?).getD 0
        let num := fun (l : List Nat) (o k : Nat) => ofBytesBE ((l.drop o).take k)
        let sum16 := fun (l : List Nat) => ((List.range (l.length / 2)).map (fun i => 256 * byte l (2 * i) + byte l (2 * i + 1))).sum
        let e := ((x.nowNs + 8 * slow / 10 : Nat) : Int) + (BitVec.ofNat 16 (x.fget F.HEARTH_PORT_LAT_TXLAT 0 p)).toInt
        let sent := fun (out : List Nat) (rx : List HRx) => Completes c s (fun t =>
          let wire := out ++ List.replicate (60 - out.length) 0
          t.hw.sent[p] = (x.phys, wire ++ bytesLE 4 (crc32 wire)) ∧ t.hw.busy[p] = x.phys + need f ∧
          t.hw.q[p] = queue.eraseP (fun g => g.tc == f.tc) ∧ t.hw.rx = rx ∧
          t.fget F.HW_TXFRAMES 0 p = min (x.fget F.HW_TXFRAMES 0 p + 1) (2 ^ 32 - 1) ∧
          t.hw = { x.hw with q := x.hw.q.set p t.hw.q[p], busy := x.hw.busy.set p t.hw.busy[p], sent := x.hw.sent.set p t.hw.sent[p], rx := rx } ∧
          x.Within t (fun a => a = F.HW_TXFRAMES.addr 0 p))
        let roomFor := fun (l : List Nat) => x.hw.rx.length < 256 ∧ (x.hw.rx.foldl (fun n g => n + frLen g.bytes) 0) + frLen l ≤ 0x3_C000 ∧
            x.bufferHeld + frLen l ≤ 2 ^ 20
        let eth := num b 12 2 = 0x88F7
        let v4 := num b 12 2 = 0x0800 ∧ byte b 14 = 0x45 ∧ byte b 23 = 17 ∧ num b 36 2 = 319
        let v6 := num b 12 2 = 0x86DD ∧ byte b 20 = 17 ∧ num b 56 2 = 319
        (¬ (eth ∨ v4 ∨ v6) → num b 12 2 ∉ [0x8100, 0x0800, 0x86DD] → sent b x.hw.rx) ∧
        (eth ∨ v4 ∨ v6 → 0 ≤ e → b.all (fun k => decide (k < 256)) = true →
          let o := if eth then 14 else if v4 then 42 else 62
          let ty := byte b o % 16
          let room := roomFor b
          let oneStep := fun (l : List Nat) => byte l (o + 6) = (if byte b (o + 6) / 2 % 2 = 1 then byte b (o + 6) - 2 else byte b (o + 6))
          let kept := fun (l : List Nat) (may : List Nat) => l.length = b.length ∧
            (List.range b.length).all (fun i => may.contains i || byte l i == byte b i) = true
          let udpEnd := 54 + num b 58 2
          let sums := fun (out : List Nat) => (v4 → num out 40 2 = 0) ∧
            (v6 → b.length % 2 = 0 → num b 58 2 % 2 = 0 → sum16 (out.drop 54) % 65535 = sum16 (b.drop 54) % 65535)
          let sumAt := fun (own : Bool) => if eth then [] else if v4 then [40, 41] else if own = true then [udpEnd - 2, udpEnd - 1] else [60, 61]
          let corr := fun (l : List Nat) => BitVec.ofNat 64 (num l (o + 8) 8)
          let carries := fun (R : List Nat → List HRx → Prop) => Completes c s (fun t =>
            let out := t.hw.sent[p].2.take b.length
            R out t.hw.rx ∧ t.hw.sent[p].1 = x.phys ∧ t.hw.busy[p] = x.phys + need f ∧
            t.hw.sent[p].2.drop (max b.length 60) = bytesLE 4 (crc32 (t.hw.sent[p].2.take (max b.length 60))) ∧
            t.hw.q[p] = queue.eraseP (fun g => g.tc == f.tc) ∧
            t.hw = { x.hw with q := x.hw.q.set p t.hw.q[p], busy := x.hw.busy.set p t.hw.busy[p], sent := x.hw.sent.set p t.hw.sent[p], rx := t.hw.rx } ∧
            x.Within t (fun a => a = F.HW_TXFRAMES.addr 0 p))
          (f.rewrite = .none → ty < 4 → room → sent b (x.hw.rx ++ [⟨b, f.tc, 4, 3, e.toNat⟩])) ∧
          ((match f.rewrite with | .forwarded _ _ => false | _ => true) = true → 4 ≤ ty → sent b x.hw.rx) ∧
          (∀ t2, f.rewrite = .own t2 → ty < 4 → o + 44 ≤ b.length → (v6 → 54 ≤ num b 58 2 ∧ udpEnd ≤ b.length) → room → carries (fun out rx =>
            sums out ∧ rx = x.hw.rx ++ [⟨out, f.tc, 4, 3, e.toNat⟩] ∧
            (ty = 3 → corr out = corr b + BitVec.ofInt 64 ((e - t2) * 65536) ∧ num out (o + 34) 10 = 0 ∧ oneStep out ∧
              kept out (List.range' (o + 8) 8 ++ List.range' (o + 34) 10 ++ (o + 6) :: sumAt true)) ∧
            (ty ≠ 3 → num out (o + 34) 10 = e.toNat / 10 ^ 9 % 2 ^ 48 * 2 ^ 32 + e.toNat % 10 ^ 9 ∧ (ty = 0 → oneStep out) ∧
              kept out (List.range' (o + 34) 10 ++ (if ty = 0 then [o + 6] else []) ++ sumAt true)))) ∧
          (∀ st q, f.rewrite = .forwarded st q → o + 44 ≤ b.length → room → carries (fun out rx =>
            let link := if ty = 0 then x.linkDly (Fin.ofNat 4 q) else 0
            sums out ∧ corr out = corr b + BitVec.ofInt 64 ((e - st + link) * 65536) ∧
            kept out (List.range' (o + 8) 8 ++ sumAt false) ∧
            rx = x.hw.rx ++ (if x.flag F.HEARTH_CTRL_COPYFWD = true then [⟨out, f.tc, 4, 7, e.toNat⟩] else [])))))
    let now := fun (x : State) => (x.qbvStart p).qbvApply p
    sends (.hwFrameTransmit dt p none) (now u) ∧
    (∀ m : MgmtTx,
      let n := frLen (u.announceOwn (m.bytes.map BitVec.toNat))
      let f : EFrame := ⟨u.announceOwn (m.bytes.map BitVec.toNat), u.fget F.HW_TCMAP / 8 ^ m.pcp.toNat % 8, if m.oneStep = true then .own m.t2 else .none⟩
      u.bufferHeld + 4 * n ≤ 2 ^ 20 → (u.hw.q.toList.all (fun q => decide (bytesHeld q + n ≤ 0x3_C000))) = true →
      let queues := Vector.ofFn (fun i : Fin 4 => if m.ports.getLsbD i.val = true then u.hw.q[i] ++ [f] else u.hw.q[i])
      sends (.hwFrameTransmit dt p (some m)) (now { u with hw := { u.hw with q := queues } }))

/-- R534, R535, R537, R539 to R542. -/
def Obligations.JoistFramesDepartAreAcceptedAndTimeOut : Prop :=
  ∀ (s : State) (dt : Nat), s.Sound → s.Live dt →
    let u := s.wait dt
    let count := fun (f : Fld) (t : State) => t.fget f = min (u.fget f + 1) (2 ^ 32 - 1)
    let out := u.wget F.HW_J_OUTMASK
    let remote := fun (n : Fin 64) (r : Nat) => u.fget F.AX_CFG_KIND n = 2 ∧ u.fget F.AX_CFG_ATT n = r
    let follows := fun (n : Fin 64) (r : Nat) => u.fget F.AX_LOOP_CFG_REFJ n = r ∧
      (u.fget F.AX_LOOP_CFG_REFSRC n = 2 ∨ u.fget F.AX_LOOP_CFG_EXTSRC n = 1)
    let rec' := fun (x : State) (f : Fld) (r w : Nat) => x.fget f 0 (4 * r + w)
    let reg := fun (f : Fld) (b : Nat) => b = f.addr 0 0
    let inJ := fun (b : Nat) => 0x20_2000 ≤ b ∧ b < 0x20_2C00
    let cause := fun (t : State) (drive ref : Fin 64 → Bool) => ∀ n : Fin 64, t.fget F.AX_FAULT_CAUSE n =
      (u.fget F.AX_FAULT_CAUSE n ||| (if drive n = true then 16 else 0)) ||| (if ref n = true then 8 else 0)
    ((u.jo.due = [] ∨ (∀ q, u.jo.due.head? = some q → u.run < q.2.1) → Completes (.joistDepart dt) s (fun t => t.jo = u.jo ∧ t.hw = u.hw ∧
        u.Within t (fun _ => False))) ∧
     (∀ q, u.jo.due.head? = some q → q.2.1 ≤ u.run → u.jo.late = true → Completes (.joistDepart dt) s (fun t =>
        t.flag F.HW_J_STATUS_LATE = true ∧ count F.HW_J_TXFRAMES t ∧ t.jo.late = false ∧ t.jo.txLate = [] ∧
        u.Within t (fun a => inJ a ∨ ∃ p : Fin 4, a = F.HW_DROPS.addr 0 p))) ∧
     (∀ q, u.jo.due.head? = some q → q.2.1 ≤ u.run → u.jo.late = false → Completes (.joistDepart dt) s (fun t =>
      let recs := (List.range 64).filter (fun r => out.testBit r)
      let ctrl := fun (r : Nat) => b2n ((List.finRange 64).any (fun n => decide (remote n r) && u.flag F.AX_LOOP_CTRL_EN n) && !u.flag F.FLT_DEVFLT_HALT &&
        !u.sleepGate) + 2 * b2n (u.jo.fltrst.testBit r) +
        4 * b2n ((List.finRange 64).any (fun n => decide (remote n r) && u.fget F.AX_LOOP_CFG_RMODE n == 1))
      let tag := if u.flag F.HW_J_CFG_TAGGED = true then [0x81, 0] ++ bytesBE 2 (u.fget F.HW_J_CFG_PCP * 2 ^ 13 + u.fget F.HW_J_CFG_VID) else []
      let flags := u.fget F.HW_J_CFG_TWIN + 2 * u.fget F.HEARTH_STATUS_HOLDOVER + 4 * u.fget F.HEARTH_STATUS_LOCKED + 8 * b2n u.jo.stepped
      let words := fun (r : Nat) => (List.range 4).flatMap (fun w => bytesLE 4 (rec' t F.HW_J_TXREC r w))
      let b := bytesBE 6 (u.wget F.HW_J_DMAC) ++ bytesBE 6 (u.wget F.HW_MAC) ++ tag ++ [0x88, 0xB5, 1, flags] ++
        bytesLE 2 (u.fget F.HW_J_SRCID) ++ bytesLE 2 u.jo.seq ++ [recs.length, 0] ++ bytesLE 4 q.1 ++ bytesLE 4 q.2.2 ++ recs.flatMap words
      let n := max (b.length + 4) 64
      let goes := fun (p : Fin 4) => if u.flag F.HW_J_CFG_TWIN = true then p < 2 else u.fget F.HW_J_CFG_EPORT / 2 ^ p.val % 2 = 1
      (∀ r : Fin 64, (∀ w : Fin 4, w ≠ 0 ∨ r.val ∉ recs → rec' t F.HW_J_TXREC r w = rec' u F.HW_J_TXREC r w) ∧
        (r.val ∈ recs → rec' t F.HW_J_TXREC r 0 / 2 ^ 8 % 2 ^ 8 = ctrl r ∧ rec' t F.HW_J_TXREC r 0 % 2 ^ 8 = rec' u F.HW_J_TXREC r 0 % 2 ^ 8 ∧
          rec' t F.HW_J_TXREC r 0 / 2 ^ 16 = rec' u F.HW_J_TXREC r 0 / 2 ^ 16)) ∧
      (∀ p : Fin 4, (¬ goes p → t.hw.q[p] = u.hw.q[p]) ∧
        (goes p → u.bufferHeld + 4 * n ≤ 2 ^ 20 → bytesHeld u.hw.q[p] + n ≤ 0x3_C000 →
          t.hw.q[p] = u.hw.q[p] ++ [⟨b, u.fget F.HW_TCMAP / 8 ^ u.fget F.HW_J_CFG_PCP % 8, .none⟩])) ∧
      t.hw = { u.hw with q := t.hw.q } ∧ count F.HW_J_TXFRAMES t ∧
      t.jo = { u.jo with due := u.jo.due.drop 1, seq := (u.jo.seq + 1) % 2 ^ 16, stepped := false, fltrst := t.jo.fltrst } ∧
      (∀ r : Fin 64, t.jo.fltrst.testBit r.val = (u.jo.fltrst.testBit r.val && !out.testBit r.val)) ∧
      u.Within t (fun a => inJ a ∨ ∃ p : Fin 4, a = F.HW_DROPS.addr 0 p)))) ∧
    (∀ r : Fin 64,
      let n := ((u.jo.counts.find? (fun x => x.1 == r.val)).map (·.2)).getD 0
      let late := u.fget F.HW_J_CFG_TMO ≠ 0 ∧ u.fget F.HW_J_CFG_TMO ≤ n ∧ (u.wget F.HW_J_TMOREC).testBit r.val = false
      (¬ late → Completes (.joistTimeout dt r) s (fun t => t.jo = u.jo ∧ u.Within t (fun _ => False))) ∧
      (late → Completes (.joistTimeout dt r) s (fun t =>
        let now := t.wget F.HW_J_TMOREC
        (∀ i : Fin 64, now.testBit i.val = ((u.wget F.HW_J_TMOREC).testBit i.val || i == r)) ∧ t.flag F.HW_J_STATUS_TIMEOUT = true ∧
        t.jo = { u.jo with sources := u.jo.sources.filter (fun x => x.2.2 == 0 || x.2.2 &&& now != x.2.2) } ∧
        cause t (fun n => decide (remote n r)) (fun n => decide (follows n r)) ∧
        (((List.finRange 64).any (fun n => decide (remote n r) || decide (follows n r))) = false → u.Within t inJ)))) ∧
    (∀ (p : Fin 4) (head : BitVec 8 × BitVec 8 × BitVec 16 × BitVec 16) (nrec : BitVec 8) (data : List (Fin 64 × BitVec 8 × List (BitVec 32)))
        (pad : Fin 30) (v : Fin 64),
      let (ver, flags, src, seq) := head
      let rec1 := fun (x : Fin 64 × BitVec 8 × List (BitVec 32)) => [x.1.val, x.2.1.toNat, 0, 0] ++
        (List.range 3).flatMap (fun i => bytesLE 4 ((x.2.2[i]?).getD 0).toNat)
      let body := [ver.toNat, flags.toNat] ++ bytesLE 2 src.toNat ++ bytesLE 2 seq.toNat ++ [nrec.toNat, 0] ++ List.replicate 8 0 ++
        data.flatMap rec1 ++ List.replicate pad 0
      let b := bytesBE 6 (u.wget F.HW_J_DMAC) ++ bytesBE 6 2 ++ [0x88, 0xB5] ++ body
      let cmd : Instr := .hwFrameReceive dt p ((b ++ bytesLE 4 (crc32 b)).map (BitVec.ofNat 8)) 0
      let hall := fun (a : Nat) => a = F.HW_RXFRAMES.addr 0 p ∨ ∃ q : Fin 4, a = F.HW_DROPS.addr 0 q
      let only := fun (P : State → Prop) (may : Nat → Prop) => Completes cmd s (fun t => P t ∧ u.Within t (fun a => hall a ∨ may a))
      let same := fun (t : State) => t.jo = u.jo
      let none' := fun (_ : Nat) => False
      u.flag F.HW_CTRL_EN = true → u.flag F.HW_PORT_STATUS_LINK 0 p = true → b.length + 4 ≤ u.fget F.HW_MAXLEN →
      (List.range 64).filter (fun v => u.flag F.HW_VLAN_EN 0 v && u.fget F.HW_VLAN_VID 0 v == u.fget F.HW_PORT_CFG_PVID 0 p) = [v.val] →
      u.fget F.HW_VLAN_MEMBER 0 v / 2 ^ p.val % 2 = 1 → u.wget F.HW_J_DMAC < 2 ^ 48 →
      let long := 16 + 16 * nrec.toNat
      let good := ver = 1 ∧ nrec.toNat ≤ 64 ∧ (body.length = long ∨ long < body.length ∧ body.length ≤ 46)
      let last := u.jo.sources.find? (fun x => x.1 == src.toNat)
      let old := (last.map (fun x => x.2.2)).getD 0
      let recs := data.take nrec.toNat
      let have' := fun (i : Nat) => recs.any (fun x => x.1.val == i)
      let taken := only (fun t => count F.HW_J_RXFRAMES t ∧
          (∀ i : Fin 64, ∀ w : Fin 4, rec' t F.HW_J_RXREC i w = match recs.reverse.find? (fun x => x.1 == i) with
            | some x => ofBytesLE (((rec1 x).drop (4 * w)).take 4)
            | none => rec' u F.HW_J_RXREC i w) ∧
          (∀ i : Fin 64, (t.wget F.HW_J_TMOREC).testBit i.val = ((u.wget F.HW_J_TMOREC).testBit i.val && !have' i)) ∧
          (recs ≠ [] → t.flag F.HW_J_STATUS_TIMEOUT = decide (t.wget F.HW_J_TMOREC ≠ 0)) ∧
          cause t (fun n => recs.any (fun x => x.2.1.getLsbD 1 && decide (remote n x.1.val))) (fun _ => false) ∧
          t.jo.sources.length = (u.jo.sources.filter (fun x => x.1 != src.toNat)).length + 1 ∧
          t.jo.sources.take (t.jo.sources.length - 1) = u.jo.sources.filter (fun x => x.1 != src.toNat) ∧
          (∀ q, t.jo.sources.getLast? = some q → q.1 = src.toNat ∧ q.2.1 = seq.toNat ∧
            ∀ i : Fin 64, q.2.2.testBit i.val = (old.testBit i.val || have' i)) ∧
          (∀ i : Fin 64, t.jo.seen.testBit i.val = (u.jo.seen.testBit i.val || have' i) ∧
            t.jo.got.testBit i.val = (u.jo.got.testBit i.val || have' i)) ∧
          t.jo = { u.jo with sources := t.jo.sources, seen := t.jo.seen, got := t.jo.got, counts := u.jo.counts.filter (fun x => !have' x.1), ext := t.jo.ext } ∧
          (∀ i : Fin 64, t.jo.ext.any (fun x => x.rec' == i.val) = (u.jo.ext.any (fun x => x.rec' == i.val) || have' i)))
        (fun a => inJ a ∨ (recs.any (fun x => x.2.1.getLsbD 1)) = true)
      (u.flag F.HW_J_CFG_EN = false → only same none') ∧
      (u.flag F.HW_J_CFG_EN = true → ¬ good → only (fun t => same t ∧ count F.HW_J_BADHDR t) (reg F.HW_J_BADHDR)) ∧
      (u.flag F.HW_J_CFG_EN = true → good → flags.getLsbD 4 = false → only same none') ∧
      (u.flag F.HW_J_CFG_EN = true → good → flags.getLsbD 4 = true → recs.length = nrec.toNat → (last = none → u.jo.sources.length < 32 → taken) ∧
        (last = none → 32 ≤ u.jo.sources.length → only (fun t => same t ∧ t.flag F.HW_J_STATUS_SRCFULL = true) (reg F.HW_J_STATUS_SRCFULL)) ∧
        (∀ q, last = some q →
          let mine := q.2.2 &&& u.wget F.HW_J_INMASK
          let gone := mine ≠ 0 ∧ mine &&& u.wget F.HW_J_TMOREC = mine
          let ahead := (BitVec.ofInt 16 ((seq.toNat : Int) - q.2.1)).toInt
          (gone ∨ 0 < ahead → taken) ∧
          (¬ gone → ahead = 0 → only (fun t => same t ∧ count F.HW_J_DUP t) (reg F.HW_J_DUP)) ∧
          (¬ gone → ahead < 0 → only (fun t => same t ∧ count F.HW_J_STALE t) (reg F.HW_J_STALE)))))

/-- R545 to R551. -/
def Obligations.ZensorRequestsAreCheckedThenAct : Prop :=
  ∀ (s : State) (dt : Nat), s.Sound → s.Live dt → ∀ (sid seq : BitVec 32) (flip : Option (BitVec 128)),
    let u := s.wait dt
    let x := u.sessions.find? (fun y => y.sid == sid.toNat)
    let key := (x.map (·.key)).getD []
    let msg := fun (flags cmd status : Nat) (pl : List Nat) => [0x5A, 0x53, 1, flags] ++ bytesLE 4 sid.toNat ++ bytesLE 4 seq.toNat ++
      [cmd, status] ++ bytesLE 2 pl.length ++ pl
    let tagOf := fun (pl : List Nat) (cmd : Nat) => BitVec.ofNat 128 (ofBytesBE ((hmac256 key (msg 2 cmd 0 pl)).take 16))
    let head := fun (cmd : Nat) (pl : List Nat) => (⟨sid, seq, flip.map (fun f => f ^^^ tagOf pl cmd)⟩ : ZHead)
    let response := fun (secure : Bool) (cmd status : Nat) (pl : List Nat) =>
      if secure = true then msg 3 cmd status pl ++ (hmac256 key (msg 3 cmd status pl)).take 16 else msg 1 cmd status pl
    let serves := u.flag F.PWR_BOOT_STATUS_LOADED = true ∧ u.zen.netcfg ≠ []
    let answers := fun (y : State) (m : List Nat) => ({ y with zen := { y.zen with answer := m } } : State)
    let busy := (u.zen.flashOp.any (fun f => f.sid == sid.toNat) || u.zen.resolving.any (fun q => q.1.sid == sid.toNat)) = true
    let accepted := answers { u with sessions := u.sessions.map (fun y =>
      if y.sid == sid.toNat then { y with seq := some seq.toNat, at' := u.phys, resp := [] } else y) } []
    let request := fun (c : Instr) (cmd : Nat) (acts : Session → Except Refusal (Option (Nat × List Nat) × State)) =>
      let only := fun (m : List Nat) => Completes c s (fun t => t = answers u m)
      let counts := fun (f : Fld) => Completes c s (fun t => t.fget f = min (u.fget f + 1) (2 ^ 32 - 1) ∧ t.zen = { u.zen with answer := [] } ∧
        t.sessions = u.sessions ∧ t.stream = u.stream ∧ u.Within t (fun a => a = f.addr 0 0))
      (¬ serves → only []) ∧ (serves → x = none → only (response false cmd 2 [])) ∧
      (serves → ∀ y, x = some y →
        (y.secure = true → flip ≠ some 0 → counts F.HW_BADTAG) ∧
        (¬ (y.secure = true ∧ flip ≠ some 0) →
          (∀ q, y.seq = some q → (q = seq.toNat → only y.resp) ∧ (seq.toNat < q → counts F.HW_BADSEQ)) ∧
          ((∀ q, y.seq = some q → q < seq.toNat) → busy → only []) ∧
          ((∀ q, y.seq = some q → q < seq.toNat) → ¬ busy → (∀ e, acts y = .error e → exec c s = .refused e) ∧
            (∀ r, acts y = .ok r → Completes c s (fun t => (r.1 = none → t = r.2) ∧
              (∀ q, r.1 = some q →
                let m := response y.secure cmd q.1 q.2
                t = answers { r.2 with sessions := r.2.sessions.map (fun z => if z.sid == sid.toNat then { z with resp := m } else z) } m))))))
    let reads := fun (y : Session) (a k : Nat) (w : State) => (List.range k).foldlM (fun (q : List Nat × State) i =>
      (q.2.busRead (.session y.secure) .b32 (a + 4 * i)).map (fun r => (q.1 ++ bytesLE 4 r.1, r.2))) ([], w)
    let writes := fun (y : Session) (a : Nat) (ws : List Nat) (w : State) => (List.range ws.length).foldlM (fun q i =>
      q.busWrite (.session y.secure) .b32 (a + 4 * i) ((ws[i]?).getD 0)) w
    let done := fun (q : List Nat × State) => (some (0, q.1), q.2)
    let error := fun (n : Nat) => (Except.ok (some (n, []), accepted) : Except Refusal (Option (Nat × List Nat) × State))
    (∀ a v : BitVec 32,
      let pa := bytesLE 4 a.toNat
      request (.zenRead dt (head 1 pa) a) 1 (fun y => (reads y a.toNat 1 accepted).map done) ∧
      request (.zenWrite dt (head 2 (pa ++ bytesLE 4 v.toNat)) a v) 2 (fun y => (writes y a.toNat [v.toNat] accepted).map (fun w => done ([], w))) ∧
      (∀ (k : BitVec 16) (ws : List Word),
        let pk := pa ++ bytesLE 2 k.toNat ++ [0, 0]
        let pw := pk ++ (ws.map BitVec.toNat).flatMap (bytesLE 4)
        request (.zenBlockRead dt (head 3 pk) a k) 3 (fun y => if 256 < k.toNat then error 5 else (reads y a.toNat k.toNat accepted).map done) ∧
        request (.zenBlockWrite dt (head 4 pw) a k ws) 4 (fun y => if 256 < k.toNat then error 5 else if ws.length ≠ k.toNat then error 1 else
          (writes y a.toNat (ws.map BitVec.toNat) accepted).map (fun w => done ([], w))))) ∧
    (∀ (slot : BitVec 16) (lane : Byte) (e : BitVec 128),
      let pl := bytesLE 2 slot.toNat ++ [lane.toNat, 0] ++ bytesLE 16 e.toNat
      let at' := 0x0400_0000 + 16 * slot.toNat
      request (.zenLedgerInsert dt (head 5 pl) slot lane e) 5 (fun y =>
        (writes y at' [e.toNat % 2 ^ 32, e.toNat / 2 ^ 32 % 2 ^ 32, e.toNat / 2 ^ 64 % 2 ^ 32, e.toNat / 2 ^ 96] accepted).bind (fun w =>
          (writes y (F.LED_ARM_SLOT.addr 0 0) [slot.toNat + 2 ^ 16 * lane.toNat] w).bind (fun v => (reads y (at' + 8) 1 v).map done)))) ∧
    (∀ mode : Byte, request (.zenReload dt (head 7 [mode.toNat]) mode) 7 (fun y =>
      if y.secure = false then error 3 else if 1 < mode.toNat then .error .unpredictable
      else .ok (some (0, []), { accepted with resetReq := some (if mode = 0 then 4 else 3) }))) ∧
    request (.sessionClose dt (head 0x11 [])) 0x11 (fun _ =>
      let left := accepted.sessions.filter (fun y => y.sid != sid.toNat)
      let w := ({ accepted with sessions := left, stream := accepted.stream.filter (fun y => y.sid != sid.toNat) } : State).fset
        F.HW_ZEN_SESSIONS left.length
      .ok (some (0, []), { w with zen := { w.zen with resolving := w.zen.resolving.filter (fun q => q.1.sid != sid.toNat) } })) ∧
    (∀ (slot erase : Byte) (o : BitVec 32) (d : List Byte),
      let pl := [slot.toNat, erase.toNat, 0, 0] ++ bytesLE 4 o.toNat ++ d.map BitVec.toNat
      request (.zenFlashWrite dt (head 6 pl) slot erase o d) 6 (fun y =>
        if 1024 < d.length then error 1
        else if y.secure = false then error 3
        else if 1 < slot.toNat ∨ 1 < erase.toNat ∨ slotSize < o.toNat + d.length then .error .unpredictable
        else if u.fget F.PWR_BOOT_STATUS_SLOT = slot.toNat then error 3
        else if u.zen.flashOp.isSome = true then error 4
        else
          let f : FlashOp := ⟨y.sid, seq.toNat, slot.toNat, slotSize * slot.toNat + o.toNat, erase == 1 && o.toNat % 65536 == 0, d.map BitVec.toNat⟩
          .ok (none, { accepted with zen := { accepted.zen with flashOp := some f } }))) ∧
    (∀ (q : StreamReq) (mac : Option (BitVec 48)),
      let pl := [q.eport.toNat, q.pcp.toNat] ++ bytesLE 2 q.vid.toNat ++ [q.family.toNat, 0, 0, 0] ++ q.addr.map BitVec.toNat
      let to' := fun (m : Nat) (y : Session) => (⟨q.eport.toNat, q.pcp.toNat, q.vid.toNat, q.family.toNat, q.addr.map BitVec.toNat, m, y.sid⟩ : StreamTo)
      request (.streamOpen dt (head 0x12 pl) q mac) 0x12 (fun y =>
        if q.addr.length ≠ 16 then error 1
        else if y.secure = false ∧ u.entryWorld 152 ≠ 0 then error 3
        else if u.stream.isSome = true ∨ u.zen.resolving.isSome = true then error 4
        else if 3 < q.eport.toNat ∨ 7 < q.pcp.toNat ∨ 4095 < q.vid.toNat ∨ ¬ (q.family = 4 ∨ q.family = 6) then .error .unpredictable
        else match mac with
          | some m => .ok (some (0, []), { accepted with stream := some (to' m.toNat y) })
          | none => .ok (none, { accepted with zen := { accepted.zen with resolving := some (to' 0 y, seq.toNat, u.phys) } })))

/-- R546, R548, R550, R551, R581. -/
def Obligations.ZensorSessionsStreamsAndFlashWritesEnd : Prop :=
  ∀ (s : State) (dt : Nat), s.Sound → s.Live dt →
    let u := s.wait dt
    let net := fun (o k : Nat) => (u.zen.netcfg.drop o).take k
    let serves := u.flag F.PWR_BOOT_STATUS_LOADED = true ∧ u.zen.netcfg ≠ []
    let none' := fun (_ : Nat) => False
    let count := fun (b : Nat) => b = F.HW_ZEN_SESSIONS.addr 0 0
    let msg := fun (flags sid seq cmd status : Nat) (pl : List Nat) => [0x5A, 0x53, 1, flags] ++ bytesLE 4 sid ++ bytesLE 4 seq ++
      [cmd, status] ++ bytesLE 2 pl.length ++ pl
    let signed := fun (key m : List Nat) => m ++ (hmac256 key m).take 16
    let response := fun (y : Session) (seq cmd status : Nat) => if y.secure = true then signed y.key (msg 3 y.sid seq cmd status [])
      else msg 1 y.sid seq cmd status []
    let same := fun (t : State) => t.zen = u.zen ∧ t.sessions = u.sessions ∧ t.stream = u.stream ∧ u.Within t none'
    let answers := fun (m : List Nat) (t : State) => t.zen = { u.zen with answer := m } ∧ t.sessions = u.sessions ∧ t.stream = u.stream ∧ u.Within t none'
    let opens := fun (secure : Bool) (P : Session → List Nat → Prop) (t : State) => t.sessions.take u.sessions.length = u.sessions ∧
      t.sessions.length = u.sessions.length + 1 ∧ (u.sessions.length < 4 → t.fget F.HW_ZEN_SESSIONS = u.sessions.length + 1) ∧
      t.zen = { u.zen with answer := t.zen.answer, opened := t.zen.opened } ∧ t.stream = u.stream ∧ u.Within t count ∧
      ∀ y, t.sessions.getLast? = some y → y.sid ≠ 0 ∧ y.sid < 2 ^ 32 ∧ y.secure = secure ∧ y.seq = none ∧ y.at' = u.phys ∧ P y t.zen.answer
    (∀ seq : BitVec 32,
      let refused := fun (n : Nat) => answers (msg 1 0 seq.toNat 0x10 n [])
      let plain : Instr := .sessionOpen dt seq .plain
      let noUnauth := ofBytesLE (net 2 2) % 2 = 1
      (¬ serves → Completes plain s (answers [])) ∧
      (serves → noUnauth → Completes plain s (refused 3)) ∧
      (serves → ¬ noUnauth → 4 ≤ u.sessions.length → Completes plain s (refused 9)) ∧
      (serves → ¬ noUnauth → u.sessions.length < 4 → Completes plain s (opens false (fun y m => m = msg 1 y.sid seq.toNat 0x10 0 (bytesLE 4 y.sid)))) ∧
      (∀ (hkey : Byte) (nc : BitVec 128) (form : Byte) (qx qy r sg : BitVec 256),
        let open' : Instr := .sessionOpen dt seq (.secure hkey nc form qx qy r sg)
        let text := [0x5A, 0x4E, 0x53, 0x31] ++ bytesBE 16 nc.toNat
        let h := hkey.toNat
        let hasKey := h < 4 ∧ ofBytesLE (net 6 1) / 2 ^ h % 2 = 1
        let good := hasKey ∧ form = 4 ∧ ecOnCurve qx.toNat qy.toNat = true ∧
          ecdsaVerify (sha256 (text ++ form.toNat :: bytesBE 32 qx.toNat ++ bytesBE 32 qy.toNat)) (ofBytesBE (net (0x40 + 64 * h) 32))
            (ofBytesBE (net (0x60 + 64 * h) 32)) r.toNat sg.toNat = true
        (¬ serves → Completes open' s (answers [])) ∧
        (serves → ¬ good → Completes open' s (refused 7)) ∧
        (serves → good → 4 ≤ u.sessions.length → Completes open' s (refused 9)) ∧
        (serves → good → u.sessions.length < 4 → Completes open' s (opens true (fun y m => ∃ nd d : Nat, nd < 2 ^ 128 ∧ 0 < d ∧ d < p256n ∧
          y.key = hmac256 (bytesBE 32 (((ecMul 256 d (some (qx.toNat, qy.toNat))).map (·.1)).getD 0)) (text ++ bytesBE 16 nd) ∧
          m = signed y.key (msg 3 y.sid seq.toNat 0x10 0 (bytesLE 4 y.sid ++ bytesBE 16 nd ++ point65 (ecMul 256 d p256g)))))))) ∧
    (∀ sid : BitVec 32,
      let c : Instr := .sessionTimeout dt sid
      let y := u.sessions.find? (fun y => y.sid == sid.toNat)
      let tmo := ofBytesLE (net 4 2)
      (y = none → Completes c s same) ∧
      (∀ z, y = some z →
        (tmo = 0 ∨ u.phys < z.at' + tmo * 10 ^ 9 → Completes c s same) ∧
        (0 < tmo → z.at' + tmo * 10 ^ 9 ≤ u.phys → Completes c s (fun t => t.sessions = u.sessions.filter (fun x => x.sid != sid.toNat) ∧
          (t.sessions.length < 8 → t.fget F.HW_ZEN_SESSIONS = t.sessions.length) ∧ t.stream = u.stream.filter (fun x => x.sid != sid.toNat) ∧
          t.zen = { u.zen with resolving := u.zen.resolving.filter (fun x => x.1.sid != sid.toNat) } ∧ u.Within t count)))) ∧
    (let c : Instr := .streamOpenNoroute dt
     let cached := fun (y : Session) (m : List Nat) => u.sessions.map (fun x => if x.sid == y.sid then { x with resp := m } else x)
     (u.zen.resolving = none → Completes c s same) ∧
     (∀ q, u.zen.resolving = some q →
      (u.phys < q.2.2 + 10 ^ 9 → Completes c s same) ∧
      (q.2.2 + 10 ^ 9 ≤ u.phys →
        (u.session q.1.sid = none → Completes c s (fun t => t.zen = { u.zen with resolving := none } ∧ t.sessions = u.sessions ∧
          t.stream = u.stream ∧ u.Within t none')) ∧
        (∀ y, u.session q.1.sid = some y → Completes c s (fun t =>
          let m := response y q.2.1 0x12 8
          t.zen = { u.zen with resolving := none, answer := m } ∧ t.sessions = cached y m ∧ t.stream = u.stream ∧ u.Within t none')))) ∧
     (∀ found : Option (List Byte),
      let d : Instr := .flashWriteComplete dt found
      (u.zen.flashOp = none → Completes d s (fun t => t.flash = u.flash ∧ same t)) ∧
      (∀ f, u.zen.flashOp = some f → f.data.all (fun b => decide (b < 256)) = true → Completes d s (fun t =>
        let old := fun (a : Nat) => if f.erase = true ∧ f.at' ≤ a ∧ a < f.at' + 65536 then 255 else u.flashByte a
        let put := fun (i : Nat) (x : Nat) => match found with
          | none => x &&& (f.data[i]?).getD 0
          | some bs => (bs[i]?.map BitVec.toNat).getD 255
        let ok := (List.range f.data.length).all (fun i => t.flashByte (f.at' + i) == (f.data[i]?).getD 0) = true
        (∀ a : Nat, t.flashByte a = if f.at' ≤ a ∧ a < f.at' + f.data.length then put (a - f.at') (old a) else old a) ∧
        t.stream = u.stream ∧ u.Within t none' ∧
        (u.session f.sid = none → t.sessions = u.sessions ∧ t.zen = { u.zen with flashOp := none }) ∧
        (∀ y, u.session f.sid = some y →
          let m := response y f.seq 6 (if ok then 0 else 6)
          t.zen = { u.zen with flashOp := none, answer := m } ∧ t.sessions = cached y m)))))

/-- R556, R557, R564 to R571; the device's own wake is another statement's. -/
def Obligations.CanControllersChangeStateCountErrorsAndWake : Prop :=
  ∀ (s : State) (dt : Nat) (n : Fin 2), s.Sound → s.Live dt →
    let u := s.wait dt
    let ctrl := F.CAN_CTRL_INIT.addr n 0
    let own := fun (b : Nat) => b = ctrl ∨ b = F.CAN_STATUS_STATE.addr n 0 ∨ b = F.CAN_ERRCNT_TEC.addr n 0 ∨ b = F.CAN_NOACK.addr n 0
    let none' := fun (_ : Nat) => False
    let st := fun (x : State) => x.fget F.CAN_STATUS_STATE n
    let tec := fun (x : State) => x.fget F.CAN_ERRCNT_TEC n
    let rec' := fun (x : State) => x.fget F.CAN_ERRCNT_REC n
    let on := fun (k : Nat) => k = 2 ∨ k = 3
    let onlyCan := fun (x t : State) => ∀ i, i ≠ n → t.can[i] = x.can[i]
    let same := fun (x t : State) => t.can = x.can ∧ x.Within t none'
    let idleAt := fun (x : State) (init sleep : Bool) (k : Nat) => if ¬ on k then k else if init = true then 0 else if sleep = true then 5 else k
    let after := fun (x : State) (k : Nat) => if x.can[n].pend = true ∧ x.can[n].tx = none then
      idleAt x (x.flag F.CAN_CTRL_INIT n) (x.flag F.CAN_CTRL_SLEEP n) k else k
    let counted := fun (t : State) (a b : Nat) => tec t = a ∧ rec' t = min b 128 ∧ t.flag F.CAN_STATUS_EWARN n = decide (96 ≤ a ∨ 96 ≤ b)
    (let x := s.found dt ctrl
     let writes := fun (c : Instr) (w : Word) (idle : Bool) =>
      st x < 7 → Completes c s (fun t =>
        let init := w.getLsbD 0
        let sleep := w.getLsbD 2
        let leaves := st x = 0 ∧ init = false
        let now := idle = true ∧ x.can[n].tx = none
        let first := if st x = 0 then (if init = true then 0 else if x.can[n].fromBusoff = true then 6 else 1) else
          if on (st x) then st x else if init = true then 0 else
          if st x = 4 ∧ w.getLsbD 5 = true then 6 else
          if st x = 5 ∧ x.flag F.CAN_CTRL_SLEEP n = true ∧ sleep = false then 1 else st x
        t.reg ctrl = w &&& 0x1D#32 ∧ st t = (if now then idleAt x init sleep first else first) ∧
        (leaves → counted t 0 0) ∧ (¬ leaves → tec t = tec x ∧ rec' t = rec' x) ∧
        (now → t.can[n].rom = w.getLsbD 3 ∧ t.can[n].mon = w.getLsbD 4 ∧ t.can[n].pend = false ∧
          t.flag F.CAN_STATUS_RESTR n = (w.getLsbD 3 || w.getLsbD 4)) ∧
        (¬ now → t.can[n].rom = x.can[n].rom ∧ t.can[n].mon = x.can[n].mon ∧ t.can[n].pend = true) ∧
        (st x ≠ 0 → ¬ on (st x) → init = true → t.can[n].fromBusoff = decide (st x = 4)) ∧ (leaves → t.can[n].fromBusoff = false) ∧
        t.can[n].tx = x.can[n].tx ∧ t.can[n].cancel = x.can[n].cancel ∧ t.can[n].store = x.can[n].store ∧ t.can[n].werr = x.can[n].werr ∧
        onlyCan x t ∧ x.Within t own)
     (∀ (m : Master) (v : Word) (idle : Bool),
      (s.Reaches dt m ctrl (setB v 1) → writes (.canInit dt m n v idle) (v ||| 1#32) idle) ∧
      (s.Reaches dt m ctrl (clrB v 1) → writes (.canInitRelease dt m n v idle) (v &&& ~~~1#32) idle) ∧
      (s.Reaches dt m ctrl (setB v 32) → writes (.canBorcv dt m n v idle) (v ||| 32#32) idle) ∧
      (s.Reaches dt m ctrl v.toNat → writes (.canRom dt m n v idle) v idle ∧ writes (.canMon dt m n v idle) v idle ∧
        writes (.canSleep dt m n v idle) v idle))) ∧
    (let byCounts := fun (k : Nat) => if 255 < tec u then 4 else if 128 ≤ tec u ∨ 128 ≤ rec' u then 3 else if on k then 2 else k
     (tec u ≤ 255 → Completes (.canIntegrated dt n) s (fun t => t.can[n].waiting = false ∧
       st t = after u (if st u = 1 then byCounts 2 else st u) ∧ tec t = tec u ∧ (rec' u ≤ 128 → rec' t = rec' u) ∧
       t.can[n].tx = u.can[n].tx ∧ onlyCan u t ∧ u.Within t own)) ∧
     (st u ≠ 6 → Completes (.canRecovered dt n) s (same u)) ∧
     (st u = 6 → Completes (.canRecovered dt n) s (fun t => st t = after u 2 ∧ counted t 0 0 ∧ t.can[n].tx = u.can[n].tx ∧ onlyCan u t ∧ u.Within t own))) ∧
    (let errs := fun (c : Instr) (code : CanCode) (rule : CanRule) (inData : Bool) =>
      let num := match code with
        | .crc => 1
        | .ack => 2
        | .form => 3
        | .stuff => 4
        | .bit1 => 5
        | .bit0 => 6
      let sending := u.can[n].tx.isSome = true
      let quiet := u.can[n].rom = true ∨ u.can[n].mon = true
      let by' := match rule with
        | .flag => 8
        | .exempt => 0
        | .frame => if sending then (if code = .ack ∧ st u = 3 then 0 else 8) else 1
      let a := if ¬ quiet ∧ sending then tec u + by' else tec u
      let b := if ¬ quiet ∧ ¬ sending then rec' u + by' else rec' u
      let next := if 255 < a then 4 else if 128 ≤ a ∨ 128 ≤ b then 3 else 2
      let fails := match u.can[n].tx with
        | some x => u.flag F.CAN_CFG_SSHOT n || u.can[n].cancel.contains x.buf
        | none => false
      (¬ on (st u) ∨ u.can[n].waiting = true → Completes c s (same u)) ∧
      (on (st u) → u.can[n].waiting = false → tec u ≤ 255 → rec' u ≤ 128 → Completes c s (fun t =>
        t.fget F.CAN_STATUS_LASTERR n = num ∧ t.fget F.CAN_STATUS_DATAERR n = (if inData = true then num else u.fget F.CAN_STATUS_DATAERR n) ∧
        t.fget F.CAN_NOACK n = (if sending ∧ code = .ack then min (u.fget F.CAN_NOACK n + 1) (2 ^ 32 - 1) else u.fget F.CAN_NOACK n) ∧
        onlyCan u t ∧ (a ≤ 255 ∨ fails = false → u.Within t own) ∧
        (quiet → tec t = tec u ∧ rec' t = rec' u ∧ t.can[n].waiting = true ∧ st t = after u (st u)) ∧
        (¬ quiet → counted t a b ∧ st t = (if sending then next else after u next) ∧ (255 < a → t.flag F.CAN_STATUS_BOFEVT n = true ∧ t.can[n].tx = none) ∧
          (255 < a → fails = true → ∀ q, u.can[n].tx = some q → q.buf < 64 → t.canBit F.CAN_TXFAIL_LO n q.buf = true ∧
            t.canBit F.CAN_TXREQ_LO n q.buf = (u.justWrote (F.CAN_TXREQ_LO.addr n 0 + 4 * (q.buf / 32))).testBit (q.buf % 32)) ∧
          (a ≤ 255 → t.can[n].tx = u.can[n].tx ∧ t.flag F.CAN_STATUS_BOFEVT n = u.flag F.CAN_STATUS_BOFEVT n) ∧
          t.flag F.CAN_STATUS_EPEVT n = (u.flag F.CAN_STATUS_EPEVT n || decide (next = 3 ∧ st u = 2)))))
     (∀ (code : CanCode) (rule : CanRule) (inData : Bool), errs (.canError dt n code rule inData) code rule inData) ∧
     (on (st u) → u.flag F.CAN_CFG_EXCERR n = true → errs (.protocolException dt n) .form .frame false) ∧
     (¬ on (st u) → Completes (.protocolException dt n) s (same u)) ∧
     (on (st u) → u.flag F.CAN_CFG_EXCERR n = false → Completes (.protocolException dt n) s (fun t => t.flag F.CAN_STATUS_EXC n = true ∧
       t.can[n] = { u.can[n] with waiting := true } ∧ st t = st u ∧ onlyCan u t ∧ u.Within t (fun b => b = F.CAN_STATUS_STATE.addr n 0)))) ∧
    (u.boot.asleep = none → u.boot.entering = false → ∀ refsel : Bool,
      let wakes := u.flag F.CAN_WAKE_CFG_WEN n = true ∧ st u = 5
      let wake := fun (b : Nat) => b = ctrl ∨ b = F.CAN_STATUS_STATE.addr n 0 ∨ b = F.CAN_WAKE_STATUS_WAKE.addr n 0 ∨
        b = F.CAN_WAKE_RXID.addr n 0 ∨ b = 0xA0_0124 + 0x1000 * n.val ∨ b = 0xA0_0128 + 0x1000 * n.val
      let woken := fun (cause err : Nat) (P : State → Prop) (t : State) => P t ∧ st t = 1 ∧ t.flag F.CAN_CTRL_SLEEP n = false ∧ t.flag F.CAN_WAKE_STATUS_WAKE n = true ∧
        t.fget F.CAN_WAKE_STATUS_WCAUSE n = cause ∧ t.can[n] = { u.can[n] with werr := err } ∧ onlyCan u t ∧ u.Within t wake
      let only := fun (err : Nat) (t : State) => t.can[n] = { u.can[n] with werr := err } ∧ onlyCan u t ∧ u.Within t none'
      let edge := u.flag F.CAN_WAKE_CFG_WMODE n = false
      let werr := u.can[n].werr
      let kept := fun (t : State) => t.reg (F.CAN_WAKE_RXID.addr n 0) = u.reg (F.CAN_WAKE_RXID.addr n 0)
      (∀ ns : Nat, let c : Instr := .canWake dt n (.dominant ns) refsel
        (¬ wakes ∨ ¬ edge ∨ ns < u.fget F.CAN_WAKE_CFG_WFILT n * 1000 → Completes c s (same u)) ∧
        (wakes → edge → u.fget F.CAN_WAKE_CFG_WFILT n * 1000 ≤ ns → Completes c s (woken 1 werr kept))) ∧
      (∀ (fd good : Bool) (f : CanFrame), let c : Instr := .canWake dt n (.frame fd good f) refsel
        let len := if f.rtr = true then 0 else min f.dlc.toNat 8
        let data := ofBytesLE ((List.range 8).map (fun i => ((f.data[i]?).getD 0).toNat))
        let low := if f.ide = true then 0 else 18
        let idFits := (List.range 29).all (fun i => decide (i < low) || !(u.fget F.CAN_IDMASK n).testBit i ||
          (u.fget F.CAN_WAKE_ID_ID n).testBit i == f.id.getLsbD i)
        let fits := f.ide = u.flag F.CAN_WAKE_ID_IDE n ∧ idFits = true ∧
          (u.flag F.CAN_WAKE_ID_DLCIGN n = true ∨ u.fget F.CAN_WAKE_DLC_WDLC n = f.dlc.toNat) ∧
          (u.wget F.CAN_WDMASK n = 0 ∨ data % 2 ^ (8 * len) &&& u.wget F.CAN_WDMASK n ≠ 0)
        (¬ wakes ∨ edge ∨ fd = true → Completes c s (same u)) ∧
        (wakes → ¬ edge → fd = false → good = true → ¬ fits → Completes c s (only (werr - 1))) ∧
        (wakes → ¬ edge → fd = false → good = true → fits → Completes c s (woken 2 (werr - 1) (fun t => t.wget F.CAN_WAKE_RXDATA n % 2 ^ (8 * len) = data % 2 ^ (8 * len) ∧
          t.fget F.CAN_WAKE_RXID n = b2n f.ide * 2 ^ 31 + b2n f.rtr * 2 ^ 30 + f.id.toNat))) ∧
        (wakes → ¬ edge → fd = false → good = false →
          let lim := u.fget F.CAN_WAKE_CFG_WERRLIM n
          (lim = 0 ∨ werr + 1 ≤ lim → Completes c s (only (werr + 1))) ∧ (lim ≠ 0 → lim < werr + 1 → Completes c s (woken 3 (werr + 1) kept)))))

/-- R555, R559 to R564, R572. -/
def Obligations.CanMessagesAreStoredRequestedAndSent : Prop :=
  ∀ (s : State) (dt : Nat) (n : Fin 2), s.Sound → s.Live dt →
    let u := s.wait dt
    let none' := fun (_ : Nat) => False
    let at' := fun (b o : Nat) => 0xA0_4000 + 0x2000 * n.val + 0x80 * b + o
    let word := fun (x : State) (b o : Nat) => x.mem32 (at' b o)
    let bitOf := fun (x : State) (f : Fld) (b : Nat) => (x.reg (f.addr n 0 + 4 * (b / 32))).getLsbD (b % 32)
    let txreq := F.CAN_TXREQ_LO
    let again := fun (x : State) (b : Nat) => (x.justWrote (txreq.addr n 0 + 4 * (b / 32))).testBit (b % 32)
    let half := fun (f : Fld) (hi : Bool) => f.addr n 0 + (if hi = true then 4 else 0)
    let onlyCan := fun (x t : State) => ∀ i, i ≠ n → t.can[i] = x.can[i]
    let same := fun (x t : State) => t.can = x.can ∧ x.Within t none'
    let st := fun (x : State) => x.fget F.CAN_STATUS_STATE n
    let tec := u.fget F.CAN_ERRCNT_TEC n
    let rec' := u.fget F.CAN_ERRCNT_REC n
    let on := st u = 2 ∨ st u = 3
    let quiet := u.can[n].rom = true ∨ u.can[n].mon = true
    let inIdle := fun (k : Nat) => if k ≠ 2 ∧ k ≠ 3 then k else if u.flag F.CAN_CTRL_INIT n = true then 0 else if u.flag F.CAN_CTRL_SLEEP n = true then 5 else k
    let stateFor := fun (a b : Nat) => if u.can[n].pend = true then inIdle (if 128 ≤ a ∨ 128 ≤ b then 3 else 2) else if 128 ≤ a ∨ 128 ≤ b then 3 else 2
    let stampOf := fun (ago : Nat) => (((u.lclk : Int) - u.stepsSince ago - (ago + 1) / 2 * u.rate) / unitNs).toNat % 2 ^ 32
    let ctl := fun (b : Nat) => b = F.CAN_STATUS_STATE.addr n 0 ∨ b = F.CAN_ERRCNT_TEC.addr n 0
    let gouge := fun (b : Nat) => 0x60_0000 ≤ b ∧ b < 0x60_A000
    let event := fun (t : State) (b : Nat) =>
      let e := u.fget F.CAN_CFG_EVT n
      ∀ k : Fin 10, let sel := (word u b 4).testBit 28 && (u.fget F.GOUGE_EVMASK k (e / 32)).testBit (e % 32)
        let pending := (u.fget F.GOUGE_EVPEND k (e / 32)).testBit (e % 32)
        (sel = false → (∀ w : Fin 8, t.fget F.GOUGE_EVPEND k w = u.fget F.GOUGE_EVPEND k w) ∧
          t.flag F.GOUGE_STATUS_EVLOST k = u.flag F.GOUGE_STATUS_EVLOST k) ∧
        (sel = true → pending = true → (∀ w : Fin 8, t.fget F.GOUGE_EVPEND k w = u.fget F.GOUGE_EVPEND k w) ∧ t.flag F.GOUGE_STATUS_EVLOST k = true) ∧
        (sel = true → pending = false → t.fget F.GOUGE_EVPEND k (e / 32) = u.fget F.GOUGE_EVPEND k (e / 32) + 2 ^ (e % 32) ∧
          t.flag F.GOUGE_STATUS_EVLOST k = u.flag F.GOUGE_STATUS_EVLOST k)
    (∀ (m : Master) (hi : Bool) (v : Word),
      let off := if hi = true then 32 else 0
      let req := half txreq hi
      let can' := half F.CAN_TXCANCEL_LO hi
      let nd := half F.CAN_NEWDAT_LO hi
      (s.Reaches dt m req v.toNat →
        let x := s.found dt req
        let legal := (List.range 32).all (fun i => !v.getLsbD i || (word x (off + i) 4 / 2 ^ 30 == 2 &&
          (!(word x (off + i) 4).testBit 19 || (x.flag F.CAN_CFG_FDEN n && !(word x (off + i) 0).testBit 30))))
        (legal = false → exec (.canTxreq dt m n hi v) s = .refused .unpredictable) ∧
        (legal = true → Completes (.canTxreq dt m n hi v) s (fun t => t.reg req = x.reg req ||| v ∧ t.can = x.can ∧
          x.Within t (fun b => b = req)))) ∧
      (s.Reaches dt m can' v.toNat →
        let x := s.found dt can'
        let sending := fun (b : Nat) => decide ((x.can[n].tx.map (·.buf)) = some b)
        Completes (.canTxcancel dt m n hi v) s (fun t =>
          (∀ i : Fin 32, let asked := v.getLsbD i.val && bitOf x txreq (off + i)
            bitOf t txreq (off + i) = (if (asked && !sending (off + i)) = true then again x (off + i) else bitOf x txreq (off + i)) ∧
            bitOf t F.CAN_TXFAIL_LO (off + i) = (bitOf x F.CAN_TXFAIL_LO (off + i) || (asked && !sending (off + i))) ∧
            (t.can[n].cancel.contains (off + i) = if asked = true then sending (off + i) else x.can[n].cancel.contains (off + i))) ∧
          t.can[n] = { x.can[n] with cancel := t.can[n].cancel } ∧ onlyCan x t ∧ x.Within t (fun b => b = req ∨ b = half F.CAN_TXFAIL_LO hi))) ∧
      (s.Reaches dt m nd v.toNat →
        let x := s.found dt nd
        Completes (.canNewdatClear dt m n hi v) s (fun t =>
          (∀ i : Fin 32, let running := x.can[n].store.any (fun q => q.1 == off + i.val && decide (x.phys < q.2 + 200))
            let fresh := (x.justSet nd).testBit i.val
            (running = false → (t.reg nd).getLsbD i.val = ((x.reg nd).getLsbD i.val && (!v.getLsbD i.val || fresh))) ∧
            (fresh = true → (t.reg nd).getLsbD i.val = (x.reg nd).getLsbD i.val) ∧
            ((x.reg nd).getLsbD i.val = false → (t.reg nd).getLsbD i.val = false) ∧
            (v.getLsbD i.val = false → (t.reg nd).getLsbD i.val = (x.reg nd).getLsbD i.val)) ∧
          t.can = x.can ∧ x.Within t (fun b => b = nd)))) ∧
    (∀ (f : CanFrame) (ago : Nat),
      let c : Instr := .canFrameReceive dt n f ago
      let deaf := ¬ on ∨ u.can[n].waiting = true ∨ u.can[n].tx ≠ none ∨ f.fdf = true ∧ u.flag F.CAN_CFG_FDEN n = false
      let long := fun (d : Nat) => if d ≤ 8 then d else if f.fdf = false then 8 else if d ≤ 12 then 4 * (d - 6) else if d = 13 then 32 else
        if d = 14 then 48 else 64
      let len := if f.rtr = true then 0 else long f.dlc.toNat
      let fits := fun (b : Nat) => word u b 4 / 2 ^ 30 == 1 && (word u b 0).testBit 31 == f.ide && (word u b 0).testBit 30 == f.rtr &&
        (List.range 29).all (fun i => (!f.ide && decide (i < 18)) || !(word u b 8).testBit i || (word u b 0).testBit i == f.id.getLsbD i)
      let takes := fun (b : Nat) => fits b && (!bitOf u F.CAN_NEWDAT_LO b || (word u b 4).testBit 29)
      let counters := fun (t : State) =>
        let b := t.fget F.CAN_ERRCNT_REC n
        t.fget F.CAN_ERRCNT_TEC n = tec ∧ (quiet → b = rec' ∧ st t = (if u.can[n].pend = true then inIdle (st u) else st u)) ∧
        (¬ quiet → st t = stateFor tec (if rec' = 128 then 127 else b) ∧ (rec' < 128 → b = rec' - 1) ∧ (rec' = 128 → 119 ≤ b ∧ b ≤ 127)) ∧ onlyCan u t
      (deaf → Completes c s (same u)) ∧
      (¬ deaf → tec ≤ 255 → rec' ≤ 128 → (List.range 64).any fits = false → Completes c s (fun t => counters t ∧ u.Within t ctl)) ∧
      (¬ deaf → tec ≤ 255 → rec' ≤ 128 → (List.range 64).any fits = true → (List.range 64).any takes = false → Completes c s (fun t => counters t ∧
        t.fget F.CAN_RXLOST n = min (u.fget F.CAN_RXLOST n + 1) (2 ^ 32 - 1) ∧ u.Within t (fun b => ctl b ∨ b = F.CAN_RXLOST.addr n 0))) ∧
      (¬ deaf → tec ≤ 255 → rec' ≤ 128 → ∀ b, (List.range 64).find? takes = some b → Completes c s (fun t => counters t ∧
        (∀ i : Fin 64, (i.val < len → Memory.read t.mem (at' b (0x20 + i)) = (f.data[i.val]?).getD 0)) ∧
        word t b 0x10 = b2n f.ide * 2 ^ 31 + b2n f.rtr * 2 ^ 30 + f.id.toNat ∧
        word t b 0x14 = b2n f.fdf * 2 ^ 19 + b2n f.brs * 2 ^ 18 + b2n f.esi * 2 ^ 17 + f.dlc.toNat * 2 ^ 12 ∧
        word t b 0x18 = stampOf ago ∧
        (∀ i : Fin 64, bitOf t F.CAN_NEWDAT_LO i = (bitOf u F.CAN_NEWDAT_LO i || i.val == b) ∧
          bitOf t F.CAN_MSGLOST_LO i = (bitOf u F.CAN_MSGLOST_LO i || (i.val == b && bitOf u F.CAN_NEWDAT_LO b))) ∧
        t.can[n].store = some (b, u.phys) ∧ event t b ∧
        u.Touches t (fun a => ctl a ∨ gouge a ∨ a = half F.CAN_NEWDAT_LO (decide (32 ≤ b)) ∨ a = half F.CAN_MSGLOST_LO (decide (32 ≤ b)))
          (fun a => at' b 0x10 ≤ a ∧ a < at' b 0x1C ∨ at' b 0x20 ≤ a ∧ a < at' b (0x20 + len))))) ∧
    (let c : Instr := .canTransmitStart dt n
     let requested := (List.range 64).filter (fun b => bitOf u txreq b)
     let field := fun (b : Nat) =>
      let w := word u b 0
      let rtr := w / 2 ^ 30 % 2
      if w.testBit 31 = true then w / 2 ^ 18 % 2 ^ 11 * 2 ^ 21 + 3 * 2 ^ 19 + w % 2 ^ 18 * 2 + rtr else w / 2 ^ 18 % 2 ^ 11 * 2 ^ 21 + rtr * 2 ^ 20
     let free := on ∧ ¬ quiet ∧ u.can[n].waiting = false ∧ u.can[n].tx = none ∧ requested ≠ []
     (¬ free → Completes c s (same u)) ∧
     (free → ∀ b, b ∈ requested → requested.all (fun k => decide (field b < field k) || (field b == field k && decide (b ≤ k))) = true →
       Completes c s (fun t => onlyCan u t ∧ u.Within t none' ∧ t.can[n] = { u.can[n] with tx := t.can[n].tx } ∧
         ∃ q, t.can[n].tx = some q ∧ q.buf = b ∧ q.stamp = stampOf 0 ∧ q.bits = canBits q.frame ∧
          q.frame.ide = (word u b 0).testBit 31 ∧ q.frame.rtr = (word u b 0).testBit 30 ∧ q.frame.fdf = (word u b 4).testBit 19 ∧
          q.frame.brs = (word u b 4).testBit 18 ∧ q.frame.esi = decide (st u = 3) ∧ q.frame.id.toNat = word u b 0 % 2 ^ 29 ∧
          q.frame.dlc.toNat = word u b 4 / 2 ^ 12 % 16 ∧
          (∀ i : Fin 64, (q.frame.data[i.val]?).getD 0 = Memory.read u.mem (at' b (0x20 + i)))))) ∧
    (∀ (how : CanEnd) (loop : Option Nat),
      let c : Instr := .canTransmitEnd dt n how loop
      (u.can[n].tx = none → Completes c s (same u)) ∧
      (on → tec ≤ 255 → rec' ≤ 128 → ∀ q, u.can[n].tx = some q → q.buf < 64 →
        let ends := how = .sent ∨ u.flag F.CAN_CFG_SSHOT n = true ∨ u.can[n].cancel.contains q.buf = true
        let flag := if how = .sent then F.CAN_TXDONE_LO else F.CAN_TXFAIL_LO
        let hi := decide (32 ≤ q.buf)
        Completes c s (fun t => t.can[n].tx = none ∧ onlyCan u t ∧
          (∀ i : Fin 64, bitOf t txreq i = (if ends ∧ i.val = q.buf then again u i else bitOf u txreq i) ∧
            bitOf t flag i = (bitOf u flag i || (decide ends && i.val == q.buf))) ∧
          t.can[n].cancel = (if ends then u.can[n].cancel.filter (fun b => b != q.buf) else u.can[n].cancel) ∧
          t.fget F.CAN_STATUS_LOOPDLY n = (match loop with
            | some d => if u.flag F.CAN_CFG_SSPEN n = true ∧ q.frame.fdf = true then min (max d (u.fget F.CAN_SSP_MIN n)) 127 else
                u.fget F.CAN_STATUS_LOOPDLY n
            | none => u.fget F.CAN_STATUS_LOOPDLY n) ∧
          (how = .sent → t.fget F.CAN_ERRCNT_TEC n = tec - 1 ∧ st t = stateFor (tec - 1) rec' ∧ word t q.buf 0x18 = q.stamp % 2 ^ 32 ∧ event t q.buf ∧
            u.Touches t (fun a => ctl a ∨ gouge a ∨ a = half txreq hi ∨ a = half flag hi) (fun a => at' q.buf 0x18 ≤ a ∧ a < at' q.buf 0x1C)) ∧
          (how ≠ .sent → t.fget F.CAN_ERRCNT_TEC n = tec ∧ st t = (if u.can[n].pend = true then inIdle (st u) else st u) ∧
            u.Within t (fun a => ctl a ∨ a = half txreq hi ∨ a = half flag hi)))))

/-- R12, R583, R590 to R593, R598, R608. -/
def Obligations.ResetsKeepWhatTheirKindKeeps : Prop :=
  ∀ (s : State) (dt : Nat), s.Sound →
    let u := s.wait dt
    let keeps := fun (kind : Nat) (c : Machine.Class) => match c with
      | .p => false
      | .w => kind == 4
      | .s => kind == 4 || kind == 5
      | .a => kind != 0
    let cleared := fun (kind : Nat) (x : State) (a : Nat) => match regAt a with
      | some d =>
        let m := BitVec.ofNat 32 (d.mask (fun f => keeps kind f.cls))
        (x.reg a &&& m) ||| (State.reset.reg a &&& ~~~m)
      | none => State.reset.reg a
    let memory := fun (kind : Nat) (x t : State) => ∀ a : Nat, Memory.read t.mem a =
      if 0xC0_0000 ≤ a ∧ a < 0xC4_0000 ∨ kind = 4 ∧ 0x600_0000 ≤ a ∧ a < 0x640_0000 then Memory.read x.mem a else 0
    let blocks := fun (kind : Nat) (x t : State) => t.pending = x.pending ∧ t.phys = x.phys ∧ t.flash = x.flash ∧ memory kind x t ∧
      (kind = 4 → t.lclk = x.lclk ∧ t.run = x.run) ∧ (kind ≠ 4 → t.lclk = 0 ∧ t.run = 0) ∧ (kind ≠ 0 → t.thr = x.thr ∧ t.fuses = x.fuses) ∧
      (kind = 0 → t.thr = {} ∧ t.fuses.shown = t.fuses.burnt ∧ t.fuses.prog = none ∧ (x.fuses.prog = none → t.fuses.burnt = x.fuses.burnt)) ∧
      t.sessions = [] ∧ t.stream = none ∧ t.resetReq = none ∧ t.hw = {} ∧ t.jo = {} ∧ t.cel = {} ∧ t.skew = {} ∧ t.led = {} ∧ t.seq = {} ∧
      t.core = State.reset.core ∧ t.jet = State.reset.jet ∧ t.bar = State.reset.bar ∧ t.sp = State.reset.sp ∧ t.zen = { opened := x.zen.opened } ∧
      t.boot.wdt = none ∧ t.boot.failed = false ∧ t.boot.asleep = none ∧ t.boot.entering = false
    let reset := fun (kind : Nat) (refsel : Bool) (x t : State) =>
      let num := fun (i o k : Nat) => ofBytesLE ((List.range k).map (fun j => x.flashByte (i * slotSize + o + j)))
      let good := fun (i : Nat) => num i 0 4 = 0x444C4853 ∧ num i 4 2 = 1 ∧ num i 8 1 = i
      let once := kind ≠ 0 ∧ x.flag F.PWR_BOOT_NEXT_ONCE = true
      let named := once ∨ kind ≠ 0 ∧ x.flag F.PWR_BOOT_NEXT_VALID = true
      let slot := x.fget F.PWR_BOOT_NEXT_SLOT
      let preferred := if named then slot else if good 1 ∧ (¬ good 0 ∨ num 0 0x10 4 < num 1 0x10 4) then 1 else 0
      let forbid := (t.fuse 0).testBit 2 = true ∧ preferred = 0
      let moved := fun (a : Nat) => a = F.PWR_BOOT_STATUS_LOADED.addr 0 0 ∨ a = F.PWR_BOOT_NEXT_SLOT.addr 0 0 ∨ a = F.DEV_FUSE_PGM_BUSY.addr 0 0 ∨
        a = F.HEARTH_STATUS_LOCKED.addr 0 0 ∨ 0x3_0C00 ≤ a ∧ a < 0x3_0D00 ∨ 0x50_0000 ≤ a ∧ a < 0x54_0000 ∨ 0x70_0000 ≤ a ∧ a < 0x72_0000
      blocks kind x t ∧ (∀ a : Nat, ¬ moved a → t.reg a = cleared kind x a) ∧
      t.fget F.PWR_BOOT_STATUS_RSTKIND = kind ∧ t.flag F.PWR_BOOT_STATUS_LOADED = false ∧ t.fget F.PWR_BOOT_STATUS_ERRA = 0 ∧
      t.fget F.PWR_BOOT_STATUS_ERRB = (if forbid then 10 else 0) ∧
      t.fget F.PWR_BOOT_NEXT_SLOT = (if once then 1 - slot else if kind = 0 then 0 else slot) ∧ t.flag F.PWR_BOOT_NEXT_ONCE = false ∧
      t.flag F.PWR_BOOT_NEXT_VALID = (decide (kind ≠ 0) && x.flag F.PWR_BOOT_NEXT_VALID) ∧
      t.boot.held = false ∧ t.boot.refsel = (if kind = 4 then x.boot.refsel else refsel) ∧
      t.attic.queue.all (fun r => r.src != 1) = true ∧
      (let before := if kind = 0 then [] else x.attic.urgent
       let full := t.flag F.FLT_ATTIC_STATUS_READY = false ∧ 4 ≤ before.length
       (full → t.attic.urgent = before) ∧
       (¬ full → t.attic.urgent.length = before.length + 1 ∧
        t.attic.urgent.any (fun r => r.src == 1 && r.cls == 0 && r.detail == kind && r.cycle == x.phys / 2) = true ∧
        t.attic.urgent.all (fun r => before.contains r || (r.src == 1 && r.cls == 0 && r.detail == kind)) = true)) ∧
      t.boot.load.isSome = true ∧ (∀ l, t.boot.load = some l → l.kind = kind ∧ l.slot = preferred ∧ l.preferred = preferred ∧
        l.next = (if forbid then none else some (1 - preferred)) ∧ l.release = x.phys ∧ l.pass2 = false)
    let rank : Nat → Nat := fun kind => match kind with
      | 0 => 5
      | 1 => 4
      | 2 => 3
      | 3 => 2
      | 5 => 1
      | _ => 0
    let blocked := fun (kind : Nat) => (u.boot.load.any (fun l => decide (rank kind < rank l.kind))) = true
    let resets := fun (c : Instr) (kind : Nat) (refsel : Bool) => (blocked kind → Completes c s (fun t => t = { u with resetReq := none })) ∧
      (¬ blocked kind → Completes c s (reset kind refsel u))
    let same := fun (c : Instr) => Completes c s (fun t => t = u)
    (∀ refsel : Bool,
      Completes (.powerOnReset dt refsel) s (reset 0 refsel u) ∧
      (∀ ns : Nat, (u.boot.held = true ∨ ns < 100 → same (.resetN dt ns refsel)) ∧
        (u.boot.held = false → 1000 ≤ ns → resets (.resetN dt ns refsel) 1 refsel) ∧
        (u.boot.held = false → ¬ blocked 1 → 100 ≤ ns → ns < 1000 → Completes (.resetN dt ns refsel) s (fun t =>
          t = { u with freeCtr := u.freeCtr + 1 } ∨ reset 1 refsel u t))) ∧
      (s.Live dt →
        (u.boot.wdt = none ∨ (∀ q, u.boot.wdt = some q → u.phys < q) → same (.watchdog dt refsel)) ∧
        (∀ q, u.boot.wdt = some q → q ≤ u.phys → resets (.watchdog dt refsel) 2 refsel) ∧
        (u.resetReq ≠ some 3 → same (.zensorSoftReset dt refsel)) ∧ (u.resetReq = some 3 → resets (.zensorSoftReset dt refsel) 3 refsel) ∧
        (u.resetReq ≠ some 4 → same (.warmReload dt refsel)) ∧ (u.resetReq = some 4 → resets (.warmReload dt refsel) 4 refsel))) ∧
    (∀ (m : Master) (v : Word),
      let a := F.PWR_RESET_KEY.addr 0 0
      let x := s.found dt a
      let key := v.toNat / 2 ^ 16 = 0x5A96
      let asks := fun (c : Instr) (kind : Nat) => (key → Completes c s (fun t => t.resetReq = some kind ∧ x.Within t (fun _ => False))) ∧
        (¬ key → Completes c s (fun t => t.resetReq = x.resetReq ∧ x.Within t (fun _ => False)))
      (s.Reaches dt m a (setB (v &&& 0xFFFF_FFFC#32) 1) → asks (.pwrResetSoft dt m v) 3) ∧
      (s.Reaches dt m a (setB (v &&& 0xFFFF_FFFC#32) 2) → asks (.pwrResetWarm dt m v) 4)) ∧
    Completes (.supplyBelowFallingThreshold dt) s (fun t => blocks 0 u t ∧ t.boot.held = true ∧ t.boot.load = none ∧ ∀ a : Nat, t.reg a = State.reset.reg a)

/-- R571, R577 to R588, R594 to R597. -/
def Obligations.ImagesLoadSleepWakesAndTheWatchdogRuns : Prop :=
  ∀ (s : State) (dt : Nat), s.Sound → s.Live dt ∨ (s.wait dt).boot.asleep.isSome = true →
    let u := s.wait dt
    let none' := fun (_ : Nat) => False
    let same := fun (c : Instr) => Completes c s (fun t => t = u)
    let onLoad := fun (f : Load → Load) (y : State) => ({ y with boot := { y.boot with load := y.boot.load.map f } } : State)
    let next := onLoad (fun l => { l with recs := l.recs.drop 1, wait := none })
    let waits := fun (y : State) => onLoad (fun l => { l with wait := l.wait.orElse (fun _ => some y.phys) }) y
    let one := fun (q : State × Bool) (r : Nat × Nat × Nat) =>
      let a := r.1 / 4 * 4
      if q.2 = true then (Except.ok q : Except Refusal (State × Bool)) else match r.1 % 4 with
        | 0 => (q.1.busWrite .loader .b32 a r.2.1).map (fun y => (next y, false))
        | 1 => (q.1.busRead .loader .b32 a).bind (fun x =>
          (x.2.busWrite .loader .b32 a (x.1 - (x.1 &&& r.2.2) + (r.2.1 &&& r.2.2))).map (fun y => (next y, false)))
        | 2 => (q.1.busRead .loader .b32 a).map (fun x => if x.1 &&& r.2.2 = r.2.1 then (next x.2, false) else (waits x.2, true))
        | _ => if a ≠ 0 then .error .unpredictable else if r.2.1 = 0 then .ok (next q.1, false) else .ok (waits q.1, true)
    let loaded := fun (l : Load) (y t : State) => t.flag F.PWR_BOOT_STATUS_LOADED = true ∧ t.boot.load = none ∧
      t.flag F.PWR_BOOT_STATUS_FELLBACK = (l.slot != l.preferred) ∧ t.flag F.PWR_BOOT_STATUS_SIGNED = l.signed ∧
      t.fget F.PWR_BOOT_STATUS_SLOT = l.slot % 2 ∧ t.fget F.PWR_IMG_VERSION = l.version % 2 ^ 16 ∧ t.fget F.PWR_IMG_GEN = l.gen % 2 ^ 32 ∧
      t.fget F.PWR_BOOT_TIME = (y.phys - l.release) / 1000 % 2 ^ 32 ∧
      (∀ a : Nat, ¬ (0x3_0004 ≤ a ∧ a < 0x3_0018) → t.reg a = y.reg a) ∧
      ∀ a : Nat, Memory.read t.mem a = if 0x818_0000 ≤ a ∧ a < 0x820_0000 then 0 else Memory.read y.mem a
    let runs := fun (c : Instr) (x : State) => ∀ l, x.boot.load = some l → l.pass2 = true →
      let e := l.recs.foldlM one (x, false)
      (∀ r, e = .error r → exec c s = .refused r) ∧
      (∀ q, e = .ok q → Completes c s (fun t => (q.2 = true → t = q.1) ∧ (q.2 = false → loaded l q.1 t)))
    let pass := fun (read : FlashRead) => (.loadPass1End dt read : Instr)
    let op := u.boot.load.bind (fun l => l.wait.bind (fun t => l.recs.head?.map (fun r => (r.1 % 4, r.2.1, t))))
    let polls := op.any (fun o => o.1 == 2) = true
    (s.Live dt →
      (∀ read : FlashRead, (u.boot.load = none ∨ u.boot.load.any (fun l => l.pass2) = true → same (pass read)) ∧
       (∀ l, u.boot.load = some l → l.pass2 = false →
        let num := fun (o k : Nat) => ofBytesLE ((List.range k).map (fun j => u.flashByte (l.slot * slotSize + o + j)))
        let bytes := fun (o k : Nat) => (List.range k).map (fun j => u.flashByte (l.slot * slotSize + o + j))
        let nsec := num 9 1
        let total := num 12 4
        let field := fun (i o k : Nat) => num (0x40 + 16 * i + o) k
        let secs := List.range nsec
        let size := fun (i : Nat) => field i 8 4
        let badOrder := secs.any (fun i => decide (field i 4 4 < if i = 0 then 0x40 + 16 * nsec else field (i - 1) 4 4 + size (i - 1)) ||
          decide (total < field i 4 4 + size i))
        let secOk : Nat → Bool := fun i =>
          let arg := field i 1 1
          let dest := field i 12 4
          let plain := arg = 0 ∧ dest = 0
          match field i 0 1 with
          | 1 => decide (plain ∧ size i % 12 = 0)
          | 2 => decide (arg ≤ 9 ∧ size i % 4 = 0 ∧ dest % 4 = 0 ∧ dest + size i ≤ 0x4_0000)
          | 3 => decide (arg = 0 ∧ dest + size i ≤ 0x8_0000)
          | 4 => decide (arg = 0 ∧ dest + size i ≤ 0x10_0000)
          | 5 => decide (arg = 0 ∧ dest + size i ≤ 0x18_0000)
          | 6 => decide (plain ∧ (size i = 256 ∨ size i = 0))
          | 7 => decide (plain ∧ (size i = 320 ∨ size i = 0))
          | _ => true
        let ofType := fun (k : Nat) => secs.filter (fun i => field i 0 1 == k)
        let staged := ((ofType 1 ++ ofType 6 ++ ofType 7).map size).sum
        let digest := sha256 (bytes 0 total)
        let key := ofBytesBE (sha256 (bytes (total + 0x20) 64))
        let keyFits := key ≠ 0 ∧ (∀ m : Fin 8, u.fuse (8 + m) = key / 2 ^ (32 * m.val) % 2 ^ 32) ∧ ∃ m : Fin 8, u.fuse (8 + m) ≠ 0
        let signed := ecdsaVerify digest (ofBytesBE (bytes (total + 0x20) 32)) (ofBytesBE (bytes (total + 0x40) 32))
          (ofBytesBE (bytes (total + 0x60) 32)) (ofBytesBE (bytes (total + 0x80) 32)) = true
        let secure := (u.fuse 0).testBit 0 = true
        let code := match read with
          | .noFlash => 1
          | .readError => 9
          | .ok => if num 0 4 ≠ 0x444C4853 ∨ num 4 2 ≠ 1 ∨ num 8 1 ≠ l.slot then 3 else if num 6 2 < u.fuse 0 / 2 ^ 16 then 4
            else if 64 < nsec ∨ total % 64 ≠ 0 ∨ slotSize < total + 192 ∨ badOrder = true then 3
            else if secs.all secOk = false ∨ 1 < (ofType 6).length ∨ 1 < (ofType 7).length ∨ 0x8_0000 < staged then 8
            else if bytes (total + 0xA0) 32 ≠ digest then 5 else if secure ∧ ¬ keyFits then 6 else if secure ∧ ¬ signed then 7 else 0
        (code ≠ 0 → Completes (pass read) s (fun t =>
          (l.slot = 0 → t.fget F.PWR_BOOT_STATUS_ERRA = code) ∧ (l.slot ≠ 0 → t.fget F.PWR_BOOT_STATUS_ERRB = code) ∧
          u.Within t (fun a => a = F.PWR_BOOT_STATUS_ERRA.addr 0 0) ∧
          (∀ k, l.next = some k → t.boot = { u.boot with load := some { l with slot := k, next := none } }) ∧
          (l.next = none → t.boot = { u.boot with load := none, failed := true, wdt := none }))) ∧
        (code = 0 →
          let w := u.bootPass none
          let target := fun (i : Nat) => match field i 0 1 with
            | 2 => some (0x1000_0000 + 0x10_0000 * field i 1 1 + field i 12 4)
            | 3 => some (0x400_0000 + field i 12 4)
            | 4 => some (0x500_0000 + field i 12 4)
            | 5 => some (0x800_0000 + field i 12 4)
            | _ => none
          let covers := fun (i a : Nat) => (target i).any (fun b => decide (b ≤ a) && decide (a < b + size i)) = true
          runs (pass read) w ∧
          (∀ i, i ∈ secs → ∀ b, target i = some b → ∀ j, j ∈ List.range (size i) → (∀ k, k ∈ secs → k ≠ i → ¬ covers k (b + j)) →
            Memory.read w.mem (b + j) = if field i 0 1 = 2 ∧ 0x2_0000 ≤ (b + j) % 0x10_0000 ∧ j % 4 = 3 then Memory.read u.mem (b + j) else
              BitVec.ofNat 8 (u.flashByte (l.slot * slotSize + field i 4 4 + j))) ∧
          (∀ a : Nat, (∀ k, k ∈ secs → ¬ covers k a) → ¬ (0x818_0000 ≤ a ∧ a < 0x820_0000) → Memory.read w.mem a = Memory.read u.mem a) ∧
          (∀ q, w.boot.load = some q → q.slot = l.slot ∧ q.preferred = l.preferred ∧ q.version = num 6 2 ∧ q.gen = num 16 4 ∧ q.release = l.release ∧
            (q.signed = true ↔ keyFits ∧ signed) ∧ q.recs = (ofType 1).flatMap (fun i => (List.range (size i / 12)).map (fun k =>
              (num (field i 4 4 + 12 * k) 4, num (field i 4 4 + 12 * k + 4) 4, num (field i 4 4 + 12 * k + 8) 4)))) ∧ w.boot.load.isSome = true ∧
          (∀ i, (ofType 7).find? (fun i => size i != 0) = some i → num (field i 4 4) 2 = 1 → w.zen.netcfg = bytes (field i 4 4) 320 ∧
            w.wget F.HW_MAC = ofBytesBE (bytes (field i 4 4 + 8) 6)) ∧
          (((ofType 7).find? (fun i => size i != 0 && num (field i 4 4) 2 == 1)) = none → w.zen = u.zen ∧ w.wget F.HW_MAC = u.wget F.HW_MAC) ∧
          (∀ i, (ofType 6).find? (fun i => size i != 0) = some i → w.thr = (u.thrOffer (bytes (field i 4 4) 256)).thr) ∧
          (((ofType 6).find? (fun i => size i != 0)) = none → w.thr = u.thr)))) ∧
      (polls → runs (.regsPoll dt) u) ∧ (¬ polls → same (.regsPoll dt)) ∧
      (∀ o, op = some o →
        (o.1 = 2 → o.2.2 + 10 ^ 8 ≤ u.phys → runs (.regsPollTimeout dt) (next (u.setFlag F.PWR_BOOT_STATUS_POLLTMO true))) ∧
        (o.1 ≠ 2 ∨ u.phys < o.2.2 + 10 ^ 8 → same (.regsPollTimeout dt)) ∧
        (o.1 = 3 → o.2.2 + o.2.1 * 1000 ≤ u.phys → runs (.regsDelay dt) (next u)) ∧
        (o.1 ≠ 3 ∨ u.phys < o.2.2 + o.2.1 * 1000 → same (.regsDelay dt))) ∧
      (op = none → same (.regsPollTimeout dt) ∧ same (.regsDelay dt))) ∧
    (∀ (m : Master) (v : Word),
      let a := F.PWR_SLEEP_KEY.addr 0 0
      let x := s.found dt a
      let c : Instr := .sleepRequest dt m v
      let key := v.toNat / 2 ^ 16 = 0x5AA5
      let denied := x.flag F.THR_STATUS_ALLSTO = false ∨ x.boot.load ≠ none
      s.Reaches dt m a (setB v 1) →
      (¬ key → Completes c s (fun t => t.boot = x.boot ∧ x.Within t none')) ∧
      (key → denied → Completes c s (fun t => t.flag F.PWR_STATUS_SLEEPREJ = true ∧ t.boot = x.boot ∧ x.Within t (fun b => b = F.PWR_STATUS_SLEEPREJ.addr 0 0))) ∧
      (key → ¬ denied → x.boot.entering = true → Completes c s (fun t => t.boot = x.boot ∧ x.Within t none')) ∧
      (key → ¬ denied → x.boot.entering = false → Completes c s (fun t => t.boot = { x.boot with entering := true, wake := none } ∧
        t.sleepGate = true ∧ (∀ n : Fin 64, t.flag F.AX_LOOP_CTRL_EN n = false ∧ t.fget F.AX_FLD_STATUS_FSTATE n = 0) ∧
        (∀ k : Fin 16, t.flag F.BL_STATUS_GOFF k = true) ∧
        (x.flag F.HW_J_CFG_EN = true → t.jo.seq = (x.jo.seq + 1) % 2 ^ 16 ∧
          t.fget F.HW_J_TXFRAMES = min (x.fget F.HW_J_TXFRAMES + 1) (2 ^ 32 - 1) ∧
          ∀ r : Fin 64, (x.wget F.HW_J_OUTMASK).testBit r.val = true → t.fget F.HW_J_TXREC 0 (4 * r) / 2 ^ 8 % 2 = 0) ∧
        (x.flag F.HW_J_CFG_EN = false → t.jo = x.jo ∧ t.hw = x.hw)))) ∧
    (let kept := fun (x t : State) => (∀ a, ∀ d, regAt a = some d →
        let k := BitVec.ofNat 32 (d.mask (fun f => f.cls == .s || f.cls == .a))
        t.reg a = (x.reg a &&& k) ||| (State.reset.reg a &&& ~~~k)) ∧
      ∀ a : Nat, Memory.read t.mem a = if 0xC0_0000 ≤ a ∧ a < 0xC4_0000 then Memory.read x.mem a else 0
     let woken := fun (x : State) (cause : Nat) (t : State) => t.fget F.PWR_WAKE_STATUS_CAUSE = cause ∧ t.fget F.PWR_BOOT_STATUS_RSTKIND = 5 ∧
      t.boot.asleep = none ∧ (t.boot.load.any (fun l => l.kind == 5)) = true ∧ t.thr = x.thr ∧
      ∀ a : Nat, Memory.read t.mem a = if 0xC0_0000 ≤ a ∧ a < 0xC4_0000 then Memory.read x.mem a else 0
     let wakes := fun (c : Instr) (cause : Nat) => (u.boot.asleep.isSome = true → u.boot.load = none → Completes c s (woken u cause)) ∧
      (u.boot.asleep = none → u.boot.entering = true → Completes c s (fun t =>
        t.boot = { u.boot with wake := u.boot.wake.orElse (fun _ => some cause) } ∧ u.Within t none')) ∧
      (u.boot.asleep = none → u.boot.entering = false → same c)
     ∀ refsel : Bool,
      (s.Live dt →
        let enters := u.boot.entering = true ∧ u.attic.queue = [] ∧ u.attic.urgent = []
        (¬ enters → same (.sleepEntry dt refsel)) ∧
        (enters → u.boot.wake = none → Completes (.sleepEntry dt refsel) s (fun t => t.boot.asleep = some u.phys ∧ t.off = true ∧ t.thr = u.thr ∧ kept u t)) ∧
        (enters → u.boot.load = none → ∀ k, u.boot.wake = some k → k < 8 → Completes (.sleepEntry dt refsel) s (woken u k))) ∧
      (∀ ns : Nat,
        (u.flag F.PWR_WAKE_CFG_PINEN = false ∨ ns < 1000 → same (.wakeN dt ns refsel)) ∧
        (u.flag F.PWR_WAKE_CFG_PINEN = true → 1000 ≤ ns → wakes (.wakeN dt ns refsel) 1) ∧
        (∀ n : Fin 2,
          let c : Instr := .canWake dt n (.dominant ns) refsel
          let sees := u.flag F.CAN_WAKE_CFG_WEN n = true ∧ u.flag F.CAN_WAKE_CFG_DEVWK n = true ∧ u.flag F.CAN_WAKE_CFG_WMODE n = false ∧
            u.fget F.CAN_WAKE_CFG_WFILT n * 1000 ≤ ns
          (u.boot.asleep.isSome = true → u.boot.load = none → sees → Completes c s (fun t => woken u (3 + n) t ∧ t.flag F.CAN_WAKE_STATUS_WAKE n = true)) ∧
          (u.boot.asleep.isSome = true → ¬ sees → u.flag F.CAN_WAKE_CFG_WMODE n = false → same c))) ∧
      (let timer := u.fget F.PWR_WAKE_CFG_TIMER
       (∀ q, u.boot.asleep = some q → u.boot.load = none →
        (timer = 0 ∨ u.phys < q + timer * 10 ^ 9 → same (.wakeTimer dt refsel)) ∧
        (0 < timer → q + timer * 10 ^ 9 ≤ u.phys → Completes (.wakeTimer dt refsel) s (woken u 2))) ∧
       (u.boot.asleep = none → same (.wakeTimer dt refsel)))) ∧
    (∀ (m : Master) (v : Word),
      let ctl := F.PWR_WDT_CTRL_EN.addr 0 0
      let kick := F.PWR_WDT_KICK_KEY.addr 0 0
      let tmo := v.toNat / 2 ^ 16
      (s.Reaches dt m ctl (setB v 1) →
        let x := s.found dt ctl
        (x.flag F.PWR_WDT_CTRL_EN = true ∨ tmo = 0 → Completes (.wdtStart dt m v) s (fun t => t.boot = x.boot ∧ x.Within t none')) ∧
        (x.flag F.PWR_WDT_CTRL_EN = false → 0 < tmo → Completes (.wdtStart dt m v) s (fun t => t.boot = { x.boot with wdt := some (x.phys + tmo * 10 ^ 6) } ∧
          t.flag F.PWR_WDT_CTRL_EN = true ∧ t.fget F.PWR_WDT_CTRL_TIMEOUT = tmo ∧ x.Within t (fun b => b = ctl)))) ∧
      (s.Reaches dt m kick v.toNat →
        let x := s.found dt kick
        let counts := v.toNat % 2 ^ 16 = 0xC35A ∧ x.flag F.PWR_WDT_CTRL_EN = true
        (counts → Completes (.wdtKick dt m v) s (fun t =>
          t.boot = { x.boot with wdt := some (x.phys + x.fget F.PWR_WDT_CTRL_TIMEOUT * 10 ^ 6) } ∧ x.Within t none')) ∧
        (¬ counts → Completes (.wdtKick dt m v) s (fun t => t.boot = x.boot ∧ x.Within t none'))))

end
end

