-- ==== Sys2Proof/Laws/Blocks.lean ====
section
/-! SUPPORT. Which block acts on a write to its registers. -/
set_option Elab.async false
namespace Sys2Proof.Machine
set_option maxRecDepth 100000
theorem State.regEffect_dev (s p : State) (o v : Nat) (idle : Option Bool) (h : o < 0x1000) :
    s.regEffect p (0x1_0000 + o) v idle = State.effDev s p o v := by
  unfold State.regEffect
  dsimp only
  repeat first
    | rw [if_neg (by omega)]
    | rw [if_pos (by omega)]
  congr 1
  omega

theorem State.regEffect_lodge (s p : State) (o v : Nat) (idle : Option Bool) (h : o < 0x1000) :
    s.regEffect p (0x2_0000 + o) v idle = State.effLodge s p o v := by
  unfold State.regEffect
  dsimp only
  repeat first
    | rw [if_neg (by omega)]
    | rw [if_pos (by omega)]
  congr 1
  omega

theorem State.regEffect_power (s p : State) (o v : Nat) (idle : Option Bool) (h : o < 0x400) :
    s.regEffect p (0x3_0000 + o) v idle = State.effPower s p o v := by
  unfold State.regEffect
  dsimp only
  repeat first
    | rw [if_neg (by omega)]
    | rw [if_pos (by omega)]
  congr 1
  omega

theorem State.regEffect_cyc (s p : State) (o v : Nat) (idle : Option Bool) (h : o < 0x200) :
    s.regEffect p (0x3_0400 + o) v idle = State.effCyc s p o v := by
  unfold State.regEffect
  dsimp only
  repeat first
    | rw [if_neg (by omega)]
    | rw [if_pos (by omega)]
  congr 1
  omega

theorem State.regEffect_gs (s p : State) (o v : Nat) (idle : Option Bool) (h : o < 0x200) :
    s.regEffect p (0x3_0600 + o) v idle = State.effGs s p o v := by
  unfold State.regEffect
  dsimp only
  repeat first
    | rw [if_neg (by omega)]
    | rw [if_pos (by omega)]
  congr 1
  omega

theorem State.regEffect_pan (s p : State) (o v : Nat) (idle : Option Bool) (h : o < 0x200) :
    s.regEffect p (0x3_0800 + o) v idle = State.effPan s p o v := by
  unfold State.regEffect
  dsimp only
  repeat first
    | rw [if_neg (by omega)]
    | rw [if_pos (by omega)]
  congr 1
  omega

theorem State.regEffect_thr (s p : State) (o v : Nat) (idle : Option Bool) (h : o < 0x200) :
    s.regEffect p (0x3_0A00 + o) v idle = State.effThr s p o v := by
  unfold State.regEffect
  dsimp only
  repeat first
    | rw [if_neg (by omega)]
    | rw [if_pos (by omega)]
  congr 1
  omega

theorem State.regEffect_fault (s p : State) (o v : Nat) (idle : Option Bool) (h : o < 0x200) :
    s.regEffect p (0x3_0C00 + o) v idle = State.effFault s p o v := by
  unfold State.regEffect
  dsimp only
  repeat first
    | rw [if_neg (by omega)]
    | rw [if_pos (by omega)]
  congr 1
  omega

theorem State.regEffect_hearth (s p : State) (o v : Nat) (idle : Option Bool) (h : o < 0x1000) :
    s.regEffect p (0x10_0000 + o) v idle = State.effHearth s p o v := by
  unfold State.regEffect
  dsimp only
  repeat first
    | rw [if_neg (by omega)]
    | rw [if_pos (by omega)]
  congr 1
  omega

theorem State.regEffect_rafter (s p : State) (o v : Nat) (idle : Option Bool) (h : o < 0x1000) :
    s.regEffect p (0x11_0000 + o) v idle = State.effRafter s p o v := by
  unfold State.regEffect
  dsimp only
  repeat first
    | rw [if_neg (by omega)]
    | rw [if_pos (by omega)]
  congr 1
  omega

theorem State.regEffect_hallway (s p : State) (o v : Nat) (idle : Option Bool) (h : o < 0x10_0000) :
    s.regEffect p (0x20_0000 + o) v idle = State.effHallway s p o v := by
  unfold State.regEffect
  dsimp only
  repeat first
    | rw [if_neg (by omega)]
    | rw [if_pos (by omega)]
  rw [Nat.add_sub_cancel_left]

theorem State.regEffect_chuck (s p : State) (n : Fin 32) (o v : Nat) (idle : Option Bool) (h : o < 0x400) :
    s.regEffect p (0x30_0000 + 0x400 * n.val + o) v idle = State.effChuck s p n o v := by
  have hn := n.isLt
  unfold State.regEffect
  dsimp only
  repeat first
    | rw [if_neg (by omega)]
    | rw [if_pos (by omega)]
  all_goals (try (have e1 : (0x30_0000 + 0x400 * n.val + o - 0x30_0000) / 0x400 = n.val := by omega))
  have e2 : (0x30_0000 + 0x400 * n.val + o) % 0x400 = o := by omega
  simp only [e1, e2, Fin.ofNat_val_eq_self]

theorem State.regEffect_spindle (s p : State) (n : Fin 16) (o v : Nat) (idle : Option Bool) (h : o < 0x100) :
    s.regEffect p (0x40_0000 + 0x100 * n.val + o) v idle = State.effSpindle s p n o v := by
  have hn := n.isLt
  unfold State.regEffect
  dsimp only
  repeat first
    | rw [if_neg (by omega)]
    | rw [if_pos (by omega)]
  all_goals (try (have e1 : (0x40_0000 + 0x100 * n.val + o - 0x40_0000) / 0x100 = n.val := by omega))
  have e2 : (0x40_0000 + 0x100 * n.val + o) % 0x100 = o := by omega
  simp only [e1, e2, Fin.ofNat_val_eq_self]

theorem State.regEffect_ledger (s p : State) (o v : Nat) (idle : Option Bool) (h : o < 0x1000) :
    s.regEffect p (0x41_0000 + o) v idle = State.effLedger s p o v := by
  unfold State.regEffect
  dsimp only
  repeat first
    | rw [if_neg (by omega)]
    | rw [if_pos (by omega)]
  congr 1
  omega

theorem State.regEffect_axis (s p : State) (n : Fin 64) (o v : Nat) (idle : Option Bool) (h : o < 0x1000) :
    s.regEffect p (0x50_0000 + 0x1000 * n.val + o) v idle = State.effAxis s p n o v := by
  have hn := n.isLt
  unfold State.regEffect
  dsimp only
  repeat first
    | rw [if_neg (by omega)]
    | rw [if_pos (by omega)]
  all_goals (try (have e1 : (0x50_0000 + 0x1000 * n.val + o - 0x50_0000) / 0x1000 = n.val := by omega))
  have e2 : (0x50_0000 + 0x1000 * n.val + o) % 0x1000 = o := by omega
  simp only [e1, e2, Fin.ofNat_val_eq_self]

theorem State.regEffect_gouge (s p : State) (n : Fin 10) (o v : Nat) (idle : Option Bool) (h : o < 0x1000) :
    s.regEffect p (0x60_0000 + 0x1000 * n.val + o) v idle = State.effGouge s p n o v := by
  have hn := n.isLt
  unfold State.regEffect
  dsimp only
  repeat first
    | rw [if_neg (by omega)]
    | rw [if_pos (by omega)]
  all_goals (try (have e1 : (0x60_0000 + 0x1000 * n.val + o - 0x60_0000) / 0x1000 = n.val := by omega))
  have e2 : (0x60_0000 + 0x1000 * n.val + o) % 0x1000 = o := by omega
  simp only [e1, e2, Fin.ofNat_val_eq_self]

theorem State.regEffect_bridge (s p : State) (n : Fin 16) (o v : Nat) (idle : Option Bool) (h : o < 0x200) :
    s.regEffect p (0x70_0000 + 0x200 * n.val + o) v idle = State.effBridge s p n o v := by
  have hn := n.isLt
  unfold State.regEffect
  dsimp only
  repeat first
    | rw [if_neg (by omega)]
    | rw [if_pos (by omega)]
  all_goals (try (have e1 : (0x70_0000 + 0x200 * n.val + o - 0x70_0000) / 0x200 = n.val := by omega))
  have e2 : (0x70_0000 + 0x200 * n.val + o) % 0x200 = o := by omega
  simp only [e1, e2, Fin.ofNat_val_eq_self]

theorem State.regEffect_cmd (s p : State) (n : Fin 8) (o v : Nat) (idle : Option Bool) (h : o < 0x20) :
    s.regEffect p (0x72_0000 + 0x20 * n.val + o) v idle = State.effCmd s p n o v := by
  have hn := n.isLt
  unfold State.regEffect
  dsimp only
  repeat first
    | rw [if_neg (by omega)]
    | rw [if_pos (by omega)]
  all_goals (try (have e1 : (0x72_0000 + 0x20 * n.val + o - 0x72_0000) / 0x20 = n.val := by omega))
  have e2 : (0x72_0000 + 0x20 * n.val + o) % 0x20 = o := by omega
  simp only [e1, e2, Fin.ofNat_val_eq_self]

theorem State.regEffect_markTout (s p : State) (o v : Nat) (idle : Option Bool) (h : o < 0x1000) :
    s.regEffect p (0x74_0000 + o) v idle = State.effMarkTout s p o v := by
  unfold State.regEffect
  dsimp only
  repeat first
    | rw [if_neg (by omega)]
    | rw [if_pos (by omega)]
  congr 1
  omega

theorem State.regEffect_skew (s p : State) (o v : Nat) (idle : Option Bool) (h : o < 0x1000) :
    s.regEffect p (0x80_0000 + o) v idle = State.effSkew s p o v := by
  unfold State.regEffect
  dsimp only
  repeat first
    | rw [if_neg (by omega)]
    | rw [if_pos (by omega)]
  congr 1
  omega

theorem State.regEffect_bar (s p : State) (n : Fin 16) (o v : Nat) (idle : Option Bool) (h : o < 0x100) :
    s.regEffect p (0x80_1000 + 0x100 * n.val + o) v idle = State.effBar s p n o v := by
  have hn := n.isLt
  unfold State.regEffect
  dsimp only
  repeat first
    | rw [if_neg (by omega)]
    | rw [if_pos (by omega)]
  all_goals (try (have e1 : (0x80_1000 + 0x100 * n.val + o - 0x80_1000) / 0x100 = n.val := by omega))
  have e2 : (0x80_1000 + 0x100 * n.val + o) % 0x100 = o := by omega
  simp only [e1, e2, Fin.ofNat_val_eq_self]

theorem State.regEffect_jet (s p : State) (n : Fin 8) (o v : Nat) (idle : Option Bool) (h : o < 0x200) :
    s.regEffect p (0x81_0000 + 0x200 * n.val + o) v idle = State.effJet s p n o v := by
  have hn := n.isLt
  unfold State.regEffect
  dsimp only
  repeat first
    | rw [if_neg (by omega)]
    | rw [if_pos (by omega)]
  all_goals (try (have e1 : (0x81_0000 + 0x200 * n.val + o - 0x81_0000) / 0x200 = n.val := by omega))
  have e2 : (0x81_0000 + 0x200 * n.val + o) % 0x200 = o := by omega
  simp only [e1, e2, Fin.ofNat_val_eq_self]

theorem State.regEffect_cellar (s p : State) (o v : Nat) (idle : Option Bool) (h : o < 0x1000) :
    s.regEffect p (0x90_0000 + o) v idle = State.effCellar s p o v := by
  unfold State.regEffect
  dsimp only
  repeat first
    | rw [if_neg (by omega)]
    | rw [if_pos (by omega)]
  congr 1
  omega

theorem State.regEffect_can (s p : State) (n : Fin 2) (o v : Nat) (idle : Option Bool) (h : o < 0x1000) :
    s.regEffect p (0xA0_0000 + 0x1000 * n.val + o) v idle = State.effCan s p n o v idle := by
  have hn := n.isLt
  unfold State.regEffect
  dsimp only
  repeat first
    | rw [if_neg (by omega)]
    | rw [if_pos (by omega)]
  all_goals (try (have e1 : (0xA0_0000 + 0x1000 * n.val + o - 0xA0_0000) / 0x1000 = n.val := by omega))
  have e2 : (0xA0_0000 + 0x1000 * n.val + o) % 0x1000 = o := by omega
  simp only [e1, e2, Fin.ofNat_val_eq_self]


theorem State.regEffect_stp (s p : State) (o v : Nat) (idle : Option Bool) (h : o < 0x1000) :
    s.regEffect p (0x71_0000 + o) v idle = State.effStp s p o v := by
  unfold State.regEffect
  dsimp only
  repeat first
    | rw [if_neg (by omega)]
    | rw [if_pos (by omega)]
  congr 1
  omega

theorem State.regEffect_sill (s p : State) (o v : Nat) (idle : Option Bool) (h : o < 0x1000) :
    s.regEffect p (0x73_0000 + o) v idle = State.effSill s p o v := by
  unfold State.regEffect
  dsimp only
  repeat first
    | rw [if_neg (by omega)]
    | rw [if_pos (by omega)]
  congr 1
  omega

end Sys2Proof.Machine
end

