-- ==== Sys2Proof/Laws/RegFile.lean ====
section
/-! SUPPORT. The register file: reading after a write, and the canonical form. -/
set_option Elab.async false
namespace Sys2Proof.Machine

theorem keysRise_iff (r : RegFile) : keysRise r = true ↔ r.Pairwise (fun x y => x.1 < y.1) := by
  induction r with
  | nil => simp [keysRise]
  | cons x r ih =>
    cases r with
    | nil => simp [keysRise]
    | cons y r =>
      simp only [keysRise, Bool.and_eq_true, decide_eq_true_eq, ih, List.pairwise_cons]
      refine ⟨fun h => ⟨?_, h.2⟩, fun h => ⟨h.1 y (by simp), h.2⟩⟩
      intro z hz
      rcases List.mem_cons.1 hz with rfl | hz
      · exact h.1
      · exact Nat.lt_trans h.1 (h.2.1 z hz)

theorem RegFile.wf_iff (r : RegFile) :
    r.wf = true ↔ r.Pairwise (fun x y => x.1 < y.1) ∧ ∀ p ∈ r, p.2 ≠ resetWord p.1 := by
  simp [RegFile.wf, keysRise_iff]

theorem mem_eraseKey {a : Nat} {r : RegFile} {p : Nat × Word} (h : p ∈ eraseKey a r) : p ∈ r := by
  induction r with
  | nil => simp [eraseKey] at h
  | cons x r ih =>
    unfold eraseKey at h
    split at h
    · exact List.mem_cons_of_mem _ h
    · rcases List.mem_cons.1 h with rfl | h
      · simp
      · exact List.mem_cons_of_mem _ (ih h)

theorem mem_insertKey {a : Nat} {w : Word} {r : RegFile} {p : Nat × Word} (h : p ∈ insertKey a w r) :
    p = (a, w) ∨ p ∈ r := by
  induction r with
  | nil => simpa [insertKey] using h
  | cons x r ih =>
    unfold insertKey at h
    split at h
    · rcases List.mem_cons.1 h with h | h <;> simp [h]
    · split at h
      · rcases List.mem_cons.1 h with h | h
        · exact .inl h
        · exact .inr (List.mem_cons_of_mem _ h)
      · rcases List.mem_cons.1 h with h | h
        · simp [h]
        · rcases ih h with h | h
          · exact .inl h
          · exact .inr (List.mem_cons_of_mem _ h)

theorem eraseKey_rise {a : Nat} {r : RegFile} (h : r.Pairwise (fun x y => x.1 < y.1)) :
    (eraseKey a r).Pairwise (fun x y => x.1 < y.1) := by
  induction r with
  | nil => simp [eraseKey]
  | cons x r ih =>
    unfold eraseKey
    rw [List.pairwise_cons] at h
    split
    · exact h.2
    · exact List.pairwise_cons.2 ⟨fun y hy => h.1 y (mem_eraseKey hy), ih h.2⟩

theorem insertKey_rise {a : Nat} {w : Word} {r : RegFile} (h : r.Pairwise (fun x y => x.1 < y.1)) :
    (insertKey a w r).Pairwise (fun x y => x.1 < y.1) := by
  induction r with
  | nil => simp [insertKey]
  | cons x r ih =>
    unfold insertKey
    have h' := List.pairwise_cons.1 h
    split
    · rename_i hlt
      refine List.pairwise_cons.2 ⟨fun y hy => ?_, h⟩
      rcases List.mem_cons.1 hy with rfl | hy
      · exact hlt
      · exact Nat.lt_trans hlt (h'.1 y hy)
    · split
      · rename_i heq
        subst heq
        exact List.pairwise_cons.2 ⟨h'.1, h'.2⟩
      · refine List.pairwise_cons.2 ⟨fun y hy => ?_, ih h'.2⟩
        rcases mem_insertKey hy with rfl | hy
        · show x.1 < a
          omega
        · exact h'.1 y hy

/-- A write keeps the canonical form. -/
theorem RegFile.set_wf {r : RegFile} (h : r.wf = true) (a : Nat) (w : Word) : (r.set a w).wf = true := by
  rw [RegFile.wf_iff] at h ⊢
  unfold RegFile.set
  split
  · exact ⟨eraseKey_rise h.1, fun p hp => h.2 p (mem_eraseKey hp)⟩
  · rename_i hw
    refine ⟨insertKey_rise h.1, fun p hp => ?_⟩
    rcases mem_insertKey hp with rfl | hp
    · exact hw
    · exact h.2 p hp

theorem lookup_eraseKey_ne {a b : Nat} (h : a ≠ b) (r : RegFile) : lookupWord (eraseKey a r) b = lookupWord r b := by
  induction r with
  | nil => rfl
  | cons x r ih =>
    obtain ⟨k, v⟩ := x
    by_cases hk : k = a <;> by_cases hb : k = b <;> simp_all [eraseKey, lookupWord]

theorem lookup_insertKey_ne {a b : Nat} (h : a ≠ b) (w : Word) (r : RegFile) :
    lookupWord (insertKey a w r) b = lookupWord r b := by
  induction r with
  | nil => simp [insertKey, lookupWord, h]
  | cons x r ih =>
    obtain ⟨k, v⟩ := x
    unfold insertKey
    split
    · simp [lookupWord, h]
    · split <;> by_cases hb : k = b <;> simp_all [lookupWord]

theorem lookup_insertKey (a : Nat) (w : Word) (r : RegFile) : lookupWord (insertKey a w r) a = some w := by
  induction r with
  | nil => simp [insertKey, lookupWord]
  | cons x r ih =>
    obtain ⟨k, v⟩ := x
    unfold insertKey
    split
    · simp [lookupWord]
    · split <;> simp_all [lookupWord]

theorem lookup_none {a : Nat} {r : RegFile} (h : ∀ p ∈ r, p.1 ≠ a) : lookupWord r a = none := by
  induction r with
  | nil => rfl
  | cons x r ih =>
    obtain ⟨k, v⟩ := x
    have hk : k ≠ a := h (k, v) (by simp)
    simp only [lookupWord, hk, if_false]
    exact ih (fun p hp => h p (List.mem_cons_of_mem _ hp))

theorem lookup_eraseKey {r : RegFile} (h : r.Pairwise (fun x y => x.1 < y.1)) (a : Nat) :
    lookupWord (eraseKey a r) a = none := by
  induction r with
  | nil => rfl
  | cons x r ih =>
    obtain ⟨k, v⟩ := x
    rw [List.pairwise_cons] at h
    by_cases hk : k = a
    · subst hk
      simp only [eraseKey, if_true]
      exact lookup_none (fun p hp => Nat.ne_of_gt (h.1 p hp))
    · simp only [eraseKey, hk, if_false, lookupWord]
      exact ih h.2

/-- Reading what was written. -/
theorem RegFile.get_set {r : RegFile} (h : r.wf = true) (a : Nat) (w : Word) : (r.set a w).get a = w := by
  rw [RegFile.wf_iff] at h
  unfold RegFile.set RegFile.get
  split
  · rename_i hw
    rw [lookup_eraseKey h.1, hw]
    rfl
  · rw [lookup_insertKey]
    rfl

/-- A write leaves every other register alone. -/
theorem RegFile.get_set_ne (r : RegFile) {a b : Nat} (h : a ≠ b) (w : Word) : (r.set a w).get b = r.get b := by
  unfold RegFile.set RegFile.get
  split
  · rw [lookup_eraseKey_ne h]
  · rw [lookup_insertKey_ne h]

theorem filter_rise {r : RegFile} (p : Nat × Word → Bool) (h : keysRise r = true) : keysRise (r.filter p) = true := by
  rw [keysRise_iff] at h ⊢
  exact h.filter p

end Sys2Proof.Machine
end

