-- ==== Sys2Proof/Laws/Fields.lean ====
section
/-! SUPPORT. Bit fields of numbers and fields of registers: reading what was written, and leaving the rest alone. -/
set_option Elab.async false
namespace Sys2Proof.Machine

/-! ### Bits -/

theorem testBit_bitsOf (w hi lo i : Nat) : (bitsOf w hi lo).testBit i = (decide (i < hi + 1 - lo) && w.testBit (lo + i)) := by
  simp [bitsOf, Nat.testBit_mod_two_pow, Nat.testBit_shiftRight]

theorem bitsOf_lt (w hi lo : Nat) : bitsOf w hi lo < 2 ^ (hi + 1 - lo) := Nat.mod_lt _ (Nat.two_pow_pos _)

/-- A number by its bits above, in and below a field. -/
theorem split_bits (w hi lo : Nat) (h : lo ≤ hi) :
    w = 2 ^ (hi + 1) * (w / 2 ^ (hi + 1)) + 2 ^ lo * bitsOf w hi lo + w % 2 ^ lo := by
  have e : 2 ^ (hi + 1) = 2 ^ lo * 2 ^ (hi + 1 - lo) := by rw [← Nat.pow_add]; congr 1; omega
  have h1 := Nat.div_add_mod w (2 ^ lo)
  have h2 := Nat.div_add_mod (w / 2 ^ lo) (2 ^ (hi + 1 - lo))
  unfold bitsOf
  rw [Nat.shiftRight_eq_div_pow, e, ← Nat.div_div_eq_div_mul, Nat.mul_assoc, ← Nat.mul_add, h2, h1]

/-- The two parts around a field and the field's new value. -/
theorem putBits_eq (w hi lo v : Nat) (h : lo ≤ hi) : putBits w hi lo v =
    2 ^ (hi + 1) * (w / 2 ^ (hi + 1)) + (2 ^ lo * (v % 2 ^ (hi + 1 - lo)) + w % 2 ^ lo) := by
  have h1 := split_bits w hi lo h
  unfold putBits
  rw [Nat.mul_comm (bitsOf w hi lo), Nat.mul_comm (v % 2 ^ (hi + 1 - lo))]
  omega

theorem low_lt (w hi lo v : Nat) (h : lo ≤ hi) : 2 ^ lo * (v % 2 ^ (hi + 1 - lo)) + w % 2 ^ lo < 2 ^ (hi + 1) := by
  have e : 2 ^ (hi + 1) = 2 ^ lo * 2 ^ (hi + 1 - lo) := by rw [← Nat.pow_add]; congr 1; omega
  have h1 : v % 2 ^ (hi + 1 - lo) + 1 ≤ 2 ^ (hi + 1 - lo) := Nat.mod_lt _ (Nat.two_pow_pos _)
  have h2 : w % 2 ^ lo < 2 ^ lo := Nat.mod_lt _ (Nat.two_pow_pos _)
  have h3 := Nat.mul_le_mul_left (2 ^ lo) h1
  rw [Nat.mul_add, Nat.mul_one, ← e] at h3
  omega

theorem testBit_putBits (w hi lo v i : Nat) (h : lo ≤ hi) : (putBits w hi lo v).testBit i =
    if lo ≤ i ∧ i ≤ hi then v.testBit (i - lo) else w.testBit i := by
  rw [putBits_eq w hi lo v h, Nat.testBit_two_pow_mul_add _ (low_lt w hi lo v h)]
  split
  · rw [Nat.testBit_two_pow_mul_add _ (Nat.mod_lt _ (Nat.two_pow_pos _))]
    split
    · rw [if_neg (by omega), Nat.testBit_mod_two_pow]
      simp; omega
    · rw [if_pos (by omega), Nat.testBit_mod_two_pow]
      simp; omega
  · rw [if_neg (by omega), Nat.testBit_div_two_pow]
    congr 1; omega

theorem putBits_lt (w hi lo v : Nat) (h : lo ≤ hi) (h32 : hi < 32) (hw : w < 2 ^ 32) : putBits w hi lo v < 2 ^ 32 := by
  refine Nat.lt_pow_two_of_testBit _ (fun i hi' => ?_)
  rw [testBit_putBits w hi lo v i h, if_neg (by omega)]
  exact Nat.testBit_lt_two_pow (Nat.lt_of_lt_of_le hw (Nat.pow_le_pow_right (by decide) hi'))

/-- A field reads what was put into it. -/
theorem bitsOf_putBits (w hi lo v : Nat) (h : lo ≤ hi) : bitsOf (putBits w hi lo v) hi lo = v % 2 ^ (hi + 1 - lo) := by
  apply Nat.eq_of_testBit_eq
  intro i
  rw [testBit_bitsOf, testBit_putBits _ _ _ _ _ h, Nat.testBit_mod_two_pow]
  by_cases hi' : i < hi + 1 - lo
  · rw [if_pos (by omega)]
    simp
  · simp [hi']

/-- A field put into a number leaves a disjoint one alone. -/
theorem bitsOf_putBits_ne (w hi lo v hi' lo' : Nat) (h : lo ≤ hi) (hd : hi' < lo ∨ hi < lo') :
    bitsOf (putBits w hi lo v) hi' lo' = bitsOf w hi' lo' := by
  apply Nat.eq_of_testBit_eq
  intro i
  rw [testBit_bitsOf, testBit_bitsOf, testBit_putBits _ _ _ _ _ h]
  by_cases hi'' : i < hi' + 1 - lo'
  · rw [if_neg (by omega)]
  · simp [hi'']

/-! ### Registers -/

/-- A field lies in a 32-bit register. -/
def Fld.ok (f : Fld) : Bool := decide (f.lo ≤ f.hi) && decide (f.hi < 32)

theorem State.reg_setReg {s : State} (h : s.regs.wf = true) (a : Nat) (w : Word) : (s.setReg a w).reg a = w :=
  RegFile.get_set h a w

theorem State.reg_setReg_ne (s : State) {a b : Nat} (h : a ≠ b) (w : Word) : (s.setReg a w).reg b = s.reg b :=
  RegFile.get_set_ne _ h w

theorem State.setReg_wf {s : State} (h : s.regs.wf = true) (a : Nat) (w : Word) : (s.setReg a w).regs.wf = true :=
  RegFile.set_wf h a w

theorem State.fset_wf {s : State} (h : s.regs.wf = true) (f : Fld) (v n j : Nat) : (s.fset f v n j).regs.wf = true :=
  RegFile.set_wf h _ _

theorem State.setWords_wf (k : Nat) : ∀ {s : State}, s.regs.wf = true → ∀ a v, (s.setWords a k v).regs.wf = true := by
  induction k with
  | zero => intro s h a v; exact h
  | succ k ih => intro s h a v; exact ih (State.setReg_wf h a _) _ _

theorem State.wset_wf {s : State} (h : s.regs.wf = true) (w : Wide) (v n j : Nat) : (s.wset w v n j).regs.wf = true :=
  State.setWords_wf _ h _ _

/-- A field reads what was put into it. -/
theorem State.fget_fset {s : State} (h : s.regs.wf = true) (f : Fld) (v n j : Nat) (hf : f.ok = true) :
    (s.fset f v n j).fget f n j = v % 2 ^ (f.hi + 1 - f.lo) := by
  simp only [Fld.ok, Bool.and_eq_true, decide_eq_true_eq] at hf
  unfold State.fget State.fset
  rw [State.reg_setReg h, BitVec.toNat_ofNat, Nat.mod_eq_of_lt (putBits_lt _ _ _ _ hf.1 hf.2 (s.reg _).isLt)]
  exact bitsOf_putBits _ _ _ _ hf.1

/-- A field of another register stays as it was. -/
theorem State.fget_fset_addr (s : State) (f g : Fld) (v n j n' j' : Nat) (h : f.addr n j ≠ g.addr n' j') :
    (s.fset f v n j).fget g n' j' = s.fget g n' j' := by
  unfold State.fget State.fset
  rw [State.reg_setReg_ne _ h]

/-- A disjoint field of the same register stays as it was. -/
theorem State.fget_fset_bits {s : State} (hs : s.regs.wf = true) (f g : Fld) (v n j n' j' : Nat) (hf : f.ok = true)
    (ha : g.addr n' j' = f.addr n j) (hd : g.hi < f.lo ∨ f.hi < g.lo) : (s.fset f v n j).fget g n' j' = s.fget g n' j' := by
  simp only [Fld.ok, Bool.and_eq_true, decide_eq_true_eq] at hf
  unfold State.fget State.fset
  rw [ha, State.reg_setReg hs, BitVec.toNat_ofNat, Nat.mod_eq_of_lt (putBits_lt _ _ _ _ hf.1 hf.2 (s.reg _).isLt)]
  exact bitsOf_putBits_ne _ _ _ _ _ _ hf.1 hd

theorem State.reg_fset_ne (s : State) (f : Fld) (v n j : Nat) {a : Nat} (h : f.addr n j ≠ a) : (s.fset f v n j).reg a = s.reg a :=
  State.reg_setReg_ne _ h _

theorem State.fget_setReg_ne (s : State) (g : Fld) {a : Nat} (w : Word) (n j : Nat) (h : a ≠ g.addr n j) :
    (s.setReg a w).fget g n j = s.fget g n j := by
  unfold State.fget
  rw [State.reg_setReg_ne _ h]

/-- Fields depend on the registers alone. -/
theorem State.fget_congr {s t : State} (h : s.regs = t.regs) (g : Fld) (n j : Nat) : s.fget g n j = t.fget g n j := by
  unfold State.fget State.reg
  rw [h]

theorem State.reg_setWords_ne (k : Nat) : ∀ (s : State) (a v : Nat) {b : Nat}, (∀ i < k, a + 4 * i ≠ b) →
    (s.setWords a k v).reg b = s.reg b := by
  induction k with
  | zero => intro s a v b _; rfl
  | succ k ih =>
    intro s a v b h
    show (State.setWords (s.setReg a _) (a + 4) k _).reg b = _
    rw [ih _ _ _ (fun i hi => by have := h (i + 1) (by omega); omega), State.reg_setReg_ne _ (by simpa using h 0 (by omega))]

theorem State.words_congr (k : Nat) : ∀ {s t : State} {a : Nat}, (∀ i < k, s.reg (a + 4 * i) = t.reg (a + 4 * i)) →
    s.words a k = t.words a k := by
  induction k with
  | zero => intro s t a _; rfl
  | succ k ih =>
    intro s t a h
    unfold State.words
    have h0 := h 0 (by omega)
    simp only [Nat.mul_zero, Nat.add_zero] at h0
    have h1 := ih (s := s) (t := t) (a := a + 4) (fun i hi => by
      have := h (i + 1) (by omega)
      rwa [Nat.mul_add, Nat.mul_one, Nat.add_comm (4 * i), ← Nat.add_assoc] at this)
    rw [h0, h1]

theorem State.words_setWords (k : Nat) : ∀ {s : State}, s.regs.wf = true → ∀ a v, (s.setWords a k v).words a k = v % 2 ^ (32 * k) := by
  induction k with
  | zero => intro s _ a v; simp [State.words, Nat.mod_one]
  | succ k ih =>
    intro s h a v
    have e : (s.setWords a (k + 1) v).words a (k + 1) = ((s.setWords a (k + 1) v).reg a).toNat +
        2 ^ 32 * (s.setWords a (k + 1) v).words (a + 4) k := rfl
    have e2 : s.setWords a (k + 1) v = (s.setReg a (BitVec.ofNat 32 v)).setWords (a + 4) k (v / 2 ^ 32) := rfl
    rw [e, e2, ih (State.setReg_wf h a _), State.reg_setWords_ne _ _ _ _ (fun i _ => by omega), State.reg_setReg h,
      BitVec.toNat_ofNat]
    have e3 : 2 ^ (32 * (k + 1)) = 2 ^ 32 * 2 ^ (32 * k) := by rw [← Nat.pow_add]; congr 1; omega
    rw [e3, Nat.mod_mul]

/-- A wide value reads what was put into it. -/
theorem State.wget_wset {s : State} (h : s.regs.wf = true) (w : Wide) (v n j : Nat) :
    (s.wset w v n j).wget w n j = v % 2 ^ (32 * w.words) := State.words_setWords _ h _ _

theorem State.fget_wset_ne (s : State) (w : Wide) (g : Fld) (v n j n' j' : Nat)
    (h : ∀ i < w.words, w.addr n j + 4 * i ≠ g.addr n' j') : (s.wset w v n j).fget g n' j' = s.fget g n' j' := by
  unfold State.fget State.wset
  rw [State.reg_setWords_ne _ _ _ _ h]

theorem State.wget_fset_ne (s : State) (f : Fld) (w : Wide) (v n j n' j' : Nat)
    (h : ∀ i < w.words, f.addr n j ≠ w.addr n' j' + 4 * i) : (s.fset f v n j).wget w n' j' = s.wget w n' j' :=
  State.words_congr _ (fun i hi => State.reg_fset_ne _ _ _ _ _ (h i hi))

/-! ### Two's complement -/

theorem toS_ofS (w : Nat) (hw : 0 < w) (x : Int) (h1 : -(2 ^ (w - 1) : Nat) ≤ x) (h2 : x < (2 ^ (w - 1) : Nat)) :
    toS w (ofS w x) = x := by
  obtain ⟨w, rfl⟩ : ∃ k, w = k + 1 := ⟨w - 1, by omega⟩
  simp only [Nat.add_sub_cancel] at h1 h2
  have e : (2 ^ (w + 1) : Nat) = 2 * 2 ^ w := by rw [Nat.pow_succ]; omega
  unfold toS ofS
  dsimp only
  rw [e]
  generalize (2 ^ w : Nat) = p at *
  have hp : (0 : Int) < ((2 * p : Nat) : Int) := by omega
  have h3 : 0 ≤ x % ((2 * p : Nat) : Int) := Int.emod_nonneg _ (by omega)
  have h4 : x % ((2 * p : Nat) : Int) < ((2 * p : Nat) : Int) := Int.emod_lt_of_pos _ hp
  have h5 : (x % ((2 * p : Nat) : Int)).toNat % (2 * p) = (x % ((2 * p : Nat) : Int)).toNat := Nat.mod_eq_of_lt (by omega)
  rw [h5]
  by_cases hx : 0 ≤ x
  · rw [Int.emod_eq_of_lt hx (by omega)]
    rw [if_pos (by omega)]
    omega
  · have h6 : x % ((2 * p : Nat) : Int) = x + ((2 * p : Nat) : Int) := by
      rw [← Int.add_emod_right, Int.emod_eq_of_lt (by omega) (by omega)]
    rw [h6, if_neg (by omega)]
    omega

end Sys2Proof.Machine
end

