-- ==== Sys2Proof/Laws/State.lean ====
section
/-! SUPPORT. One lemma for each field of the state under each update, so that no proof unfolds a record update. -/
namespace Sys2Proof.Machine

/-! ### setReg -/

@[simp] theorem State.setReg_pending (s : State) (a : Nat) (w : Word) : (s.setReg a w).pending = s.pending := rfl
@[simp] theorem State.setReg_phys (s : State) (a : Nat) (w : Word) : (s.setReg a w).phys = s.phys := rfl
@[simp] theorem State.setReg_lclk (s : State) (a : Nat) (w : Word) : (s.setReg a w).lclk = s.lclk := rfl
@[simp] theorem State.setReg_run (s : State) (a : Nat) (w : Word) : (s.setReg a w).run = s.run := rfl
@[simp] theorem State.setReg_steps (s : State) (a : Nat) (w : Word) : (s.setReg a w).steps = s.steps := rfl
@[simp] theorem State.setReg_freeCtr (s : State) (a : Nat) (w : Word) : (s.setReg a w).freeCtr = s.freeCtr := rfl
@[simp] theorem State.setReg_rdata (s : State) (a : Nat) (w : Word) : (s.setReg a w).rdata = s.rdata := rfl
@[simp] theorem State.setReg_strobe (s : State) (a : Nat) (w : Word) : (s.setReg a w).strobe = s.strobe := rfl
@[simp] theorem State.setReg_snaps (s : State) (a : Nat) (w : Word) : (s.setReg a w).snaps = s.snaps := rfl
@[simp] theorem State.setReg_held (s : State) (a : Nat) (w : Word) : (s.setReg a w).held = s.held := rfl
@[simp] theorem State.setReg_mem (s : State) (a : Nat) (w : Word) : (s.setReg a w).mem = s.mem := rfl
@[simp] theorem State.setReg_badPar (s : State) (a : Nat) (w : Word) : (s.setReg a w).badPar = s.badPar := rfl
@[simp] theorem State.setReg_sp (s : State) (a : Nat) (w : Word) : (s.setReg a w).sp = s.sp := rfl
@[simp] theorem State.setReg_snap (s : State) (a : Nat) (w : Word) : (s.setReg a w).snap = s.snap := rfl
@[simp] theorem State.setReg_seq (s : State) (a : Nat) (w : Word) : (s.setReg a w).seq = s.seq := rfl
@[simp] theorem State.setReg_led (s : State) (a : Nat) (w : Word) : (s.setReg a w).led = s.led := rfl
@[simp] theorem State.setReg_mark (s : State) (a : Nat) (w : Word) : (s.setReg a w).mark = s.mark := rfl
@[simp] theorem State.setReg_tout (s : State) (a : Nat) (w : Word) : (s.setReg a w).tout = s.tout := rfl
@[simp] theorem State.setReg_raf (s : State) (a : Nat) (w : Word) : (s.setReg a w).raf = s.raf := rfl
@[simp] theorem State.setReg_evs (s : State) (a : Nat) (w : Word) : (s.setReg a w).evs = s.evs := rfl
@[simp] theorem State.setReg_ax (s : State) (a : Nat) (w : Word) : (s.setReg a w).ax = s.ax := rfl
@[simp] theorem State.setReg_prevTick (s : State) (a : Nat) (w : Word) : (s.setReg a w).prevTick = s.prevTick := rfl
@[simp] theorem State.setReg_prevJumps (s : State) (a : Nat) (w : Word) : (s.setReg a w).prevJumps = s.prevJumps := rfl
@[simp] theorem State.setReg_attic (s : State) (a : Nat) (w : Word) : (s.setReg a w).attic = s.attic := rfl
@[simp] theorem State.setReg_lp (s : State) (a : Nat) (w : Word) : (s.setReg a w).lp = s.lp := rfl
@[simp] theorem State.setReg_outer (s : State) (a : Nat) (w : Word) : (s.setReg a w).outer = s.outer := rfl
@[simp] theorem State.setReg_fld (s : State) (a : Nat) (w : Word) : (s.setReg a w).fld = s.fld := rfl
@[simp] theorem State.setReg_bl (s : State) (a : Nat) (w : Word) : (s.setReg a w).bl = s.bl := rfl
@[simp] theorem State.setReg_stp (s : State) (a : Nat) (w : Word) : (s.setReg a w).stp = s.stp := rfl
@[simp] theorem State.setReg_stpOld (s : State) (a : Nat) (w : Word) : (s.setReg a w).stpOld = s.stpOld := rfl
@[simp] theorem State.setReg_gateLinks (s : State) (a : Nat) (w : Word) : (s.setReg a w).gateLinks = s.gateLinks := rfl
@[simp] theorem State.setReg_sleepGate (s : State) (a : Nat) (w : Word) : (s.setReg a w).sleepGate = s.sleepGate := rfl
@[simp] theorem State.setReg_chuck (s : State) (a : Nat) (w : Word) : (s.setReg a w).chuck = s.chuck := rfl
@[simp] theorem State.setReg_cmdIn (s : State) (a : Nat) (w : Word) : (s.setReg a w).cmdIn = s.cmdIn := rfl
@[simp] theorem State.setReg_sill (s : State) (a : Nat) (w : Word) : (s.setReg a w).sill = s.sill := rfl
@[simp] theorem State.setReg_core (s : State) (a : Nat) (w : Word) : (s.setReg a w).core = s.core := rfl
@[simp] theorem State.setReg_march (s : State) (a : Nat) (w : Word) : (s.setReg a w).march = s.march := rfl
@[simp] theorem State.setReg_hostPan (s : State) (a : Nat) (w : Word) : (s.setReg a w).hostPan = s.hostPan := rfl
@[simp] theorem State.setReg_jet (s : State) (a : Nat) (w : Word) : (s.setReg a w).jet = s.jet := rfl
@[simp] theorem State.setReg_bar (s : State) (a : Nat) (w : Word) : (s.setReg a w).bar = s.bar := rfl
@[simp] theorem State.setReg_skew (s : State) (a : Nat) (w : Word) : (s.setReg a w).skew = s.skew := rfl
@[simp] theorem State.setReg_jo (s : State) (a : Nat) (w : Word) : (s.setReg a w).jo = s.jo := rfl
@[simp] theorem State.setReg_cel (s : State) (a : Nat) (w : Word) : (s.setReg a w).cel = s.cel := rfl
@[simp] theorem State.setReg_past (s : State) (a : Nat) (w : Word) : (s.setReg a w).past = s.past := rfl
@[simp] theorem State.setReg_flash (s : State) (a : Nat) (w : Word) : (s.setReg a w).flash = s.flash := rfl
@[simp] theorem State.setReg_resetReq (s : State) (a : Nat) (w : Word) : (s.setReg a w).resetReq = s.resetReq := rfl
@[simp] theorem State.setReg_violAt (s : State) (a : Nat) (w : Word) : (s.setReg a w).violAt = s.violAt := rfl
@[simp] theorem State.setReg_sessions (s : State) (a : Nat) (w : Word) : (s.setReg a w).sessions = s.sessions := rfl
@[simp] theorem State.setReg_stream (s : State) (a : Nat) (w : Word) : (s.setReg a w).stream = s.stream := rfl
@[simp] theorem State.setReg_thr (s : State) (a : Nat) (w : Word) : (s.setReg a w).thr = s.thr := rfl
@[simp] theorem State.setReg_hw (s : State) (a : Nat) (w : Word) : (s.setReg a w).hw = s.hw := rfl
@[simp] theorem State.setReg_zen (s : State) (a : Nat) (w : Word) : (s.setReg a w).zen = s.zen := rfl
@[simp] theorem State.setReg_can (s : State) (a : Nat) (w : Word) : (s.setReg a w).can = s.can := rfl
@[simp] theorem State.setReg_boot (s : State) (a : Nat) (w : Word) : (s.setReg a w).boot = s.boot := rfl
@[simp] theorem State.setReg_fuses (s : State) (a : Nat) (w : Word) : (s.setReg a w).fuses = s.fuses := rfl
@[simp] theorem State.setReg_servo (s : State) (a : Nat) (w : Word) : (s.setReg a w).servo = s.servo := rfl

/-! ### fset -/

@[simp] theorem State.fset_pending (s : State) (f : Fld) (v n j : Nat) : (s.fset f v n j).pending = s.pending := rfl
@[simp] theorem State.fset_phys (s : State) (f : Fld) (v n j : Nat) : (s.fset f v n j).phys = s.phys := rfl
@[simp] theorem State.fset_lclk (s : State) (f : Fld) (v n j : Nat) : (s.fset f v n j).lclk = s.lclk := rfl
@[simp] theorem State.fset_run (s : State) (f : Fld) (v n j : Nat) : (s.fset f v n j).run = s.run := rfl
@[simp] theorem State.fset_steps (s : State) (f : Fld) (v n j : Nat) : (s.fset f v n j).steps = s.steps := rfl
@[simp] theorem State.fset_freeCtr (s : State) (f : Fld) (v n j : Nat) : (s.fset f v n j).freeCtr = s.freeCtr := rfl
@[simp] theorem State.fset_rdata (s : State) (f : Fld) (v n j : Nat) : (s.fset f v n j).rdata = s.rdata := rfl
@[simp] theorem State.fset_strobe (s : State) (f : Fld) (v n j : Nat) : (s.fset f v n j).strobe = s.strobe := rfl
@[simp] theorem State.fset_snaps (s : State) (f : Fld) (v n j : Nat) : (s.fset f v n j).snaps = s.snaps := rfl
@[simp] theorem State.fset_held (s : State) (f : Fld) (v n j : Nat) : (s.fset f v n j).held = s.held := rfl
@[simp] theorem State.fset_mem (s : State) (f : Fld) (v n j : Nat) : (s.fset f v n j).mem = s.mem := rfl
@[simp] theorem State.fset_badPar (s : State) (f : Fld) (v n j : Nat) : (s.fset f v n j).badPar = s.badPar := rfl
@[simp] theorem State.fset_sp (s : State) (f : Fld) (v n j : Nat) : (s.fset f v n j).sp = s.sp := rfl
@[simp] theorem State.fset_snap (s : State) (f : Fld) (v n j : Nat) : (s.fset f v n j).snap = s.snap := rfl
@[simp] theorem State.fset_seq (s : State) (f : Fld) (v n j : Nat) : (s.fset f v n j).seq = s.seq := rfl
@[simp] theorem State.fset_led (s : State) (f : Fld) (v n j : Nat) : (s.fset f v n j).led = s.led := rfl
@[simp] theorem State.fset_mark (s : State) (f : Fld) (v n j : Nat) : (s.fset f v n j).mark = s.mark := rfl
@[simp] theorem State.fset_tout (s : State) (f : Fld) (v n j : Nat) : (s.fset f v n j).tout = s.tout := rfl
@[simp] theorem State.fset_raf (s : State) (f : Fld) (v n j : Nat) : (s.fset f v n j).raf = s.raf := rfl
@[simp] theorem State.fset_evs (s : State) (f : Fld) (v n j : Nat) : (s.fset f v n j).evs = s.evs := rfl
@[simp] theorem State.fset_ax (s : State) (f : Fld) (v n j : Nat) : (s.fset f v n j).ax = s.ax := rfl
@[simp] theorem State.fset_prevTick (s : State) (f : Fld) (v n j : Nat) : (s.fset f v n j).prevTick = s.prevTick := rfl
@[simp] theorem State.fset_prevJumps (s : State) (f : Fld) (v n j : Nat) :
    (s.fset f v n j).prevJumps = s.prevJumps := rfl
@[simp] theorem State.fset_attic (s : State) (f : Fld) (v n j : Nat) : (s.fset f v n j).attic = s.attic := rfl
@[simp] theorem State.fset_lp (s : State) (f : Fld) (v n j : Nat) : (s.fset f v n j).lp = s.lp := rfl
@[simp] theorem State.fset_outer (s : State) (f : Fld) (v n j : Nat) : (s.fset f v n j).outer = s.outer := rfl
@[simp] theorem State.fset_fld (s : State) (f : Fld) (v n j : Nat) : (s.fset f v n j).fld = s.fld := rfl
@[simp] theorem State.fset_bl (s : State) (f : Fld) (v n j : Nat) : (s.fset f v n j).bl = s.bl := rfl
@[simp] theorem State.fset_stp (s : State) (f : Fld) (v n j : Nat) : (s.fset f v n j).stp = s.stp := rfl
@[simp] theorem State.fset_stpOld (s : State) (f : Fld) (v n j : Nat) : (s.fset f v n j).stpOld = s.stpOld := rfl
@[simp] theorem State.fset_gateLinks (s : State) (f : Fld) (v n j : Nat) :
    (s.fset f v n j).gateLinks = s.gateLinks := rfl
@[simp] theorem State.fset_sleepGate (s : State) (f : Fld) (v n j : Nat) :
    (s.fset f v n j).sleepGate = s.sleepGate := rfl
@[simp] theorem State.fset_chuck (s : State) (f : Fld) (v n j : Nat) : (s.fset f v n j).chuck = s.chuck := rfl
@[simp] theorem State.fset_cmdIn (s : State) (f : Fld) (v n j : Nat) : (s.fset f v n j).cmdIn = s.cmdIn := rfl
@[simp] theorem State.fset_sill (s : State) (f : Fld) (v n j : Nat) : (s.fset f v n j).sill = s.sill := rfl
@[simp] theorem State.fset_core (s : State) (f : Fld) (v n j : Nat) : (s.fset f v n j).core = s.core := rfl
@[simp] theorem State.fset_march (s : State) (f : Fld) (v n j : Nat) : (s.fset f v n j).march = s.march := rfl
@[simp] theorem State.fset_hostPan (s : State) (f : Fld) (v n j : Nat) : (s.fset f v n j).hostPan = s.hostPan := rfl
@[simp] theorem State.fset_jet (s : State) (f : Fld) (v n j : Nat) : (s.fset f v n j).jet = s.jet := rfl
@[simp] theorem State.fset_bar (s : State) (f : Fld) (v n j : Nat) : (s.fset f v n j).bar = s.bar := rfl
@[simp] theorem State.fset_skew (s : State) (f : Fld) (v n j : Nat) : (s.fset f v n j).skew = s.skew := rfl
@[simp] theorem State.fset_jo (s : State) (f : Fld) (v n j : Nat) : (s.fset f v n j).jo = s.jo := rfl
@[simp] theorem State.fset_cel (s : State) (f : Fld) (v n j : Nat) : (s.fset f v n j).cel = s.cel := rfl
@[simp] theorem State.fset_past (s : State) (f : Fld) (v n j : Nat) : (s.fset f v n j).past = s.past := rfl
@[simp] theorem State.fset_flash (s : State) (f : Fld) (v n j : Nat) : (s.fset f v n j).flash = s.flash := rfl
@[simp] theorem State.fset_resetReq (s : State) (f : Fld) (v n j : Nat) : (s.fset f v n j).resetReq = s.resetReq := rfl
@[simp] theorem State.fset_violAt (s : State) (f : Fld) (v n j : Nat) : (s.fset f v n j).violAt = s.violAt := rfl
@[simp] theorem State.fset_sessions (s : State) (f : Fld) (v n j : Nat) : (s.fset f v n j).sessions = s.sessions := rfl
@[simp] theorem State.fset_stream (s : State) (f : Fld) (v n j : Nat) : (s.fset f v n j).stream = s.stream := rfl
@[simp] theorem State.fset_thr (s : State) (f : Fld) (v n j : Nat) : (s.fset f v n j).thr = s.thr := rfl
@[simp] theorem State.fset_hw (s : State) (f : Fld) (v n j : Nat) : (s.fset f v n j).hw = s.hw := rfl
@[simp] theorem State.fset_zen (s : State) (f : Fld) (v n j : Nat) : (s.fset f v n j).zen = s.zen := rfl
@[simp] theorem State.fset_can (s : State) (f : Fld) (v n j : Nat) : (s.fset f v n j).can = s.can := rfl
@[simp] theorem State.fset_boot (s : State) (f : Fld) (v n j : Nat) : (s.fset f v n j).boot = s.boot := rfl
@[simp] theorem State.fset_fuses (s : State) (f : Fld) (v n j : Nat) : (s.fset f v n j).fuses = s.fuses := rfl
@[simp] theorem State.fset_servo (s : State) (f : Fld) (v n j : Nat) : (s.fset f v n j).servo = s.servo := rfl

/-! ### writeN -/

@[simp] theorem State.writeN_pending (s : State) (a k v : Nat) : (s.writeN a k v).pending = s.pending := rfl
@[simp] theorem State.writeN_phys (s : State) (a k v : Nat) : (s.writeN a k v).phys = s.phys := rfl
@[simp] theorem State.writeN_lclk (s : State) (a k v : Nat) : (s.writeN a k v).lclk = s.lclk := rfl
@[simp] theorem State.writeN_run (s : State) (a k v : Nat) : (s.writeN a k v).run = s.run := rfl
@[simp] theorem State.writeN_steps (s : State) (a k v : Nat) : (s.writeN a k v).steps = s.steps := rfl
@[simp] theorem State.writeN_freeCtr (s : State) (a k v : Nat) : (s.writeN a k v).freeCtr = s.freeCtr := rfl
@[simp] theorem State.writeN_rdata (s : State) (a k v : Nat) : (s.writeN a k v).rdata = s.rdata := rfl
@[simp] theorem State.writeN_regs (s : State) (a k v : Nat) : (s.writeN a k v).regs = s.regs := rfl
@[simp] theorem State.writeN_strobe (s : State) (a k v : Nat) : (s.writeN a k v).strobe = s.strobe := rfl
@[simp] theorem State.writeN_snaps (s : State) (a k v : Nat) : (s.writeN a k v).snaps = s.snaps := rfl
@[simp] theorem State.writeN_held (s : State) (a k v : Nat) : (s.writeN a k v).held = s.held := rfl
@[simp] theorem State.writeN_badPar (s : State) (a k v : Nat) : (s.writeN a k v).badPar = s.badPar := rfl
@[simp] theorem State.writeN_sp (s : State) (a k v : Nat) : (s.writeN a k v).sp = s.sp := rfl
@[simp] theorem State.writeN_snap (s : State) (a k v : Nat) : (s.writeN a k v).snap = s.snap := rfl
@[simp] theorem State.writeN_seq (s : State) (a k v : Nat) : (s.writeN a k v).seq = s.seq := rfl
@[simp] theorem State.writeN_led (s : State) (a k v : Nat) : (s.writeN a k v).led = s.led := rfl
@[simp] theorem State.writeN_mark (s : State) (a k v : Nat) : (s.writeN a k v).mark = s.mark := rfl
@[simp] theorem State.writeN_tout (s : State) (a k v : Nat) : (s.writeN a k v).tout = s.tout := rfl
@[simp] theorem State.writeN_raf (s : State) (a k v : Nat) : (s.writeN a k v).raf = s.raf := rfl
@[simp] theorem State.writeN_evs (s : State) (a k v : Nat) : (s.writeN a k v).evs = s.evs := rfl
@[simp] theorem State.writeN_ax (s : State) (a k v : Nat) : (s.writeN a k v).ax = s.ax := rfl
@[simp] theorem State.writeN_prevTick (s : State) (a k v : Nat) : (s.writeN a k v).prevTick = s.prevTick := rfl
@[simp] theorem State.writeN_prevJumps (s : State) (a k v : Nat) : (s.writeN a k v).prevJumps = s.prevJumps := rfl
@[simp] theorem State.writeN_attic (s : State) (a k v : Nat) : (s.writeN a k v).attic = s.attic := rfl
@[simp] theorem State.writeN_lp (s : State) (a k v : Nat) : (s.writeN a k v).lp = s.lp := rfl
@[simp] theorem State.writeN_outer (s : State) (a k v : Nat) : (s.writeN a k v).outer = s.outer := rfl
@[simp] theorem State.writeN_fld (s : State) (a k v : Nat) : (s.writeN a k v).fld = s.fld := rfl
@[simp] theorem State.writeN_bl (s : State) (a k v : Nat) : (s.writeN a k v).bl = s.bl := rfl
@[simp] theorem State.writeN_stp (s : State) (a k v : Nat) : (s.writeN a k v).stp = s.stp := rfl
@[simp] theorem State.writeN_stpOld (s : State) (a k v : Nat) : (s.writeN a k v).stpOld = s.stpOld := rfl
@[simp] theorem State.writeN_gateLinks (s : State) (a k v : Nat) : (s.writeN a k v).gateLinks = s.gateLinks := rfl
@[simp] theorem State.writeN_sleepGate (s : State) (a k v : Nat) : (s.writeN a k v).sleepGate = s.sleepGate := rfl
@[simp] theorem State.writeN_chuck (s : State) (a k v : Nat) : (s.writeN a k v).chuck = s.chuck := rfl
@[simp] theorem State.writeN_cmdIn (s : State) (a k v : Nat) : (s.writeN a k v).cmdIn = s.cmdIn := rfl
@[simp] theorem State.writeN_sill (s : State) (a k v : Nat) : (s.writeN a k v).sill = s.sill := rfl
@[simp] theorem State.writeN_core (s : State) (a k v : Nat) : (s.writeN a k v).core = s.core := rfl
@[simp] theorem State.writeN_march (s : State) (a k v : Nat) : (s.writeN a k v).march = s.march := rfl
@[simp] theorem State.writeN_hostPan (s : State) (a k v : Nat) : (s.writeN a k v).hostPan = s.hostPan := rfl
@[simp] theorem State.writeN_jet (s : State) (a k v : Nat) : (s.writeN a k v).jet = s.jet := rfl
@[simp] theorem State.writeN_bar (s : State) (a k v : Nat) : (s.writeN a k v).bar = s.bar := rfl
@[simp] theorem State.writeN_skew (s : State) (a k v : Nat) : (s.writeN a k v).skew = s.skew := rfl
@[simp] theorem State.writeN_jo (s : State) (a k v : Nat) : (s.writeN a k v).jo = s.jo := rfl
@[simp] theorem State.writeN_cel (s : State) (a k v : Nat) : (s.writeN a k v).cel = s.cel := rfl
@[simp] theorem State.writeN_past (s : State) (a k v : Nat) : (s.writeN a k v).past = s.past := rfl
@[simp] theorem State.writeN_flash (s : State) (a k v : Nat) : (s.writeN a k v).flash = s.flash := rfl
@[simp] theorem State.writeN_resetReq (s : State) (a k v : Nat) : (s.writeN a k v).resetReq = s.resetReq := rfl
@[simp] theorem State.writeN_violAt (s : State) (a k v : Nat) : (s.writeN a k v).violAt = s.violAt := rfl
@[simp] theorem State.writeN_sessions (s : State) (a k v : Nat) : (s.writeN a k v).sessions = s.sessions := rfl
@[simp] theorem State.writeN_stream (s : State) (a k v : Nat) : (s.writeN a k v).stream = s.stream := rfl
@[simp] theorem State.writeN_thr (s : State) (a k v : Nat) : (s.writeN a k v).thr = s.thr := rfl
@[simp] theorem State.writeN_hw (s : State) (a k v : Nat) : (s.writeN a k v).hw = s.hw := rfl
@[simp] theorem State.writeN_zen (s : State) (a k v : Nat) : (s.writeN a k v).zen = s.zen := rfl
@[simp] theorem State.writeN_can (s : State) (a k v : Nat) : (s.writeN a k v).can = s.can := rfl
@[simp] theorem State.writeN_boot (s : State) (a k v : Nat) : (s.writeN a k v).boot = s.boot := rfl
@[simp] theorem State.writeN_fuses (s : State) (a k v : Nat) : (s.writeN a k v).fuses = s.fuses := rfl
@[simp] theorem State.writeN_servo (s : State) (a k v : Nat) : (s.writeN a k v).servo = s.servo := rfl

/-! ### setMem32 -/

@[simp] theorem State.setMem32_pending (s : State) (a v : Nat) : (s.setMem32 a v).pending = s.pending := rfl
@[simp] theorem State.setMem32_phys (s : State) (a v : Nat) : (s.setMem32 a v).phys = s.phys := rfl
@[simp] theorem State.setMem32_lclk (s : State) (a v : Nat) : (s.setMem32 a v).lclk = s.lclk := rfl
@[simp] theorem State.setMem32_run (s : State) (a v : Nat) : (s.setMem32 a v).run = s.run := rfl
@[simp] theorem State.setMem32_steps (s : State) (a v : Nat) : (s.setMem32 a v).steps = s.steps := rfl
@[simp] theorem State.setMem32_freeCtr (s : State) (a v : Nat) : (s.setMem32 a v).freeCtr = s.freeCtr := rfl
@[simp] theorem State.setMem32_rdata (s : State) (a v : Nat) : (s.setMem32 a v).rdata = s.rdata := rfl
@[simp] theorem State.setMem32_regs (s : State) (a v : Nat) : (s.setMem32 a v).regs = s.regs := rfl
@[simp] theorem State.setMem32_strobe (s : State) (a v : Nat) : (s.setMem32 a v).strobe = s.strobe := rfl
@[simp] theorem State.setMem32_snaps (s : State) (a v : Nat) : (s.setMem32 a v).snaps = s.snaps := rfl
@[simp] theorem State.setMem32_held (s : State) (a v : Nat) : (s.setMem32 a v).held = s.held := rfl
@[simp] theorem State.setMem32_badPar (s : State) (a v : Nat) : (s.setMem32 a v).badPar = s.badPar := rfl
@[simp] theorem State.setMem32_sp (s : State) (a v : Nat) : (s.setMem32 a v).sp = s.sp := rfl
@[simp] theorem State.setMem32_snap (s : State) (a v : Nat) : (s.setMem32 a v).snap = s.snap := rfl
@[simp] theorem State.setMem32_seq (s : State) (a v : Nat) : (s.setMem32 a v).seq = s.seq := rfl
@[simp] theorem State.setMem32_led (s : State) (a v : Nat) : (s.setMem32 a v).led = s.led := rfl
@[simp] theorem State.setMem32_mark (s : State) (a v : Nat) : (s.setMem32 a v).mark = s.mark := rfl
@[simp] theorem State.setMem32_tout (s : State) (a v : Nat) : (s.setMem32 a v).tout = s.tout := rfl
@[simp] theorem State.setMem32_raf (s : State) (a v : Nat) : (s.setMem32 a v).raf = s.raf := rfl
@[simp] theorem State.setMem32_evs (s : State) (a v : Nat) : (s.setMem32 a v).evs = s.evs := rfl
@[simp] theorem State.setMem32_ax (s : State) (a v : Nat) : (s.setMem32 a v).ax = s.ax := rfl
@[simp] theorem State.setMem32_prevTick (s : State) (a v : Nat) : (s.setMem32 a v).prevTick = s.prevTick := rfl
@[simp] theorem State.setMem32_prevJumps (s : State) (a v : Nat) : (s.setMem32 a v).prevJumps = s.prevJumps := rfl
@[simp] theorem State.setMem32_attic (s : State) (a v : Nat) : (s.setMem32 a v).attic = s.attic := rfl
@[simp] theorem State.setMem32_lp (s : State) (a v : Nat) : (s.setMem32 a v).lp = s.lp := rfl
@[simp] theorem State.setMem32_outer (s : State) (a v : Nat) : (s.setMem32 a v).outer = s.outer := rfl
@[simp] theorem State.setMem32_fld (s : State) (a v : Nat) : (s.setMem32 a v).fld = s.fld := rfl
@[simp] theorem State.setMem32_bl (s : State) (a v : Nat) : (s.setMem32 a v).bl = s.bl := rfl
@[simp] theorem State.setMem32_stp (s : State) (a v : Nat) : (s.setMem32 a v).stp = s.stp := rfl
@[simp] theorem State.setMem32_stpOld (s : State) (a v : Nat) : (s.setMem32 a v).stpOld = s.stpOld := rfl
@[simp] theorem State.setMem32_gateLinks (s : State) (a v : Nat) : (s.setMem32 a v).gateLinks = s.gateLinks := rfl
@[simp] theorem State.setMem32_sleepGate (s : State) (a v : Nat) : (s.setMem32 a v).sleepGate = s.sleepGate := rfl
@[simp] theorem State.setMem32_chuck (s : State) (a v : Nat) : (s.setMem32 a v).chuck = s.chuck := rfl
@[simp] theorem State.setMem32_cmdIn (s : State) (a v : Nat) : (s.setMem32 a v).cmdIn = s.cmdIn := rfl
@[simp] theorem State.setMem32_sill (s : State) (a v : Nat) : (s.setMem32 a v).sill = s.sill := rfl
@[simp] theorem State.setMem32_core (s : State) (a v : Nat) : (s.setMem32 a v).core = s.core := rfl
@[simp] theorem State.setMem32_march (s : State) (a v : Nat) : (s.setMem32 a v).march = s.march := rfl
@[simp] theorem State.setMem32_hostPan (s : State) (a v : Nat) : (s.setMem32 a v).hostPan = s.hostPan := rfl
@[simp] theorem State.setMem32_jet (s : State) (a v : Nat) : (s.setMem32 a v).jet = s.jet := rfl
@[simp] theorem State.setMem32_bar (s : State) (a v : Nat) : (s.setMem32 a v).bar = s.bar := rfl
@[simp] theorem State.setMem32_skew (s : State) (a v : Nat) : (s.setMem32 a v).skew = s.skew := rfl
@[simp] theorem State.setMem32_jo (s : State) (a v : Nat) : (s.setMem32 a v).jo = s.jo := rfl
@[simp] theorem State.setMem32_cel (s : State) (a v : Nat) : (s.setMem32 a v).cel = s.cel := rfl
@[simp] theorem State.setMem32_past (s : State) (a v : Nat) : (s.setMem32 a v).past = s.past := rfl
@[simp] theorem State.setMem32_flash (s : State) (a v : Nat) : (s.setMem32 a v).flash = s.flash := rfl
@[simp] theorem State.setMem32_resetReq (s : State) (a v : Nat) : (s.setMem32 a v).resetReq = s.resetReq := rfl
@[simp] theorem State.setMem32_violAt (s : State) (a v : Nat) : (s.setMem32 a v).violAt = s.violAt := rfl
@[simp] theorem State.setMem32_sessions (s : State) (a v : Nat) : (s.setMem32 a v).sessions = s.sessions := rfl
@[simp] theorem State.setMem32_stream (s : State) (a v : Nat) : (s.setMem32 a v).stream = s.stream := rfl
@[simp] theorem State.setMem32_thr (s : State) (a v : Nat) : (s.setMem32 a v).thr = s.thr := rfl
@[simp] theorem State.setMem32_hw (s : State) (a v : Nat) : (s.setMem32 a v).hw = s.hw := rfl
@[simp] theorem State.setMem32_zen (s : State) (a v : Nat) : (s.setMem32 a v).zen = s.zen := rfl
@[simp] theorem State.setMem32_can (s : State) (a v : Nat) : (s.setMem32 a v).can = s.can := rfl
@[simp] theorem State.setMem32_boot (s : State) (a v : Nat) : (s.setMem32 a v).boot = s.boot := rfl
@[simp] theorem State.setMem32_fuses (s : State) (a v : Nat) : (s.setMem32 a v).fuses = s.fuses := rfl
@[simp] theorem State.setMem32_servo (s : State) (a v : Nat) : (s.setMem32 a v).servo = s.servo := rfl

/-! ### takeFree -/

@[simp] theorem State.takeFree_pending (s : State) : (s.takeFree.2).pending = s.pending := rfl
@[simp] theorem State.takeFree_phys (s : State) : (s.takeFree.2).phys = s.phys := rfl
@[simp] theorem State.takeFree_lclk (s : State) : (s.takeFree.2).lclk = s.lclk := rfl
@[simp] theorem State.takeFree_run (s : State) : (s.takeFree.2).run = s.run := rfl
@[simp] theorem State.takeFree_steps (s : State) : (s.takeFree.2).steps = s.steps := rfl
@[simp] theorem State.takeFree_rdata (s : State) : (s.takeFree.2).rdata = s.rdata := rfl
@[simp] theorem State.takeFree_regs (s : State) : (s.takeFree.2).regs = s.regs := rfl
@[simp] theorem State.takeFree_strobe (s : State) : (s.takeFree.2).strobe = s.strobe := rfl
@[simp] theorem State.takeFree_snaps (s : State) : (s.takeFree.2).snaps = s.snaps := rfl
@[simp] theorem State.takeFree_held (s : State) : (s.takeFree.2).held = s.held := rfl
@[simp] theorem State.takeFree_mem (s : State) : (s.takeFree.2).mem = s.mem := rfl
@[simp] theorem State.takeFree_badPar (s : State) : (s.takeFree.2).badPar = s.badPar := rfl
@[simp] theorem State.takeFree_sp (s : State) : (s.takeFree.2).sp = s.sp := rfl
@[simp] theorem State.takeFree_snap (s : State) : (s.takeFree.2).snap = s.snap := rfl
@[simp] theorem State.takeFree_seq (s : State) : (s.takeFree.2).seq = s.seq := rfl
@[simp] theorem State.takeFree_led (s : State) : (s.takeFree.2).led = s.led := rfl
@[simp] theorem State.takeFree_mark (s : State) : (s.takeFree.2).mark = s.mark := rfl
@[simp] theorem State.takeFree_tout (s : State) : (s.takeFree.2).tout = s.tout := rfl
@[simp] theorem State.takeFree_raf (s : State) : (s.takeFree.2).raf = s.raf := rfl
@[simp] theorem State.takeFree_evs (s : State) : (s.takeFree.2).evs = s.evs := rfl
@[simp] theorem State.takeFree_ax (s : State) : (s.takeFree.2).ax = s.ax := rfl
@[simp] theorem State.takeFree_prevTick (s : State) : (s.takeFree.2).prevTick = s.prevTick := rfl
@[simp] theorem State.takeFree_prevJumps (s : State) : (s.takeFree.2).prevJumps = s.prevJumps := rfl
@[simp] theorem State.takeFree_attic (s : State) : (s.takeFree.2).attic = s.attic := rfl
@[simp] theorem State.takeFree_lp (s : State) : (s.takeFree.2).lp = s.lp := rfl
@[simp] theorem State.takeFree_outer (s : State) : (s.takeFree.2).outer = s.outer := rfl
@[simp] theorem State.takeFree_fld (s : State) : (s.takeFree.2).fld = s.fld := rfl
@[simp] theorem State.takeFree_bl (s : State) : (s.takeFree.2).bl = s.bl := rfl
@[simp] theorem State.takeFree_stp (s : State) : (s.takeFree.2).stp = s.stp := rfl
@[simp] theorem State.takeFree_stpOld (s : State) : (s.takeFree.2).stpOld = s.stpOld := rfl
@[simp] theorem State.takeFree_gateLinks (s : State) : (s.takeFree.2).gateLinks = s.gateLinks := rfl
@[simp] theorem State.takeFree_sleepGate (s : State) : (s.takeFree.2).sleepGate = s.sleepGate := rfl
@[simp] theorem State.takeFree_chuck (s : State) : (s.takeFree.2).chuck = s.chuck := rfl
@[simp] theorem State.takeFree_cmdIn (s : State) : (s.takeFree.2).cmdIn = s.cmdIn := rfl
@[simp] theorem State.takeFree_sill (s : State) : (s.takeFree.2).sill = s.sill := rfl
@[simp] theorem State.takeFree_core (s : State) : (s.takeFree.2).core = s.core := rfl
@[simp] theorem State.takeFree_march (s : State) : (s.takeFree.2).march = s.march := rfl
@[simp] theorem State.takeFree_hostPan (s : State) : (s.takeFree.2).hostPan = s.hostPan := rfl
@[simp] theorem State.takeFree_jet (s : State) : (s.takeFree.2).jet = s.jet := rfl
@[simp] theorem State.takeFree_bar (s : State) : (s.takeFree.2).bar = s.bar := rfl
@[simp] theorem State.takeFree_skew (s : State) : (s.takeFree.2).skew = s.skew := rfl
@[simp] theorem State.takeFree_jo (s : State) : (s.takeFree.2).jo = s.jo := rfl
@[simp] theorem State.takeFree_cel (s : State) : (s.takeFree.2).cel = s.cel := rfl
@[simp] theorem State.takeFree_past (s : State) : (s.takeFree.2).past = s.past := rfl
@[simp] theorem State.takeFree_flash (s : State) : (s.takeFree.2).flash = s.flash := rfl
@[simp] theorem State.takeFree_resetReq (s : State) : (s.takeFree.2).resetReq = s.resetReq := rfl
@[simp] theorem State.takeFree_violAt (s : State) : (s.takeFree.2).violAt = s.violAt := rfl
@[simp] theorem State.takeFree_sessions (s : State) : (s.takeFree.2).sessions = s.sessions := rfl
@[simp] theorem State.takeFree_stream (s : State) : (s.takeFree.2).stream = s.stream := rfl
@[simp] theorem State.takeFree_thr (s : State) : (s.takeFree.2).thr = s.thr := rfl
@[simp] theorem State.takeFree_hw (s : State) : (s.takeFree.2).hw = s.hw := rfl
@[simp] theorem State.takeFree_zen (s : State) : (s.takeFree.2).zen = s.zen := rfl
@[simp] theorem State.takeFree_can (s : State) : (s.takeFree.2).can = s.can := rfl
@[simp] theorem State.takeFree_boot (s : State) : (s.takeFree.2).boot = s.boot := rfl
@[simp] theorem State.takeFree_fuses (s : State) : (s.takeFree.2).fuses = s.fuses := rfl
@[simp] theorem State.takeFree_servo (s : State) : (s.takeFree.2).servo = s.servo := rfl

/-! ### modSp -/

@[simp] theorem State.modSp_pending (s : State) (n : Fin 16) (f : Spindle → Spindle) :
    (s.modSp n f).pending = s.pending := rfl
@[simp] theorem State.modSp_phys (s : State) (n : Fin 16) (f : Spindle → Spindle) : (s.modSp n f).phys = s.phys := rfl
@[simp] theorem State.modSp_lclk (s : State) (n : Fin 16) (f : Spindle → Spindle) : (s.modSp n f).lclk = s.lclk := rfl
@[simp] theorem State.modSp_run (s : State) (n : Fin 16) (f : Spindle → Spindle) : (s.modSp n f).run = s.run := rfl
@[simp] theorem State.modSp_steps (s : State) (n : Fin 16) (f : Spindle → Spindle) :
    (s.modSp n f).steps = s.steps := rfl
@[simp] theorem State.modSp_freeCtr (s : State) (n : Fin 16) (f : Spindle → Spindle) :
    (s.modSp n f).freeCtr = s.freeCtr := rfl
@[simp] theorem State.modSp_rdata (s : State) (n : Fin 16) (f : Spindle → Spindle) :
    (s.modSp n f).rdata = s.rdata := rfl
@[simp] theorem State.modSp_regs (s : State) (n : Fin 16) (f : Spindle → Spindle) : (s.modSp n f).regs = s.regs := rfl
@[simp] theorem State.modSp_strobe (s : State) (n : Fin 16) (f : Spindle → Spindle) :
    (s.modSp n f).strobe = s.strobe := rfl
@[simp] theorem State.modSp_snaps (s : State) (n : Fin 16) (f : Spindle → Spindle) :
    (s.modSp n f).snaps = s.snaps := rfl
@[simp] theorem State.modSp_held (s : State) (n : Fin 16) (f : Spindle → Spindle) : (s.modSp n f).held = s.held := rfl
@[simp] theorem State.modSp_mem (s : State) (n : Fin 16) (f : Spindle → Spindle) : (s.modSp n f).mem = s.mem := rfl
@[simp] theorem State.modSp_badPar (s : State) (n : Fin 16) (f : Spindle → Spindle) :
    (s.modSp n f).badPar = s.badPar := rfl
@[simp] theorem State.modSp_snap (s : State) (n : Fin 16) (f : Spindle → Spindle) : (s.modSp n f).snap = s.snap := rfl
@[simp] theorem State.modSp_seq (s : State) (n : Fin 16) (f : Spindle → Spindle) : (s.modSp n f).seq = s.seq := rfl
@[simp] theorem State.modSp_led (s : State) (n : Fin 16) (f : Spindle → Spindle) : (s.modSp n f).led = s.led := rfl
@[simp] theorem State.modSp_mark (s : State) (n : Fin 16) (f : Spindle → Spindle) : (s.modSp n f).mark = s.mark := rfl
@[simp] theorem State.modSp_tout (s : State) (n : Fin 16) (f : Spindle → Spindle) : (s.modSp n f).tout = s.tout := rfl
@[simp] theorem State.modSp_raf (s : State) (n : Fin 16) (f : Spindle → Spindle) : (s.modSp n f).raf = s.raf := rfl
@[simp] theorem State.modSp_evs (s : State) (n : Fin 16) (f : Spindle → Spindle) : (s.modSp n f).evs = s.evs := rfl
@[simp] theorem State.modSp_ax (s : State) (n : Fin 16) (f : Spindle → Spindle) : (s.modSp n f).ax = s.ax := rfl
@[simp] theorem State.modSp_prevTick (s : State) (n : Fin 16) (f : Spindle → Spindle) :
    (s.modSp n f).prevTick = s.prevTick := rfl
@[simp] theorem State.modSp_prevJumps (s : State) (n : Fin 16) (f : Spindle → Spindle) :
    (s.modSp n f).prevJumps = s.prevJumps := rfl
@[simp] theorem State.modSp_attic (s : State) (n : Fin 16) (f : Spindle → Spindle) :
    (s.modSp n f).attic = s.attic := rfl
@[simp] theorem State.modSp_lp (s : State) (n : Fin 16) (f : Spindle → Spindle) : (s.modSp n f).lp = s.lp := rfl
@[simp] theorem State.modSp_outer (s : State) (n : Fin 16) (f : Spindle → Spindle) :
    (s.modSp n f).outer = s.outer := rfl
@[simp] theorem State.modSp_fld (s : State) (n : Fin 16) (f : Spindle → Spindle) : (s.modSp n f).fld = s.fld := rfl
@[simp] theorem State.modSp_bl (s : State) (n : Fin 16) (f : Spindle → Spindle) : (s.modSp n f).bl = s.bl := rfl
@[simp] theorem State.modSp_stp (s : State) (n : Fin 16) (f : Spindle → Spindle) : (s.modSp n f).stp = s.stp := rfl
@[simp] theorem State.modSp_stpOld (s : State) (n : Fin 16) (f : Spindle → Spindle) :
    (s.modSp n f).stpOld = s.stpOld := rfl
@[simp] theorem State.modSp_gateLinks (s : State) (n : Fin 16) (f : Spindle → Spindle) :
    (s.modSp n f).gateLinks = s.gateLinks := rfl
@[simp] theorem State.modSp_sleepGate (s : State) (n : Fin 16) (f : Spindle → Spindle) :
    (s.modSp n f).sleepGate = s.sleepGate := rfl
@[simp] theorem State.modSp_chuck (s : State) (n : Fin 16) (f : Spindle → Spindle) :
    (s.modSp n f).chuck = s.chuck := rfl
@[simp] theorem State.modSp_cmdIn (s : State) (n : Fin 16) (f : Spindle → Spindle) :
    (s.modSp n f).cmdIn = s.cmdIn := rfl
@[simp] theorem State.modSp_sill (s : State) (n : Fin 16) (f : Spindle → Spindle) : (s.modSp n f).sill = s.sill := rfl
@[simp] theorem State.modSp_core (s : State) (n : Fin 16) (f : Spindle → Spindle) : (s.modSp n f).core = s.core := rfl
@[simp] theorem State.modSp_march (s : State) (n : Fin 16) (f : Spindle → Spindle) :
    (s.modSp n f).march = s.march := rfl
@[simp] theorem State.modSp_hostPan (s : State) (n : Fin 16) (f : Spindle → Spindle) :
    (s.modSp n f).hostPan = s.hostPan := rfl
@[simp] theorem State.modSp_jet (s : State) (n : Fin 16) (f : Spindle → Spindle) : (s.modSp n f).jet = s.jet := rfl
@[simp] theorem State.modSp_bar (s : State) (n : Fin 16) (f : Spindle → Spindle) : (s.modSp n f).bar = s.bar := rfl
@[simp] theorem State.modSp_skew (s : State) (n : Fin 16) (f : Spindle → Spindle) : (s.modSp n f).skew = s.skew := rfl
@[simp] theorem State.modSp_jo (s : State) (n : Fin 16) (f : Spindle → Spindle) : (s.modSp n f).jo = s.jo := rfl
@[simp] theorem State.modSp_cel (s : State) (n : Fin 16) (f : Spindle → Spindle) : (s.modSp n f).cel = s.cel := rfl
@[simp] theorem State.modSp_past (s : State) (n : Fin 16) (f : Spindle → Spindle) : (s.modSp n f).past = s.past := rfl
@[simp] theorem State.modSp_flash (s : State) (n : Fin 16) (f : Spindle → Spindle) :
    (s.modSp n f).flash = s.flash := rfl
@[simp] theorem State.modSp_resetReq (s : State) (n : Fin 16) (f : Spindle → Spindle) :
    (s.modSp n f).resetReq = s.resetReq := rfl
@[simp] theorem State.modSp_violAt (s : State) (n : Fin 16) (f : Spindle → Spindle) :
    (s.modSp n f).violAt = s.violAt := rfl
@[simp] theorem State.modSp_sessions (s : State) (n : Fin 16) (f : Spindle → Spindle) :
    (s.modSp n f).sessions = s.sessions := rfl
@[simp] theorem State.modSp_stream (s : State) (n : Fin 16) (f : Spindle → Spindle) :
    (s.modSp n f).stream = s.stream := rfl
@[simp] theorem State.modSp_thr (s : State) (n : Fin 16) (f : Spindle → Spindle) : (s.modSp n f).thr = s.thr := rfl
@[simp] theorem State.modSp_hw (s : State) (n : Fin 16) (f : Spindle → Spindle) : (s.modSp n f).hw = s.hw := rfl
@[simp] theorem State.modSp_zen (s : State) (n : Fin 16) (f : Spindle → Spindle) : (s.modSp n f).zen = s.zen := rfl
@[simp] theorem State.modSp_can (s : State) (n : Fin 16) (f : Spindle → Spindle) : (s.modSp n f).can = s.can := rfl
@[simp] theorem State.modSp_boot (s : State) (n : Fin 16) (f : Spindle → Spindle) : (s.modSp n f).boot = s.boot := rfl
@[simp] theorem State.modSp_fuses (s : State) (n : Fin 16) (f : Spindle → Spindle) :
    (s.modSp n f).fuses = s.fuses := rfl
@[simp] theorem State.modSp_servo (s : State) (n : Fin 16) (f : Spindle → Spindle) :
    (s.modSp n f).servo = s.servo := rfl
@[simp] theorem State.modSp_same (s : State) (n : Fin 16) (f : Spindle → Spindle) : (s.modSp n f).sp[n] = f s.sp[n] := by
  simp [State.modSp]
theorem State.modSp_other (s : State) (n : Fin 16) (f : Spindle → Spindle) {m : Fin 16} (h : m ≠ n) : (s.modSp n f).sp[m] = s.sp[m] := by
  simp [State.modSp, Fin.val_inj, Ne.symm h]

/-! ### modMark -/

@[simp] theorem State.modMark_pending (s : State) (n : Fin 16) (f : Mark → Mark) :
    (s.modMark n f).pending = s.pending := rfl
@[simp] theorem State.modMark_phys (s : State) (n : Fin 16) (f : Mark → Mark) : (s.modMark n f).phys = s.phys := rfl
@[simp] theorem State.modMark_lclk (s : State) (n : Fin 16) (f : Mark → Mark) : (s.modMark n f).lclk = s.lclk := rfl
@[simp] theorem State.modMark_run (s : State) (n : Fin 16) (f : Mark → Mark) : (s.modMark n f).run = s.run := rfl
@[simp] theorem State.modMark_steps (s : State) (n : Fin 16) (f : Mark → Mark) : (s.modMark n f).steps = s.steps := rfl
@[simp] theorem State.modMark_freeCtr (s : State) (n : Fin 16) (f : Mark → Mark) :
    (s.modMark n f).freeCtr = s.freeCtr := rfl
@[simp] theorem State.modMark_rdata (s : State) (n : Fin 16) (f : Mark → Mark) : (s.modMark n f).rdata = s.rdata := rfl
@[simp] theorem State.modMark_regs (s : State) (n : Fin 16) (f : Mark → Mark) : (s.modMark n f).regs = s.regs := rfl
@[simp] theorem State.modMark_strobe (s : State) (n : Fin 16) (f : Mark → Mark) :
    (s.modMark n f).strobe = s.strobe := rfl
@[simp] theorem State.modMark_snaps (s : State) (n : Fin 16) (f : Mark → Mark) : (s.modMark n f).snaps = s.snaps := rfl
@[simp] theorem State.modMark_held (s : State) (n : Fin 16) (f : Mark → Mark) : (s.modMark n f).held = s.held := rfl
@[simp] theorem State.modMark_mem (s : State) (n : Fin 16) (f : Mark → Mark) : (s.modMark n f).mem = s.mem := rfl
@[simp] theorem State.modMark_badPar (s : State) (n : Fin 16) (f : Mark → Mark) :
    (s.modMark n f).badPar = s.badPar := rfl
@[simp] theorem State.modMark_sp (s : State) (n : Fin 16) (f : Mark → Mark) : (s.modMark n f).sp = s.sp := rfl
@[simp] theorem State.modMark_snap (s : State) (n : Fin 16) (f : Mark → Mark) : (s.modMark n f).snap = s.snap := rfl
@[simp] theorem State.modMark_seq (s : State) (n : Fin 16) (f : Mark → Mark) : (s.modMark n f).seq = s.seq := rfl
@[simp] theorem State.modMark_led (s : State) (n : Fin 16) (f : Mark → Mark) : (s.modMark n f).led = s.led := rfl
@[simp] theorem State.modMark_tout (s : State) (n : Fin 16) (f : Mark → Mark) : (s.modMark n f).tout = s.tout := rfl
@[simp] theorem State.modMark_raf (s : State) (n : Fin 16) (f : Mark → Mark) : (s.modMark n f).raf = s.raf := rfl
@[simp] theorem State.modMark_evs (s : State) (n : Fin 16) (f : Mark → Mark) : (s.modMark n f).evs = s.evs := rfl
@[simp] theorem State.modMark_ax (s : State) (n : Fin 16) (f : Mark → Mark) : (s.modMark n f).ax = s.ax := rfl
@[simp] theorem State.modMark_prevTick (s : State) (n : Fin 16) (f : Mark → Mark) :
    (s.modMark n f).prevTick = s.prevTick := rfl
@[simp] theorem State.modMark_prevJumps (s : State) (n : Fin 16) (f : Mark → Mark) :
    (s.modMark n f).prevJumps = s.prevJumps := rfl
@[simp] theorem State.modMark_attic (s : State) (n : Fin 16) (f : Mark → Mark) : (s.modMark n f).attic = s.attic := rfl
@[simp] theorem State.modMark_lp (s : State) (n : Fin 16) (f : Mark → Mark) : (s.modMark n f).lp = s.lp := rfl
@[simp] theorem State.modMark_outer (s : State) (n : Fin 16) (f : Mark → Mark) : (s.modMark n f).outer = s.outer := rfl
@[simp] theorem State.modMark_fld (s : State) (n : Fin 16) (f : Mark → Mark) : (s.modMark n f).fld = s.fld := rfl
@[simp] theorem State.modMark_bl (s : State) (n : Fin 16) (f : Mark → Mark) : (s.modMark n f).bl = s.bl := rfl
@[simp] theorem State.modMark_stp (s : State) (n : Fin 16) (f : Mark → Mark) : (s.modMark n f).stp = s.stp := rfl
@[simp] theorem State.modMark_stpOld (s : State) (n : Fin 16) (f : Mark → Mark) :
    (s.modMark n f).stpOld = s.stpOld := rfl
@[simp] theorem State.modMark_gateLinks (s : State) (n : Fin 16) (f : Mark → Mark) :
    (s.modMark n f).gateLinks = s.gateLinks := rfl
@[simp] theorem State.modMark_sleepGate (s : State) (n : Fin 16) (f : Mark → Mark) :
    (s.modMark n f).sleepGate = s.sleepGate := rfl
@[simp] theorem State.modMark_chuck (s : State) (n : Fin 16) (f : Mark → Mark) : (s.modMark n f).chuck = s.chuck := rfl
@[simp] theorem State.modMark_cmdIn (s : State) (n : Fin 16) (f : Mark → Mark) : (s.modMark n f).cmdIn = s.cmdIn := rfl
@[simp] theorem State.modMark_sill (s : State) (n : Fin 16) (f : Mark → Mark) : (s.modMark n f).sill = s.sill := rfl
@[simp] theorem State.modMark_core (s : State) (n : Fin 16) (f : Mark → Mark) : (s.modMark n f).core = s.core := rfl
@[simp] theorem State.modMark_march (s : State) (n : Fin 16) (f : Mark → Mark) : (s.modMark n f).march = s.march := rfl
@[simp] theorem State.modMark_hostPan (s : State) (n : Fin 16) (f : Mark → Mark) :
    (s.modMark n f).hostPan = s.hostPan := rfl
@[simp] theorem State.modMark_jet (s : State) (n : Fin 16) (f : Mark → Mark) : (s.modMark n f).jet = s.jet := rfl
@[simp] theorem State.modMark_bar (s : State) (n : Fin 16) (f : Mark → Mark) : (s.modMark n f).bar = s.bar := rfl
@[simp] theorem State.modMark_skew (s : State) (n : Fin 16) (f : Mark → Mark) : (s.modMark n f).skew = s.skew := rfl
@[simp] theorem State.modMark_jo (s : State) (n : Fin 16) (f : Mark → Mark) : (s.modMark n f).jo = s.jo := rfl
@[simp] theorem State.modMark_cel (s : State) (n : Fin 16) (f : Mark → Mark) : (s.modMark n f).cel = s.cel := rfl
@[simp] theorem State.modMark_past (s : State) (n : Fin 16) (f : Mark → Mark) : (s.modMark n f).past = s.past := rfl
@[simp] theorem State.modMark_flash (s : State) (n : Fin 16) (f : Mark → Mark) : (s.modMark n f).flash = s.flash := rfl
@[simp] theorem State.modMark_resetReq (s : State) (n : Fin 16) (f : Mark → Mark) :
    (s.modMark n f).resetReq = s.resetReq := rfl
@[simp] theorem State.modMark_violAt (s : State) (n : Fin 16) (f : Mark → Mark) :
    (s.modMark n f).violAt = s.violAt := rfl
@[simp] theorem State.modMark_sessions (s : State) (n : Fin 16) (f : Mark → Mark) :
    (s.modMark n f).sessions = s.sessions := rfl
@[simp] theorem State.modMark_stream (s : State) (n : Fin 16) (f : Mark → Mark) :
    (s.modMark n f).stream = s.stream := rfl
@[simp] theorem State.modMark_thr (s : State) (n : Fin 16) (f : Mark → Mark) : (s.modMark n f).thr = s.thr := rfl
@[simp] theorem State.modMark_hw (s : State) (n : Fin 16) (f : Mark → Mark) : (s.modMark n f).hw = s.hw := rfl
@[simp] theorem State.modMark_zen (s : State) (n : Fin 16) (f : Mark → Mark) : (s.modMark n f).zen = s.zen := rfl
@[simp] theorem State.modMark_can (s : State) (n : Fin 16) (f : Mark → Mark) : (s.modMark n f).can = s.can := rfl
@[simp] theorem State.modMark_boot (s : State) (n : Fin 16) (f : Mark → Mark) : (s.modMark n f).boot = s.boot := rfl
@[simp] theorem State.modMark_fuses (s : State) (n : Fin 16) (f : Mark → Mark) : (s.modMark n f).fuses = s.fuses := rfl
@[simp] theorem State.modMark_servo (s : State) (n : Fin 16) (f : Mark → Mark) : (s.modMark n f).servo = s.servo := rfl
@[simp] theorem State.modMark_same (s : State) (n : Fin 16) (f : Mark → Mark) : (s.modMark n f).mark[n] = f s.mark[n] := by
  simp [State.modMark]
theorem State.modMark_other (s : State) (n : Fin 16) (f : Mark → Mark) {m : Fin 16} (h : m ≠ n) : (s.modMark n f).mark[m] = s.mark[m] := by
  simp [State.modMark, Fin.val_inj, Ne.symm h]

/-! ### modAx -/

@[simp] theorem State.modAx_pending (s : State) (n : Fin 64) (f : Axis → Axis) :
    (s.modAx n f).pending = s.pending := rfl
@[simp] theorem State.modAx_phys (s : State) (n : Fin 64) (f : Axis → Axis) : (s.modAx n f).phys = s.phys := rfl
@[simp] theorem State.modAx_lclk (s : State) (n : Fin 64) (f : Axis → Axis) : (s.modAx n f).lclk = s.lclk := rfl
@[simp] theorem State.modAx_run (s : State) (n : Fin 64) (f : Axis → Axis) : (s.modAx n f).run = s.run := rfl
@[simp] theorem State.modAx_steps (s : State) (n : Fin 64) (f : Axis → Axis) : (s.modAx n f).steps = s.steps := rfl
@[simp] theorem State.modAx_freeCtr (s : State) (n : Fin 64) (f : Axis → Axis) :
    (s.modAx n f).freeCtr = s.freeCtr := rfl
@[simp] theorem State.modAx_rdata (s : State) (n : Fin 64) (f : Axis → Axis) : (s.modAx n f).rdata = s.rdata := rfl
@[simp] theorem State.modAx_regs (s : State) (n : Fin 64) (f : Axis → Axis) : (s.modAx n f).regs = s.regs := rfl
@[simp] theorem State.modAx_strobe (s : State) (n : Fin 64) (f : Axis → Axis) : (s.modAx n f).strobe = s.strobe := rfl
@[simp] theorem State.modAx_snaps (s : State) (n : Fin 64) (f : Axis → Axis) : (s.modAx n f).snaps = s.snaps := rfl
@[simp] theorem State.modAx_held (s : State) (n : Fin 64) (f : Axis → Axis) : (s.modAx n f).held = s.held := rfl
@[simp] theorem State.modAx_mem (s : State) (n : Fin 64) (f : Axis → Axis) : (s.modAx n f).mem = s.mem := rfl
@[simp] theorem State.modAx_badPar (s : State) (n : Fin 64) (f : Axis → Axis) : (s.modAx n f).badPar = s.badPar := rfl
@[simp] theorem State.modAx_sp (s : State) (n : Fin 64) (f : Axis → Axis) : (s.modAx n f).sp = s.sp := rfl
@[simp] theorem State.modAx_snap (s : State) (n : Fin 64) (f : Axis → Axis) : (s.modAx n f).snap = s.snap := rfl
@[simp] theorem State.modAx_seq (s : State) (n : Fin 64) (f : Axis → Axis) : (s.modAx n f).seq = s.seq := rfl
@[simp] theorem State.modAx_led (s : State) (n : Fin 64) (f : Axis → Axis) : (s.modAx n f).led = s.led := rfl
@[simp] theorem State.modAx_mark (s : State) (n : Fin 64) (f : Axis → Axis) : (s.modAx n f).mark = s.mark := rfl
@[simp] theorem State.modAx_tout (s : State) (n : Fin 64) (f : Axis → Axis) : (s.modAx n f).tout = s.tout := rfl
@[simp] theorem State.modAx_raf (s : State) (n : Fin 64) (f : Axis → Axis) : (s.modAx n f).raf = s.raf := rfl
@[simp] theorem State.modAx_evs (s : State) (n : Fin 64) (f : Axis → Axis) : (s.modAx n f).evs = s.evs := rfl
@[simp] theorem State.modAx_prevTick (s : State) (n : Fin 64) (f : Axis → Axis) :
    (s.modAx n f).prevTick = s.prevTick := rfl
@[simp] theorem State.modAx_prevJumps (s : State) (n : Fin 64) (f : Axis → Axis) :
    (s.modAx n f).prevJumps = s.prevJumps := rfl
@[simp] theorem State.modAx_attic (s : State) (n : Fin 64) (f : Axis → Axis) : (s.modAx n f).attic = s.attic := rfl
@[simp] theorem State.modAx_lp (s : State) (n : Fin 64) (f : Axis → Axis) : (s.modAx n f).lp = s.lp := rfl
@[simp] theorem State.modAx_outer (s : State) (n : Fin 64) (f : Axis → Axis) : (s.modAx n f).outer = s.outer := rfl
@[simp] theorem State.modAx_fld (s : State) (n : Fin 64) (f : Axis → Axis) : (s.modAx n f).fld = s.fld := rfl
@[simp] theorem State.modAx_bl (s : State) (n : Fin 64) (f : Axis → Axis) : (s.modAx n f).bl = s.bl := rfl
@[simp] theorem State.modAx_stp (s : State) (n : Fin 64) (f : Axis → Axis) : (s.modAx n f).stp = s.stp := rfl
@[simp] theorem State.modAx_stpOld (s : State) (n : Fin 64) (f : Axis → Axis) : (s.modAx n f).stpOld = s.stpOld := rfl
@[simp] theorem State.modAx_gateLinks (s : State) (n : Fin 64) (f : Axis → Axis) :
    (s.modAx n f).gateLinks = s.gateLinks := rfl
@[simp] theorem State.modAx_sleepGate (s : State) (n : Fin 64) (f : Axis → Axis) :
    (s.modAx n f).sleepGate = s.sleepGate := rfl
@[simp] theorem State.modAx_chuck (s : State) (n : Fin 64) (f : Axis → Axis) : (s.modAx n f).chuck = s.chuck := rfl
@[simp] theorem State.modAx_cmdIn (s : State) (n : Fin 64) (f : Axis → Axis) : (s.modAx n f).cmdIn = s.cmdIn := rfl
@[simp] theorem State.modAx_sill (s : State) (n : Fin 64) (f : Axis → Axis) : (s.modAx n f).sill = s.sill := rfl
@[simp] theorem State.modAx_core (s : State) (n : Fin 64) (f : Axis → Axis) : (s.modAx n f).core = s.core := rfl
@[simp] theorem State.modAx_march (s : State) (n : Fin 64) (f : Axis → Axis) : (s.modAx n f).march = s.march := rfl
@[simp] theorem State.modAx_hostPan (s : State) (n : Fin 64) (f : Axis → Axis) :
    (s.modAx n f).hostPan = s.hostPan := rfl
@[simp] theorem State.modAx_jet (s : State) (n : Fin 64) (f : Axis → Axis) : (s.modAx n f).jet = s.jet := rfl
@[simp] theorem State.modAx_bar (s : State) (n : Fin 64) (f : Axis → Axis) : (s.modAx n f).bar = s.bar := rfl
@[simp] theorem State.modAx_skew (s : State) (n : Fin 64) (f : Axis → Axis) : (s.modAx n f).skew = s.skew := rfl
@[simp] theorem State.modAx_jo (s : State) (n : Fin 64) (f : Axis → Axis) : (s.modAx n f).jo = s.jo := rfl
@[simp] theorem State.modAx_cel (s : State) (n : Fin 64) (f : Axis → Axis) : (s.modAx n f).cel = s.cel := rfl
@[simp] theorem State.modAx_past (s : State) (n : Fin 64) (f : Axis → Axis) : (s.modAx n f).past = s.past := rfl
@[simp] theorem State.modAx_flash (s : State) (n : Fin 64) (f : Axis → Axis) : (s.modAx n f).flash = s.flash := rfl
@[simp] theorem State.modAx_resetReq (s : State) (n : Fin 64) (f : Axis → Axis) :
    (s.modAx n f).resetReq = s.resetReq := rfl
@[simp] theorem State.modAx_violAt (s : State) (n : Fin 64) (f : Axis → Axis) : (s.modAx n f).violAt = s.violAt := rfl
@[simp] theorem State.modAx_sessions (s : State) (n : Fin 64) (f : Axis → Axis) :
    (s.modAx n f).sessions = s.sessions := rfl
@[simp] theorem State.modAx_stream (s : State) (n : Fin 64) (f : Axis → Axis) : (s.modAx n f).stream = s.stream := rfl
@[simp] theorem State.modAx_thr (s : State) (n : Fin 64) (f : Axis → Axis) : (s.modAx n f).thr = s.thr := rfl
@[simp] theorem State.modAx_hw (s : State) (n : Fin 64) (f : Axis → Axis) : (s.modAx n f).hw = s.hw := rfl
@[simp] theorem State.modAx_zen (s : State) (n : Fin 64) (f : Axis → Axis) : (s.modAx n f).zen = s.zen := rfl
@[simp] theorem State.modAx_can (s : State) (n : Fin 64) (f : Axis → Axis) : (s.modAx n f).can = s.can := rfl
@[simp] theorem State.modAx_boot (s : State) (n : Fin 64) (f : Axis → Axis) : (s.modAx n f).boot = s.boot := rfl
@[simp] theorem State.modAx_fuses (s : State) (n : Fin 64) (f : Axis → Axis) : (s.modAx n f).fuses = s.fuses := rfl
@[simp] theorem State.modAx_servo (s : State) (n : Fin 64) (f : Axis → Axis) : (s.modAx n f).servo = s.servo := rfl
@[simp] theorem State.modAx_same (s : State) (n : Fin 64) (f : Axis → Axis) : (s.modAx n f).ax[n] = f s.ax[n] := by
  simp [State.modAx]
theorem State.modAx_other (s : State) (n : Fin 64) (f : Axis → Axis) {m : Fin 64} (h : m ≠ n) : (s.modAx n f).ax[m] = s.ax[m] := by
  simp [State.modAx, Fin.val_inj, Ne.symm h]

/-! ### modLp -/

@[simp] theorem State.modLp_pending (s : State) (n : Fin 64) (f : Loop → Loop) :
    (s.modLp n f).pending = s.pending := rfl
@[simp] theorem State.modLp_phys (s : State) (n : Fin 64) (f : Loop → Loop) : (s.modLp n f).phys = s.phys := rfl
@[simp] theorem State.modLp_lclk (s : State) (n : Fin 64) (f : Loop → Loop) : (s.modLp n f).lclk = s.lclk := rfl
@[simp] theorem State.modLp_run (s : State) (n : Fin 64) (f : Loop → Loop) : (s.modLp n f).run = s.run := rfl
@[simp] theorem State.modLp_steps (s : State) (n : Fin 64) (f : Loop → Loop) : (s.modLp n f).steps = s.steps := rfl
@[simp] theorem State.modLp_freeCtr (s : State) (n : Fin 64) (f : Loop → Loop) :
    (s.modLp n f).freeCtr = s.freeCtr := rfl
@[simp] theorem State.modLp_rdata (s : State) (n : Fin 64) (f : Loop → Loop) : (s.modLp n f).rdata = s.rdata := rfl
@[simp] theorem State.modLp_regs (s : State) (n : Fin 64) (f : Loop → Loop) : (s.modLp n f).regs = s.regs := rfl
@[simp] theorem State.modLp_strobe (s : State) (n : Fin 64) (f : Loop → Loop) : (s.modLp n f).strobe = s.strobe := rfl
@[simp] theorem State.modLp_snaps (s : State) (n : Fin 64) (f : Loop → Loop) : (s.modLp n f).snaps = s.snaps := rfl
@[simp] theorem State.modLp_held (s : State) (n : Fin 64) (f : Loop → Loop) : (s.modLp n f).held = s.held := rfl
@[simp] theorem State.modLp_mem (s : State) (n : Fin 64) (f : Loop → Loop) : (s.modLp n f).mem = s.mem := rfl
@[simp] theorem State.modLp_badPar (s : State) (n : Fin 64) (f : Loop → Loop) : (s.modLp n f).badPar = s.badPar := rfl
@[simp] theorem State.modLp_sp (s : State) (n : Fin 64) (f : Loop → Loop) : (s.modLp n f).sp = s.sp := rfl
@[simp] theorem State.modLp_snap (s : State) (n : Fin 64) (f : Loop → Loop) : (s.modLp n f).snap = s.snap := rfl
@[simp] theorem State.modLp_seq (s : State) (n : Fin 64) (f : Loop → Loop) : (s.modLp n f).seq = s.seq := rfl
@[simp] theorem State.modLp_led (s : State) (n : Fin 64) (f : Loop → Loop) : (s.modLp n f).led = s.led := rfl
@[simp] theorem State.modLp_mark (s : State) (n : Fin 64) (f : Loop → Loop) : (s.modLp n f).mark = s.mark := rfl
@[simp] theorem State.modLp_tout (s : State) (n : Fin 64) (f : Loop → Loop) : (s.modLp n f).tout = s.tout := rfl
@[simp] theorem State.modLp_raf (s : State) (n : Fin 64) (f : Loop → Loop) : (s.modLp n f).raf = s.raf := rfl
@[simp] theorem State.modLp_evs (s : State) (n : Fin 64) (f : Loop → Loop) : (s.modLp n f).evs = s.evs := rfl
@[simp] theorem State.modLp_ax (s : State) (n : Fin 64) (f : Loop → Loop) : (s.modLp n f).ax = s.ax := rfl
@[simp] theorem State.modLp_prevTick (s : State) (n : Fin 64) (f : Loop → Loop) :
    (s.modLp n f).prevTick = s.prevTick := rfl
@[simp] theorem State.modLp_prevJumps (s : State) (n : Fin 64) (f : Loop → Loop) :
    (s.modLp n f).prevJumps = s.prevJumps := rfl
@[simp] theorem State.modLp_attic (s : State) (n : Fin 64) (f : Loop → Loop) : (s.modLp n f).attic = s.attic := rfl
@[simp] theorem State.modLp_outer (s : State) (n : Fin 64) (f : Loop → Loop) : (s.modLp n f).outer = s.outer := rfl
@[simp] theorem State.modLp_fld (s : State) (n : Fin 64) (f : Loop → Loop) : (s.modLp n f).fld = s.fld := rfl
@[simp] theorem State.modLp_bl (s : State) (n : Fin 64) (f : Loop → Loop) : (s.modLp n f).bl = s.bl := rfl
@[simp] theorem State.modLp_stp (s : State) (n : Fin 64) (f : Loop → Loop) : (s.modLp n f).stp = s.stp := rfl
@[simp] theorem State.modLp_stpOld (s : State) (n : Fin 64) (f : Loop → Loop) : (s.modLp n f).stpOld = s.stpOld := rfl
@[simp] theorem State.modLp_gateLinks (s : State) (n : Fin 64) (f : Loop → Loop) :
    (s.modLp n f).gateLinks = s.gateLinks := rfl
@[simp] theorem State.modLp_sleepGate (s : State) (n : Fin 64) (f : Loop → Loop) :
    (s.modLp n f).sleepGate = s.sleepGate := rfl
@[simp] theorem State.modLp_chuck (s : State) (n : Fin 64) (f : Loop → Loop) : (s.modLp n f).chuck = s.chuck := rfl
@[simp] theorem State.modLp_cmdIn (s : State) (n : Fin 64) (f : Loop → Loop) : (s.modLp n f).cmdIn = s.cmdIn := rfl
@[simp] theorem State.modLp_sill (s : State) (n : Fin 64) (f : Loop → Loop) : (s.modLp n f).sill = s.sill := rfl
@[simp] theorem State.modLp_core (s : State) (n : Fin 64) (f : Loop → Loop) : (s.modLp n f).core = s.core := rfl
@[simp] theorem State.modLp_march (s : State) (n : Fin 64) (f : Loop → Loop) : (s.modLp n f).march = s.march := rfl
@[simp] theorem State.modLp_hostPan (s : State) (n : Fin 64) (f : Loop → Loop) :
    (s.modLp n f).hostPan = s.hostPan := rfl
@[simp] theorem State.modLp_jet (s : State) (n : Fin 64) (f : Loop → Loop) : (s.modLp n f).jet = s.jet := rfl
@[simp] theorem State.modLp_bar (s : State) (n : Fin 64) (f : Loop → Loop) : (s.modLp n f).bar = s.bar := rfl
@[simp] theorem State.modLp_skew (s : State) (n : Fin 64) (f : Loop → Loop) : (s.modLp n f).skew = s.skew := rfl
@[simp] theorem State.modLp_jo (s : State) (n : Fin 64) (f : Loop → Loop) : (s.modLp n f).jo = s.jo := rfl
@[simp] theorem State.modLp_cel (s : State) (n : Fin 64) (f : Loop → Loop) : (s.modLp n f).cel = s.cel := rfl
@[simp] theorem State.modLp_past (s : State) (n : Fin 64) (f : Loop → Loop) : (s.modLp n f).past = s.past := rfl
@[simp] theorem State.modLp_flash (s : State) (n : Fin 64) (f : Loop → Loop) : (s.modLp n f).flash = s.flash := rfl
@[simp] theorem State.modLp_resetReq (s : State) (n : Fin 64) (f : Loop → Loop) :
    (s.modLp n f).resetReq = s.resetReq := rfl
@[simp] theorem State.modLp_violAt (s : State) (n : Fin 64) (f : Loop → Loop) : (s.modLp n f).violAt = s.violAt := rfl
@[simp] theorem State.modLp_sessions (s : State) (n : Fin 64) (f : Loop → Loop) :
    (s.modLp n f).sessions = s.sessions := rfl
@[simp] theorem State.modLp_stream (s : State) (n : Fin 64) (f : Loop → Loop) : (s.modLp n f).stream = s.stream := rfl
@[simp] theorem State.modLp_thr (s : State) (n : Fin 64) (f : Loop → Loop) : (s.modLp n f).thr = s.thr := rfl
@[simp] theorem State.modLp_hw (s : State) (n : Fin 64) (f : Loop → Loop) : (s.modLp n f).hw = s.hw := rfl
@[simp] theorem State.modLp_zen (s : State) (n : Fin 64) (f : Loop → Loop) : (s.modLp n f).zen = s.zen := rfl
@[simp] theorem State.modLp_can (s : State) (n : Fin 64) (f : Loop → Loop) : (s.modLp n f).can = s.can := rfl
@[simp] theorem State.modLp_boot (s : State) (n : Fin 64) (f : Loop → Loop) : (s.modLp n f).boot = s.boot := rfl
@[simp] theorem State.modLp_fuses (s : State) (n : Fin 64) (f : Loop → Loop) : (s.modLp n f).fuses = s.fuses := rfl
@[simp] theorem State.modLp_servo (s : State) (n : Fin 64) (f : Loop → Loop) : (s.modLp n f).servo = s.servo := rfl
@[simp] theorem State.modLp_same (s : State) (n : Fin 64) (f : Loop → Loop) : (s.modLp n f).lp[n] = f s.lp[n] := by
  simp [State.modLp]
theorem State.modLp_other (s : State) (n : Fin 64) (f : Loop → Loop) {m : Fin 64} (h : m ≠ n) : (s.modLp n f).lp[m] = s.lp[m] := by
  simp [State.modLp, Fin.val_inj, Ne.symm h]

/-! ### modFld -/

@[simp] theorem State.modFld_pending (s : State) (n : Fin 64) (f : Field → Field) :
    (s.modFld n f).pending = s.pending := rfl
@[simp] theorem State.modFld_phys (s : State) (n : Fin 64) (f : Field → Field) : (s.modFld n f).phys = s.phys := rfl
@[simp] theorem State.modFld_lclk (s : State) (n : Fin 64) (f : Field → Field) : (s.modFld n f).lclk = s.lclk := rfl
@[simp] theorem State.modFld_run (s : State) (n : Fin 64) (f : Field → Field) : (s.modFld n f).run = s.run := rfl
@[simp] theorem State.modFld_steps (s : State) (n : Fin 64) (f : Field → Field) : (s.modFld n f).steps = s.steps := rfl
@[simp] theorem State.modFld_freeCtr (s : State) (n : Fin 64) (f : Field → Field) :
    (s.modFld n f).freeCtr = s.freeCtr := rfl
@[simp] theorem State.modFld_rdata (s : State) (n : Fin 64) (f : Field → Field) : (s.modFld n f).rdata = s.rdata := rfl
@[simp] theorem State.modFld_regs (s : State) (n : Fin 64) (f : Field → Field) : (s.modFld n f).regs = s.regs := rfl
@[simp] theorem State.modFld_strobe (s : State) (n : Fin 64) (f : Field → Field) :
    (s.modFld n f).strobe = s.strobe := rfl
@[simp] theorem State.modFld_snaps (s : State) (n : Fin 64) (f : Field → Field) : (s.modFld n f).snaps = s.snaps := rfl
@[simp] theorem State.modFld_held (s : State) (n : Fin 64) (f : Field → Field) : (s.modFld n f).held = s.held := rfl
@[simp] theorem State.modFld_mem (s : State) (n : Fin 64) (f : Field → Field) : (s.modFld n f).mem = s.mem := rfl
@[simp] theorem State.modFld_badPar (s : State) (n : Fin 64) (f : Field → Field) :
    (s.modFld n f).badPar = s.badPar := rfl
@[simp] theorem State.modFld_sp (s : State) (n : Fin 64) (f : Field → Field) : (s.modFld n f).sp = s.sp := rfl
@[simp] theorem State.modFld_snap (s : State) (n : Fin 64) (f : Field → Field) : (s.modFld n f).snap = s.snap := rfl
@[simp] theorem State.modFld_seq (s : State) (n : Fin 64) (f : Field → Field) : (s.modFld n f).seq = s.seq := rfl
@[simp] theorem State.modFld_led (s : State) (n : Fin 64) (f : Field → Field) : (s.modFld n f).led = s.led := rfl
@[simp] theorem State.modFld_mark (s : State) (n : Fin 64) (f : Field → Field) : (s.modFld n f).mark = s.mark := rfl
@[simp] theorem State.modFld_tout (s : State) (n : Fin 64) (f : Field → Field) : (s.modFld n f).tout = s.tout := rfl
@[simp] theorem State.modFld_raf (s : State) (n : Fin 64) (f : Field → Field) : (s.modFld n f).raf = s.raf := rfl
@[simp] theorem State.modFld_evs (s : State) (n : Fin 64) (f : Field → Field) : (s.modFld n f).evs = s.evs := rfl
@[simp] theorem State.modFld_ax (s : State) (n : Fin 64) (f : Field → Field) : (s.modFld n f).ax = s.ax := rfl
@[simp] theorem State.modFld_prevTick (s : State) (n : Fin 64) (f : Field → Field) :
    (s.modFld n f).prevTick = s.prevTick := rfl
@[simp] theorem State.modFld_prevJumps (s : State) (n : Fin 64) (f : Field → Field) :
    (s.modFld n f).prevJumps = s.prevJumps := rfl
@[simp] theorem State.modFld_attic (s : State) (n : Fin 64) (f : Field → Field) : (s.modFld n f).attic = s.attic := rfl
@[simp] theorem State.modFld_lp (s : State) (n : Fin 64) (f : Field → Field) : (s.modFld n f).lp = s.lp := rfl
@[simp] theorem State.modFld_outer (s : State) (n : Fin 64) (f : Field → Field) : (s.modFld n f).outer = s.outer := rfl
@[simp] theorem State.modFld_bl (s : State) (n : Fin 64) (f : Field → Field) : (s.modFld n f).bl = s.bl := rfl
@[simp] theorem State.modFld_stp (s : State) (n : Fin 64) (f : Field → Field) : (s.modFld n f).stp = s.stp := rfl
@[simp] theorem State.modFld_stpOld (s : State) (n : Fin 64) (f : Field → Field) :
    (s.modFld n f).stpOld = s.stpOld := rfl
@[simp] theorem State.modFld_gateLinks (s : State) (n : Fin 64) (f : Field → Field) :
    (s.modFld n f).gateLinks = s.gateLinks := rfl
@[simp] theorem State.modFld_sleepGate (s : State) (n : Fin 64) (f : Field → Field) :
    (s.modFld n f).sleepGate = s.sleepGate := rfl
@[simp] theorem State.modFld_chuck (s : State) (n : Fin 64) (f : Field → Field) : (s.modFld n f).chuck = s.chuck := rfl
@[simp] theorem State.modFld_cmdIn (s : State) (n : Fin 64) (f : Field → Field) : (s.modFld n f).cmdIn = s.cmdIn := rfl
@[simp] theorem State.modFld_sill (s : State) (n : Fin 64) (f : Field → Field) : (s.modFld n f).sill = s.sill := rfl
@[simp] theorem State.modFld_core (s : State) (n : Fin 64) (f : Field → Field) : (s.modFld n f).core = s.core := rfl
@[simp] theorem State.modFld_march (s : State) (n : Fin 64) (f : Field → Field) : (s.modFld n f).march = s.march := rfl
@[simp] theorem State.modFld_hostPan (s : State) (n : Fin 64) (f : Field → Field) :
    (s.modFld n f).hostPan = s.hostPan := rfl
@[simp] theorem State.modFld_jet (s : State) (n : Fin 64) (f : Field → Field) : (s.modFld n f).jet = s.jet := rfl
@[simp] theorem State.modFld_bar (s : State) (n : Fin 64) (f : Field → Field) : (s.modFld n f).bar = s.bar := rfl
@[simp] theorem State.modFld_skew (s : State) (n : Fin 64) (f : Field → Field) : (s.modFld n f).skew = s.skew := rfl
@[simp] theorem State.modFld_jo (s : State) (n : Fin 64) (f : Field → Field) : (s.modFld n f).jo = s.jo := rfl
@[simp] theorem State.modFld_cel (s : State) (n : Fin 64) (f : Field → Field) : (s.modFld n f).cel = s.cel := rfl
@[simp] theorem State.modFld_past (s : State) (n : Fin 64) (f : Field → Field) : (s.modFld n f).past = s.past := rfl
@[simp] theorem State.modFld_flash (s : State) (n : Fin 64) (f : Field → Field) : (s.modFld n f).flash = s.flash := rfl
@[simp] theorem State.modFld_resetReq (s : State) (n : Fin 64) (f : Field → Field) :
    (s.modFld n f).resetReq = s.resetReq := rfl
@[simp] theorem State.modFld_violAt (s : State) (n : Fin 64) (f : Field → Field) :
    (s.modFld n f).violAt = s.violAt := rfl
@[simp] theorem State.modFld_sessions (s : State) (n : Fin 64) (f : Field → Field) :
    (s.modFld n f).sessions = s.sessions := rfl
@[simp] theorem State.modFld_stream (s : State) (n : Fin 64) (f : Field → Field) :
    (s.modFld n f).stream = s.stream := rfl
@[simp] theorem State.modFld_thr (s : State) (n : Fin 64) (f : Field → Field) : (s.modFld n f).thr = s.thr := rfl
@[simp] theorem State.modFld_hw (s : State) (n : Fin 64) (f : Field → Field) : (s.modFld n f).hw = s.hw := rfl
@[simp] theorem State.modFld_zen (s : State) (n : Fin 64) (f : Field → Field) : (s.modFld n f).zen = s.zen := rfl
@[simp] theorem State.modFld_can (s : State) (n : Fin 64) (f : Field → Field) : (s.modFld n f).can = s.can := rfl
@[simp] theorem State.modFld_boot (s : State) (n : Fin 64) (f : Field → Field) : (s.modFld n f).boot = s.boot := rfl
@[simp] theorem State.modFld_fuses (s : State) (n : Fin 64) (f : Field → Field) : (s.modFld n f).fuses = s.fuses := rfl
@[simp] theorem State.modFld_servo (s : State) (n : Fin 64) (f : Field → Field) : (s.modFld n f).servo = s.servo := rfl
@[simp] theorem State.modFld_same (s : State) (n : Fin 64) (f : Field → Field) : (s.modFld n f).fld[n] = f s.fld[n] := by
  simp [State.modFld]
theorem State.modFld_other (s : State) (n : Fin 64) (f : Field → Field) {m : Fin 64} (h : m ≠ n) : (s.modFld n f).fld[m] = s.fld[m] := by
  simp [State.modFld, Fin.val_inj, Ne.symm h]

/-! ### modBl -/

@[simp] theorem State.modBl_pending (s : State) (n : Fin 16) (f : Bridge → Bridge) :
    (s.modBl n f).pending = s.pending := rfl
@[simp] theorem State.modBl_phys (s : State) (n : Fin 16) (f : Bridge → Bridge) : (s.modBl n f).phys = s.phys := rfl
@[simp] theorem State.modBl_lclk (s : State) (n : Fin 16) (f : Bridge → Bridge) : (s.modBl n f).lclk = s.lclk := rfl
@[simp] theorem State.modBl_run (s : State) (n : Fin 16) (f : Bridge → Bridge) : (s.modBl n f).run = s.run := rfl
@[simp] theorem State.modBl_steps (s : State) (n : Fin 16) (f : Bridge → Bridge) : (s.modBl n f).steps = s.steps := rfl
@[simp] theorem State.modBl_freeCtr (s : State) (n : Fin 16) (f : Bridge → Bridge) :
    (s.modBl n f).freeCtr = s.freeCtr := rfl
@[simp] theorem State.modBl_rdata (s : State) (n : Fin 16) (f : Bridge → Bridge) : (s.modBl n f).rdata = s.rdata := rfl
@[simp] theorem State.modBl_regs (s : State) (n : Fin 16) (f : Bridge → Bridge) : (s.modBl n f).regs = s.regs := rfl
@[simp] theorem State.modBl_strobe (s : State) (n : Fin 16) (f : Bridge → Bridge) :
    (s.modBl n f).strobe = s.strobe := rfl
@[simp] theorem State.modBl_snaps (s : State) (n : Fin 16) (f : Bridge → Bridge) : (s.modBl n f).snaps = s.snaps := rfl
@[simp] theorem State.modBl_held (s : State) (n : Fin 16) (f : Bridge → Bridge) : (s.modBl n f).held = s.held := rfl
@[simp] theorem State.modBl_mem (s : State) (n : Fin 16) (f : Bridge → Bridge) : (s.modBl n f).mem = s.mem := rfl
@[simp] theorem State.modBl_badPar (s : State) (n : Fin 16) (f : Bridge → Bridge) :
    (s.modBl n f).badPar = s.badPar := rfl
@[simp] theorem State.modBl_sp (s : State) (n : Fin 16) (f : Bridge → Bridge) : (s.modBl n f).sp = s.sp := rfl
@[simp] theorem State.modBl_snap (s : State) (n : Fin 16) (f : Bridge → Bridge) : (s.modBl n f).snap = s.snap := rfl
@[simp] theorem State.modBl_seq (s : State) (n : Fin 16) (f : Bridge → Bridge) : (s.modBl n f).seq = s.seq := rfl
@[simp] theorem State.modBl_led (s : State) (n : Fin 16) (f : Bridge → Bridge) : (s.modBl n f).led = s.led := rfl
@[simp] theorem State.modBl_mark (s : State) (n : Fin 16) (f : Bridge → Bridge) : (s.modBl n f).mark = s.mark := rfl
@[simp] theorem State.modBl_tout (s : State) (n : Fin 16) (f : Bridge → Bridge) : (s.modBl n f).tout = s.tout := rfl
@[simp] theorem State.modBl_raf (s : State) (n : Fin 16) (f : Bridge → Bridge) : (s.modBl n f).raf = s.raf := rfl
@[simp] theorem State.modBl_evs (s : State) (n : Fin 16) (f : Bridge → Bridge) : (s.modBl n f).evs = s.evs := rfl
@[simp] theorem State.modBl_ax (s : State) (n : Fin 16) (f : Bridge → Bridge) : (s.modBl n f).ax = s.ax := rfl
@[simp] theorem State.modBl_prevTick (s : State) (n : Fin 16) (f : Bridge → Bridge) :
    (s.modBl n f).prevTick = s.prevTick := rfl
@[simp] theorem State.modBl_prevJumps (s : State) (n : Fin 16) (f : Bridge → Bridge) :
    (s.modBl n f).prevJumps = s.prevJumps := rfl
@[simp] theorem State.modBl_attic (s : State) (n : Fin 16) (f : Bridge → Bridge) : (s.modBl n f).attic = s.attic := rfl
@[simp] theorem State.modBl_lp (s : State) (n : Fin 16) (f : Bridge → Bridge) : (s.modBl n f).lp = s.lp := rfl
@[simp] theorem State.modBl_outer (s : State) (n : Fin 16) (f : Bridge → Bridge) : (s.modBl n f).outer = s.outer := rfl
@[simp] theorem State.modBl_fld (s : State) (n : Fin 16) (f : Bridge → Bridge) : (s.modBl n f).fld = s.fld := rfl
@[simp] theorem State.modBl_stp (s : State) (n : Fin 16) (f : Bridge → Bridge) : (s.modBl n f).stp = s.stp := rfl
@[simp] theorem State.modBl_stpOld (s : State) (n : Fin 16) (f : Bridge → Bridge) :
    (s.modBl n f).stpOld = s.stpOld := rfl
@[simp] theorem State.modBl_gateLinks (s : State) (n : Fin 16) (f : Bridge → Bridge) :
    (s.modBl n f).gateLinks = s.gateLinks := rfl
@[simp] theorem State.modBl_sleepGate (s : State) (n : Fin 16) (f : Bridge → Bridge) :
    (s.modBl n f).sleepGate = s.sleepGate := rfl
@[simp] theorem State.modBl_chuck (s : State) (n : Fin 16) (f : Bridge → Bridge) : (s.modBl n f).chuck = s.chuck := rfl
@[simp] theorem State.modBl_cmdIn (s : State) (n : Fin 16) (f : Bridge → Bridge) : (s.modBl n f).cmdIn = s.cmdIn := rfl
@[simp] theorem State.modBl_sill (s : State) (n : Fin 16) (f : Bridge → Bridge) : (s.modBl n f).sill = s.sill := rfl
@[simp] theorem State.modBl_core (s : State) (n : Fin 16) (f : Bridge → Bridge) : (s.modBl n f).core = s.core := rfl
@[simp] theorem State.modBl_march (s : State) (n : Fin 16) (f : Bridge → Bridge) : (s.modBl n f).march = s.march := rfl
@[simp] theorem State.modBl_hostPan (s : State) (n : Fin 16) (f : Bridge → Bridge) :
    (s.modBl n f).hostPan = s.hostPan := rfl
@[simp] theorem State.modBl_jet (s : State) (n : Fin 16) (f : Bridge → Bridge) : (s.modBl n f).jet = s.jet := rfl
@[simp] theorem State.modBl_bar (s : State) (n : Fin 16) (f : Bridge → Bridge) : (s.modBl n f).bar = s.bar := rfl
@[simp] theorem State.modBl_skew (s : State) (n : Fin 16) (f : Bridge → Bridge) : (s.modBl n f).skew = s.skew := rfl
@[simp] theorem State.modBl_jo (s : State) (n : Fin 16) (f : Bridge → Bridge) : (s.modBl n f).jo = s.jo := rfl
@[simp] theorem State.modBl_cel (s : State) (n : Fin 16) (f : Bridge → Bridge) : (s.modBl n f).cel = s.cel := rfl
@[simp] theorem State.modBl_past (s : State) (n : Fin 16) (f : Bridge → Bridge) : (s.modBl n f).past = s.past := rfl
@[simp] theorem State.modBl_flash (s : State) (n : Fin 16) (f : Bridge → Bridge) : (s.modBl n f).flash = s.flash := rfl
@[simp] theorem State.modBl_resetReq (s : State) (n : Fin 16) (f : Bridge → Bridge) :
    (s.modBl n f).resetReq = s.resetReq := rfl
@[simp] theorem State.modBl_violAt (s : State) (n : Fin 16) (f : Bridge → Bridge) :
    (s.modBl n f).violAt = s.violAt := rfl
@[simp] theorem State.modBl_sessions (s : State) (n : Fin 16) (f : Bridge → Bridge) :
    (s.modBl n f).sessions = s.sessions := rfl
@[simp] theorem State.modBl_stream (s : State) (n : Fin 16) (f : Bridge → Bridge) :
    (s.modBl n f).stream = s.stream := rfl
@[simp] theorem State.modBl_thr (s : State) (n : Fin 16) (f : Bridge → Bridge) : (s.modBl n f).thr = s.thr := rfl
@[simp] theorem State.modBl_hw (s : State) (n : Fin 16) (f : Bridge → Bridge) : (s.modBl n f).hw = s.hw := rfl
@[simp] theorem State.modBl_zen (s : State) (n : Fin 16) (f : Bridge → Bridge) : (s.modBl n f).zen = s.zen := rfl
@[simp] theorem State.modBl_can (s : State) (n : Fin 16) (f : Bridge → Bridge) : (s.modBl n f).can = s.can := rfl
@[simp] theorem State.modBl_boot (s : State) (n : Fin 16) (f : Bridge → Bridge) : (s.modBl n f).boot = s.boot := rfl
@[simp] theorem State.modBl_fuses (s : State) (n : Fin 16) (f : Bridge → Bridge) : (s.modBl n f).fuses = s.fuses := rfl
@[simp] theorem State.modBl_servo (s : State) (n : Fin 16) (f : Bridge → Bridge) : (s.modBl n f).servo = s.servo := rfl
@[simp] theorem State.modBl_same (s : State) (n : Fin 16) (f : Bridge → Bridge) : (s.modBl n f).bl[n] = f s.bl[n] := by
  simp [State.modBl]
theorem State.modBl_other (s : State) (n : Fin 16) (f : Bridge → Bridge) {m : Fin 16} (h : m ≠ n) : (s.modBl n f).bl[m] = s.bl[m] := by
  simp [State.modBl, Fin.val_inj, Ne.symm h]

/-! ### modCh -/

@[simp] theorem State.modCh_pending (s : State) (n : Fin 32) (f : ChuckCh → ChuckCh) :
    (s.modCh n f).pending = s.pending := rfl
@[simp] theorem State.modCh_phys (s : State) (n : Fin 32) (f : ChuckCh → ChuckCh) : (s.modCh n f).phys = s.phys := rfl
@[simp] theorem State.modCh_lclk (s : State) (n : Fin 32) (f : ChuckCh → ChuckCh) : (s.modCh n f).lclk = s.lclk := rfl
@[simp] theorem State.modCh_run (s : State) (n : Fin 32) (f : ChuckCh → ChuckCh) : (s.modCh n f).run = s.run := rfl
@[simp] theorem State.modCh_steps (s : State) (n : Fin 32) (f : ChuckCh → ChuckCh) :
    (s.modCh n f).steps = s.steps := rfl
@[simp] theorem State.modCh_freeCtr (s : State) (n : Fin 32) (f : ChuckCh → ChuckCh) :
    (s.modCh n f).freeCtr = s.freeCtr := rfl
@[simp] theorem State.modCh_rdata (s : State) (n : Fin 32) (f : ChuckCh → ChuckCh) :
    (s.modCh n f).rdata = s.rdata := rfl
@[simp] theorem State.modCh_regs (s : State) (n : Fin 32) (f : ChuckCh → ChuckCh) : (s.modCh n f).regs = s.regs := rfl
@[simp] theorem State.modCh_strobe (s : State) (n : Fin 32) (f : ChuckCh → ChuckCh) :
    (s.modCh n f).strobe = s.strobe := rfl
@[simp] theorem State.modCh_snaps (s : State) (n : Fin 32) (f : ChuckCh → ChuckCh) :
    (s.modCh n f).snaps = s.snaps := rfl
@[simp] theorem State.modCh_held (s : State) (n : Fin 32) (f : ChuckCh → ChuckCh) : (s.modCh n f).held = s.held := rfl
@[simp] theorem State.modCh_mem (s : State) (n : Fin 32) (f : ChuckCh → ChuckCh) : (s.modCh n f).mem = s.mem := rfl
@[simp] theorem State.modCh_badPar (s : State) (n : Fin 32) (f : ChuckCh → ChuckCh) :
    (s.modCh n f).badPar = s.badPar := rfl
@[simp] theorem State.modCh_sp (s : State) (n : Fin 32) (f : ChuckCh → ChuckCh) : (s.modCh n f).sp = s.sp := rfl
@[simp] theorem State.modCh_snap (s : State) (n : Fin 32) (f : ChuckCh → ChuckCh) : (s.modCh n f).snap = s.snap := rfl
@[simp] theorem State.modCh_seq (s : State) (n : Fin 32) (f : ChuckCh → ChuckCh) : (s.modCh n f).seq = s.seq := rfl
@[simp] theorem State.modCh_led (s : State) (n : Fin 32) (f : ChuckCh → ChuckCh) : (s.modCh n f).led = s.led := rfl
@[simp] theorem State.modCh_mark (s : State) (n : Fin 32) (f : ChuckCh → ChuckCh) : (s.modCh n f).mark = s.mark := rfl
@[simp] theorem State.modCh_tout (s : State) (n : Fin 32) (f : ChuckCh → ChuckCh) : (s.modCh n f).tout = s.tout := rfl
@[simp] theorem State.modCh_raf (s : State) (n : Fin 32) (f : ChuckCh → ChuckCh) : (s.modCh n f).raf = s.raf := rfl
@[simp] theorem State.modCh_evs (s : State) (n : Fin 32) (f : ChuckCh → ChuckCh) : (s.modCh n f).evs = s.evs := rfl
@[simp] theorem State.modCh_ax (s : State) (n : Fin 32) (f : ChuckCh → ChuckCh) : (s.modCh n f).ax = s.ax := rfl
@[simp] theorem State.modCh_prevTick (s : State) (n : Fin 32) (f : ChuckCh → ChuckCh) :
    (s.modCh n f).prevTick = s.prevTick := rfl
@[simp] theorem State.modCh_prevJumps (s : State) (n : Fin 32) (f : ChuckCh → ChuckCh) :
    (s.modCh n f).prevJumps = s.prevJumps := rfl
@[simp] theorem State.modCh_attic (s : State) (n : Fin 32) (f : ChuckCh → ChuckCh) :
    (s.modCh n f).attic = s.attic := rfl
@[simp] theorem State.modCh_lp (s : State) (n : Fin 32) (f : ChuckCh → ChuckCh) : (s.modCh n f).lp = s.lp := rfl
@[simp] theorem State.modCh_outer (s : State) (n : Fin 32) (f : ChuckCh → ChuckCh) :
    (s.modCh n f).outer = s.outer := rfl
@[simp] theorem State.modCh_fld (s : State) (n : Fin 32) (f : ChuckCh → ChuckCh) : (s.modCh n f).fld = s.fld := rfl
@[simp] theorem State.modCh_bl (s : State) (n : Fin 32) (f : ChuckCh → ChuckCh) : (s.modCh n f).bl = s.bl := rfl
@[simp] theorem State.modCh_stp (s : State) (n : Fin 32) (f : ChuckCh → ChuckCh) : (s.modCh n f).stp = s.stp := rfl
@[simp] theorem State.modCh_stpOld (s : State) (n : Fin 32) (f : ChuckCh → ChuckCh) :
    (s.modCh n f).stpOld = s.stpOld := rfl
@[simp] theorem State.modCh_gateLinks (s : State) (n : Fin 32) (f : ChuckCh → ChuckCh) :
    (s.modCh n f).gateLinks = s.gateLinks := rfl
@[simp] theorem State.modCh_sleepGate (s : State) (n : Fin 32) (f : ChuckCh → ChuckCh) :
    (s.modCh n f).sleepGate = s.sleepGate := rfl
@[simp] theorem State.modCh_cmdIn (s : State) (n : Fin 32) (f : ChuckCh → ChuckCh) :
    (s.modCh n f).cmdIn = s.cmdIn := rfl
@[simp] theorem State.modCh_sill (s : State) (n : Fin 32) (f : ChuckCh → ChuckCh) : (s.modCh n f).sill = s.sill := rfl
@[simp] theorem State.modCh_core (s : State) (n : Fin 32) (f : ChuckCh → ChuckCh) : (s.modCh n f).core = s.core := rfl
@[simp] theorem State.modCh_march (s : State) (n : Fin 32) (f : ChuckCh → ChuckCh) :
    (s.modCh n f).march = s.march := rfl
@[simp] theorem State.modCh_hostPan (s : State) (n : Fin 32) (f : ChuckCh → ChuckCh) :
    (s.modCh n f).hostPan = s.hostPan := rfl
@[simp] theorem State.modCh_jet (s : State) (n : Fin 32) (f : ChuckCh → ChuckCh) : (s.modCh n f).jet = s.jet := rfl
@[simp] theorem State.modCh_bar (s : State) (n : Fin 32) (f : ChuckCh → ChuckCh) : (s.modCh n f).bar = s.bar := rfl
@[simp] theorem State.modCh_skew (s : State) (n : Fin 32) (f : ChuckCh → ChuckCh) : (s.modCh n f).skew = s.skew := rfl
@[simp] theorem State.modCh_jo (s : State) (n : Fin 32) (f : ChuckCh → ChuckCh) : (s.modCh n f).jo = s.jo := rfl
@[simp] theorem State.modCh_cel (s : State) (n : Fin 32) (f : ChuckCh → ChuckCh) : (s.modCh n f).cel = s.cel := rfl
@[simp] theorem State.modCh_past (s : State) (n : Fin 32) (f : ChuckCh → ChuckCh) : (s.modCh n f).past = s.past := rfl
@[simp] theorem State.modCh_flash (s : State) (n : Fin 32) (f : ChuckCh → ChuckCh) :
    (s.modCh n f).flash = s.flash := rfl
@[simp] theorem State.modCh_resetReq (s : State) (n : Fin 32) (f : ChuckCh → ChuckCh) :
    (s.modCh n f).resetReq = s.resetReq := rfl
@[simp] theorem State.modCh_violAt (s : State) (n : Fin 32) (f : ChuckCh → ChuckCh) :
    (s.modCh n f).violAt = s.violAt := rfl
@[simp] theorem State.modCh_sessions (s : State) (n : Fin 32) (f : ChuckCh → ChuckCh) :
    (s.modCh n f).sessions = s.sessions := rfl
@[simp] theorem State.modCh_stream (s : State) (n : Fin 32) (f : ChuckCh → ChuckCh) :
    (s.modCh n f).stream = s.stream := rfl
@[simp] theorem State.modCh_thr (s : State) (n : Fin 32) (f : ChuckCh → ChuckCh) : (s.modCh n f).thr = s.thr := rfl
@[simp] theorem State.modCh_hw (s : State) (n : Fin 32) (f : ChuckCh → ChuckCh) : (s.modCh n f).hw = s.hw := rfl
@[simp] theorem State.modCh_zen (s : State) (n : Fin 32) (f : ChuckCh → ChuckCh) : (s.modCh n f).zen = s.zen := rfl
@[simp] theorem State.modCh_can (s : State) (n : Fin 32) (f : ChuckCh → ChuckCh) : (s.modCh n f).can = s.can := rfl
@[simp] theorem State.modCh_boot (s : State) (n : Fin 32) (f : ChuckCh → ChuckCh) : (s.modCh n f).boot = s.boot := rfl
@[simp] theorem State.modCh_fuses (s : State) (n : Fin 32) (f : ChuckCh → ChuckCh) :
    (s.modCh n f).fuses = s.fuses := rfl
@[simp] theorem State.modCh_servo (s : State) (n : Fin 32) (f : ChuckCh → ChuckCh) :
    (s.modCh n f).servo = s.servo := rfl
@[simp] theorem State.modCh_same (s : State) (n : Fin 32) (f : ChuckCh → ChuckCh) : (s.modCh n f).chuck[n] = f s.chuck[n] := by
  simp [State.modCh]
theorem State.modCh_other (s : State) (n : Fin 32) (f : ChuckCh → ChuckCh) {m : Fin 32} (h : m ≠ n) : (s.modCh n f).chuck[m] = s.chuck[m] := by
  simp [State.modCh, Fin.val_inj, Ne.symm h]

/-! ### modCore -/

@[simp] theorem State.modCore_pending (s : State) (n : Fin 10) (f : GCore → GCore) :
    (s.modCore n f).pending = s.pending := rfl
@[simp] theorem State.modCore_phys (s : State) (n : Fin 10) (f : GCore → GCore) : (s.modCore n f).phys = s.phys := rfl
@[simp] theorem State.modCore_lclk (s : State) (n : Fin 10) (f : GCore → GCore) : (s.modCore n f).lclk = s.lclk := rfl
@[simp] theorem State.modCore_run (s : State) (n : Fin 10) (f : GCore → GCore) : (s.modCore n f).run = s.run := rfl
@[simp] theorem State.modCore_steps (s : State) (n : Fin 10) (f : GCore → GCore) :
    (s.modCore n f).steps = s.steps := rfl
@[simp] theorem State.modCore_freeCtr (s : State) (n : Fin 10) (f : GCore → GCore) :
    (s.modCore n f).freeCtr = s.freeCtr := rfl
@[simp] theorem State.modCore_rdata (s : State) (n : Fin 10) (f : GCore → GCore) :
    (s.modCore n f).rdata = s.rdata := rfl
@[simp] theorem State.modCore_regs (s : State) (n : Fin 10) (f : GCore → GCore) : (s.modCore n f).regs = s.regs := rfl
@[simp] theorem State.modCore_strobe (s : State) (n : Fin 10) (f : GCore → GCore) :
    (s.modCore n f).strobe = s.strobe := rfl
@[simp] theorem State.modCore_snaps (s : State) (n : Fin 10) (f : GCore → GCore) :
    (s.modCore n f).snaps = s.snaps := rfl
@[simp] theorem State.modCore_held (s : State) (n : Fin 10) (f : GCore → GCore) : (s.modCore n f).held = s.held := rfl
@[simp] theorem State.modCore_mem (s : State) (n : Fin 10) (f : GCore → GCore) : (s.modCore n f).mem = s.mem := rfl
@[simp] theorem State.modCore_badPar (s : State) (n : Fin 10) (f : GCore → GCore) :
    (s.modCore n f).badPar = s.badPar := rfl
@[simp] theorem State.modCore_sp (s : State) (n : Fin 10) (f : GCore → GCore) : (s.modCore n f).sp = s.sp := rfl
@[simp] theorem State.modCore_snap (s : State) (n : Fin 10) (f : GCore → GCore) : (s.modCore n f).snap = s.snap := rfl
@[simp] theorem State.modCore_seq (s : State) (n : Fin 10) (f : GCore → GCore) : (s.modCore n f).seq = s.seq := rfl
@[simp] theorem State.modCore_led (s : State) (n : Fin 10) (f : GCore → GCore) : (s.modCore n f).led = s.led := rfl
@[simp] theorem State.modCore_mark (s : State) (n : Fin 10) (f : GCore → GCore) : (s.modCore n f).mark = s.mark := rfl
@[simp] theorem State.modCore_tout (s : State) (n : Fin 10) (f : GCore → GCore) : (s.modCore n f).tout = s.tout := rfl
@[simp] theorem State.modCore_raf (s : State) (n : Fin 10) (f : GCore → GCore) : (s.modCore n f).raf = s.raf := rfl
@[simp] theorem State.modCore_evs (s : State) (n : Fin 10) (f : GCore → GCore) : (s.modCore n f).evs = s.evs := rfl
@[simp] theorem State.modCore_ax (s : State) (n : Fin 10) (f : GCore → GCore) : (s.modCore n f).ax = s.ax := rfl
@[simp] theorem State.modCore_prevTick (s : State) (n : Fin 10) (f : GCore → GCore) :
    (s.modCore n f).prevTick = s.prevTick := rfl
@[simp] theorem State.modCore_prevJumps (s : State) (n : Fin 10) (f : GCore → GCore) :
    (s.modCore n f).prevJumps = s.prevJumps := rfl
@[simp] theorem State.modCore_attic (s : State) (n : Fin 10) (f : GCore → GCore) :
    (s.modCore n f).attic = s.attic := rfl
@[simp] theorem State.modCore_lp (s : State) (n : Fin 10) (f : GCore → GCore) : (s.modCore n f).lp = s.lp := rfl
@[simp] theorem State.modCore_outer (s : State) (n : Fin 10) (f : GCore → GCore) :
    (s.modCore n f).outer = s.outer := rfl
@[simp] theorem State.modCore_fld (s : State) (n : Fin 10) (f : GCore → GCore) : (s.modCore n f).fld = s.fld := rfl
@[simp] theorem State.modCore_bl (s : State) (n : Fin 10) (f : GCore → GCore) : (s.modCore n f).bl = s.bl := rfl
@[simp] theorem State.modCore_stp (s : State) (n : Fin 10) (f : GCore → GCore) : (s.modCore n f).stp = s.stp := rfl
@[simp] theorem State.modCore_stpOld (s : State) (n : Fin 10) (f : GCore → GCore) :
    (s.modCore n f).stpOld = s.stpOld := rfl
@[simp] theorem State.modCore_gateLinks (s : State) (n : Fin 10) (f : GCore → GCore) :
    (s.modCore n f).gateLinks = s.gateLinks := rfl
@[simp] theorem State.modCore_sleepGate (s : State) (n : Fin 10) (f : GCore → GCore) :
    (s.modCore n f).sleepGate = s.sleepGate := rfl
@[simp] theorem State.modCore_chuck (s : State) (n : Fin 10) (f : GCore → GCore) :
    (s.modCore n f).chuck = s.chuck := rfl
@[simp] theorem State.modCore_cmdIn (s : State) (n : Fin 10) (f : GCore → GCore) :
    (s.modCore n f).cmdIn = s.cmdIn := rfl
@[simp] theorem State.modCore_sill (s : State) (n : Fin 10) (f : GCore → GCore) : (s.modCore n f).sill = s.sill := rfl
@[simp] theorem State.modCore_march (s : State) (n : Fin 10) (f : GCore → GCore) :
    (s.modCore n f).march = s.march := rfl
@[simp] theorem State.modCore_hostPan (s : State) (n : Fin 10) (f : GCore → GCore) :
    (s.modCore n f).hostPan = s.hostPan := rfl
@[simp] theorem State.modCore_jet (s : State) (n : Fin 10) (f : GCore → GCore) : (s.modCore n f).jet = s.jet := rfl
@[simp] theorem State.modCore_bar (s : State) (n : Fin 10) (f : GCore → GCore) : (s.modCore n f).bar = s.bar := rfl
@[simp] theorem State.modCore_skew (s : State) (n : Fin 10) (f : GCore → GCore) : (s.modCore n f).skew = s.skew := rfl
@[simp] theorem State.modCore_jo (s : State) (n : Fin 10) (f : GCore → GCore) : (s.modCore n f).jo = s.jo := rfl
@[simp] theorem State.modCore_cel (s : State) (n : Fin 10) (f : GCore → GCore) : (s.modCore n f).cel = s.cel := rfl
@[simp] theorem State.modCore_past (s : State) (n : Fin 10) (f : GCore → GCore) : (s.modCore n f).past = s.past := rfl
@[simp] theorem State.modCore_flash (s : State) (n : Fin 10) (f : GCore → GCore) :
    (s.modCore n f).flash = s.flash := rfl
@[simp] theorem State.modCore_resetReq (s : State) (n : Fin 10) (f : GCore → GCore) :
    (s.modCore n f).resetReq = s.resetReq := rfl
@[simp] theorem State.modCore_violAt (s : State) (n : Fin 10) (f : GCore → GCore) :
    (s.modCore n f).violAt = s.violAt := rfl
@[simp] theorem State.modCore_sessions (s : State) (n : Fin 10) (f : GCore → GCore) :
    (s.modCore n f).sessions = s.sessions := rfl
@[simp] theorem State.modCore_stream (s : State) (n : Fin 10) (f : GCore → GCore) :
    (s.modCore n f).stream = s.stream := rfl
@[simp] theorem State.modCore_thr (s : State) (n : Fin 10) (f : GCore → GCore) : (s.modCore n f).thr = s.thr := rfl
@[simp] theorem State.modCore_hw (s : State) (n : Fin 10) (f : GCore → GCore) : (s.modCore n f).hw = s.hw := rfl
@[simp] theorem State.modCore_zen (s : State) (n : Fin 10) (f : GCore → GCore) : (s.modCore n f).zen = s.zen := rfl
@[simp] theorem State.modCore_can (s : State) (n : Fin 10) (f : GCore → GCore) : (s.modCore n f).can = s.can := rfl
@[simp] theorem State.modCore_boot (s : State) (n : Fin 10) (f : GCore → GCore) : (s.modCore n f).boot = s.boot := rfl
@[simp] theorem State.modCore_fuses (s : State) (n : Fin 10) (f : GCore → GCore) :
    (s.modCore n f).fuses = s.fuses := rfl
@[simp] theorem State.modCore_servo (s : State) (n : Fin 10) (f : GCore → GCore) :
    (s.modCore n f).servo = s.servo := rfl
@[simp] theorem State.modCore_same (s : State) (n : Fin 10) (f : GCore → GCore) : (s.modCore n f).core[n] = f s.core[n] := by
  simp [State.modCore]
theorem State.modCore_other (s : State) (n : Fin 10) (f : GCore → GCore) {m : Fin 10} (h : m ≠ n) : (s.modCore n f).core[m] = s.core[m] := by
  simp [State.modCore, Fin.val_inj, Ne.symm h]

/-! ### modCmd -/

@[simp] theorem State.modCmd_pending (s : State) (n : Fin 8) (f : CmdIn → CmdIn) :
    (s.modCmd n f).pending = s.pending := rfl
@[simp] theorem State.modCmd_phys (s : State) (n : Fin 8) (f : CmdIn → CmdIn) : (s.modCmd n f).phys = s.phys := rfl
@[simp] theorem State.modCmd_lclk (s : State) (n : Fin 8) (f : CmdIn → CmdIn) : (s.modCmd n f).lclk = s.lclk := rfl
@[simp] theorem State.modCmd_run (s : State) (n : Fin 8) (f : CmdIn → CmdIn) : (s.modCmd n f).run = s.run := rfl
@[simp] theorem State.modCmd_steps (s : State) (n : Fin 8) (f : CmdIn → CmdIn) : (s.modCmd n f).steps = s.steps := rfl
@[simp] theorem State.modCmd_freeCtr (s : State) (n : Fin 8) (f : CmdIn → CmdIn) :
    (s.modCmd n f).freeCtr = s.freeCtr := rfl
@[simp] theorem State.modCmd_rdata (s : State) (n : Fin 8) (f : CmdIn → CmdIn) : (s.modCmd n f).rdata = s.rdata := rfl
@[simp] theorem State.modCmd_regs (s : State) (n : Fin 8) (f : CmdIn → CmdIn) : (s.modCmd n f).regs = s.regs := rfl
@[simp] theorem State.modCmd_strobe (s : State) (n : Fin 8) (f : CmdIn → CmdIn) :
    (s.modCmd n f).strobe = s.strobe := rfl
@[simp] theorem State.modCmd_snaps (s : State) (n : Fin 8) (f : CmdIn → CmdIn) : (s.modCmd n f).snaps = s.snaps := rfl
@[simp] theorem State.modCmd_held (s : State) (n : Fin 8) (f : CmdIn → CmdIn) : (s.modCmd n f).held = s.held := rfl
@[simp] theorem State.modCmd_mem (s : State) (n : Fin 8) (f : CmdIn → CmdIn) : (s.modCmd n f).mem = s.mem := rfl
@[simp] theorem State.modCmd_badPar (s : State) (n : Fin 8) (f : CmdIn → CmdIn) :
    (s.modCmd n f).badPar = s.badPar := rfl
@[simp] theorem State.modCmd_sp (s : State) (n : Fin 8) (f : CmdIn → CmdIn) : (s.modCmd n f).sp = s.sp := rfl
@[simp] theorem State.modCmd_snap (s : State) (n : Fin 8) (f : CmdIn → CmdIn) : (s.modCmd n f).snap = s.snap := rfl
@[simp] theorem State.modCmd_seq (s : State) (n : Fin 8) (f : CmdIn → CmdIn) : (s.modCmd n f).seq = s.seq := rfl
@[simp] theorem State.modCmd_led (s : State) (n : Fin 8) (f : CmdIn → CmdIn) : (s.modCmd n f).led = s.led := rfl
@[simp] theorem State.modCmd_mark (s : State) (n : Fin 8) (f : CmdIn → CmdIn) : (s.modCmd n f).mark = s.mark := rfl
@[simp] theorem State.modCmd_tout (s : State) (n : Fin 8) (f : CmdIn → CmdIn) : (s.modCmd n f).tout = s.tout := rfl
@[simp] theorem State.modCmd_raf (s : State) (n : Fin 8) (f : CmdIn → CmdIn) : (s.modCmd n f).raf = s.raf := rfl
@[simp] theorem State.modCmd_evs (s : State) (n : Fin 8) (f : CmdIn → CmdIn) : (s.modCmd n f).evs = s.evs := rfl
@[simp] theorem State.modCmd_ax (s : State) (n : Fin 8) (f : CmdIn → CmdIn) : (s.modCmd n f).ax = s.ax := rfl
@[simp] theorem State.modCmd_prevTick (s : State) (n : Fin 8) (f : CmdIn → CmdIn) :
    (s.modCmd n f).prevTick = s.prevTick := rfl
@[simp] theorem State.modCmd_prevJumps (s : State) (n : Fin 8) (f : CmdIn → CmdIn) :
    (s.modCmd n f).prevJumps = s.prevJumps := rfl
@[simp] theorem State.modCmd_attic (s : State) (n : Fin 8) (f : CmdIn → CmdIn) : (s.modCmd n f).attic = s.attic := rfl
@[simp] theorem State.modCmd_lp (s : State) (n : Fin 8) (f : CmdIn → CmdIn) : (s.modCmd n f).lp = s.lp := rfl
@[simp] theorem State.modCmd_outer (s : State) (n : Fin 8) (f : CmdIn → CmdIn) : (s.modCmd n f).outer = s.outer := rfl
@[simp] theorem State.modCmd_fld (s : State) (n : Fin 8) (f : CmdIn → CmdIn) : (s.modCmd n f).fld = s.fld := rfl
@[simp] theorem State.modCmd_bl (s : State) (n : Fin 8) (f : CmdIn → CmdIn) : (s.modCmd n f).bl = s.bl := rfl
@[simp] theorem State.modCmd_stp (s : State) (n : Fin 8) (f : CmdIn → CmdIn) : (s.modCmd n f).stp = s.stp := rfl
@[simp] theorem State.modCmd_stpOld (s : State) (n : Fin 8) (f : CmdIn → CmdIn) :
    (s.modCmd n f).stpOld = s.stpOld := rfl
@[simp] theorem State.modCmd_gateLinks (s : State) (n : Fin 8) (f : CmdIn → CmdIn) :
    (s.modCmd n f).gateLinks = s.gateLinks := rfl
@[simp] theorem State.modCmd_sleepGate (s : State) (n : Fin 8) (f : CmdIn → CmdIn) :
    (s.modCmd n f).sleepGate = s.sleepGate := rfl
@[simp] theorem State.modCmd_chuck (s : State) (n : Fin 8) (f : CmdIn → CmdIn) : (s.modCmd n f).chuck = s.chuck := rfl
@[simp] theorem State.modCmd_sill (s : State) (n : Fin 8) (f : CmdIn → CmdIn) : (s.modCmd n f).sill = s.sill := rfl
@[simp] theorem State.modCmd_core (s : State) (n : Fin 8) (f : CmdIn → CmdIn) : (s.modCmd n f).core = s.core := rfl
@[simp] theorem State.modCmd_march (s : State) (n : Fin 8) (f : CmdIn → CmdIn) : (s.modCmd n f).march = s.march := rfl
@[simp] theorem State.modCmd_hostPan (s : State) (n : Fin 8) (f : CmdIn → CmdIn) :
    (s.modCmd n f).hostPan = s.hostPan := rfl
@[simp] theorem State.modCmd_jet (s : State) (n : Fin 8) (f : CmdIn → CmdIn) : (s.modCmd n f).jet = s.jet := rfl
@[simp] theorem State.modCmd_bar (s : State) (n : Fin 8) (f : CmdIn → CmdIn) : (s.modCmd n f).bar = s.bar := rfl
@[simp] theorem State.modCmd_skew (s : State) (n : Fin 8) (f : CmdIn → CmdIn) : (s.modCmd n f).skew = s.skew := rfl
@[simp] theorem State.modCmd_jo (s : State) (n : Fin 8) (f : CmdIn → CmdIn) : (s.modCmd n f).jo = s.jo := rfl
@[simp] theorem State.modCmd_cel (s : State) (n : Fin 8) (f : CmdIn → CmdIn) : (s.modCmd n f).cel = s.cel := rfl
@[simp] theorem State.modCmd_past (s : State) (n : Fin 8) (f : CmdIn → CmdIn) : (s.modCmd n f).past = s.past := rfl
@[simp] theorem State.modCmd_flash (s : State) (n : Fin 8) (f : CmdIn → CmdIn) : (s.modCmd n f).flash = s.flash := rfl
@[simp] theorem State.modCmd_resetReq (s : State) (n : Fin 8) (f : CmdIn → CmdIn) :
    (s.modCmd n f).resetReq = s.resetReq := rfl
@[simp] theorem State.modCmd_violAt (s : State) (n : Fin 8) (f : CmdIn → CmdIn) :
    (s.modCmd n f).violAt = s.violAt := rfl
@[simp] theorem State.modCmd_sessions (s : State) (n : Fin 8) (f : CmdIn → CmdIn) :
    (s.modCmd n f).sessions = s.sessions := rfl
@[simp] theorem State.modCmd_stream (s : State) (n : Fin 8) (f : CmdIn → CmdIn) :
    (s.modCmd n f).stream = s.stream := rfl
@[simp] theorem State.modCmd_thr (s : State) (n : Fin 8) (f : CmdIn → CmdIn) : (s.modCmd n f).thr = s.thr := rfl
@[simp] theorem State.modCmd_hw (s : State) (n : Fin 8) (f : CmdIn → CmdIn) : (s.modCmd n f).hw = s.hw := rfl
@[simp] theorem State.modCmd_zen (s : State) (n : Fin 8) (f : CmdIn → CmdIn) : (s.modCmd n f).zen = s.zen := rfl
@[simp] theorem State.modCmd_can (s : State) (n : Fin 8) (f : CmdIn → CmdIn) : (s.modCmd n f).can = s.can := rfl
@[simp] theorem State.modCmd_boot (s : State) (n : Fin 8) (f : CmdIn → CmdIn) : (s.modCmd n f).boot = s.boot := rfl
@[simp] theorem State.modCmd_fuses (s : State) (n : Fin 8) (f : CmdIn → CmdIn) : (s.modCmd n f).fuses = s.fuses := rfl
@[simp] theorem State.modCmd_servo (s : State) (n : Fin 8) (f : CmdIn → CmdIn) : (s.modCmd n f).servo = s.servo := rfl
@[simp] theorem State.modCmd_same (s : State) (n : Fin 8) (f : CmdIn → CmdIn) : (s.modCmd n f).cmdIn[n] = f s.cmdIn[n] := by
  simp [State.modCmd]
theorem State.modCmd_other (s : State) (n : Fin 8) (f : CmdIn → CmdIn) {m : Fin 8} (h : m ≠ n) : (s.modCmd n f).cmdIn[m] = s.cmdIn[m] := by
  simp [State.modCmd, Fin.val_inj, Ne.symm h]

/-! ### modJet -/

@[simp] theorem State.modJet_pending (s : State) (n : Fin 8) (f : Jet → Jet) : (s.modJet n f).pending = s.pending := rfl
@[simp] theorem State.modJet_phys (s : State) (n : Fin 8) (f : Jet → Jet) : (s.modJet n f).phys = s.phys := rfl
@[simp] theorem State.modJet_lclk (s : State) (n : Fin 8) (f : Jet → Jet) : (s.modJet n f).lclk = s.lclk := rfl
@[simp] theorem State.modJet_run (s : State) (n : Fin 8) (f : Jet → Jet) : (s.modJet n f).run = s.run := rfl
@[simp] theorem State.modJet_steps (s : State) (n : Fin 8) (f : Jet → Jet) : (s.modJet n f).steps = s.steps := rfl
@[simp] theorem State.modJet_freeCtr (s : State) (n : Fin 8) (f : Jet → Jet) : (s.modJet n f).freeCtr = s.freeCtr := rfl
@[simp] theorem State.modJet_rdata (s : State) (n : Fin 8) (f : Jet → Jet) : (s.modJet n f).rdata = s.rdata := rfl
@[simp] theorem State.modJet_regs (s : State) (n : Fin 8) (f : Jet → Jet) : (s.modJet n f).regs = s.regs := rfl
@[simp] theorem State.modJet_strobe (s : State) (n : Fin 8) (f : Jet → Jet) : (s.modJet n f).strobe = s.strobe := rfl
@[simp] theorem State.modJet_snaps (s : State) (n : Fin 8) (f : Jet → Jet) : (s.modJet n f).snaps = s.snaps := rfl
@[simp] theorem State.modJet_held (s : State) (n : Fin 8) (f : Jet → Jet) : (s.modJet n f).held = s.held := rfl
@[simp] theorem State.modJet_mem (s : State) (n : Fin 8) (f : Jet → Jet) : (s.modJet n f).mem = s.mem := rfl
@[simp] theorem State.modJet_badPar (s : State) (n : Fin 8) (f : Jet → Jet) : (s.modJet n f).badPar = s.badPar := rfl
@[simp] theorem State.modJet_sp (s : State) (n : Fin 8) (f : Jet → Jet) : (s.modJet n f).sp = s.sp := rfl
@[simp] theorem State.modJet_snap (s : State) (n : Fin 8) (f : Jet → Jet) : (s.modJet n f).snap = s.snap := rfl
@[simp] theorem State.modJet_seq (s : State) (n : Fin 8) (f : Jet → Jet) : (s.modJet n f).seq = s.seq := rfl
@[simp] theorem State.modJet_led (s : State) (n : Fin 8) (f : Jet → Jet) : (s.modJet n f).led = s.led := rfl
@[simp] theorem State.modJet_mark (s : State) (n : Fin 8) (f : Jet → Jet) : (s.modJet n f).mark = s.mark := rfl
@[simp] theorem State.modJet_tout (s : State) (n : Fin 8) (f : Jet → Jet) : (s.modJet n f).tout = s.tout := rfl
@[simp] theorem State.modJet_raf (s : State) (n : Fin 8) (f : Jet → Jet) : (s.modJet n f).raf = s.raf := rfl
@[simp] theorem State.modJet_evs (s : State) (n : Fin 8) (f : Jet → Jet) : (s.modJet n f).evs = s.evs := rfl
@[simp] theorem State.modJet_ax (s : State) (n : Fin 8) (f : Jet → Jet) : (s.modJet n f).ax = s.ax := rfl
@[simp] theorem State.modJet_prevTick (s : State) (n : Fin 8) (f : Jet → Jet) :
    (s.modJet n f).prevTick = s.prevTick := rfl
@[simp] theorem State.modJet_prevJumps (s : State) (n : Fin 8) (f : Jet → Jet) :
    (s.modJet n f).prevJumps = s.prevJumps := rfl
@[simp] theorem State.modJet_attic (s : State) (n : Fin 8) (f : Jet → Jet) : (s.modJet n f).attic = s.attic := rfl
@[simp] theorem State.modJet_lp (s : State) (n : Fin 8) (f : Jet → Jet) : (s.modJet n f).lp = s.lp := rfl
@[simp] theorem State.modJet_outer (s : State) (n : Fin 8) (f : Jet → Jet) : (s.modJet n f).outer = s.outer := rfl
@[simp] theorem State.modJet_fld (s : State) (n : Fin 8) (f : Jet → Jet) : (s.modJet n f).fld = s.fld := rfl
@[simp] theorem State.modJet_bl (s : State) (n : Fin 8) (f : Jet → Jet) : (s.modJet n f).bl = s.bl := rfl
@[simp] theorem State.modJet_stp (s : State) (n : Fin 8) (f : Jet → Jet) : (s.modJet n f).stp = s.stp := rfl
@[simp] theorem State.modJet_stpOld (s : State) (n : Fin 8) (f : Jet → Jet) : (s.modJet n f).stpOld = s.stpOld := rfl
@[simp] theorem State.modJet_gateLinks (s : State) (n : Fin 8) (f : Jet → Jet) :
    (s.modJet n f).gateLinks = s.gateLinks := rfl
@[simp] theorem State.modJet_sleepGate (s : State) (n : Fin 8) (f : Jet → Jet) :
    (s.modJet n f).sleepGate = s.sleepGate := rfl
@[simp] theorem State.modJet_chuck (s : State) (n : Fin 8) (f : Jet → Jet) : (s.modJet n f).chuck = s.chuck := rfl
@[simp] theorem State.modJet_cmdIn (s : State) (n : Fin 8) (f : Jet → Jet) : (s.modJet n f).cmdIn = s.cmdIn := rfl
@[simp] theorem State.modJet_sill (s : State) (n : Fin 8) (f : Jet → Jet) : (s.modJet n f).sill = s.sill := rfl
@[simp] theorem State.modJet_core (s : State) (n : Fin 8) (f : Jet → Jet) : (s.modJet n f).core = s.core := rfl
@[simp] theorem State.modJet_march (s : State) (n : Fin 8) (f : Jet → Jet) : (s.modJet n f).march = s.march := rfl
@[simp] theorem State.modJet_hostPan (s : State) (n : Fin 8) (f : Jet → Jet) : (s.modJet n f).hostPan = s.hostPan := rfl
@[simp] theorem State.modJet_bar (s : State) (n : Fin 8) (f : Jet → Jet) : (s.modJet n f).bar = s.bar := rfl
@[simp] theorem State.modJet_skew (s : State) (n : Fin 8) (f : Jet → Jet) : (s.modJet n f).skew = s.skew := rfl
@[simp] theorem State.modJet_jo (s : State) (n : Fin 8) (f : Jet → Jet) : (s.modJet n f).jo = s.jo := rfl
@[simp] theorem State.modJet_cel (s : State) (n : Fin 8) (f : Jet → Jet) : (s.modJet n f).cel = s.cel := rfl
@[simp] theorem State.modJet_past (s : State) (n : Fin 8) (f : Jet → Jet) : (s.modJet n f).past = s.past := rfl
@[simp] theorem State.modJet_flash (s : State) (n : Fin 8) (f : Jet → Jet) : (s.modJet n f).flash = s.flash := rfl
@[simp] theorem State.modJet_resetReq (s : State) (n : Fin 8) (f : Jet → Jet) :
    (s.modJet n f).resetReq = s.resetReq := rfl
@[simp] theorem State.modJet_violAt (s : State) (n : Fin 8) (f : Jet → Jet) : (s.modJet n f).violAt = s.violAt := rfl
@[simp] theorem State.modJet_sessions (s : State) (n : Fin 8) (f : Jet → Jet) :
    (s.modJet n f).sessions = s.sessions := rfl
@[simp] theorem State.modJet_stream (s : State) (n : Fin 8) (f : Jet → Jet) : (s.modJet n f).stream = s.stream := rfl
@[simp] theorem State.modJet_thr (s : State) (n : Fin 8) (f : Jet → Jet) : (s.modJet n f).thr = s.thr := rfl
@[simp] theorem State.modJet_hw (s : State) (n : Fin 8) (f : Jet → Jet) : (s.modJet n f).hw = s.hw := rfl
@[simp] theorem State.modJet_zen (s : State) (n : Fin 8) (f : Jet → Jet) : (s.modJet n f).zen = s.zen := rfl
@[simp] theorem State.modJet_can (s : State) (n : Fin 8) (f : Jet → Jet) : (s.modJet n f).can = s.can := rfl
@[simp] theorem State.modJet_boot (s : State) (n : Fin 8) (f : Jet → Jet) : (s.modJet n f).boot = s.boot := rfl
@[simp] theorem State.modJet_fuses (s : State) (n : Fin 8) (f : Jet → Jet) : (s.modJet n f).fuses = s.fuses := rfl
@[simp] theorem State.modJet_servo (s : State) (n : Fin 8) (f : Jet → Jet) : (s.modJet n f).servo = s.servo := rfl
@[simp] theorem State.modJet_same (s : State) (n : Fin 8) (f : Jet → Jet) : (s.modJet n f).jet[n] = f s.jet[n] := by
  simp [State.modJet]
theorem State.modJet_other (s : State) (n : Fin 8) (f : Jet → Jet) {m : Fin 8} (h : m ≠ n) : (s.modJet n f).jet[m] = s.jet[m] := by
  simp [State.modJet, Fin.val_inj, Ne.symm h]

/-! ### modBar -/

@[simp] theorem State.modBar_pending (s : State) (n : Fin 16) (f : Bar → Bar) :
    (s.modBar n f).pending = s.pending := rfl
@[simp] theorem State.modBar_phys (s : State) (n : Fin 16) (f : Bar → Bar) : (s.modBar n f).phys = s.phys := rfl
@[simp] theorem State.modBar_lclk (s : State) (n : Fin 16) (f : Bar → Bar) : (s.modBar n f).lclk = s.lclk := rfl
@[simp] theorem State.modBar_run (s : State) (n : Fin 16) (f : Bar → Bar) : (s.modBar n f).run = s.run := rfl
@[simp] theorem State.modBar_steps (s : State) (n : Fin 16) (f : Bar → Bar) : (s.modBar n f).steps = s.steps := rfl
@[simp] theorem State.modBar_freeCtr (s : State) (n : Fin 16) (f : Bar → Bar) :
    (s.modBar n f).freeCtr = s.freeCtr := rfl
@[simp] theorem State.modBar_rdata (s : State) (n : Fin 16) (f : Bar → Bar) : (s.modBar n f).rdata = s.rdata := rfl
@[simp] theorem State.modBar_regs (s : State) (n : Fin 16) (f : Bar → Bar) : (s.modBar n f).regs = s.regs := rfl
@[simp] theorem State.modBar_strobe (s : State) (n : Fin 16) (f : Bar → Bar) : (s.modBar n f).strobe = s.strobe := rfl
@[simp] theorem State.modBar_snaps (s : State) (n : Fin 16) (f : Bar → Bar) : (s.modBar n f).snaps = s.snaps := rfl
@[simp] theorem State.modBar_held (s : State) (n : Fin 16) (f : Bar → Bar) : (s.modBar n f).held = s.held := rfl
@[simp] theorem State.modBar_mem (s : State) (n : Fin 16) (f : Bar → Bar) : (s.modBar n f).mem = s.mem := rfl
@[simp] theorem State.modBar_badPar (s : State) (n : Fin 16) (f : Bar → Bar) : (s.modBar n f).badPar = s.badPar := rfl
@[simp] theorem State.modBar_sp (s : State) (n : Fin 16) (f : Bar → Bar) : (s.modBar n f).sp = s.sp := rfl
@[simp] theorem State.modBar_snap (s : State) (n : Fin 16) (f : Bar → Bar) : (s.modBar n f).snap = s.snap := rfl
@[simp] theorem State.modBar_seq (s : State) (n : Fin 16) (f : Bar → Bar) : (s.modBar n f).seq = s.seq := rfl
@[simp] theorem State.modBar_led (s : State) (n : Fin 16) (f : Bar → Bar) : (s.modBar n f).led = s.led := rfl
@[simp] theorem State.modBar_mark (s : State) (n : Fin 16) (f : Bar → Bar) : (s.modBar n f).mark = s.mark := rfl
@[simp] theorem State.modBar_tout (s : State) (n : Fin 16) (f : Bar → Bar) : (s.modBar n f).tout = s.tout := rfl
@[simp] theorem State.modBar_raf (s : State) (n : Fin 16) (f : Bar → Bar) : (s.modBar n f).raf = s.raf := rfl
@[simp] theorem State.modBar_evs (s : State) (n : Fin 16) (f : Bar → Bar) : (s.modBar n f).evs = s.evs := rfl
@[simp] theorem State.modBar_ax (s : State) (n : Fin 16) (f : Bar → Bar) : (s.modBar n f).ax = s.ax := rfl
@[simp] theorem State.modBar_prevTick (s : State) (n : Fin 16) (f : Bar → Bar) :
    (s.modBar n f).prevTick = s.prevTick := rfl
@[simp] theorem State.modBar_prevJumps (s : State) (n : Fin 16) (f : Bar → Bar) :
    (s.modBar n f).prevJumps = s.prevJumps := rfl
@[simp] theorem State.modBar_attic (s : State) (n : Fin 16) (f : Bar → Bar) : (s.modBar n f).attic = s.attic := rfl
@[simp] theorem State.modBar_lp (s : State) (n : Fin 16) (f : Bar → Bar) : (s.modBar n f).lp = s.lp := rfl
@[simp] theorem State.modBar_outer (s : State) (n : Fin 16) (f : Bar → Bar) : (s.modBar n f).outer = s.outer := rfl
@[simp] theorem State.modBar_fld (s : State) (n : Fin 16) (f : Bar → Bar) : (s.modBar n f).fld = s.fld := rfl
@[simp] theorem State.modBar_bl (s : State) (n : Fin 16) (f : Bar → Bar) : (s.modBar n f).bl = s.bl := rfl
@[simp] theorem State.modBar_stp (s : State) (n : Fin 16) (f : Bar → Bar) : (s.modBar n f).stp = s.stp := rfl
@[simp] theorem State.modBar_stpOld (s : State) (n : Fin 16) (f : Bar → Bar) : (s.modBar n f).stpOld = s.stpOld := rfl
@[simp] theorem State.modBar_gateLinks (s : State) (n : Fin 16) (f : Bar → Bar) :
    (s.modBar n f).gateLinks = s.gateLinks := rfl
@[simp] theorem State.modBar_sleepGate (s : State) (n : Fin 16) (f : Bar → Bar) :
    (s.modBar n f).sleepGate = s.sleepGate := rfl
@[simp] theorem State.modBar_chuck (s : State) (n : Fin 16) (f : Bar → Bar) : (s.modBar n f).chuck = s.chuck := rfl
@[simp] theorem State.modBar_cmdIn (s : State) (n : Fin 16) (f : Bar → Bar) : (s.modBar n f).cmdIn = s.cmdIn := rfl
@[simp] theorem State.modBar_sill (s : State) (n : Fin 16) (f : Bar → Bar) : (s.modBar n f).sill = s.sill := rfl
@[simp] theorem State.modBar_core (s : State) (n : Fin 16) (f : Bar → Bar) : (s.modBar n f).core = s.core := rfl
@[simp] theorem State.modBar_march (s : State) (n : Fin 16) (f : Bar → Bar) : (s.modBar n f).march = s.march := rfl
@[simp] theorem State.modBar_hostPan (s : State) (n : Fin 16) (f : Bar → Bar) :
    (s.modBar n f).hostPan = s.hostPan := rfl
@[simp] theorem State.modBar_jet (s : State) (n : Fin 16) (f : Bar → Bar) : (s.modBar n f).jet = s.jet := rfl
@[simp] theorem State.modBar_skew (s : State) (n : Fin 16) (f : Bar → Bar) : (s.modBar n f).skew = s.skew := rfl
@[simp] theorem State.modBar_jo (s : State) (n : Fin 16) (f : Bar → Bar) : (s.modBar n f).jo = s.jo := rfl
@[simp] theorem State.modBar_cel (s : State) (n : Fin 16) (f : Bar → Bar) : (s.modBar n f).cel = s.cel := rfl
@[simp] theorem State.modBar_past (s : State) (n : Fin 16) (f : Bar → Bar) : (s.modBar n f).past = s.past := rfl
@[simp] theorem State.modBar_flash (s : State) (n : Fin 16) (f : Bar → Bar) : (s.modBar n f).flash = s.flash := rfl
@[simp] theorem State.modBar_resetReq (s : State) (n : Fin 16) (f : Bar → Bar) :
    (s.modBar n f).resetReq = s.resetReq := rfl
@[simp] theorem State.modBar_violAt (s : State) (n : Fin 16) (f : Bar → Bar) : (s.modBar n f).violAt = s.violAt := rfl
@[simp] theorem State.modBar_sessions (s : State) (n : Fin 16) (f : Bar → Bar) :
    (s.modBar n f).sessions = s.sessions := rfl
@[simp] theorem State.modBar_stream (s : State) (n : Fin 16) (f : Bar → Bar) : (s.modBar n f).stream = s.stream := rfl
@[simp] theorem State.modBar_thr (s : State) (n : Fin 16) (f : Bar → Bar) : (s.modBar n f).thr = s.thr := rfl
@[simp] theorem State.modBar_hw (s : State) (n : Fin 16) (f : Bar → Bar) : (s.modBar n f).hw = s.hw := rfl
@[simp] theorem State.modBar_zen (s : State) (n : Fin 16) (f : Bar → Bar) : (s.modBar n f).zen = s.zen := rfl
@[simp] theorem State.modBar_can (s : State) (n : Fin 16) (f : Bar → Bar) : (s.modBar n f).can = s.can := rfl
@[simp] theorem State.modBar_boot (s : State) (n : Fin 16) (f : Bar → Bar) : (s.modBar n f).boot = s.boot := rfl
@[simp] theorem State.modBar_fuses (s : State) (n : Fin 16) (f : Bar → Bar) : (s.modBar n f).fuses = s.fuses := rfl
@[simp] theorem State.modBar_servo (s : State) (n : Fin 16) (f : Bar → Bar) : (s.modBar n f).servo = s.servo := rfl
@[simp] theorem State.modBar_same (s : State) (n : Fin 16) (f : Bar → Bar) : (s.modBar n f).bar[n] = f s.bar[n] := by
  simp [State.modBar]
theorem State.modBar_other (s : State) (n : Fin 16) (f : Bar → Bar) {m : Fin 16} (h : m ≠ n) : (s.modBar n f).bar[m] = s.bar[m] := by
  simp [State.modBar, Fin.val_inj, Ne.symm h]

/-! ### modCan -/

@[simp] theorem State.modCan_pending (s : State) (n : Fin 2) (f : Can → Can) : (s.modCan n f).pending = s.pending := rfl
@[simp] theorem State.modCan_phys (s : State) (n : Fin 2) (f : Can → Can) : (s.modCan n f).phys = s.phys := rfl
@[simp] theorem State.modCan_lclk (s : State) (n : Fin 2) (f : Can → Can) : (s.modCan n f).lclk = s.lclk := rfl
@[simp] theorem State.modCan_run (s : State) (n : Fin 2) (f : Can → Can) : (s.modCan n f).run = s.run := rfl
@[simp] theorem State.modCan_steps (s : State) (n : Fin 2) (f : Can → Can) : (s.modCan n f).steps = s.steps := rfl
@[simp] theorem State.modCan_freeCtr (s : State) (n : Fin 2) (f : Can → Can) : (s.modCan n f).freeCtr = s.freeCtr := rfl
@[simp] theorem State.modCan_rdata (s : State) (n : Fin 2) (f : Can → Can) : (s.modCan n f).rdata = s.rdata := rfl
@[simp] theorem State.modCan_regs (s : State) (n : Fin 2) (f : Can → Can) : (s.modCan n f).regs = s.regs := rfl
@[simp] theorem State.modCan_strobe (s : State) (n : Fin 2) (f : Can → Can) : (s.modCan n f).strobe = s.strobe := rfl
@[simp] theorem State.modCan_snaps (s : State) (n : Fin 2) (f : Can → Can) : (s.modCan n f).snaps = s.snaps := rfl
@[simp] theorem State.modCan_held (s : State) (n : Fin 2) (f : Can → Can) : (s.modCan n f).held = s.held := rfl
@[simp] theorem State.modCan_mem (s : State) (n : Fin 2) (f : Can → Can) : (s.modCan n f).mem = s.mem := rfl
@[simp] theorem State.modCan_badPar (s : State) (n : Fin 2) (f : Can → Can) : (s.modCan n f).badPar = s.badPar := rfl
@[simp] theorem State.modCan_sp (s : State) (n : Fin 2) (f : Can → Can) : (s.modCan n f).sp = s.sp := rfl
@[simp] theorem State.modCan_snap (s : State) (n : Fin 2) (f : Can → Can) : (s.modCan n f).snap = s.snap := rfl
@[simp] theorem State.modCan_seq (s : State) (n : Fin 2) (f : Can → Can) : (s.modCan n f).seq = s.seq := rfl
@[simp] theorem State.modCan_led (s : State) (n : Fin 2) (f : Can → Can) : (s.modCan n f).led = s.led := rfl
@[simp] theorem State.modCan_mark (s : State) (n : Fin 2) (f : Can → Can) : (s.modCan n f).mark = s.mark := rfl
@[simp] theorem State.modCan_tout (s : State) (n : Fin 2) (f : Can → Can) : (s.modCan n f).tout = s.tout := rfl
@[simp] theorem State.modCan_raf (s : State) (n : Fin 2) (f : Can → Can) : (s.modCan n f).raf = s.raf := rfl
@[simp] theorem State.modCan_evs (s : State) (n : Fin 2) (f : Can → Can) : (s.modCan n f).evs = s.evs := rfl
@[simp] theorem State.modCan_ax (s : State) (n : Fin 2) (f : Can → Can) : (s.modCan n f).ax = s.ax := rfl
@[simp] theorem State.modCan_prevTick (s : State) (n : Fin 2) (f : Can → Can) :
    (s.modCan n f).prevTick = s.prevTick := rfl
@[simp] theorem State.modCan_prevJumps (s : State) (n : Fin 2) (f : Can → Can) :
    (s.modCan n f).prevJumps = s.prevJumps := rfl
@[simp] theorem State.modCan_attic (s : State) (n : Fin 2) (f : Can → Can) : (s.modCan n f).attic = s.attic := rfl
@[simp] theorem State.modCan_lp (s : State) (n : Fin 2) (f : Can → Can) : (s.modCan n f).lp = s.lp := rfl
@[simp] theorem State.modCan_outer (s : State) (n : Fin 2) (f : Can → Can) : (s.modCan n f).outer = s.outer := rfl
@[simp] theorem State.modCan_fld (s : State) (n : Fin 2) (f : Can → Can) : (s.modCan n f).fld = s.fld := rfl
@[simp] theorem State.modCan_bl (s : State) (n : Fin 2) (f : Can → Can) : (s.modCan n f).bl = s.bl := rfl
@[simp] theorem State.modCan_stp (s : State) (n : Fin 2) (f : Can → Can) : (s.modCan n f).stp = s.stp := rfl
@[simp] theorem State.modCan_stpOld (s : State) (n : Fin 2) (f : Can → Can) : (s.modCan n f).stpOld = s.stpOld := rfl
@[simp] theorem State.modCan_gateLinks (s : State) (n : Fin 2) (f : Can → Can) :
    (s.modCan n f).gateLinks = s.gateLinks := rfl
@[simp] theorem State.modCan_sleepGate (s : State) (n : Fin 2) (f : Can → Can) :
    (s.modCan n f).sleepGate = s.sleepGate := rfl
@[simp] theorem State.modCan_chuck (s : State) (n : Fin 2) (f : Can → Can) : (s.modCan n f).chuck = s.chuck := rfl
@[simp] theorem State.modCan_cmdIn (s : State) (n : Fin 2) (f : Can → Can) : (s.modCan n f).cmdIn = s.cmdIn := rfl
@[simp] theorem State.modCan_sill (s : State) (n : Fin 2) (f : Can → Can) : (s.modCan n f).sill = s.sill := rfl
@[simp] theorem State.modCan_core (s : State) (n : Fin 2) (f : Can → Can) : (s.modCan n f).core = s.core := rfl
@[simp] theorem State.modCan_march (s : State) (n : Fin 2) (f : Can → Can) : (s.modCan n f).march = s.march := rfl
@[simp] theorem State.modCan_hostPan (s : State) (n : Fin 2) (f : Can → Can) : (s.modCan n f).hostPan = s.hostPan := rfl
@[simp] theorem State.modCan_jet (s : State) (n : Fin 2) (f : Can → Can) : (s.modCan n f).jet = s.jet := rfl
@[simp] theorem State.modCan_bar (s : State) (n : Fin 2) (f : Can → Can) : (s.modCan n f).bar = s.bar := rfl
@[simp] theorem State.modCan_skew (s : State) (n : Fin 2) (f : Can → Can) : (s.modCan n f).skew = s.skew := rfl
@[simp] theorem State.modCan_jo (s : State) (n : Fin 2) (f : Can → Can) : (s.modCan n f).jo = s.jo := rfl
@[simp] theorem State.modCan_cel (s : State) (n : Fin 2) (f : Can → Can) : (s.modCan n f).cel = s.cel := rfl
@[simp] theorem State.modCan_past (s : State) (n : Fin 2) (f : Can → Can) : (s.modCan n f).past = s.past := rfl
@[simp] theorem State.modCan_flash (s : State) (n : Fin 2) (f : Can → Can) : (s.modCan n f).flash = s.flash := rfl
@[simp] theorem State.modCan_resetReq (s : State) (n : Fin 2) (f : Can → Can) :
    (s.modCan n f).resetReq = s.resetReq := rfl
@[simp] theorem State.modCan_violAt (s : State) (n : Fin 2) (f : Can → Can) : (s.modCan n f).violAt = s.violAt := rfl
@[simp] theorem State.modCan_sessions (s : State) (n : Fin 2) (f : Can → Can) :
    (s.modCan n f).sessions = s.sessions := rfl
@[simp] theorem State.modCan_stream (s : State) (n : Fin 2) (f : Can → Can) : (s.modCan n f).stream = s.stream := rfl
@[simp] theorem State.modCan_thr (s : State) (n : Fin 2) (f : Can → Can) : (s.modCan n f).thr = s.thr := rfl
@[simp] theorem State.modCan_hw (s : State) (n : Fin 2) (f : Can → Can) : (s.modCan n f).hw = s.hw := rfl
@[simp] theorem State.modCan_zen (s : State) (n : Fin 2) (f : Can → Can) : (s.modCan n f).zen = s.zen := rfl
@[simp] theorem State.modCan_boot (s : State) (n : Fin 2) (f : Can → Can) : (s.modCan n f).boot = s.boot := rfl
@[simp] theorem State.modCan_fuses (s : State) (n : Fin 2) (f : Can → Can) : (s.modCan n f).fuses = s.fuses := rfl
@[simp] theorem State.modCan_servo (s : State) (n : Fin 2) (f : Can → Can) : (s.modCan n f).servo = s.servo := rfl
@[simp] theorem State.modCan_same (s : State) (n : Fin 2) (f : Can → Can) : (s.modCan n f).can[n] = f s.can[n] := by
  simp [State.modCan]
theorem State.modCan_other (s : State) (n : Fin 2) (f : Can → Can) {m : Fin 2} (h : m ≠ n) : (s.modCan n f).can[m] = s.can[m] := by
  simp [State.modCan, Fin.val_inj, Ne.symm h]

/-! ### modBoot -/

@[simp] theorem State.modBoot_pending (s : State) (f : Boot → Boot) : (s.modBoot f).pending = s.pending := rfl
@[simp] theorem State.modBoot_phys (s : State) (f : Boot → Boot) : (s.modBoot f).phys = s.phys := rfl
@[simp] theorem State.modBoot_lclk (s : State) (f : Boot → Boot) : (s.modBoot f).lclk = s.lclk := rfl
@[simp] theorem State.modBoot_run (s : State) (f : Boot → Boot) : (s.modBoot f).run = s.run := rfl
@[simp] theorem State.modBoot_steps (s : State) (f : Boot → Boot) : (s.modBoot f).steps = s.steps := rfl
@[simp] theorem State.modBoot_freeCtr (s : State) (f : Boot → Boot) : (s.modBoot f).freeCtr = s.freeCtr := rfl
@[simp] theorem State.modBoot_rdata (s : State) (f : Boot → Boot) : (s.modBoot f).rdata = s.rdata := rfl
@[simp] theorem State.modBoot_regs (s : State) (f : Boot → Boot) : (s.modBoot f).regs = s.regs := rfl
@[simp] theorem State.modBoot_strobe (s : State) (f : Boot → Boot) : (s.modBoot f).strobe = s.strobe := rfl
@[simp] theorem State.modBoot_snaps (s : State) (f : Boot → Boot) : (s.modBoot f).snaps = s.snaps := rfl
@[simp] theorem State.modBoot_held (s : State) (f : Boot → Boot) : (s.modBoot f).held = s.held := rfl
@[simp] theorem State.modBoot_mem (s : State) (f : Boot → Boot) : (s.modBoot f).mem = s.mem := rfl
@[simp] theorem State.modBoot_badPar (s : State) (f : Boot → Boot) : (s.modBoot f).badPar = s.badPar := rfl
@[simp] theorem State.modBoot_sp (s : State) (f : Boot → Boot) : (s.modBoot f).sp = s.sp := rfl
@[simp] theorem State.modBoot_snap (s : State) (f : Boot → Boot) : (s.modBoot f).snap = s.snap := rfl
@[simp] theorem State.modBoot_seq (s : State) (f : Boot → Boot) : (s.modBoot f).seq = s.seq := rfl
@[simp] theorem State.modBoot_led (s : State) (f : Boot → Boot) : (s.modBoot f).led = s.led := rfl
@[simp] theorem State.modBoot_mark (s : State) (f : Boot → Boot) : (s.modBoot f).mark = s.mark := rfl
@[simp] theorem State.modBoot_tout (s : State) (f : Boot → Boot) : (s.modBoot f).tout = s.tout := rfl
@[simp] theorem State.modBoot_raf (s : State) (f : Boot → Boot) : (s.modBoot f).raf = s.raf := rfl
@[simp] theorem State.modBoot_evs (s : State) (f : Boot → Boot) : (s.modBoot f).evs = s.evs := rfl
@[simp] theorem State.modBoot_ax (s : State) (f : Boot → Boot) : (s.modBoot f).ax = s.ax := rfl
@[simp] theorem State.modBoot_prevTick (s : State) (f : Boot → Boot) : (s.modBoot f).prevTick = s.prevTick := rfl
@[simp] theorem State.modBoot_prevJumps (s : State) (f : Boot → Boot) : (s.modBoot f).prevJumps = s.prevJumps := rfl
@[simp] theorem State.modBoot_attic (s : State) (f : Boot → Boot) : (s.modBoot f).attic = s.attic := rfl
@[simp] theorem State.modBoot_lp (s : State) (f : Boot → Boot) : (s.modBoot f).lp = s.lp := rfl
@[simp] theorem State.modBoot_outer (s : State) (f : Boot → Boot) : (s.modBoot f).outer = s.outer := rfl
@[simp] theorem State.modBoot_fld (s : State) (f : Boot → Boot) : (s.modBoot f).fld = s.fld := rfl
@[simp] theorem State.modBoot_bl (s : State) (f : Boot → Boot) : (s.modBoot f).bl = s.bl := rfl
@[simp] theorem State.modBoot_stp (s : State) (f : Boot → Boot) : (s.modBoot f).stp = s.stp := rfl
@[simp] theorem State.modBoot_stpOld (s : State) (f : Boot → Boot) : (s.modBoot f).stpOld = s.stpOld := rfl
@[simp] theorem State.modBoot_gateLinks (s : State) (f : Boot → Boot) : (s.modBoot f).gateLinks = s.gateLinks := rfl
@[simp] theorem State.modBoot_sleepGate (s : State) (f : Boot → Boot) : (s.modBoot f).sleepGate = s.sleepGate := rfl
@[simp] theorem State.modBoot_chuck (s : State) (f : Boot → Boot) : (s.modBoot f).chuck = s.chuck := rfl
@[simp] theorem State.modBoot_cmdIn (s : State) (f : Boot → Boot) : (s.modBoot f).cmdIn = s.cmdIn := rfl
@[simp] theorem State.modBoot_sill (s : State) (f : Boot → Boot) : (s.modBoot f).sill = s.sill := rfl
@[simp] theorem State.modBoot_core (s : State) (f : Boot → Boot) : (s.modBoot f).core = s.core := rfl
@[simp] theorem State.modBoot_march (s : State) (f : Boot → Boot) : (s.modBoot f).march = s.march := rfl
@[simp] theorem State.modBoot_hostPan (s : State) (f : Boot → Boot) : (s.modBoot f).hostPan = s.hostPan := rfl
@[simp] theorem State.modBoot_jet (s : State) (f : Boot → Boot) : (s.modBoot f).jet = s.jet := rfl
@[simp] theorem State.modBoot_bar (s : State) (f : Boot → Boot) : (s.modBoot f).bar = s.bar := rfl
@[simp] theorem State.modBoot_skew (s : State) (f : Boot → Boot) : (s.modBoot f).skew = s.skew := rfl
@[simp] theorem State.modBoot_jo (s : State) (f : Boot → Boot) : (s.modBoot f).jo = s.jo := rfl
@[simp] theorem State.modBoot_cel (s : State) (f : Boot → Boot) : (s.modBoot f).cel = s.cel := rfl
@[simp] theorem State.modBoot_past (s : State) (f : Boot → Boot) : (s.modBoot f).past = s.past := rfl
@[simp] theorem State.modBoot_flash (s : State) (f : Boot → Boot) : (s.modBoot f).flash = s.flash := rfl
@[simp] theorem State.modBoot_resetReq (s : State) (f : Boot → Boot) : (s.modBoot f).resetReq = s.resetReq := rfl
@[simp] theorem State.modBoot_violAt (s : State) (f : Boot → Boot) : (s.modBoot f).violAt = s.violAt := rfl
@[simp] theorem State.modBoot_sessions (s : State) (f : Boot → Boot) : (s.modBoot f).sessions = s.sessions := rfl
@[simp] theorem State.modBoot_stream (s : State) (f : Boot → Boot) : (s.modBoot f).stream = s.stream := rfl
@[simp] theorem State.modBoot_thr (s : State) (f : Boot → Boot) : (s.modBoot f).thr = s.thr := rfl
@[simp] theorem State.modBoot_hw (s : State) (f : Boot → Boot) : (s.modBoot f).hw = s.hw := rfl
@[simp] theorem State.modBoot_zen (s : State) (f : Boot → Boot) : (s.modBoot f).zen = s.zen := rfl
@[simp] theorem State.modBoot_can (s : State) (f : Boot → Boot) : (s.modBoot f).can = s.can := rfl
@[simp] theorem State.modBoot_fuses (s : State) (f : Boot → Boot) : (s.modBoot f).fuses = s.fuses := rfl
@[simp] theorem State.modBoot_servo (s : State) (f : Boot → Boot) : (s.modBoot f).servo = s.servo := rfl
@[simp] theorem State.modBoot_boot (s : State) (f : Boot → Boot) : (s.modBoot f).boot = f s.boot := rfl

/-! ### modCel -/

@[simp] theorem State.modCel_pending (s : State) (f : Cellar → Cellar) : (s.modCel f).pending = s.pending := rfl
@[simp] theorem State.modCel_phys (s : State) (f : Cellar → Cellar) : (s.modCel f).phys = s.phys := rfl
@[simp] theorem State.modCel_lclk (s : State) (f : Cellar → Cellar) : (s.modCel f).lclk = s.lclk := rfl
@[simp] theorem State.modCel_run (s : State) (f : Cellar → Cellar) : (s.modCel f).run = s.run := rfl
@[simp] theorem State.modCel_steps (s : State) (f : Cellar → Cellar) : (s.modCel f).steps = s.steps := rfl
@[simp] theorem State.modCel_freeCtr (s : State) (f : Cellar → Cellar) : (s.modCel f).freeCtr = s.freeCtr := rfl
@[simp] theorem State.modCel_rdata (s : State) (f : Cellar → Cellar) : (s.modCel f).rdata = s.rdata := rfl
@[simp] theorem State.modCel_regs (s : State) (f : Cellar → Cellar) : (s.modCel f).regs = s.regs := rfl
@[simp] theorem State.modCel_strobe (s : State) (f : Cellar → Cellar) : (s.modCel f).strobe = s.strobe := rfl
@[simp] theorem State.modCel_snaps (s : State) (f : Cellar → Cellar) : (s.modCel f).snaps = s.snaps := rfl
@[simp] theorem State.modCel_held (s : State) (f : Cellar → Cellar) : (s.modCel f).held = s.held := rfl
@[simp] theorem State.modCel_mem (s : State) (f : Cellar → Cellar) : (s.modCel f).mem = s.mem := rfl
@[simp] theorem State.modCel_badPar (s : State) (f : Cellar → Cellar) : (s.modCel f).badPar = s.badPar := rfl
@[simp] theorem State.modCel_sp (s : State) (f : Cellar → Cellar) : (s.modCel f).sp = s.sp := rfl
@[simp] theorem State.modCel_snap (s : State) (f : Cellar → Cellar) : (s.modCel f).snap = s.snap := rfl
@[simp] theorem State.modCel_seq (s : State) (f : Cellar → Cellar) : (s.modCel f).seq = s.seq := rfl
@[simp] theorem State.modCel_led (s : State) (f : Cellar → Cellar) : (s.modCel f).led = s.led := rfl
@[simp] theorem State.modCel_mark (s : State) (f : Cellar → Cellar) : (s.modCel f).mark = s.mark := rfl
@[simp] theorem State.modCel_tout (s : State) (f : Cellar → Cellar) : (s.modCel f).tout = s.tout := rfl
@[simp] theorem State.modCel_raf (s : State) (f : Cellar → Cellar) : (s.modCel f).raf = s.raf := rfl
@[simp] theorem State.modCel_evs (s : State) (f : Cellar → Cellar) : (s.modCel f).evs = s.evs := rfl
@[simp] theorem State.modCel_ax (s : State) (f : Cellar → Cellar) : (s.modCel f).ax = s.ax := rfl
@[simp] theorem State.modCel_prevTick (s : State) (f : Cellar → Cellar) : (s.modCel f).prevTick = s.prevTick := rfl
@[simp] theorem State.modCel_prevJumps (s : State) (f : Cellar → Cellar) : (s.modCel f).prevJumps = s.prevJumps := rfl
@[simp] theorem State.modCel_attic (s : State) (f : Cellar → Cellar) : (s.modCel f).attic = s.attic := rfl
@[simp] theorem State.modCel_lp (s : State) (f : Cellar → Cellar) : (s.modCel f).lp = s.lp := rfl
@[simp] theorem State.modCel_outer (s : State) (f : Cellar → Cellar) : (s.modCel f).outer = s.outer := rfl
@[simp] theorem State.modCel_fld (s : State) (f : Cellar → Cellar) : (s.modCel f).fld = s.fld := rfl
@[simp] theorem State.modCel_bl (s : State) (f : Cellar → Cellar) : (s.modCel f).bl = s.bl := rfl
@[simp] theorem State.modCel_stp (s : State) (f : Cellar → Cellar) : (s.modCel f).stp = s.stp := rfl
@[simp] theorem State.modCel_stpOld (s : State) (f : Cellar → Cellar) : (s.modCel f).stpOld = s.stpOld := rfl
@[simp] theorem State.modCel_gateLinks (s : State) (f : Cellar → Cellar) : (s.modCel f).gateLinks = s.gateLinks := rfl
@[simp] theorem State.modCel_sleepGate (s : State) (f : Cellar → Cellar) : (s.modCel f).sleepGate = s.sleepGate := rfl
@[simp] theorem State.modCel_chuck (s : State) (f : Cellar → Cellar) : (s.modCel f).chuck = s.chuck := rfl
@[simp] theorem State.modCel_cmdIn (s : State) (f : Cellar → Cellar) : (s.modCel f).cmdIn = s.cmdIn := rfl
@[simp] theorem State.modCel_sill (s : State) (f : Cellar → Cellar) : (s.modCel f).sill = s.sill := rfl
@[simp] theorem State.modCel_core (s : State) (f : Cellar → Cellar) : (s.modCel f).core = s.core := rfl
@[simp] theorem State.modCel_march (s : State) (f : Cellar → Cellar) : (s.modCel f).march = s.march := rfl
@[simp] theorem State.modCel_hostPan (s : State) (f : Cellar → Cellar) : (s.modCel f).hostPan = s.hostPan := rfl
@[simp] theorem State.modCel_jet (s : State) (f : Cellar → Cellar) : (s.modCel f).jet = s.jet := rfl
@[simp] theorem State.modCel_bar (s : State) (f : Cellar → Cellar) : (s.modCel f).bar = s.bar := rfl
@[simp] theorem State.modCel_skew (s : State) (f : Cellar → Cellar) : (s.modCel f).skew = s.skew := rfl
@[simp] theorem State.modCel_jo (s : State) (f : Cellar → Cellar) : (s.modCel f).jo = s.jo := rfl
@[simp] theorem State.modCel_past (s : State) (f : Cellar → Cellar) : (s.modCel f).past = s.past := rfl
@[simp] theorem State.modCel_flash (s : State) (f : Cellar → Cellar) : (s.modCel f).flash = s.flash := rfl
@[simp] theorem State.modCel_resetReq (s : State) (f : Cellar → Cellar) : (s.modCel f).resetReq = s.resetReq := rfl
@[simp] theorem State.modCel_violAt (s : State) (f : Cellar → Cellar) : (s.modCel f).violAt = s.violAt := rfl
@[simp] theorem State.modCel_sessions (s : State) (f : Cellar → Cellar) : (s.modCel f).sessions = s.sessions := rfl
@[simp] theorem State.modCel_stream (s : State) (f : Cellar → Cellar) : (s.modCel f).stream = s.stream := rfl
@[simp] theorem State.modCel_thr (s : State) (f : Cellar → Cellar) : (s.modCel f).thr = s.thr := rfl
@[simp] theorem State.modCel_hw (s : State) (f : Cellar → Cellar) : (s.modCel f).hw = s.hw := rfl
@[simp] theorem State.modCel_zen (s : State) (f : Cellar → Cellar) : (s.modCel f).zen = s.zen := rfl
@[simp] theorem State.modCel_can (s : State) (f : Cellar → Cellar) : (s.modCel f).can = s.can := rfl
@[simp] theorem State.modCel_boot (s : State) (f : Cellar → Cellar) : (s.modCel f).boot = s.boot := rfl
@[simp] theorem State.modCel_fuses (s : State) (f : Cellar → Cellar) : (s.modCel f).fuses = s.fuses := rfl
@[simp] theorem State.modCel_servo (s : State) (f : Cellar → Cellar) : (s.modCel f).servo = s.servo := rfl
@[simp] theorem State.modCel_cel (s : State) (f : Cellar → Cellar) : (s.modCel f).cel = f s.cel := rfl

/-! ### modHw -/

@[simp] theorem State.modHw_pending (s : State) (f : Hallway → Hallway) : (s.modHw f).pending = s.pending := rfl
@[simp] theorem State.modHw_phys (s : State) (f : Hallway → Hallway) : (s.modHw f).phys = s.phys := rfl
@[simp] theorem State.modHw_lclk (s : State) (f : Hallway → Hallway) : (s.modHw f).lclk = s.lclk := rfl
@[simp] theorem State.modHw_run (s : State) (f : Hallway → Hallway) : (s.modHw f).run = s.run := rfl
@[simp] theorem State.modHw_steps (s : State) (f : Hallway → Hallway) : (s.modHw f).steps = s.steps := rfl
@[simp] theorem State.modHw_freeCtr (s : State) (f : Hallway → Hallway) : (s.modHw f).freeCtr = s.freeCtr := rfl
@[simp] theorem State.modHw_rdata (s : State) (f : Hallway → Hallway) : (s.modHw f).rdata = s.rdata := rfl
@[simp] theorem State.modHw_regs (s : State) (f : Hallway → Hallway) : (s.modHw f).regs = s.regs := rfl
@[simp] theorem State.modHw_strobe (s : State) (f : Hallway → Hallway) : (s.modHw f).strobe = s.strobe := rfl
@[simp] theorem State.modHw_snaps (s : State) (f : Hallway → Hallway) : (s.modHw f).snaps = s.snaps := rfl
@[simp] theorem State.modHw_held (s : State) (f : Hallway → Hallway) : (s.modHw f).held = s.held := rfl
@[simp] theorem State.modHw_mem (s : State) (f : Hallway → Hallway) : (s.modHw f).mem = s.mem := rfl
@[simp] theorem State.modHw_badPar (s : State) (f : Hallway → Hallway) : (s.modHw f).badPar = s.badPar := rfl
@[simp] theorem State.modHw_sp (s : State) (f : Hallway → Hallway) : (s.modHw f).sp = s.sp := rfl
@[simp] theorem State.modHw_snap (s : State) (f : Hallway → Hallway) : (s.modHw f).snap = s.snap := rfl
@[simp] theorem State.modHw_seq (s : State) (f : Hallway → Hallway) : (s.modHw f).seq = s.seq := rfl
@[simp] theorem State.modHw_led (s : State) (f : Hallway → Hallway) : (s.modHw f).led = s.led := rfl
@[simp] theorem State.modHw_mark (s : State) (f : Hallway → Hallway) : (s.modHw f).mark = s.mark := rfl
@[simp] theorem State.modHw_tout (s : State) (f : Hallway → Hallway) : (s.modHw f).tout = s.tout := rfl
@[simp] theorem State.modHw_raf (s : State) (f : Hallway → Hallway) : (s.modHw f).raf = s.raf := rfl
@[simp] theorem State.modHw_evs (s : State) (f : Hallway → Hallway) : (s.modHw f).evs = s.evs := rfl
@[simp] theorem State.modHw_ax (s : State) (f : Hallway → Hallway) : (s.modHw f).ax = s.ax := rfl
@[simp] theorem State.modHw_prevTick (s : State) (f : Hallway → Hallway) : (s.modHw f).prevTick = s.prevTick := rfl
@[simp] theorem State.modHw_prevJumps (s : State) (f : Hallway → Hallway) : (s.modHw f).prevJumps = s.prevJumps := rfl
@[simp] theorem State.modHw_attic (s : State) (f : Hallway → Hallway) : (s.modHw f).attic = s.attic := rfl
@[simp] theorem State.modHw_lp (s : State) (f : Hallway → Hallway) : (s.modHw f).lp = s.lp := rfl
@[simp] theorem State.modHw_outer (s : State) (f : Hallway → Hallway) : (s.modHw f).outer = s.outer := rfl
@[simp] theorem State.modHw_fld (s : State) (f : Hallway → Hallway) : (s.modHw f).fld = s.fld := rfl
@[simp] theorem State.modHw_bl (s : State) (f : Hallway → Hallway) : (s.modHw f).bl = s.bl := rfl
@[simp] theorem State.modHw_stp (s : State) (f : Hallway → Hallway) : (s.modHw f).stp = s.stp := rfl
@[simp] theorem State.modHw_stpOld (s : State) (f : Hallway → Hallway) : (s.modHw f).stpOld = s.stpOld := rfl
@[simp] theorem State.modHw_gateLinks (s : State) (f : Hallway → Hallway) : (s.modHw f).gateLinks = s.gateLinks := rfl
@[simp] theorem State.modHw_sleepGate (s : State) (f : Hallway → Hallway) : (s.modHw f).sleepGate = s.sleepGate := rfl
@[simp] theorem State.modHw_chuck (s : State) (f : Hallway → Hallway) : (s.modHw f).chuck = s.chuck := rfl
@[simp] theorem State.modHw_cmdIn (s : State) (f : Hallway → Hallway) : (s.modHw f).cmdIn = s.cmdIn := rfl
@[simp] theorem State.modHw_sill (s : State) (f : Hallway → Hallway) : (s.modHw f).sill = s.sill := rfl
@[simp] theorem State.modHw_core (s : State) (f : Hallway → Hallway) : (s.modHw f).core = s.core := rfl
@[simp] theorem State.modHw_march (s : State) (f : Hallway → Hallway) : (s.modHw f).march = s.march := rfl
@[simp] theorem State.modHw_hostPan (s : State) (f : Hallway → Hallway) : (s.modHw f).hostPan = s.hostPan := rfl
@[simp] theorem State.modHw_jet (s : State) (f : Hallway → Hallway) : (s.modHw f).jet = s.jet := rfl
@[simp] theorem State.modHw_bar (s : State) (f : Hallway → Hallway) : (s.modHw f).bar = s.bar := rfl
@[simp] theorem State.modHw_skew (s : State) (f : Hallway → Hallway) : (s.modHw f).skew = s.skew := rfl
@[simp] theorem State.modHw_jo (s : State) (f : Hallway → Hallway) : (s.modHw f).jo = s.jo := rfl
@[simp] theorem State.modHw_cel (s : State) (f : Hallway → Hallway) : (s.modHw f).cel = s.cel := rfl
@[simp] theorem State.modHw_past (s : State) (f : Hallway → Hallway) : (s.modHw f).past = s.past := rfl
@[simp] theorem State.modHw_flash (s : State) (f : Hallway → Hallway) : (s.modHw f).flash = s.flash := rfl
@[simp] theorem State.modHw_resetReq (s : State) (f : Hallway → Hallway) : (s.modHw f).resetReq = s.resetReq := rfl
@[simp] theorem State.modHw_violAt (s : State) (f : Hallway → Hallway) : (s.modHw f).violAt = s.violAt := rfl
@[simp] theorem State.modHw_sessions (s : State) (f : Hallway → Hallway) : (s.modHw f).sessions = s.sessions := rfl
@[simp] theorem State.modHw_stream (s : State) (f : Hallway → Hallway) : (s.modHw f).stream = s.stream := rfl
@[simp] theorem State.modHw_thr (s : State) (f : Hallway → Hallway) : (s.modHw f).thr = s.thr := rfl
@[simp] theorem State.modHw_zen (s : State) (f : Hallway → Hallway) : (s.modHw f).zen = s.zen := rfl
@[simp] theorem State.modHw_can (s : State) (f : Hallway → Hallway) : (s.modHw f).can = s.can := rfl
@[simp] theorem State.modHw_boot (s : State) (f : Hallway → Hallway) : (s.modHw f).boot = s.boot := rfl
@[simp] theorem State.modHw_fuses (s : State) (f : Hallway → Hallway) : (s.modHw f).fuses = s.fuses := rfl
@[simp] theorem State.modHw_servo (s : State) (f : Hallway → Hallway) : (s.modHw f).servo = s.servo := rfl
@[simp] theorem State.modHw_hw (s : State) (f : Hallway → Hallway) : (s.modHw f).hw = f s.hw := rfl

/-! ### modSeq -/

@[simp] theorem State.modSeq_pending (s : State) (f : Sequencer → Sequencer) : (s.modSeq f).pending = s.pending := rfl
@[simp] theorem State.modSeq_phys (s : State) (f : Sequencer → Sequencer) : (s.modSeq f).phys = s.phys := rfl
@[simp] theorem State.modSeq_lclk (s : State) (f : Sequencer → Sequencer) : (s.modSeq f).lclk = s.lclk := rfl
@[simp] theorem State.modSeq_run (s : State) (f : Sequencer → Sequencer) : (s.modSeq f).run = s.run := rfl
@[simp] theorem State.modSeq_steps (s : State) (f : Sequencer → Sequencer) : (s.modSeq f).steps = s.steps := rfl
@[simp] theorem State.modSeq_freeCtr (s : State) (f : Sequencer → Sequencer) : (s.modSeq f).freeCtr = s.freeCtr := rfl
@[simp] theorem State.modSeq_rdata (s : State) (f : Sequencer → Sequencer) : (s.modSeq f).rdata = s.rdata := rfl
@[simp] theorem State.modSeq_regs (s : State) (f : Sequencer → Sequencer) : (s.modSeq f).regs = s.regs := rfl
@[simp] theorem State.modSeq_strobe (s : State) (f : Sequencer → Sequencer) : (s.modSeq f).strobe = s.strobe := rfl
@[simp] theorem State.modSeq_snaps (s : State) (f : Sequencer → Sequencer) : (s.modSeq f).snaps = s.snaps := rfl
@[simp] theorem State.modSeq_held (s : State) (f : Sequencer → Sequencer) : (s.modSeq f).held = s.held := rfl
@[simp] theorem State.modSeq_mem (s : State) (f : Sequencer → Sequencer) : (s.modSeq f).mem = s.mem := rfl
@[simp] theorem State.modSeq_badPar (s : State) (f : Sequencer → Sequencer) : (s.modSeq f).badPar = s.badPar := rfl
@[simp] theorem State.modSeq_sp (s : State) (f : Sequencer → Sequencer) : (s.modSeq f).sp = s.sp := rfl
@[simp] theorem State.modSeq_snap (s : State) (f : Sequencer → Sequencer) : (s.modSeq f).snap = s.snap := rfl
@[simp] theorem State.modSeq_led (s : State) (f : Sequencer → Sequencer) : (s.modSeq f).led = s.led := rfl
@[simp] theorem State.modSeq_mark (s : State) (f : Sequencer → Sequencer) : (s.modSeq f).mark = s.mark := rfl
@[simp] theorem State.modSeq_tout (s : State) (f : Sequencer → Sequencer) : (s.modSeq f).tout = s.tout := rfl
@[simp] theorem State.modSeq_raf (s : State) (f : Sequencer → Sequencer) : (s.modSeq f).raf = s.raf := rfl
@[simp] theorem State.modSeq_evs (s : State) (f : Sequencer → Sequencer) : (s.modSeq f).evs = s.evs := rfl
@[simp] theorem State.modSeq_ax (s : State) (f : Sequencer → Sequencer) : (s.modSeq f).ax = s.ax := rfl
@[simp] theorem State.modSeq_prevTick (s : State) (f : Sequencer → Sequencer) :
    (s.modSeq f).prevTick = s.prevTick := rfl
@[simp] theorem State.modSeq_prevJumps (s : State) (f : Sequencer → Sequencer) :
    (s.modSeq f).prevJumps = s.prevJumps := rfl
@[simp] theorem State.modSeq_attic (s : State) (f : Sequencer → Sequencer) : (s.modSeq f).attic = s.attic := rfl
@[simp] theorem State.modSeq_lp (s : State) (f : Sequencer → Sequencer) : (s.modSeq f).lp = s.lp := rfl
@[simp] theorem State.modSeq_outer (s : State) (f : Sequencer → Sequencer) : (s.modSeq f).outer = s.outer := rfl
@[simp] theorem State.modSeq_fld (s : State) (f : Sequencer → Sequencer) : (s.modSeq f).fld = s.fld := rfl
@[simp] theorem State.modSeq_bl (s : State) (f : Sequencer → Sequencer) : (s.modSeq f).bl = s.bl := rfl
@[simp] theorem State.modSeq_stp (s : State) (f : Sequencer → Sequencer) : (s.modSeq f).stp = s.stp := rfl
@[simp] theorem State.modSeq_stpOld (s : State) (f : Sequencer → Sequencer) : (s.modSeq f).stpOld = s.stpOld := rfl
@[simp] theorem State.modSeq_gateLinks (s : State) (f : Sequencer → Sequencer) :
    (s.modSeq f).gateLinks = s.gateLinks := rfl
@[simp] theorem State.modSeq_sleepGate (s : State) (f : Sequencer → Sequencer) :
    (s.modSeq f).sleepGate = s.sleepGate := rfl
@[simp] theorem State.modSeq_chuck (s : State) (f : Sequencer → Sequencer) : (s.modSeq f).chuck = s.chuck := rfl
@[simp] theorem State.modSeq_cmdIn (s : State) (f : Sequencer → Sequencer) : (s.modSeq f).cmdIn = s.cmdIn := rfl
@[simp] theorem State.modSeq_sill (s : State) (f : Sequencer → Sequencer) : (s.modSeq f).sill = s.sill := rfl
@[simp] theorem State.modSeq_core (s : State) (f : Sequencer → Sequencer) : (s.modSeq f).core = s.core := rfl
@[simp] theorem State.modSeq_march (s : State) (f : Sequencer → Sequencer) : (s.modSeq f).march = s.march := rfl
@[simp] theorem State.modSeq_hostPan (s : State) (f : Sequencer → Sequencer) : (s.modSeq f).hostPan = s.hostPan := rfl
@[simp] theorem State.modSeq_jet (s : State) (f : Sequencer → Sequencer) : (s.modSeq f).jet = s.jet := rfl
@[simp] theorem State.modSeq_bar (s : State) (f : Sequencer → Sequencer) : (s.modSeq f).bar = s.bar := rfl
@[simp] theorem State.modSeq_skew (s : State) (f : Sequencer → Sequencer) : (s.modSeq f).skew = s.skew := rfl
@[simp] theorem State.modSeq_jo (s : State) (f : Sequencer → Sequencer) : (s.modSeq f).jo = s.jo := rfl
@[simp] theorem State.modSeq_cel (s : State) (f : Sequencer → Sequencer) : (s.modSeq f).cel = s.cel := rfl
@[simp] theorem State.modSeq_past (s : State) (f : Sequencer → Sequencer) : (s.modSeq f).past = s.past := rfl
@[simp] theorem State.modSeq_flash (s : State) (f : Sequencer → Sequencer) : (s.modSeq f).flash = s.flash := rfl
@[simp] theorem State.modSeq_resetReq (s : State) (f : Sequencer → Sequencer) :
    (s.modSeq f).resetReq = s.resetReq := rfl
@[simp] theorem State.modSeq_violAt (s : State) (f : Sequencer → Sequencer) : (s.modSeq f).violAt = s.violAt := rfl
@[simp] theorem State.modSeq_sessions (s : State) (f : Sequencer → Sequencer) :
    (s.modSeq f).sessions = s.sessions := rfl
@[simp] theorem State.modSeq_stream (s : State) (f : Sequencer → Sequencer) : (s.modSeq f).stream = s.stream := rfl
@[simp] theorem State.modSeq_thr (s : State) (f : Sequencer → Sequencer) : (s.modSeq f).thr = s.thr := rfl
@[simp] theorem State.modSeq_hw (s : State) (f : Sequencer → Sequencer) : (s.modSeq f).hw = s.hw := rfl
@[simp] theorem State.modSeq_zen (s : State) (f : Sequencer → Sequencer) : (s.modSeq f).zen = s.zen := rfl
@[simp] theorem State.modSeq_can (s : State) (f : Sequencer → Sequencer) : (s.modSeq f).can = s.can := rfl
@[simp] theorem State.modSeq_boot (s : State) (f : Sequencer → Sequencer) : (s.modSeq f).boot = s.boot := rfl
@[simp] theorem State.modSeq_fuses (s : State) (f : Sequencer → Sequencer) : (s.modSeq f).fuses = s.fuses := rfl
@[simp] theorem State.modSeq_servo (s : State) (f : Sequencer → Sequencer) : (s.modSeq f).servo = s.servo := rfl
@[simp] theorem State.modSeq_seq (s : State) (f : Sequencer → Sequencer) : (s.modSeq f).seq = f s.seq := rfl

/-! ### modServo -/

@[simp] theorem State.modServo_pending (s : State) (f : Servo → Servo) : (s.modServo f).pending = s.pending := rfl
@[simp] theorem State.modServo_phys (s : State) (f : Servo → Servo) : (s.modServo f).phys = s.phys := rfl
@[simp] theorem State.modServo_lclk (s : State) (f : Servo → Servo) : (s.modServo f).lclk = s.lclk := rfl
@[simp] theorem State.modServo_run (s : State) (f : Servo → Servo) : (s.modServo f).run = s.run := rfl
@[simp] theorem State.modServo_steps (s : State) (f : Servo → Servo) : (s.modServo f).steps = s.steps := rfl
@[simp] theorem State.modServo_freeCtr (s : State) (f : Servo → Servo) : (s.modServo f).freeCtr = s.freeCtr := rfl
@[simp] theorem State.modServo_rdata (s : State) (f : Servo → Servo) : (s.modServo f).rdata = s.rdata := rfl
@[simp] theorem State.modServo_regs (s : State) (f : Servo → Servo) : (s.modServo f).regs = s.regs := rfl
@[simp] theorem State.modServo_strobe (s : State) (f : Servo → Servo) : (s.modServo f).strobe = s.strobe := rfl
@[simp] theorem State.modServo_snaps (s : State) (f : Servo → Servo) : (s.modServo f).snaps = s.snaps := rfl
@[simp] theorem State.modServo_held (s : State) (f : Servo → Servo) : (s.modServo f).held = s.held := rfl
@[simp] theorem State.modServo_mem (s : State) (f : Servo → Servo) : (s.modServo f).mem = s.mem := rfl
@[simp] theorem State.modServo_badPar (s : State) (f : Servo → Servo) : (s.modServo f).badPar = s.badPar := rfl
@[simp] theorem State.modServo_sp (s : State) (f : Servo → Servo) : (s.modServo f).sp = s.sp := rfl
@[simp] theorem State.modServo_snap (s : State) (f : Servo → Servo) : (s.modServo f).snap = s.snap := rfl
@[simp] theorem State.modServo_seq (s : State) (f : Servo → Servo) : (s.modServo f).seq = s.seq := rfl
@[simp] theorem State.modServo_led (s : State) (f : Servo → Servo) : (s.modServo f).led = s.led := rfl
@[simp] theorem State.modServo_mark (s : State) (f : Servo → Servo) : (s.modServo f).mark = s.mark := rfl
@[simp] theorem State.modServo_tout (s : State) (f : Servo → Servo) : (s.modServo f).tout = s.tout := rfl
@[simp] theorem State.modServo_raf (s : State) (f : Servo → Servo) : (s.modServo f).raf = s.raf := rfl
@[simp] theorem State.modServo_evs (s : State) (f : Servo → Servo) : (s.modServo f).evs = s.evs := rfl
@[simp] theorem State.modServo_ax (s : State) (f : Servo → Servo) : (s.modServo f).ax = s.ax := rfl
@[simp] theorem State.modServo_prevTick (s : State) (f : Servo → Servo) : (s.modServo f).prevTick = s.prevTick := rfl
@[simp] theorem State.modServo_prevJumps (s : State) (f : Servo → Servo) : (s.modServo f).prevJumps = s.prevJumps := rfl
@[simp] theorem State.modServo_attic (s : State) (f : Servo → Servo) : (s.modServo f).attic = s.attic := rfl
@[simp] theorem State.modServo_lp (s : State) (f : Servo → Servo) : (s.modServo f).lp = s.lp := rfl
@[simp] theorem State.modServo_outer (s : State) (f : Servo → Servo) : (s.modServo f).outer = s.outer := rfl
@[simp] theorem State.modServo_fld (s : State) (f : Servo → Servo) : (s.modServo f).fld = s.fld := rfl
@[simp] theorem State.modServo_bl (s : State) (f : Servo → Servo) : (s.modServo f).bl = s.bl := rfl
@[simp] theorem State.modServo_stp (s : State) (f : Servo → Servo) : (s.modServo f).stp = s.stp := rfl
@[simp] theorem State.modServo_stpOld (s : State) (f : Servo → Servo) : (s.modServo f).stpOld = s.stpOld := rfl
@[simp] theorem State.modServo_gateLinks (s : State) (f : Servo → Servo) : (s.modServo f).gateLinks = s.gateLinks := rfl
@[simp] theorem State.modServo_sleepGate (s : State) (f : Servo → Servo) : (s.modServo f).sleepGate = s.sleepGate := rfl
@[simp] theorem State.modServo_chuck (s : State) (f : Servo → Servo) : (s.modServo f).chuck = s.chuck := rfl
@[simp] theorem State.modServo_cmdIn (s : State) (f : Servo → Servo) : (s.modServo f).cmdIn = s.cmdIn := rfl
@[simp] theorem State.modServo_sill (s : State) (f : Servo → Servo) : (s.modServo f).sill = s.sill := rfl
@[simp] theorem State.modServo_core (s : State) (f : Servo → Servo) : (s.modServo f).core = s.core := rfl
@[simp] theorem State.modServo_march (s : State) (f : Servo → Servo) : (s.modServo f).march = s.march := rfl
@[simp] theorem State.modServo_hostPan (s : State) (f : Servo → Servo) : (s.modServo f).hostPan = s.hostPan := rfl
@[simp] theorem State.modServo_jet (s : State) (f : Servo → Servo) : (s.modServo f).jet = s.jet := rfl
@[simp] theorem State.modServo_bar (s : State) (f : Servo → Servo) : (s.modServo f).bar = s.bar := rfl
@[simp] theorem State.modServo_skew (s : State) (f : Servo → Servo) : (s.modServo f).skew = s.skew := rfl
@[simp] theorem State.modServo_jo (s : State) (f : Servo → Servo) : (s.modServo f).jo = s.jo := rfl
@[simp] theorem State.modServo_cel (s : State) (f : Servo → Servo) : (s.modServo f).cel = s.cel := rfl
@[simp] theorem State.modServo_past (s : State) (f : Servo → Servo) : (s.modServo f).past = s.past := rfl
@[simp] theorem State.modServo_flash (s : State) (f : Servo → Servo) : (s.modServo f).flash = s.flash := rfl
@[simp] theorem State.modServo_resetReq (s : State) (f : Servo → Servo) : (s.modServo f).resetReq = s.resetReq := rfl
@[simp] theorem State.modServo_violAt (s : State) (f : Servo → Servo) : (s.modServo f).violAt = s.violAt := rfl
@[simp] theorem State.modServo_sessions (s : State) (f : Servo → Servo) : (s.modServo f).sessions = s.sessions := rfl
@[simp] theorem State.modServo_stream (s : State) (f : Servo → Servo) : (s.modServo f).stream = s.stream := rfl
@[simp] theorem State.modServo_thr (s : State) (f : Servo → Servo) : (s.modServo f).thr = s.thr := rfl
@[simp] theorem State.modServo_hw (s : State) (f : Servo → Servo) : (s.modServo f).hw = s.hw := rfl
@[simp] theorem State.modServo_zen (s : State) (f : Servo → Servo) : (s.modServo f).zen = s.zen := rfl
@[simp] theorem State.modServo_can (s : State) (f : Servo → Servo) : (s.modServo f).can = s.can := rfl
@[simp] theorem State.modServo_boot (s : State) (f : Servo → Servo) : (s.modServo f).boot = s.boot := rfl
@[simp] theorem State.modServo_fuses (s : State) (f : Servo → Servo) : (s.modServo f).fuses = s.fuses := rfl
@[simp] theorem State.modServo_servo (s : State) (f : Servo → Servo) : (s.modServo f).servo = f s.servo := rfl

/-! ### modJo -/

@[simp] theorem State.modJo_pending (s : State) (f : Joist → Joist) : (s.modJo f).pending = s.pending := rfl
@[simp] theorem State.modJo_phys (s : State) (f : Joist → Joist) : (s.modJo f).phys = s.phys := rfl
@[simp] theorem State.modJo_lclk (s : State) (f : Joist → Joist) : (s.modJo f).lclk = s.lclk := rfl
@[simp] theorem State.modJo_run (s : State) (f : Joist → Joist) : (s.modJo f).run = s.run := rfl
@[simp] theorem State.modJo_steps (s : State) (f : Joist → Joist) : (s.modJo f).steps = s.steps := rfl
@[simp] theorem State.modJo_freeCtr (s : State) (f : Joist → Joist) : (s.modJo f).freeCtr = s.freeCtr := rfl
@[simp] theorem State.modJo_rdata (s : State) (f : Joist → Joist) : (s.modJo f).rdata = s.rdata := rfl
@[simp] theorem State.modJo_regs (s : State) (f : Joist → Joist) : (s.modJo f).regs = s.regs := rfl
@[simp] theorem State.modJo_strobe (s : State) (f : Joist → Joist) : (s.modJo f).strobe = s.strobe := rfl
@[simp] theorem State.modJo_snaps (s : State) (f : Joist → Joist) : (s.modJo f).snaps = s.snaps := rfl
@[simp] theorem State.modJo_held (s : State) (f : Joist → Joist) : (s.modJo f).held = s.held := rfl
@[simp] theorem State.modJo_mem (s : State) (f : Joist → Joist) : (s.modJo f).mem = s.mem := rfl
@[simp] theorem State.modJo_badPar (s : State) (f : Joist → Joist) : (s.modJo f).badPar = s.badPar := rfl
@[simp] theorem State.modJo_sp (s : State) (f : Joist → Joist) : (s.modJo f).sp = s.sp := rfl
@[simp] theorem State.modJo_snap (s : State) (f : Joist → Joist) : (s.modJo f).snap = s.snap := rfl
@[simp] theorem State.modJo_seq (s : State) (f : Joist → Joist) : (s.modJo f).seq = s.seq := rfl
@[simp] theorem State.modJo_led (s : State) (f : Joist → Joist) : (s.modJo f).led = s.led := rfl
@[simp] theorem State.modJo_mark (s : State) (f : Joist → Joist) : (s.modJo f).mark = s.mark := rfl
@[simp] theorem State.modJo_tout (s : State) (f : Joist → Joist) : (s.modJo f).tout = s.tout := rfl
@[simp] theorem State.modJo_raf (s : State) (f : Joist → Joist) : (s.modJo f).raf = s.raf := rfl
@[simp] theorem State.modJo_evs (s : State) (f : Joist → Joist) : (s.modJo f).evs = s.evs := rfl
@[simp] theorem State.modJo_ax (s : State) (f : Joist → Joist) : (s.modJo f).ax = s.ax := rfl
@[simp] theorem State.modJo_prevTick (s : State) (f : Joist → Joist) : (s.modJo f).prevTick = s.prevTick := rfl
@[simp] theorem State.modJo_prevJumps (s : State) (f : Joist → Joist) : (s.modJo f).prevJumps = s.prevJumps := rfl
@[simp] theorem State.modJo_attic (s : State) (f : Joist → Joist) : (s.modJo f).attic = s.attic := rfl
@[simp] theorem State.modJo_lp (s : State) (f : Joist → Joist) : (s.modJo f).lp = s.lp := rfl
@[simp] theorem State.modJo_outer (s : State) (f : Joist → Joist) : (s.modJo f).outer = s.outer := rfl
@[simp] theorem State.modJo_fld (s : State) (f : Joist → Joist) : (s.modJo f).fld = s.fld := rfl
@[simp] theorem State.modJo_bl (s : State) (f : Joist → Joist) : (s.modJo f).bl = s.bl := rfl
@[simp] theorem State.modJo_stp (s : State) (f : Joist → Joist) : (s.modJo f).stp = s.stp := rfl
@[simp] theorem State.modJo_stpOld (s : State) (f : Joist → Joist) : (s.modJo f).stpOld = s.stpOld := rfl
@[simp] theorem State.modJo_gateLinks (s : State) (f : Joist → Joist) : (s.modJo f).gateLinks = s.gateLinks := rfl
@[simp] theorem State.modJo_sleepGate (s : State) (f : Joist → Joist) : (s.modJo f).sleepGate = s.sleepGate := rfl
@[simp] theorem State.modJo_chuck (s : State) (f : Joist → Joist) : (s.modJo f).chuck = s.chuck := rfl
@[simp] theorem State.modJo_cmdIn (s : State) (f : Joist → Joist) : (s.modJo f).cmdIn = s.cmdIn := rfl
@[simp] theorem State.modJo_sill (s : State) (f : Joist → Joist) : (s.modJo f).sill = s.sill := rfl
@[simp] theorem State.modJo_core (s : State) (f : Joist → Joist) : (s.modJo f).core = s.core := rfl
@[simp] theorem State.modJo_march (s : State) (f : Joist → Joist) : (s.modJo f).march = s.march := rfl
@[simp] theorem State.modJo_hostPan (s : State) (f : Joist → Joist) : (s.modJo f).hostPan = s.hostPan := rfl
@[simp] theorem State.modJo_jet (s : State) (f : Joist → Joist) : (s.modJo f).jet = s.jet := rfl
@[simp] theorem State.modJo_bar (s : State) (f : Joist → Joist) : (s.modJo f).bar = s.bar := rfl
@[simp] theorem State.modJo_skew (s : State) (f : Joist → Joist) : (s.modJo f).skew = s.skew := rfl
@[simp] theorem State.modJo_cel (s : State) (f : Joist → Joist) : (s.modJo f).cel = s.cel := rfl
@[simp] theorem State.modJo_past (s : State) (f : Joist → Joist) : (s.modJo f).past = s.past := rfl
@[simp] theorem State.modJo_flash (s : State) (f : Joist → Joist) : (s.modJo f).flash = s.flash := rfl
@[simp] theorem State.modJo_resetReq (s : State) (f : Joist → Joist) : (s.modJo f).resetReq = s.resetReq := rfl
@[simp] theorem State.modJo_violAt (s : State) (f : Joist → Joist) : (s.modJo f).violAt = s.violAt := rfl
@[simp] theorem State.modJo_sessions (s : State) (f : Joist → Joist) : (s.modJo f).sessions = s.sessions := rfl
@[simp] theorem State.modJo_stream (s : State) (f : Joist → Joist) : (s.modJo f).stream = s.stream := rfl
@[simp] theorem State.modJo_thr (s : State) (f : Joist → Joist) : (s.modJo f).thr = s.thr := rfl
@[simp] theorem State.modJo_hw (s : State) (f : Joist → Joist) : (s.modJo f).hw = s.hw := rfl
@[simp] theorem State.modJo_zen (s : State) (f : Joist → Joist) : (s.modJo f).zen = s.zen := rfl
@[simp] theorem State.modJo_can (s : State) (f : Joist → Joist) : (s.modJo f).can = s.can := rfl
@[simp] theorem State.modJo_boot (s : State) (f : Joist → Joist) : (s.modJo f).boot = s.boot := rfl
@[simp] theorem State.modJo_fuses (s : State) (f : Joist → Joist) : (s.modJo f).fuses = s.fuses := rfl
@[simp] theorem State.modJo_servo (s : State) (f : Joist → Joist) : (s.modJo f).servo = s.servo := rfl
@[simp] theorem State.modJo_jo (s : State) (f : Joist → Joist) : (s.modJo f).jo = f s.jo := rfl

/-! ### modThr -/

@[simp] theorem State.modThr_pending (s : State) (f : Thr → Thr) : (s.modThr f).pending = s.pending := rfl
@[simp] theorem State.modThr_phys (s : State) (f : Thr → Thr) : (s.modThr f).phys = s.phys := rfl
@[simp] theorem State.modThr_lclk (s : State) (f : Thr → Thr) : (s.modThr f).lclk = s.lclk := rfl
@[simp] theorem State.modThr_run (s : State) (f : Thr → Thr) : (s.modThr f).run = s.run := rfl
@[simp] theorem State.modThr_steps (s : State) (f : Thr → Thr) : (s.modThr f).steps = s.steps := rfl
@[simp] theorem State.modThr_freeCtr (s : State) (f : Thr → Thr) : (s.modThr f).freeCtr = s.freeCtr := rfl
@[simp] theorem State.modThr_rdata (s : State) (f : Thr → Thr) : (s.modThr f).rdata = s.rdata := rfl
@[simp] theorem State.modThr_regs (s : State) (f : Thr → Thr) : (s.modThr f).regs = s.regs := rfl
@[simp] theorem State.modThr_strobe (s : State) (f : Thr → Thr) : (s.modThr f).strobe = s.strobe := rfl
@[simp] theorem State.modThr_snaps (s : State) (f : Thr → Thr) : (s.modThr f).snaps = s.snaps := rfl
@[simp] theorem State.modThr_held (s : State) (f : Thr → Thr) : (s.modThr f).held = s.held := rfl
@[simp] theorem State.modThr_mem (s : State) (f : Thr → Thr) : (s.modThr f).mem = s.mem := rfl
@[simp] theorem State.modThr_badPar (s : State) (f : Thr → Thr) : (s.modThr f).badPar = s.badPar := rfl
@[simp] theorem State.modThr_sp (s : State) (f : Thr → Thr) : (s.modThr f).sp = s.sp := rfl
@[simp] theorem State.modThr_snap (s : State) (f : Thr → Thr) : (s.modThr f).snap = s.snap := rfl
@[simp] theorem State.modThr_seq (s : State) (f : Thr → Thr) : (s.modThr f).seq = s.seq := rfl
@[simp] theorem State.modThr_led (s : State) (f : Thr → Thr) : (s.modThr f).led = s.led := rfl
@[simp] theorem State.modThr_mark (s : State) (f : Thr → Thr) : (s.modThr f).mark = s.mark := rfl
@[simp] theorem State.modThr_tout (s : State) (f : Thr → Thr) : (s.modThr f).tout = s.tout := rfl
@[simp] theorem State.modThr_raf (s : State) (f : Thr → Thr) : (s.modThr f).raf = s.raf := rfl
@[simp] theorem State.modThr_evs (s : State) (f : Thr → Thr) : (s.modThr f).evs = s.evs := rfl
@[simp] theorem State.modThr_ax (s : State) (f : Thr → Thr) : (s.modThr f).ax = s.ax := rfl
@[simp] theorem State.modThr_prevTick (s : State) (f : Thr → Thr) : (s.modThr f).prevTick = s.prevTick := rfl
@[simp] theorem State.modThr_prevJumps (s : State) (f : Thr → Thr) : (s.modThr f).prevJumps = s.prevJumps := rfl
@[simp] theorem State.modThr_attic (s : State) (f : Thr → Thr) : (s.modThr f).attic = s.attic := rfl
@[simp] theorem State.modThr_lp (s : State) (f : Thr → Thr) : (s.modThr f).lp = s.lp := rfl
@[simp] theorem State.modThr_outer (s : State) (f : Thr → Thr) : (s.modThr f).outer = s.outer := rfl
@[simp] theorem State.modThr_fld (s : State) (f : Thr → Thr) : (s.modThr f).fld = s.fld := rfl
@[simp] theorem State.modThr_bl (s : State) (f : Thr → Thr) : (s.modThr f).bl = s.bl := rfl
@[simp] theorem State.modThr_stp (s : State) (f : Thr → Thr) : (s.modThr f).stp = s.stp := rfl
@[simp] theorem State.modThr_stpOld (s : State) (f : Thr → Thr) : (s.modThr f).stpOld = s.stpOld := rfl
@[simp] theorem State.modThr_gateLinks (s : State) (f : Thr → Thr) : (s.modThr f).gateLinks = s.gateLinks := rfl
@[simp] theorem State.modThr_sleepGate (s : State) (f : Thr → Thr) : (s.modThr f).sleepGate = s.sleepGate := rfl
@[simp] theorem State.modThr_chuck (s : State) (f : Thr → Thr) : (s.modThr f).chuck = s.chuck := rfl
@[simp] theorem State.modThr_cmdIn (s : State) (f : Thr → Thr) : (s.modThr f).cmdIn = s.cmdIn := rfl
@[simp] theorem State.modThr_sill (s : State) (f : Thr → Thr) : (s.modThr f).sill = s.sill := rfl
@[simp] theorem State.modThr_core (s : State) (f : Thr → Thr) : (s.modThr f).core = s.core := rfl
@[simp] theorem State.modThr_march (s : State) (f : Thr → Thr) : (s.modThr f).march = s.march := rfl
@[simp] theorem State.modThr_hostPan (s : State) (f : Thr → Thr) : (s.modThr f).hostPan = s.hostPan := rfl
@[simp] theorem State.modThr_jet (s : State) (f : Thr → Thr) : (s.modThr f).jet = s.jet := rfl
@[simp] theorem State.modThr_bar (s : State) (f : Thr → Thr) : (s.modThr f).bar = s.bar := rfl
@[simp] theorem State.modThr_skew (s : State) (f : Thr → Thr) : (s.modThr f).skew = s.skew := rfl
@[simp] theorem State.modThr_jo (s : State) (f : Thr → Thr) : (s.modThr f).jo = s.jo := rfl
@[simp] theorem State.modThr_cel (s : State) (f : Thr → Thr) : (s.modThr f).cel = s.cel := rfl
@[simp] theorem State.modThr_past (s : State) (f : Thr → Thr) : (s.modThr f).past = s.past := rfl
@[simp] theorem State.modThr_flash (s : State) (f : Thr → Thr) : (s.modThr f).flash = s.flash := rfl
@[simp] theorem State.modThr_resetReq (s : State) (f : Thr → Thr) : (s.modThr f).resetReq = s.resetReq := rfl
@[simp] theorem State.modThr_violAt (s : State) (f : Thr → Thr) : (s.modThr f).violAt = s.violAt := rfl
@[simp] theorem State.modThr_sessions (s : State) (f : Thr → Thr) : (s.modThr f).sessions = s.sessions := rfl
@[simp] theorem State.modThr_stream (s : State) (f : Thr → Thr) : (s.modThr f).stream = s.stream := rfl
@[simp] theorem State.modThr_hw (s : State) (f : Thr → Thr) : (s.modThr f).hw = s.hw := rfl
@[simp] theorem State.modThr_zen (s : State) (f : Thr → Thr) : (s.modThr f).zen = s.zen := rfl
@[simp] theorem State.modThr_can (s : State) (f : Thr → Thr) : (s.modThr f).can = s.can := rfl
@[simp] theorem State.modThr_boot (s : State) (f : Thr → Thr) : (s.modThr f).boot = s.boot := rfl
@[simp] theorem State.modThr_fuses (s : State) (f : Thr → Thr) : (s.modThr f).fuses = s.fuses := rfl
@[simp] theorem State.modThr_servo (s : State) (f : Thr → Thr) : (s.modThr f).servo = s.servo := rfl
@[simp] theorem State.modThr_thr (s : State) (f : Thr → Thr) : (s.modThr f).thr = f s.thr := rfl

/-! ### modZen -/

@[simp] theorem State.modZen_pending (s : State) (f : Zensor → Zensor) : (s.modZen f).pending = s.pending := rfl
@[simp] theorem State.modZen_phys (s : State) (f : Zensor → Zensor) : (s.modZen f).phys = s.phys := rfl
@[simp] theorem State.modZen_lclk (s : State) (f : Zensor → Zensor) : (s.modZen f).lclk = s.lclk := rfl
@[simp] theorem State.modZen_run (s : State) (f : Zensor → Zensor) : (s.modZen f).run = s.run := rfl
@[simp] theorem State.modZen_steps (s : State) (f : Zensor → Zensor) : (s.modZen f).steps = s.steps := rfl
@[simp] theorem State.modZen_freeCtr (s : State) (f : Zensor → Zensor) : (s.modZen f).freeCtr = s.freeCtr := rfl
@[simp] theorem State.modZen_rdata (s : State) (f : Zensor → Zensor) : (s.modZen f).rdata = s.rdata := rfl
@[simp] theorem State.modZen_regs (s : State) (f : Zensor → Zensor) : (s.modZen f).regs = s.regs := rfl
@[simp] theorem State.modZen_strobe (s : State) (f : Zensor → Zensor) : (s.modZen f).strobe = s.strobe := rfl
@[simp] theorem State.modZen_snaps (s : State) (f : Zensor → Zensor) : (s.modZen f).snaps = s.snaps := rfl
@[simp] theorem State.modZen_held (s : State) (f : Zensor → Zensor) : (s.modZen f).held = s.held := rfl
@[simp] theorem State.modZen_mem (s : State) (f : Zensor → Zensor) : (s.modZen f).mem = s.mem := rfl
@[simp] theorem State.modZen_badPar (s : State) (f : Zensor → Zensor) : (s.modZen f).badPar = s.badPar := rfl
@[simp] theorem State.modZen_sp (s : State) (f : Zensor → Zensor) : (s.modZen f).sp = s.sp := rfl
@[simp] theorem State.modZen_snap (s : State) (f : Zensor → Zensor) : (s.modZen f).snap = s.snap := rfl
@[simp] theorem State.modZen_seq (s : State) (f : Zensor → Zensor) : (s.modZen f).seq = s.seq := rfl
@[simp] theorem State.modZen_led (s : State) (f : Zensor → Zensor) : (s.modZen f).led = s.led := rfl
@[simp] theorem State.modZen_mark (s : State) (f : Zensor → Zensor) : (s.modZen f).mark = s.mark := rfl
@[simp] theorem State.modZen_tout (s : State) (f : Zensor → Zensor) : (s.modZen f).tout = s.tout := rfl
@[simp] theorem State.modZen_raf (s : State) (f : Zensor → Zensor) : (s.modZen f).raf = s.raf := rfl
@[simp] theorem State.modZen_evs (s : State) (f : Zensor → Zensor) : (s.modZen f).evs = s.evs := rfl
@[simp] theorem State.modZen_ax (s : State) (f : Zensor → Zensor) : (s.modZen f).ax = s.ax := rfl
@[simp] theorem State.modZen_prevTick (s : State) (f : Zensor → Zensor) : (s.modZen f).prevTick = s.prevTick := rfl
@[simp] theorem State.modZen_prevJumps (s : State) (f : Zensor → Zensor) : (s.modZen f).prevJumps = s.prevJumps := rfl
@[simp] theorem State.modZen_attic (s : State) (f : Zensor → Zensor) : (s.modZen f).attic = s.attic := rfl
@[simp] theorem State.modZen_lp (s : State) (f : Zensor → Zensor) : (s.modZen f).lp = s.lp := rfl
@[simp] theorem State.modZen_outer (s : State) (f : Zensor → Zensor) : (s.modZen f).outer = s.outer := rfl
@[simp] theorem State.modZen_fld (s : State) (f : Zensor → Zensor) : (s.modZen f).fld = s.fld := rfl
@[simp] theorem State.modZen_bl (s : State) (f : Zensor → Zensor) : (s.modZen f).bl = s.bl := rfl
@[simp] theorem State.modZen_stp (s : State) (f : Zensor → Zensor) : (s.modZen f).stp = s.stp := rfl
@[simp] theorem State.modZen_stpOld (s : State) (f : Zensor → Zensor) : (s.modZen f).stpOld = s.stpOld := rfl
@[simp] theorem State.modZen_gateLinks (s : State) (f : Zensor → Zensor) : (s.modZen f).gateLinks = s.gateLinks := rfl
@[simp] theorem State.modZen_sleepGate (s : State) (f : Zensor → Zensor) : (s.modZen f).sleepGate = s.sleepGate := rfl
@[simp] theorem State.modZen_chuck (s : State) (f : Zensor → Zensor) : (s.modZen f).chuck = s.chuck := rfl
@[simp] theorem State.modZen_cmdIn (s : State) (f : Zensor → Zensor) : (s.modZen f).cmdIn = s.cmdIn := rfl
@[simp] theorem State.modZen_sill (s : State) (f : Zensor → Zensor) : (s.modZen f).sill = s.sill := rfl
@[simp] theorem State.modZen_core (s : State) (f : Zensor → Zensor) : (s.modZen f).core = s.core := rfl
@[simp] theorem State.modZen_march (s : State) (f : Zensor → Zensor) : (s.modZen f).march = s.march := rfl
@[simp] theorem State.modZen_hostPan (s : State) (f : Zensor → Zensor) : (s.modZen f).hostPan = s.hostPan := rfl
@[simp] theorem State.modZen_jet (s : State) (f : Zensor → Zensor) : (s.modZen f).jet = s.jet := rfl
@[simp] theorem State.modZen_bar (s : State) (f : Zensor → Zensor) : (s.modZen f).bar = s.bar := rfl
@[simp] theorem State.modZen_skew (s : State) (f : Zensor → Zensor) : (s.modZen f).skew = s.skew := rfl
@[simp] theorem State.modZen_jo (s : State) (f : Zensor → Zensor) : (s.modZen f).jo = s.jo := rfl
@[simp] theorem State.modZen_cel (s : State) (f : Zensor → Zensor) : (s.modZen f).cel = s.cel := rfl
@[simp] theorem State.modZen_past (s : State) (f : Zensor → Zensor) : (s.modZen f).past = s.past := rfl
@[simp] theorem State.modZen_flash (s : State) (f : Zensor → Zensor) : (s.modZen f).flash = s.flash := rfl
@[simp] theorem State.modZen_resetReq (s : State) (f : Zensor → Zensor) : (s.modZen f).resetReq = s.resetReq := rfl
@[simp] theorem State.modZen_violAt (s : State) (f : Zensor → Zensor) : (s.modZen f).violAt = s.violAt := rfl
@[simp] theorem State.modZen_sessions (s : State) (f : Zensor → Zensor) : (s.modZen f).sessions = s.sessions := rfl
@[simp] theorem State.modZen_stream (s : State) (f : Zensor → Zensor) : (s.modZen f).stream = s.stream := rfl
@[simp] theorem State.modZen_thr (s : State) (f : Zensor → Zensor) : (s.modZen f).thr = s.thr := rfl
@[simp] theorem State.modZen_hw (s : State) (f : Zensor → Zensor) : (s.modZen f).hw = s.hw := rfl
@[simp] theorem State.modZen_can (s : State) (f : Zensor → Zensor) : (s.modZen f).can = s.can := rfl
@[simp] theorem State.modZen_boot (s : State) (f : Zensor → Zensor) : (s.modZen f).boot = s.boot := rfl
@[simp] theorem State.modZen_fuses (s : State) (f : Zensor → Zensor) : (s.modZen f).fuses = s.fuses := rfl
@[simp] theorem State.modZen_servo (s : State) (f : Zensor → Zensor) : (s.modZen f).servo = s.servo := rfl
@[simp] theorem State.modZen_zen (s : State) (f : Zensor → Zensor) : (s.modZen f).zen = f s.zen := rfl
/-! ### Several words at once -/

theorem State.setWords_regs (k : Nat) : ∀ (s : State) (a v : Nat), s.setWords a k v =
    { s with regs := (s.setWords a k v).regs } := by
  induction k with
  | zero => intro s a v; rfl
  | succ k ih =>
    intro s a v
    show State.setWords (s.setReg a _) (a + 4) k _ = _
    rw [ih]
    rfl

/-- Writing a wide value changes registers only. -/
theorem State.wset_regs (s : State) (w : Wide) (v n j : Nat) : s.wset w v n j =
    { s with regs := (s.wset w v n j).regs } := State.setWords_regs _ _ _ _

@[simp] theorem State.wset_pending (s : State) (w : Wide) (v n j : Nat) : (s.wset w v n j).pending = s.pending := by
  rw [State.wset_regs]
@[simp] theorem State.wset_phys (s : State) (w : Wide) (v n j : Nat) : (s.wset w v n j).phys = s.phys := by
  rw [State.wset_regs]
@[simp] theorem State.wset_lclk (s : State) (w : Wide) (v n j : Nat) : (s.wset w v n j).lclk = s.lclk := by
  rw [State.wset_regs]
@[simp] theorem State.wset_run (s : State) (w : Wide) (v n j : Nat) : (s.wset w v n j).run = s.run := by
  rw [State.wset_regs]
@[simp] theorem State.wset_steps (s : State) (w : Wide) (v n j : Nat) : (s.wset w v n j).steps = s.steps := by
  rw [State.wset_regs]
@[simp] theorem State.wset_freeCtr (s : State) (w : Wide) (v n j : Nat) : (s.wset w v n j).freeCtr = s.freeCtr := by
  rw [State.wset_regs]
@[simp] theorem State.wset_rdata (s : State) (w : Wide) (v n j : Nat) : (s.wset w v n j).rdata = s.rdata := by
  rw [State.wset_regs]
@[simp] theorem State.wset_strobe (s : State) (w : Wide) (v n j : Nat) : (s.wset w v n j).strobe = s.strobe := by
  rw [State.wset_regs]
@[simp] theorem State.wset_snaps (s : State) (w : Wide) (v n j : Nat) : (s.wset w v n j).snaps = s.snaps := by
  rw [State.wset_regs]
@[simp] theorem State.wset_held (s : State) (w : Wide) (v n j : Nat) : (s.wset w v n j).held = s.held := by
  rw [State.wset_regs]
@[simp] theorem State.wset_mem (s : State) (w : Wide) (v n j : Nat) : (s.wset w v n j).mem = s.mem := by
  rw [State.wset_regs]
@[simp] theorem State.wset_badPar (s : State) (w : Wide) (v n j : Nat) : (s.wset w v n j).badPar = s.badPar := by
  rw [State.wset_regs]
@[simp] theorem State.wset_sp (s : State) (w : Wide) (v n j : Nat) : (s.wset w v n j).sp = s.sp := by
  rw [State.wset_regs]
@[simp] theorem State.wset_snap (s : State) (w : Wide) (v n j : Nat) : (s.wset w v n j).snap = s.snap := by
  rw [State.wset_regs]
@[simp] theorem State.wset_seq (s : State) (w : Wide) (v n j : Nat) : (s.wset w v n j).seq = s.seq := by
  rw [State.wset_regs]
@[simp] theorem State.wset_led (s : State) (w : Wide) (v n j : Nat) : (s.wset w v n j).led = s.led := by
  rw [State.wset_regs]
@[simp] theorem State.wset_mark (s : State) (w : Wide) (v n j : Nat) : (s.wset w v n j).mark = s.mark := by
  rw [State.wset_regs]
@[simp] theorem State.wset_tout (s : State) (w : Wide) (v n j : Nat) : (s.wset w v n j).tout = s.tout := by
  rw [State.wset_regs]
@[simp] theorem State.wset_raf (s : State) (w : Wide) (v n j : Nat) : (s.wset w v n j).raf = s.raf := by
  rw [State.wset_regs]
@[simp] theorem State.wset_evs (s : State) (w : Wide) (v n j : Nat) : (s.wset w v n j).evs = s.evs := by
  rw [State.wset_regs]
@[simp] theorem State.wset_ax (s : State) (w : Wide) (v n j : Nat) : (s.wset w v n j).ax = s.ax := by
  rw [State.wset_regs]
@[simp] theorem State.wset_prevTick (s : State) (w : Wide) (v n j : Nat) : (s.wset w v n j).prevTick = s.prevTick := by
  rw [State.wset_regs]
@[simp] theorem State.wset_prevJumps (s : State) (w : Wide) (v n j : Nat) : (s.wset w v n j).prevJumps = s.prevJumps := by
  rw [State.wset_regs]
@[simp] theorem State.wset_attic (s : State) (w : Wide) (v n j : Nat) : (s.wset w v n j).attic = s.attic := by
  rw [State.wset_regs]
@[simp] theorem State.wset_lp (s : State) (w : Wide) (v n j : Nat) : (s.wset w v n j).lp = s.lp := by
  rw [State.wset_regs]
@[simp] theorem State.wset_outer (s : State) (w : Wide) (v n j : Nat) : (s.wset w v n j).outer = s.outer := by
  rw [State.wset_regs]
@[simp] theorem State.wset_fld (s : State) (w : Wide) (v n j : Nat) : (s.wset w v n j).fld = s.fld := by
  rw [State.wset_regs]
@[simp] theorem State.wset_bl (s : State) (w : Wide) (v n j : Nat) : (s.wset w v n j).bl = s.bl := by
  rw [State.wset_regs]
@[simp] theorem State.wset_stp (s : State) (w : Wide) (v n j : Nat) : (s.wset w v n j).stp = s.stp := by
  rw [State.wset_regs]
@[simp] theorem State.wset_stpOld (s : State) (w : Wide) (v n j : Nat) : (s.wset w v n j).stpOld = s.stpOld := by
  rw [State.wset_regs]
@[simp] theorem State.wset_gateLinks (s : State) (w : Wide) (v n j : Nat) : (s.wset w v n j).gateLinks = s.gateLinks := by
  rw [State.wset_regs]
@[simp] theorem State.wset_sleepGate (s : State) (w : Wide) (v n j : Nat) : (s.wset w v n j).sleepGate = s.sleepGate := by
  rw [State.wset_regs]
@[simp] theorem State.wset_chuck (s : State) (w : Wide) (v n j : Nat) : (s.wset w v n j).chuck = s.chuck := by
  rw [State.wset_regs]
@[simp] theorem State.wset_cmdIn (s : State) (w : Wide) (v n j : Nat) : (s.wset w v n j).cmdIn = s.cmdIn := by
  rw [State.wset_regs]
@[simp] theorem State.wset_sill (s : State) (w : Wide) (v n j : Nat) : (s.wset w v n j).sill = s.sill := by
  rw [State.wset_regs]
@[simp] theorem State.wset_core (s : State) (w : Wide) (v n j : Nat) : (s.wset w v n j).core = s.core := by
  rw [State.wset_regs]
@[simp] theorem State.wset_march (s : State) (w : Wide) (v n j : Nat) : (s.wset w v n j).march = s.march := by
  rw [State.wset_regs]
@[simp] theorem State.wset_hostPan (s : State) (w : Wide) (v n j : Nat) : (s.wset w v n j).hostPan = s.hostPan := by
  rw [State.wset_regs]
@[simp] theorem State.wset_jet (s : State) (w : Wide) (v n j : Nat) : (s.wset w v n j).jet = s.jet := by
  rw [State.wset_regs]
@[simp] theorem State.wset_bar (s : State) (w : Wide) (v n j : Nat) : (s.wset w v n j).bar = s.bar := by
  rw [State.wset_regs]
@[simp] theorem State.wset_skew (s : State) (w : Wide) (v n j : Nat) : (s.wset w v n j).skew = s.skew := by
  rw [State.wset_regs]
@[simp] theorem State.wset_jo (s : State) (w : Wide) (v n j : Nat) : (s.wset w v n j).jo = s.jo := by
  rw [State.wset_regs]
@[simp] theorem State.wset_cel (s : State) (w : Wide) (v n j : Nat) : (s.wset w v n j).cel = s.cel := by
  rw [State.wset_regs]
@[simp] theorem State.wset_past (s : State) (w : Wide) (v n j : Nat) : (s.wset w v n j).past = s.past := by
  rw [State.wset_regs]
@[simp] theorem State.wset_flash (s : State) (w : Wide) (v n j : Nat) : (s.wset w v n j).flash = s.flash := by
  rw [State.wset_regs]
@[simp] theorem State.wset_resetReq (s : State) (w : Wide) (v n j : Nat) : (s.wset w v n j).resetReq = s.resetReq := by
  rw [State.wset_regs]
@[simp] theorem State.wset_violAt (s : State) (w : Wide) (v n j : Nat) : (s.wset w v n j).violAt = s.violAt := by
  rw [State.wset_regs]
@[simp] theorem State.wset_sessions (s : State) (w : Wide) (v n j : Nat) : (s.wset w v n j).sessions = s.sessions := by
  rw [State.wset_regs]
@[simp] theorem State.wset_stream (s : State) (w : Wide) (v n j : Nat) : (s.wset w v n j).stream = s.stream := by
  rw [State.wset_regs]
@[simp] theorem State.wset_thr (s : State) (w : Wide) (v n j : Nat) : (s.wset w v n j).thr = s.thr := by
  rw [State.wset_regs]
@[simp] theorem State.wset_hw (s : State) (w : Wide) (v n j : Nat) : (s.wset w v n j).hw = s.hw := by
  rw [State.wset_regs]
@[simp] theorem State.wset_zen (s : State) (w : Wide) (v n j : Nat) : (s.wset w v n j).zen = s.zen := by
  rw [State.wset_regs]
@[simp] theorem State.wset_can (s : State) (w : Wide) (v n j : Nat) : (s.wset w v n j).can = s.can := by
  rw [State.wset_regs]
@[simp] theorem State.wset_boot (s : State) (w : Wide) (v n j : Nat) : (s.wset w v n j).boot = s.boot := by
  rw [State.wset_regs]
@[simp] theorem State.wset_fuses (s : State) (w : Wide) (v n j : Nat) : (s.wset w v n j).fuses = s.fuses := by
  rw [State.wset_regs]
@[simp] theorem State.wset_servo (s : State) (w : Wide) (v n j : Nat) : (s.wset w v n j).servo = s.servo := by
  rw [State.wset_regs]

end Sys2Proof.Machine
end

