-- ==== Sys2Proof/Laws/Bus.lean ====
section
/-! SUPPORT. What an access to a register does, said once: the Lodge, a write that reaches its register, a read. -/
set_option Elab.async false
namespace Sys2Proof.Machine

theorem entry_below {a e : Nat} (h : entryOf a = some e) (ha : a < 0x0400_0000) : e < 158 := by
  unfold entryOf at h
  obtain ⟨r, hr, hi⟩ := List.exists_of_findSome?_eq_some h
  obtain ⟨i, hi, rfl⟩ := Option.map_eq_some_iff.1 hi
  have h1 : ∀ r ∈ floorplan, r.base < 0x0400_0000 → r.entry + r.count ≤ 158 := by decide
  unfold FloorRow.inst at hi
  split at hi
  · exact absurd hi (by simp)
  · dsimp only at hi
    generalize (if r.stride = 0 then 0 else (a - r.base) / r.stride) = k at hi
    split at hi
    · rename_i h2 h3
      obtain rfl : k = i := by simpa using hi
      have := h1 r hr (by omega)
      omega
    · exact absurd hi (by simp)

theorem regions_below (s : State) {a : Nat} (ha : a < 0x0400_0000) : s.regions a = [] := by
  unfold State.regions refined
  split
  · split
    · rfl
    · rename_i e he hn
      have := entry_below he ha
      simp [this] at hn
  · rfl

/-- The Lodge changes nothing where it lets an access to the register space through. -/
theorem State.lodge_through {s : State} {m : Master} {w : Bool} {a : Nat} (ha : a < 0x0400_0000)
    (h : (s.lodge m w a).1 = true) : s.lodge m w a = (true, s) := by
  unfold State.lodge at h ⊢
  split
  · rfl
  · rename_i e he
    have hr : s.asOfCycle.region a = (none, s.asOfCycle) := by
      unfold State.region
      rw [regions_below _ ha]
    simp only [he, hr] at h ⊢
    split
    · rename_i h2
      rw [if_pos h2] at h
      exact absurd h (by simp)
    · rfl

/-- A write that reaches a listed register does what its block says. -/
theorem State.busWrite_reg {s : State} {m : Master} {a v : Nat} {d : RegD} {idle : Option Bool} (ha : plainAddr a = true)
    (hd : regAt a = some d) (hl : ((s.settleAt a).lodge m true a).1 = true)
    (hg : d.guarded = true → (s.settleAt a).masterSecure m = true) (hv : v - (v &&& d.mask (fun _ => true)) = 0) :
    s.busWrite m .b32 a v idle =
      match (s.settleAt a).regEffect ((s.settleAt a).plainWrite d a v) a v idle with
      | some t => .ok t
      | none => .error .unpredictable := by
  simp only [plainAddr, Bool.and_eq_true, decide_eq_true_eq, Bool.not_eq_true', Bool.and_eq_false_iff,
    decide_eq_false_iff_not] at ha
  obtain ⟨⟨⟨⟨⟨h1, h2⟩, h3⟩, h4⟩, h5⟩, h6⟩ := ha
  have e4 : a / 4 * 4 = a := by omega
  unfold State.busWrite
  simp only [sizeBytes, h3, ne_eq, not_true_eq_false, if_false, State.lodge_through h2 hl, Bool.not_true, Bool.false_eq_true,
    h2, if_true]
  unfold State.spaceWrite
  simp only [ne_eq, not_true_eq_false, if_false, e4, hd]
  rw [if_neg (by omega), if_neg (by omega)]
  unfold State.regWrite
  rw [if_neg (by
    simp only [Bool.and_eq_true, Bool.not_eq_true', not_and, Bool.not_eq_false]
    exact hg), if_neg (by rw [hv]; simp)]
  all_goals rfl

/-- A register command that reaches its register completes with its effect. -/
theorem State.actE_write {s : State} {dt : Nat} {m : Master} {a v : Nat} {d : RegD} {idle : Option Bool} {t : State}
    (h : s.Reaches dt m a v) (ha : plainAddr a = true) (hd : regAt a = some d)
    (he : (s.found dt a).regEffect ((s.found dt a).plainWrite d a v) a v idle = some t) :
    s.actE dt (fun u => u.busWrite m .b32 a v idle) = .next t := by
  have h1 := h.live
  unfold State.Live at h1
  unfold State.found at he
  unfold State.actE
  simp only [h1, Bool.false_eq_true, if_false, State.busWrite_reg ha hd h.allowed (h.world d hd) (h.reserved d hd), he]

/-- A write that its register calls unpredictable is refused. -/
theorem State.actE_refused {s : State} {dt : Nat} {m : Master} {a v : Nat} {d : RegD} {idle : Option Bool}
    (h : s.Reaches dt m a v) (ha : plainAddr a = true) (hd : regAt a = some d)
    (he : (s.found dt a).regEffect ((s.found dt a).plainWrite d a v) a v idle = none) :
    s.actE dt (fun u => u.busWrite m .b32 a v idle) = .refused .unpredictable := by
  have h1 := h.live
  unfold State.Live at h1
  unfold State.found at he
  unfold State.actE
  simp only [h1, Bool.false_eq_true, if_false, State.busWrite_reg ha hd h.allowed (h.world d hd) (h.reserved d hd), he]

/-- A command of a block with power does its own effect. -/
theorem State.act_live {s : State} {dt : Nat} (h : s.Live dt) (f : State → State) : s.act dt f = .next (f (s.wait dt)) := by
  unfold State.Live at h
  unfold State.act
  simp [h]

theorem State.actE_live {s : State} {dt : Nat} (h : s.Live dt) {f : State → Except Refusal State} {t : State}
    (hf : f (s.wait dt) = .ok t) : s.actE dt f = .next t := by
  unfold State.Live at h
  unfold State.actE
  simp [h, hf]

end Sys2Proof.Machine
end

