-- ==== Sys2Proof/Laws/Exec.lean ====
section
/-! SUPPORT. What exec runs for each command. -/
set_option Elab.async false
namespace Sys2Proof.Machine

@[simp] theorem exec_registerWrite (s : State) (dt : Nat) (acc : Master) (size : Size) (addr : BitVec 32) (v : Word) :
    exec (.registerWrite dt acc size addr v) s = execRegisterWrite dt acc size addr v s := rfl
@[simp] theorem exec_rcRead (s : State) (dt : Nat) (acc : Master) (size : Size) (addr : BitVec 32) :
    exec (.rcRead dt acc size addr) s = execRcRead dt acc size addr s := rfl
@[simp] theorem exec_registerRead (s : State) (dt : Nat) (acc : Master) (size : Size) (addr : BitVec 32) :
    exec (.registerRead dt acc size addr) s = execRegisterRead dt acc size addr s := rfl
@[simp] theorem exec_memoryWindowAccess (s : State) (dt : Nat) (acc : Master) (size : Size) (write : Bool)
    (addr : BitVec 32) (v : Word) :
    exec (.memoryWindowAccess dt acc size write addr v) s = execMemoryWindowAccess dt acc size write addr v s := rfl
@[simp] theorem exec_runStart (s : State) (dt : Nat) (acc : Master) (v : Word) :
    exec (.runStart dt acc v) s = execRunStart dt acc v s := rfl
@[simp] theorem exec_runStop (s : State) (dt : Nat) (acc : Master) (v : Word) :
    exec (.runStop dt acc v) s = execRunStop dt acc v s := rfl
@[simp] theorem exec_cycleStart (s : State) (dt : Nat) :
    exec (.cycleStart dt) s = execCycleStart dt s := rfl
@[simp] theorem exec_upstreamDeadline (s : State) (dt : Nat) :
    exec (.upstreamDeadline dt) s = execUpstreamDeadline dt s := rfl
@[simp] theorem exec_dutyDeadline (s : State) (dt : Nat) :
    exec (.dutyDeadline dt) s = execDutyDeadline dt s := rfl
@[simp] theorem exec_replayWindowEnd (s : State) (dt : Nat) :
    exec (.replayWindowEnd dt) s = execReplayWindowEnd dt s := rfl
@[simp] theorem exec_downstreamFrameDepart (s : State) (dt : Nat) (l : Fin 16) :
    exec (.downstreamFrameDepart dt l) s = execDownstreamFrameDepart dt l s := rfl
@[simp] theorem exec_fuseProgram (s : State) (dt : Nat) (acc : Master) (v : Word) :
    exec (.fuseProgram dt acc v) s = execFuseProgram dt acc v s := rfl
@[simp] theorem exec_fuseProgramDone (s : State) (dt : Nat) :
    exec (.fuseProgramDone dt) s = execFuseProgramDone dt s := rfl
@[simp] theorem exec_spindleEnable (s : State) (dt : Nat) (acc : Master) (n : Fin 16) (v : Word) :
    exec (.spindleEnable dt acc n v) s = execSpindleEnable dt acc n v s := rfl
@[simp] theorem exec_spindleRescale (s : State) (dt : Nat) (acc : Master) (n : Fin 16) (v : Word) :
    exec (.spindleRescale dt acc n v) s = execSpindleRescale dt acc n v s := rfl
@[simp] theorem exec_spindleLoad (s : State) (dt : Nat) (acc : Master) (n : Fin 16) (v : Word) :
    exec (.spindleLoad dt acc n v) s = execSpindleLoad dt acc n v s := rfl
@[simp] theorem exec_spindleStandstill (s : State) (dt : Nat) (n : Fin 16) :
    exec (.spindleStandstill dt n) s = execSpindleStandstill dt n s := rfl
@[simp] theorem exec_ledgerArm (s : State) (dt : Nat) (acc : Master) (v : Word) :
    exec (.ledgerArm dt acc v) s = execLedgerArm dt acc v s := rfl
@[simp] theorem exec_ledgerCancel (s : State) (dt : Nat) (acc : Master) (v : Word) :
    exec (.ledgerCancel dt acc v) s = execLedgerCancel dt acc v s := rfl
@[simp] theorem exec_ledgerFire (s : State) (dt : Nat) (n : Fin 16) (slot : BitVec 15) :
    exec (.ledgerFire dt n slot) s = execLedgerFire dt n slot s := rfl
@[simp] theorem exec_lclkLaneFire (s : State) (dt : Nat) (slot : BitVec 15) :
    exec (.lclkLaneFire dt slot) s = execLclkLaneFire dt slot s := rfl
@[simp] theorem exec_donePop (s : State) (dt : Nat) (acc : Master) (v : Word) :
    exec (.donePop dt acc v) s = execDonePop dt acc v s := rfl
@[simp] theorem exec_markCapture (s : State) (dt : Nat) (n : Fin 16) (raw : BitVec 16) :
    exec (.markCapture dt n raw) s = execMarkCapture dt n raw s := rfl
@[simp] theorem exec_markPop (s : State) (dt : Nat) (acc : Master) (n : Fin 16) (v : Word) :
    exec (.markPop dt acc n v) s = execMarkPop dt acc n v s := rfl
@[simp] theorem exec_toutForce (s : State) (dt : Nat) (acc : Master) (n : Fin 16) (v : Word) :
    exec (.toutForce dt acc n v) s = execToutForce dt acc n v s := rfl
@[simp] theorem exec_chuckModeChange (s : State) (dt : Nat) (acc : Master) (c : Fin 32) (v : Word) :
    exec (.chuckModeChange dt acc c v) s = execChuckModeChange dt acc c v s := rfl
@[simp] theorem exec_chuckOffsetWrite (s : State) (dt : Nat) (acc : Master) (c : Fin 32) (v : Word) :
    exec (.chuckOffsetWrite dt acc c v) s = execChuckOffsetWrite dt acc c v s := rfl
@[simp] theorem exec_quadCountChange (s : State) (dt : Nat) (c : Fin 32) (b a : BitVec 16) :
    exec (.quadCountChange dt c b a) s = execQuadCountChange dt c b a s := rfl
@[simp] theorem exec_chuckIndex (s : State) (dt : Nat) (c : Fin 32) (z : BitVec 16) :
    exec (.chuckIndex dt c z) s = execChuckIndex dt c z s := rfl
@[simp] theorem exec_hallSectorChange (s : State) (dt : Nat) (c : Fin 32) (h3 h2 h1 : BitVec 16) :
    exec (.hallSectorChange dt c h3 h2 h1) s = execHallSectorChange dt c h3 h2 h1 s := rfl
@[simp] theorem exec_hallinv (s : State) (dt : Nat) (c : Fin 32) :
    exec (.hallinv dt c) s = execHallinv dt c s := rfl
@[simp] theorem exec_ssiRequest (s : State) (dt : Nat) (c : Fin 32) (ready : Bool) :
    exec (.ssiRequest dt c ready) s = execSsiRequest dt c ready s := rfl
@[simp] theorem exec_ssiFrameEnd (s : State) (dt : Nat) (c : Fin 32) (frame : BitVec 40) :
    exec (.ssiFrameEnd dt c frame) s = execSsiFrameEnd dt c frame s := rfl
@[simp] theorem exec_chuckFltClear (s : State) (dt : Nat) (acc : Master) (c : Fin 32) (v : Word) :
    exec (.chuckFltClear dt acc c v) s = execChuckFltClear dt acc c v s := rfl
@[simp] theorem exec_lclkSet (s : State) (dt : Nat) (acc : Master) (v : Word) :
    exec (.lclkSet dt acc v) s = execLclkSet dt acc v s := rfl
@[simp] theorem exec_lclkStepWrite (s : State) (dt : Nat) (acc : Master) (v : Word) :
    exec (.lclkStepWrite dt acc v) s = execLclkStepWrite dt acc v s := rfl
@[simp] theorem exec_servoMeasurement (s : State) (dt : Nat) (p : Fin 4) (dom : BitVec 8) (theta : Int) (ts : Nat)
    (parent : BitVec 80) (delay : Int) (gmid : BitVec 64) :
    exec (.servoMeasurement dt p dom theta ts parent delay gmid) s = execServoMeasurement dt p dom theta ts parent delay gmid s := rfl
@[simp] theorem exec_parentLoss (s : State) (dt : Nat) :
    exec (.parentLoss dt) s = execParentLoss dt s := rfl
@[simp] theorem exec_bmcaGrandmaster (s : State) (dt : Nat) :
    exec (.bmcaGrandmaster dt) s = execBmcaGrandmaster dt s := rfl
@[simp] theorem exec_rafterFire (s : State) (dt : Nat) (acc : Master) (v : Word) :
    exec (.rafterFire dt acc v) s = execRafterFire dt acc v s := rfl
@[simp] theorem exec_rafterDeferredLaunch (s : State) (dt : Nat) (l : Fin 4) :
    exec (.rafterDeferredLaunch dt l) s = execRafterDeferredLaunch dt l s := rfl
@[simp] theorem exec_rafterBurstReceive (s : State) (dt : Nat) (l : Fin 4) (bits : BitVec 7) (stable : Bool)
    (ago : Nat) :
    exec (.rafterBurstReceive dt l bits stable ago) s = execRafterBurstReceive dt l bits stable ago s := rfl
@[simp] theorem exec_rafterAction (s : State) (dt : Nat) (l : Fin 4) :
    exec (.rafterAction dt l) s = execRafterAction dt l s := rfl
@[simp] theorem exec_rafterMeas (s : State) (dt : Nat) (acc : Master) (v : Word) :
    exec (.rafterMeas dt acc v) s = execRafterMeas dt acc v s := rfl
@[simp] theorem exec_mrsp (s : State) (dt : Nat) (l : Fin 4) :
    exec (.mrsp dt l) s = execMrsp dt l s := rfl
@[simp] theorem exec_rafterMeasTimeout (s : State) (dt : Nat) :
    exec (.rafterMeasTimeout dt) s = execRafterMeasTimeout dt s := rfl
@[simp] theorem exec_rafclkLoss (s : State) (dt : Nat) :
    exec (.rafclkLoss dt) s = execRafclkLoss dt s := rfl
@[simp] theorem exec_axNone (s : State) (dt : Nat) (acc : Master) (n : Fin 64) :
    exec (.axNone dt acc n) s = execAxNone dt acc n s := rfl
@[simp] theorem exec_axSync (s : State) (dt : Nat) (acc : Master) (n : Fin 64) :
    exec (.axSync dt acc n) s = execAxSync dt acc n s := rfl
@[simp] theorem exec_axMove (s : State) (dt : Nat) (acc : Master) (n : Fin 64) :
    exec (.axMove dt acc n) s = execAxMove dt acc n s := rfl
@[simp] theorem exec_axJog (s : State) (dt : Nat) (acc : Master) (n : Fin 64) :
    exec (.axJog dt acc n) s = execAxJog dt acc n s := rfl
@[simp] theorem exec_axExt (s : State) (dt : Nat) (acc : Master) (n : Fin 64) :
    exec (.axExt dt acc n) s = execAxExt dt acc n s := rfl
@[simp] theorem exec_axGear (s : State) (dt : Nat) (acc : Master) (n : Fin 64) :
    exec (.axGear dt acc n) s = execAxGear dt acc n s := rfl
@[simp] theorem exec_axCam (s : State) (dt : Nat) (acc : Master) (n : Fin 64) :
    exec (.axCam dt acc n) s = execAxCam dt acc n s := rfl
@[simp] theorem exec_axGroup (s : State) (dt : Nat) (acc : Master) (n : Fin 64) :
    exec (.axGroup dt acc n) s = execAxGroup dt acc n s := rfl
@[simp] theorem exec_axStop (s : State) (dt : Nat) (acc : Master) (n : Fin 64) :
    exec (.axStop dt acc n) s = execAxStop dt acc n s := rfl
@[simp] theorem exec_axQstop (s : State) (dt : Nat) (acc : Master) (n : Fin 64) :
    exec (.axQstop dt acc n) s = execAxQstop dt acc n s := rfl
@[simp] theorem exec_axDisengage (s : State) (dt : Nat) (acc : Master) (n : Fin 64) :
    exec (.axDisengage dt acc n) s = execAxDisengage dt acc n s := rfl
@[simp] theorem exec_axShift (s : State) (dt : Nat) (acc : Master) (n : Fin 64) (v : Word) :
    exec (.axShift dt acc n v) s = execAxShift dt acc n v s := rfl
@[simp] theorem exec_grpPush (s : State) (dt : Nat) (acc : Master) (n : Fin 64) :
    exec (.grpPush dt acc n) s = execGrpPush dt acc n s := rfl
@[simp] theorem exec_grpStop (s : State) (dt : Nat) (acc : Master) (n : Fin 64) :
    exec (.grpStop dt acc n) s = execGrpStop dt acc n s := rfl
@[simp] theorem exec_loopEnable (s : State) (dt : Nat) (acc : Master) (n : Fin 64) (v : Word) :
    exec (.loopEnable dt acc n v) s = execLoopEnable dt acc n v s := rfl
@[simp] theorem exec_loopDisable (s : State) (dt : Nat) (acc : Master) (n : Fin 64) (v : Word) :
    exec (.loopDisable dt acc n v) s = execLoopDisable dt acc n v s := rfl
@[simp] theorem exec_loopResetI (s : State) (dt : Nat) (acc : Master) (n : Fin 64) (v : Word) :
    exec (.loopResetI dt acc n v) s = execLoopResetI dt acc n v s := rfl
@[simp] theorem exec_loopClrPk (s : State) (dt : Nat) (acc : Master) (n : Fin 64) (v : Word) :
    exec (.loopClrPk dt acc n v) s = execLoopClrPk dt acc n v s := rfl
@[simp] theorem exec_filterRawCommit (s : State) (dt : Nat) (acc : Master) (n : Fin 64) (f : Fin 3) (v : Word) :
    exec (.filterRawCommit dt acc n f v) s = execFilterRawCommit dt acc n f v s := rfl
@[simp] theorem exec_axisFaultClear (s : State) (dt : Nat) (acc : Master) (n : Fin 64) (v : Word) :
    exec (.axisFaultClear dt acc n v) s = execAxisFaultClear dt acc n v s := rfl
@[simp] theorem exec_cmdDutyEdge (s : State) (dt : Nat) (k : Fin 8) (raw : BitVec 16) (pair : Bool) :
    exec (.cmdDutyEdge dt k raw pair) s = execCmdDutyEdge dt k raw pair s := rfl
@[simp] theorem exec_cmdFreqEdge (s : State) (dt : Nat) (k : Fin 8) (raw : BitVec 16) (pair : Bool) :
    exec (.cmdFreqEdge dt k raw pair) s = execCmdFreqEdge dt k raw pair s := rfl
@[simp] theorem exec_cmdLoss (s : State) (dt : Nat) (k : Fin 8) :
    exec (.cmdLoss dt k) s = execCmdLoss dt k s := rfl
@[simp] theorem exec_sillResult (s : State) (dt : Nat) (code : BitVec 16) :
    exec (.sillResult dt code) s = execSillResult dt code s := rfl
@[simp] theorem exec_listenTimeout (s : State) (dt : Nat) (n : Fin 64) :
    exec (.listenTimeout dt n) s = execListenTimeout dt n s := rfl
@[simp] theorem exec_alignEnd (s : State) (dt : Nat) (n : Fin 64) :
    exec (.alignEnd dt n) s = execAlignEnd dt n s := rfl
@[simp] theorem exec_brakeTimeout (s : State) (dt : Nat) (n : Fin 64) :
    exec (.brakeTimeout dt n) s = execBrakeTimeout dt n s := rfl
@[simp] theorem exec_ifholdTimeout (s : State) (dt : Nat) (n : Fin 64) :
    exec (.ifholdTimeout dt n) s = execIfholdTimeout dt n s := rfl
@[simp] theorem exec_recatch (s : State) (dt : Nat) (n : Fin 64) :
    exec (.recatch dt n) s = execRecatch dt n s := rfl
@[simp] theorem exec_iflow (s : State) (dt : Nat) (n : Fin 64) :
    exec (.iflow dt n) s = execIflow dt n s := rfl
@[simp] theorem exec_recatchTimeout (s : State) (dt : Nat) (n : Fin 64) :
    exec (.recatchTimeout dt n) s = execRecatchTimeout dt n s := rfl
@[simp] theorem exec_zvecTimeout (s : State) (dt : Nat) (n : Fin 64) :
    exec (.zvecTimeout dt n) s = execZvecTimeout dt n s := rfl
@[simp] theorem exec_holdCurrent (s : State) (dt : Nat) (n : Fin 64) :
    exec (.holdCurrent dt n) s = execHoldCurrent dt n s := rfl
@[simp] theorem exec_stall (s : State) (dt : Nat) (n : Fin 64) :
    exec (.stall dt n) s = execStall dt n s := rfl
@[simp] theorem exec_blTrain (s : State) (dt : Nat) (acc : Master) (l : Fin 16) (v : Word) :
    exec (.blTrain dt acc l v) s = execBlTrain dt acc l v s := rfl
@[simp] theorem exec_blDisable (s : State) (dt : Nat) (acc : Master) (l : Fin 16) (v : Word) :
    exec (.blDisable dt acc l v) s = execBlDisable dt acc l v s := rfl
@[simp] theorem exec_blClrflt (s : State) (dt : Nat) (acc : Master) (l : Fin 16) (v : Word) :
    exec (.blClrflt dt acc l v) s = execBlClrflt dt acc l v s := rfl
@[simp] theorem exec_blAligned (s : State) (dt : Nat) (l : Fin 16) :
    exec (.blAligned dt l) s = execBlAligned dt l s := rfl
@[simp] theorem exec_ping (s : State) (dt : Nat) (l : Fin 16) :
    exec (.ping dt l) s = execPing dt l s := rfl
@[simp] theorem exec_pong (s : State) (dt : Nat) (l : Fin 16) (tag : BitVec 8) (ui : Nat) :
    exec (.pong dt l tag ui) s = execPong dt l tag ui s := rfl
@[simp] theorem exec_blMeasureEnd (s : State) (dt : Nat) (l : Fin 16) :
    exec (.blMeasureEnd dt l) s = execBlMeasureEnd dt l s := rfl
@[simp] theorem exec_syncLaunch (s : State) (dt : Nat) (l : Fin 16) :
    exec (.syncLaunch dt l) s = execSyncLaunch dt l s := rfl
@[simp] theorem exec_upstreamFrame (s : State) (dt : Nat) (l : Fin 16) (gs : List (BitVec 10)) (rd : Bool) :
    exec (.upstreamFrame dt l gs rd) s = execUpstreamFrame dt l gs rd s := rfl
@[simp] theorem exec_blCodeErrorBurst (s : State) (dt : Nat) (l : Fin 16) (gs : List (BitVec 10)) (rd : Bool) :
    exec (.blCodeErrorBurst dt l gs rd) s = execBlCodeErrorBurst dt l gs rd s := rfl
@[simp] theorem exec_creset (s : State) (dt : Nat) (acc : Master) (b : Fin 16) :
    exec (.creset dt acc b) s = execCreset dt acc b s := rfl
@[simp] theorem exec_jlTrain (s : State) (dt : Nat) (acc : Master) (l : Fin 8) (v : Word) :
    exec (.jlTrain dt acc l v) s = execJlTrain dt acc l v s := rfl
@[simp] theorem exec_jlDisable (s : State) (dt : Nat) (acc : Master) (l : Fin 8) (v : Word) :
    exec (.jlDisable dt acc l v) s = execJlDisable dt acc l v s := rfl
@[simp] theorem exec_jlAligned (s : State) (dt : Nat) (l : Fin 8) :
    exec (.jlAligned dt l) s = execJlAligned dt l s := rfl
@[simp] theorem exec_jlEnum (s : State) (dt : Nat) (l : Fin 8) (gs : List (BitVec 10)) (rd : Bool) :
    exec (.jlEnum dt l gs rd) s = execJlEnum dt l gs rd s := rfl
@[simp] theorem exec_jlEnumTimeout (s : State) (dt : Nat) (l : Fin 8) :
    exec (.jlEnumTimeout dt l) s = execJlEnumTimeout dt l s := rfl
@[simp] theorem exec_jlReq (s : State) (dt : Nat) (l : Fin 8) :
    exec (.jlReq dt l) s = execJlReq dt l s := rfl
@[simp] theorem exec_jlRsp (s : State) (dt : Nat) (l : Fin 8) (gs : List (BitVec 10)) (rd : Bool) (ui : Nat) :
    exec (.jlRsp dt l gs rd ui) s = execJlRsp dt l gs rd ui s := rfl
@[simp] theorem exec_jlMeasureEnd (s : State) (dt : Nat) (l : Fin 8) :
    exec (.jlMeasureEnd dt l) s = execJlMeasureEnd dt l s := rfl
@[simp] theorem exec_jlTmark (s : State) (dt : Nat) (l : Fin 8) (fine : Fin 10) :
    exec (.jlTmark dt l fine) s = execJlTmark dt l fine s := rfl
@[simp] theorem exec_jlTimeIdle (s : State) (dt : Nat) (l : Fin 8) :
    exec (.jlTimeIdle dt l) s = execJlTimeIdle dt l s := rfl
@[simp] theorem exec_jlFrameDepart (s : State) (dt : Nat) (l : Fin 8) :
    exec (.jlFrameDepart dt l) s = execJlFrameDepart dt l s := rfl
@[simp] theorem exec_jlStat (s : State) (dt : Nat) (l : Fin 8) (gs : List (BitVec 10)) (rd : Bool) :
    exec (.jlStat dt l gs rd) s = execJlStat dt l gs rd s := rfl
@[simp] theorem exec_jlDl (s : State) (dt : Nat) (acc : Master) (l : Fin 8) (v : Word) :
    exec (.jlDl dt acc l v) s = execJlDl dt acc l v s := rfl
@[simp] theorem exec_jlDlTimeout (s : State) (dt : Nat) (l : Fin 8) :
    exec (.jlDlTimeout dt l) s = execJlDlTimeout dt l s := rfl
@[simp] theorem exec_jlLoss (s : State) (dt : Nat) (l : Fin 8) (aligned : Bool) (gs : List (BitVec 10)) (rd : Bool) :
    exec (.jlLoss dt l aligned gs rd) s = execJlLoss dt l aligned gs rd s := rfl
@[simp] theorem exec_jlModlost (s : State) (dt : Nat) (l : Fin 8) (p : Fin 16) :
    exec (.jlModlost dt l p) s = execJlModlost dt l p s := rfl
@[simp] theorem exec_mnop (s : State) (dt : Nat) (n : Fin 10) (rot : Bool) :
    exec (.mnop dt n rot) s = execMnop dt n rot s := rfl
@[simp] theorem exec_mpy (s : State) (dt : Nat) (n : Fin 10) (rot : Bool) (d : Fin 4) (x y : Fin 16)
    (int ux uy : Bool) :
    exec (.mpy dt n rot d x y int ux uy) s = execMpy dt n rot d x y int ux uy s := rfl
@[simp] theorem exec_mac (s : State) (dt : Nat) (n : Fin 10) (rot : Bool) (d : Fin 4) (x y : Fin 16)
    (int ux uy : Bool) :
    exec (.mac dt n rot d x y int ux uy) s = execMac dt n rot d x y int ux uy s := rfl
@[simp] theorem exec_msu (s : State) (dt : Nat) (n : Fin 10) (rot : Bool) (d : Fin 4) (x y : Fin 16)
    (int ux uy : Bool) :
    exec (.msu dt n rot d x y int ux uy) s = execMsu dt n rot d x y int ux uy s := rfl
@[simp] theorem exec_mpy2 (s : State) (dt : Nat) (n : Fin 10) (rot : Bool) (d : Fin 2) (x y : Fin 16) (s0 s1 : Bool) :
    exec (.mpy2 dt n rot d x y s0 s1) s = execMpy2 dt n rot d x y s0 s1 s := rfl
@[simp] theorem exec_mac2 (s : State) (dt : Nat) (n : Fin 10) (rot : Bool) (d : Fin 2) (x y : Fin 16) (s0 s1 : Bool) :
    exec (.mac2 dt n rot d x y s0 s1) s = execMac2 dt n rot d x y s0 s1 s := rfl
@[simp] theorem exec_add (s : State) (dt : Nat) (n : Fin 10) (rot : Bool) (d a : Fin 4) :
    exec (.add dt n rot d a) s = execAdd dt n rot d a s := rfl
@[simp] theorem exec_sub (s : State) (dt : Nat) (n : Fin 10) (rot : Bool) (d a : Fin 4) :
    exec (.sub dt n rot d a) s = execSub dt n rot d a s := rfl
@[simp] theorem exec_adc (s : State) (dt : Nat) (n : Fin 10) (rot : Bool) (d a : Fin 4) :
    exec (.adc dt n rot d a) s = execAdc dt n rot d a s := rfl
@[simp] theorem exec_sbc (s : State) (dt : Nat) (n : Fin 10) (rot : Bool) (d a : Fin 4) :
    exec (.sbc dt n rot d a) s = execSbc dt n rot d a s := rfl
@[simp] theorem exec_addd (s : State) (dt : Nat) (n : Fin 10) (rot : Bool) (d : Fin 4) (x : Fin 16) :
    exec (.addd dt n rot d x) s = execAddd dt n rot d x s := rfl
@[simp] theorem exec_subd (s : State) (dt : Nat) (n : Fin 10) (rot : Bool) (d : Fin 4) (x : Fin 16) :
    exec (.subd dt n rot d x) s = execSubd dt n rot d x s := rfl
@[simp] theorem exec_neg (s : State) (dt : Nat) (n : Fin 10) (rot : Bool) (d a : Fin 4) :
    exec (.neg dt n rot d a) s = execNeg dt n rot d a s := rfl
@[simp] theorem exec_abs (s : State) (dt : Nat) (n : Fin 10) (rot : Bool) (d a : Fin 4) :
    exec (.abs dt n rot d a) s = execAbs dt n rot d a s := rfl
@[simp] theorem exec_mova (s : State) (dt : Nat) (n : Fin 10) (rot : Bool) (d a : Fin 4) :
    exec (.mova dt n rot d a) s = execMova dt n rot d a s := rfl
@[simp] theorem exec_clr (s : State) (dt : Nat) (n : Fin 10) (rot : Bool) (d : Fin 4) :
    exec (.clr dt n rot d) s = execClr dt n rot d s := rfl
@[simp] theorem exec_asl (s : State) (dt : Nat) (n : Fin 10) (rot : Bool) (d a : Fin 4) (k : Fin 64) :
    exec (.asl dt n rot d a k) s = execAsl dt n rot d a k s := rfl
@[simp] theorem exec_asr (s : State) (dt : Nat) (n : Fin 10) (rot : Bool) (d a : Fin 4) (k : Fin 64) :
    exec (.asr dt n rot d a k) s = execAsr dt n rot d a k s := rfl
@[simp] theorem exec_lsr (s : State) (dt : Nat) (n : Fin 10) (rot : Bool) (d a : Fin 4) (k : Fin 64) :
    exec (.lsr dt n rot d a k) s = execLsr dt n rot d a k s := rfl
@[simp] theorem exec_shv (s : State) (dt : Nat) (n : Fin 10) (rot : Bool) (d a : Fin 4) (y : Fin 16) :
    exec (.shv dt n rot d a y) s = execShv dt n rot d a y s := rfl
@[simp] theorem exec_rnd (s : State) (dt : Nat) (n : Fin 10) (rot : Bool) (d a : Fin 4) :
    exec (.rnd dt n rot d a) s = execRnd dt n rot d a s := rfl
@[simp] theorem exec_max (s : State) (dt : Nat) (n : Fin 10) (rot : Bool) (d a : Fin 4) :
    exec (.max dt n rot d a) s = execMax dt n rot d a s := rfl
@[simp] theorem exec_min (s : State) (dt : Nat) (n : Fin 10) (rot : Bool) (d a : Fin 4) :
    exec (.min dt n rot d a) s = execMin dt n rot d a s := rfl
@[simp] theorem exec_cmp (s : State) (dt : Nat) (n : Fin 10) (rot : Bool) (d a : Fin 4) :
    exec (.cmp dt n rot d a) s = execCmp dt n rot d a s := rfl
@[simp] theorem exec_dtoa (s : State) (dt : Nat) (n : Fin 10) (rot : Bool) (d : Fin 4) (x : Fin 16) :
    exec (.dtoa dt n rot d x) s = execDtoa dt n rot d x s := rfl
@[simp] theorem exec_div (s : State) (dt : Nat) (n : Fin 10) (rot : Bool) (d : Fin 4) (x : Fin 16) :
    exec (.div dt n rot d x) s = execDiv dt n rot d x s := rfl
@[simp] theorem exec_movd (s : State) (dt : Nat) (n : Fin 10) (rot : Bool) (d : Fin 16) (a : Fin 4) :
    exec (.movd dt n rot d a) s = execMovd dt n rot d a s := rfl
@[simp] theorem exec_cls (s : State) (dt : Nat) (n : Fin 10) (rot : Bool) (d : Fin 16) (a : Fin 4) :
    exec (.cls dt n rot d a) s = execCls dt n rot d a s := rfl
@[simp] theorem exec_dadd (s : State) (dt : Nat) (n : Fin 10) (rot : Bool) (d x y : Fin 16) :
    exec (.dadd dt n rot d x y) s = execDadd dt n rot d x y s := rfl
@[simp] theorem exec_dsub (s : State) (dt : Nat) (n : Fin 10) (rot : Bool) (d x y : Fin 16) :
    exec (.dsub dt n rot d x y) s = execDsub dt n rot d x y s := rfl
@[simp] theorem exec_daddi (s : State) (dt : Nat) (n : Fin 10) (rot : Bool) (d x : Fin 16) (imm : BitVec 6) :
    exec (.daddi dt n rot d x imm) s = execDaddi dt n rot d x imm s := rfl
@[simp] theorem exec_dand (s : State) (dt : Nat) (n : Fin 10) (rot : Bool) (d x y : Fin 16) :
    exec (.dand dt n rot d x y) s = execDand dt n rot d x y s := rfl
@[simp] theorem exec_dor (s : State) (dt : Nat) (n : Fin 10) (rot : Bool) (d x y : Fin 16) :
    exec (.dor dt n rot d x y) s = execDor dt n rot d x y s := rfl
@[simp] theorem exec_dxor (s : State) (dt : Nat) (n : Fin 10) (rot : Bool) (d x y : Fin 16) :
    exec (.dxor dt n rot d x y) s = execDxor dt n rot d x y s := rfl
@[simp] theorem exec_dshl (s : State) (dt : Nat) (n : Fin 10) (rot : Bool) (d x : Fin 16) (k : Fin 64) :
    exec (.dshl dt n rot d x k) s = execDshl dt n rot d x k s := rfl
@[simp] theorem exec_dshr (s : State) (dt : Nat) (n : Fin 10) (rot : Bool) (d x : Fin 16) (k : Fin 64) :
    exec (.dshr dt n rot d x k) s = execDshr dt n rot d x k s := rfl
@[simp] theorem exec_dlsr (s : State) (dt : Nat) (n : Fin 10) (rot : Bool) (d x : Fin 16) (k : Fin 64) :
    exec (.dlsr dt n rot d x k) s = execDlsr dt n rot d x k s := rfl
@[simp] theorem exec_lnop (s : State) (dt : Nat) (n : Fin 10) (more : Bool) :
    exec (.lnop dt n more) s = execLnop dt n more s := rfl
@[simp] theorem exec_ld (s : State) (dt : Nat) (n : Fin 10) (more : Bool) (reg : Fin 16) (p : Fin 8) (k : PMod)
    (imm : BitVec 16) :
    exec (.ld dt n more reg p k imm) s = execLd dt n more reg p k imm s := rfl
@[simp] theorem exec_ldh (s : State) (dt : Nat) (n : Fin 10) (more : Bool) (reg : Fin 16) (p : Fin 8) (k : PMod)
    (imm : BitVec 16) :
    exec (.ldh dt n more reg p k imm) s = execLdh dt n more reg p k imm s := rfl
@[simp] theorem exec_st (s : State) (dt : Nat) (n : Fin 10) (more : Bool) (reg : Fin 16) (p : Fin 8) (k : PMod)
    (imm : BitVec 16) :
    exec (.st dt n more reg p k imm) s = execSt dt n more reg p k imm s := rfl
@[simp] theorem exec_sth (s : State) (dt : Nat) (n : Fin 10) (more : Bool) (reg : Fin 16) (p : Fin 8) (k : PMod)
    (imm : BitVec 16) :
    exec (.sth dt n more reg p k imm) s = execSth dt n more reg p k imm s := rfl
@[simp] theorem exec_sta (s : State) (dt : Nat) (n : Fin 10) (more : Bool) (a : Fin 4) (p : Fin 8) (k : PMod)
    (imm : BitVec 16) :
    exec (.sta dt n more a p k imm) s = execSta dt n more a p k imm s := rfl
@[simp] theorem exec_xadd (s : State) (dt : Nat) (n : Fin 10) (more : Bool) (reg : Fin 16) (p : Fin 8) (k : PMod)
    (imm : BitVec 16) :
    exec (.xadd dt n more reg p k imm) s = execXadd dt n more reg p k imm s := rfl
@[simp] theorem exec_xswp (s : State) (dt : Nat) (n : Fin 10) (more : Bool) (reg : Fin 16) (p : Fin 8) (k : PMod)
    (imm : BitVec 16) :
    exec (.xswp dt n more reg p k imm) s = execXswp dt n more reg p k imm s := rfl
@[simp] theorem exec_par (s : State) (dt : Nat) (n : Fin 10) (more : Bool) (x y : ParSide) :
    exec (.par dt n more x y) s = execPar dt n more x y s := rfl
@[simp] theorem exec_ldi (s : State) (dt : Nat) (n : Fin 10) (more : Bool) (g : GReg) (imm : BitVec 16) :
    exec (.ldi dt n more g imm) s = execLdi dt n more g imm s := rfl
@[simp] theorem exec_ldih (s : State) (dt : Nat) (n : Fin 10) (more : Bool) (g : GReg) (imm : BitVec 16) :
    exec (.ldih dt n more g imm) s = execLdih dt n more g imm s := rfl
@[simp] theorem exec_movc (s : State) (dt : Nat) (n : Fin 10) (more : Bool) (g src : GReg) :
    exec (.movc dt n more g src) s = execMovc dt n more g src s := rfl
@[simp] theorem exec_padd (s : State) (dt : Nat) (n : Fin 10) (more : Bool) (p : Fin 8) (imm : BitVec 16) :
    exec (.padd dt n more p imm) s = execPadd dt n more p imm s := rfl
@[simp] theorem exec_clrf (s : State) (dt : Nat) (n : Fin 10) (more : Bool) (imm : BitVec 16) :
    exec (.clrf dt n more imm) s = execClrf dt n more imm s := rfl
@[simp] theorem exec_tfault (s : State) (dt : Nat) (n : Fin 10) (more : Bool) :
    exec (.tfault dt n more) s = execTfault dt n more s := rfl
@[simp] theorem exec_duty (s : State) (dt : Nat) (n : Fin 10) (more : Bool) (l : Fin 16) (half : Bool) :
    exec (.duty dt n more l half) s = execDuty dt n more l half s := rfl
@[simp] theorem exec_bra (s : State) (dt : Nat) (n : Fin 10) (more : Bool) (c : Cond) (target : BitVec 14) :
    exec (.bra dt n more c target) s = execBra dt n more c target s := rfl
@[simp] theorem exec_call (s : State) (dt : Nat) (n : Fin 10) (more : Bool) (target : BitVec 14) :
    exec (.call dt n more target) s = execCall dt n more target s := rfl
@[simp] theorem exec_ret (s : State) (dt : Nat) (n : Fin 10) (more : Bool) :
    exec (.ret dt n more) s = execRet dt n more s := rfl
@[simp] theorem exec_rete (s : State) (dt : Nat) (n : Fin 10) (more : Bool) :
    exec (.rete dt n more) s = execRete dt n more s := rfl
@[simp] theorem exec_hwLoop (s : State) (dt : Nat) (n : Fin 10) (more : Bool) (level : Fin 2) (reg : Option
    (Fin 16)) (count : BitVec 14) (eofs : BitVec 8) :
    exec (.hwLoop dt n more level reg count eofs) s = execLoop dt n more level reg count eofs s := rfl
@[simp] theorem exec_endTask (s : State) (dt : Nat) (n : Fin 10) (more : Bool) :
    exec (.endTask dt n more) s = execEnd dt n more s := rfl
@[simp] theorem exec_fence (s : State) (dt : Nat) (n : Fin 10) (more : Bool) :
    exec (.fence dt n more) s = execFence dt n more s := rfl
@[simp] theorem exec_pantryLoadArrival (s : State) (dt : Nat) (n : Fin 10) :
    exec (.pantryLoadArrival dt n) s = execPantryLoadArrival dt n s := rfl
@[simp] theorem exec_pantryStoreComplete (s : State) (dt : Nat) (n : Fin 10) :
    exec (.pantryStoreComplete dt n) s = execPantryStoreComplete dt n s := rfl
@[simp] theorem exec_slotTaskStart (s : State) (dt : Nat) (n : Fin 10) (i : Fin 32) (axes : List (Fin 64)) :
    exec (.slotTaskStart dt n i axes) s = execSlotTaskStart dt n i axes s := rfl
@[simp] theorem exec_eventTaskStart (s : State) (dt : Nat) (n : Fin 10) :
    exec (.eventTaskStart dt n) s = execEventTaskStart dt n s := rfl
@[simp] theorem exec_gougeForce (s : State) (dt : Nat) (acc : Master) (n : Fin 10) (v : Word) :
    exec (.gougeForce dt acc n v) s = execGougeForce dt acc n v s := rfl
@[simp] theorem exec_coreFault (s : State) (dt : Nat) (n : Fin 10) (cause : CoreCause) :
    exec (.coreFault dt n cause) s = execCoreFault dt n cause s := rfl
@[simp] theorem exec_marchSlice (s : State) (dt : Nat) (bad : Option (Fin 16)) :
    exec (.marchSlice dt bad) s = execMarchSlice dt bad s := rfl
@[simp] theorem exec_marchBackoffEnd (s : State) (dt : Nat) (bad : Option (Fin 16)) :
    exec (.marchBackoffEnd dt bad) s = execMarchBackoffEnd dt bad s := rfl
@[simp] theorem exec_marchPassStart (s : State) (dt : Nat) (bad : Option (Fin 16)) :
    exec (.marchPassStart dt bad) s = execMarchPassStart dt bad s := rfl
@[simp] theorem exec_celArm (s : State) (dt : Nat) (acc : Master) (v : Word) :
    exec (.celArm dt acc v) s = execCelArm dt acc v s := rfl
@[simp] theorem exec_celStop (s : State) (dt : Nat) (acc : Master) (v : Word) :
    exec (.celStop dt acc v) s = execCelStop dt acc v s := rfl
@[simp] theorem exec_celForce (s : State) (dt : Nat) (acc : Master) (v : Word) :
    exec (.celForce dt acc v) s = execCelForce dt acc v s := rfl
@[simp] theorem exec_celSample (s : State) (dt : Nat) (balls : List Balls) :
    exec (.celSample dt balls) s = execCelSample dt balls s := rfl
@[simp] theorem exec_autoTrigger (s : State) (dt : Nat) :
    exec (.autoTrigger dt) s = execAutoTrigger dt s := rfl
@[simp] theorem exec_datagram (s : State) (dt : Nat) :
    exec (.datagram dt) s = execDatagram dt s := rfl
@[simp] theorem exec_thrInputSample (s : State) (dt : Nat) (c : Fin 2) (ins bands : BitVec 8) :
    exec (.thrInputSample dt c ins bands) s = execThrInputSample dt c ins bands s := rfl
@[simp] theorem exec_thrTick (s : State) (dt : Nat) (c : Fin 2) (refclk : Refclk) (badParity : Bool) :
    exec (.thrTick dt c refclk badParity) s = execThrTick dt c refclk badParity s := rfl
@[simp] theorem exec_thrRstreq (s : State) (dt : Nat) (acc : Master) (v : Word) :
    exec (.thrRstreq dt acc v) s = execThrRstreq dt acc v s := rfl
@[simp] theorem exec_thrDemand (s : State) (dt : Nat) (acc : Master) (v : Word) :
    exec (.thrDemand dt acc v) s = execThrDemand dt acc v s := rfl
@[simp] theorem exec_darkTest (s : State) (dt : Nat) (g : Fin 4) :
    exec (.darkTest dt g) s = execDarkTest dt g s := rfl
@[simp] theorem exec_darkTestLowSide (s : State) (dt : Nat) (g : Fin 4) :
    exec (.darkTestLowSide dt g) s = execDarkTestLowSide dt g s := rfl
@[simp] theorem exec_darkTestEnd (s : State) (dt : Nat) (g : Fin 4) :
    exec (.darkTestEnd dt g) s = execDarkTestEnd dt g s := rfl
@[simp] theorem exec_graceExpiry (s : State) (dt : Nat) (g : Fin 4) :
    exec (.graceExpiry dt g) s = execGraceExpiry dt g s := rfl
@[simp] theorem exec_crossLinkMessage (s : State) (dt : Nat) (c : Fin 2) (sameCrc : Bool) (interval : Nat) :
    exec (.crossLinkMessage dt c sameCrc interval) s = execCrossLinkMessage dt c sameCrc interval s := rfl
@[simp] theorem exec_crossLinkTimeout (s : State) (dt : Nat) (c : Fin 2) :
    exec (.crossLinkTimeout dt c) s = execCrossLinkTimeout dt c s := rfl
@[simp] theorem exec_thrStartupTest (s : State) (dt : Nat) (c : Fin 2) (pass : Bool) :
    exec (.thrStartupTest dt c pass) s = execThrStartupTest dt c pass s := rfl
@[simp] theorem exec_channelSupplyFail (s : State) (dt : Nat) (c : Fin 2) :
    exec (.channelSupplyFail dt c) s = execChannelSupplyFail dt c s := rfl
@[simp] theorem exec_f3reset (s : State) (dt : Nat) (refsel : Bool) :
    exec (.f3reset dt refsel) s = execF3reset dt refsel s := rfl
@[simp] theorem exec_clockFault (s : State) (dt : Nat) (cause : ClockFault) :
    exec (.clockFault dt cause) s = execClockFault dt cause s := rfl
@[simp] theorem exec_atticCommit (s : State) (dt : Nat) (slots : List (List Byte)) :
    exec (.atticCommit dt slots) s = execAtticCommit dt slots s := rfl
@[simp] theorem exec_atticScanDone (s : State) (dt : Nat) :
    exec (.atticScanDone dt) s = execAtticScanDone dt s := rfl
@[simp] theorem exec_atticUser (s : State) (dt : Nat) (acc : Master) (v : Word) :
    exec (.atticUser dt acc v) s = execAtticUser dt acc v s := rfl
@[simp] theorem exec_atticClear (s : State) (dt : Nat) (acc : Master) (v : Word) :
    exec (.atticClear dt acc v) s = execAtticClear dt acc v s := rfl
@[simp] theorem exec_portCfgWrite (s : State) (dt : Nat) (acc : Master) (p : Fin 4) (v : Word) :
    exec (.portCfgWrite dt acc p v) s = execPortCfgWrite dt acc p v s := rfl
@[simp] theorem exec_linkChange (s : State) (dt : Nat) (p : Fin 4) (up : Bool) (speed : Fin 3) (half : Bool) :
    exec (.linkChange dt p up speed half) s = execLinkChange dt p up speed half s := rfl
@[simp] theorem exec_mdioAddress (s : State) (dt : Nat) (acc : Master) (v : Word) :
    exec (.mdioAddress dt acc v) s = execMdioAddress dt acc v s := rfl
@[simp] theorem exec_mdioWrite (s : State) (dt : Nat) (acc : Master) (v : Word) :
    exec (.mdioWrite dt acc v) s = execMdioWrite dt acc v s := rfl
@[simp] theorem exec_mdioRead (s : State) (dt : Nat) (acc : Master) (v : Word) :
    exec (.mdioRead dt acc v) s = execMdioRead dt acc v s := rfl
@[simp] theorem exec_mdioFrameEnd (s : State) (dt : Nat) (data : BitVec 16) :
    exec (.mdioFrameEnd dt data) s = execMdioFrameEnd dt data s := rfl
@[simp] theorem exec_hwFrameReceive (s : State) (dt : Nat) (p : Fin 4) (frame : List Byte) (ago : Nat) :
    exec (.hwFrameReceive dt p frame ago) s = execHwFrameReceive dt p frame ago s := rfl
@[simp] theorem exec_hwFrameTransmit (s : State) (dt : Nat) (p : Fin 4) (own : Option MgmtTx) :
    exec (.hwFrameTransmit dt p own) s = execHwFrameTransmit dt p own s := rfl
@[simp] theorem exec_macAgeing (s : State) (dt : Nat) (mac : BitVec 48) :
    exec (.macAgeing dt mac) s = execMacAgeing dt mac s := rfl
@[simp] theorem exec_qbvCommit (s : State) (dt : Nat) (acc : Master) (p : Fin 4) (v : Word) :
    exec (.qbvCommit dt acc p v) s = execQbvCommit dt acc p v s := rfl
@[simp] theorem exec_qbvListStart (s : State) (dt : Nat) (p : Fin 4) :
    exec (.qbvListStart dt p) s = execQbvListStart dt p s := rfl
@[simp] theorem exec_qbvEntry (s : State) (dt : Nat) (p : Fin 4) :
    exec (.qbvEntry dt p) s = execQbvEntry dt p s := rfl
@[simp] theorem exec_joistDepart (s : State) (dt : Nat) :
    exec (.joistDepart dt) s = execJoistDepart dt s := rfl
@[simp] theorem exec_joistTimeout (s : State) (dt : Nat) (r : Fin 64) :
    exec (.joistTimeout dt r) s = execJoistTimeout dt r s := rfl
@[simp] theorem exec_zenRead (s : State) (dt : Nat) (h : ZHead) (addr : BitVec 32) :
    exec (.zenRead dt h addr) s = execZenRead dt h addr s := rfl
@[simp] theorem exec_zenWrite (s : State) (dt : Nat) (h : ZHead) (addr : BitVec 32) (data : Word) :
    exec (.zenWrite dt h addr data) s = execZenWrite dt h addr data s := rfl
@[simp] theorem exec_zenBlockRead (s : State) (dt : Nat) (h : ZHead) (addr : BitVec 32) (count : BitVec 16) :
    exec (.zenBlockRead dt h addr count) s = execZenBlockRead dt h addr count s := rfl
@[simp] theorem exec_zenBlockWrite (s : State) (dt : Nat) (h : ZHead) (addr : BitVec 32) (count : BitVec 16)
    (data : List Word) :
    exec (.zenBlockWrite dt h addr count data) s = execZenBlockWrite dt h addr count data s := rfl
@[simp] theorem exec_zenLedgerInsert (s : State) (dt : Nat) (h : ZHead) (slot : BitVec 16) (lane : Byte)
    (entry : BitVec 128) :
    exec (.zenLedgerInsert dt h slot lane entry) s = execZenLedgerInsert dt h slot lane entry s := rfl
@[simp] theorem exec_zenFlashWrite (s : State) (dt : Nat) (h : ZHead) (slot : Byte) (erase : Byte)
    (offset : BitVec 32) (data : List Byte) :
    exec (.zenFlashWrite dt h slot erase offset data) s = execZenFlashWrite dt h slot erase offset data s := rfl
@[simp] theorem exec_zenReload (s : State) (dt : Nat) (h : ZHead) (mode : Byte) :
    exec (.zenReload dt h mode) s = execZenReload dt h mode s := rfl
@[simp] theorem exec_sessionOpen (s : State) (dt : Nat) (seq : BitVec 32) (req : OpenReq) :
    exec (.sessionOpen dt seq req) s = execSessionOpen dt seq req s := rfl
@[simp] theorem exec_sessionClose (s : State) (dt : Nat) (h : ZHead) :
    exec (.sessionClose dt h) s = execSessionClose dt h s := rfl
@[simp] theorem exec_streamOpen (s : State) (dt : Nat) (h : ZHead) (req : StreamReq) (mac : Option (BitVec 48)) :
    exec (.streamOpen dt h req mac) s = execStreamOpen dt h req mac s := rfl
@[simp] theorem exec_sessionTimeout (s : State) (dt : Nat) (sid : BitVec 32) :
    exec (.sessionTimeout dt sid) s = execSessionTimeout dt sid s := rfl
@[simp] theorem exec_streamOpenNoroute (s : State) (dt : Nat) :
    exec (.streamOpenNoroute dt) s = execStreamOpenNoroute dt s := rfl
@[simp] theorem exec_flashWriteComplete (s : State) (dt : Nat) (found : Option (List Byte)) :
    exec (.flashWriteComplete dt found) s = execFlashWriteComplete dt found s := rfl
@[simp] theorem exec_canInit (s : State) (dt : Nat) (acc : Master) (n : Fin 2) (v : Word) (idle : Bool) :
    exec (.canInit dt acc n v idle) s = execCanInit dt acc n v idle s := rfl
@[simp] theorem exec_canInitRelease (s : State) (dt : Nat) (acc : Master) (n : Fin 2) (v : Word) (idle : Bool) :
    exec (.canInitRelease dt acc n v idle) s = execCanInitRelease dt acc n v idle s := rfl
@[simp] theorem exec_canBorcv (s : State) (dt : Nat) (acc : Master) (n : Fin 2) (v : Word) (idle : Bool) :
    exec (.canBorcv dt acc n v idle) s = execCanBorcv dt acc n v idle s := rfl
@[simp] theorem exec_canRom (s : State) (dt : Nat) (acc : Master) (n : Fin 2) (v : Word) (idle : Bool) :
    exec (.canRom dt acc n v idle) s = execCanRom dt acc n v idle s := rfl
@[simp] theorem exec_canMon (s : State) (dt : Nat) (acc : Master) (n : Fin 2) (v : Word) (idle : Bool) :
    exec (.canMon dt acc n v idle) s = execCanMon dt acc n v idle s := rfl
@[simp] theorem exec_canSleep (s : State) (dt : Nat) (acc : Master) (n : Fin 2) (v : Word) (idle : Bool) :
    exec (.canSleep dt acc n v idle) s = execCanSleep dt acc n v idle s := rfl
@[simp] theorem exec_canTxreq (s : State) (dt : Nat) (acc : Master) (n : Fin 2) (hi : Bool) (v : Word) :
    exec (.canTxreq dt acc n hi v) s = execCanTxreq dt acc n hi v s := rfl
@[simp] theorem exec_canTxcancel (s : State) (dt : Nat) (acc : Master) (n : Fin 2) (hi : Bool) (v : Word) :
    exec (.canTxcancel dt acc n hi v) s = execCanTxcancel dt acc n hi v s := rfl
@[simp] theorem exec_canNewdatClear (s : State) (dt : Nat) (acc : Master) (n : Fin 2) (hi : Bool) (v : Word) :
    exec (.canNewdatClear dt acc n hi v) s = execCanNewdatClear dt acc n hi v s := rfl
@[simp] theorem exec_canIntegrated (s : State) (dt : Nat) (n : Fin 2) :
    exec (.canIntegrated dt n) s = execCanIntegrated dt n s := rfl
@[simp] theorem exec_canRecovered (s : State) (dt : Nat) (n : Fin 2) :
    exec (.canRecovered dt n) s = execCanRecovered dt n s := rfl
@[simp] theorem exec_canFrameReceive (s : State) (dt : Nat) (n : Fin 2) (f : CanFrame) (ago : Nat) :
    exec (.canFrameReceive dt n f ago) s = execCanFrameReceive dt n f ago s := rfl
@[simp] theorem exec_canTransmitStart (s : State) (dt : Nat) (n : Fin 2) :
    exec (.canTransmitStart dt n) s = execCanTransmitStart dt n s := rfl
@[simp] theorem exec_canTransmitEnd (s : State) (dt : Nat) (n : Fin 2) (how : CanEnd) (loopDelay : Option Nat) :
    exec (.canTransmitEnd dt n how loopDelay) s = execCanTransmitEnd dt n how loopDelay s := rfl
@[simp] theorem exec_canError (s : State) (dt : Nat) (n : Fin 2) (code : CanCode) (rule : CanRule) (dataPhase : Bool) :
    exec (.canError dt n code rule dataPhase) s = execCanError dt n code rule dataPhase s := rfl
@[simp] theorem exec_protocolException (s : State) (dt : Nat) (n : Fin 2) :
    exec (.protocolException dt n) s = execProtocolException dt n s := rfl
@[simp] theorem exec_canWake (s : State) (dt : Nat) (n : Fin 2) (seen : CanSeen) (refsel : Bool) :
    exec (.canWake dt n seen refsel) s = execCanWake dt n seen refsel s := rfl
@[simp] theorem exec_powerOnReset (s : State) (dt : Nat) (refsel : Bool) :
    exec (.powerOnReset dt refsel) s = execPowerOnReset dt refsel s := rfl
@[simp] theorem exec_resetN (s : State) (dt : Nat) (ns : Nat) (refsel : Bool) :
    exec (.resetN dt ns refsel) s = execResetN dt ns refsel s := rfl
@[simp] theorem exec_watchdog (s : State) (dt : Nat) (refsel : Bool) :
    exec (.watchdog dt refsel) s = execWatchdog dt refsel s := rfl
@[simp] theorem exec_zensorSoftReset (s : State) (dt : Nat) (refsel : Bool) :
    exec (.zensorSoftReset dt refsel) s = execZensorSoftReset dt refsel s := rfl
@[simp] theorem exec_warmReload (s : State) (dt : Nat) (refsel : Bool) :
    exec (.warmReload dt refsel) s = execWarmReload dt refsel s := rfl
@[simp] theorem exec_pwrResetSoft (s : State) (dt : Nat) (acc : Master) (v : Word) :
    exec (.pwrResetSoft dt acc v) s = execPwrResetSoft dt acc v s := rfl
@[simp] theorem exec_pwrResetWarm (s : State) (dt : Nat) (acc : Master) (v : Word) :
    exec (.pwrResetWarm dt acc v) s = execPwrResetWarm dt acc v s := rfl
@[simp] theorem exec_loadPass1End (s : State) (dt : Nat) (read : FlashRead) :
    exec (.loadPass1End dt read) s = execLoadPass1End dt read s := rfl
@[simp] theorem exec_regsPoll (s : State) (dt : Nat) :
    exec (.regsPoll dt) s = execRegsPoll dt s := rfl
@[simp] theorem exec_regsPollTimeout (s : State) (dt : Nat) :
    exec (.regsPollTimeout dt) s = execRegsPollTimeout dt s := rfl
@[simp] theorem exec_regsDelay (s : State) (dt : Nat) :
    exec (.regsDelay dt) s = execRegsDelay dt s := rfl
@[simp] theorem exec_sleepRequest (s : State) (dt : Nat) (acc : Master) (v : Word) :
    exec (.sleepRequest dt acc v) s = execSleepRequest dt acc v s := rfl
@[simp] theorem exec_sleepEntry (s : State) (dt : Nat) (refsel : Bool) :
    exec (.sleepEntry dt refsel) s = execSleepEntry dt refsel s := rfl
@[simp] theorem exec_wakeN (s : State) (dt : Nat) (ns : Nat) (refsel : Bool) :
    exec (.wakeN dt ns refsel) s = execWakeN dt ns refsel s := rfl
@[simp] theorem exec_wakeTimer (s : State) (dt : Nat) (refsel : Bool) :
    exec (.wakeTimer dt refsel) s = execWakeTimer dt refsel s := rfl
@[simp] theorem exec_wdtStart (s : State) (dt : Nat) (acc : Master) (v : Word) :
    exec (.wdtStart dt acc v) s = execWdtStart dt acc v s := rfl
@[simp] theorem exec_wdtKick (s : State) (dt : Nat) (acc : Master) (v : Word) :
    exec (.wdtKick dt acc v) s = execWdtKick dt acc v s := rfl
@[simp] theorem exec_supplyBelowFallingThreshold (s : State) (dt : Nat) :
    exec (.supplyBelowFallingThreshold dt) s = execSupplyBelowFallingThreshold dt s := rfl

end Sys2Proof.Machine
end

