-- ==== Sys2Proof/Laws/Frame.lean ====
section
/-! SUPPORT. Frames: which registers an operation may change, said once for each operation over the state. -/
set_option Elab.async false
namespace Sys2Proof.Machine

open State (Within)

theorem State.Within.refl (s : State) (p : Nat → Prop) : Within s s p := ⟨fun _ _ => rfl, fun _ => rfl⟩

theorem State.Within.trans {s t u : State} {p : Nat → Prop} (h : Within s t p) (k : Within t u p) : Within s u p :=
  ⟨fun a ha => (k.1 a ha).trans (h.1 a ha), fun a => (k.2 a).trans (h.2 a)⟩

theorem State.Within.mono {s t : State} {p q : Nat → Prop} (h : Within s t p) (k : ∀ a, p a → q a) : Within s t q :=
  ⟨fun a ha => h.1 a (fun hp => ha (k a hp)), h.2⟩

/-- An update that touches neither registers nor memory. -/
theorem State.Within.same {z s t : State} {p : Nat → Prop} (h : Within z s p) (hr : t.regs = s.regs) (hm : t.mem = s.mem) :
    Within z t p :=
  ⟨fun a ha => by rw [← h.1 a ha]; unfold State.reg; rw [hr], fun a => by rw [hm]; exact h.2 a⟩

theorem State.Within.setReg {z s : State} {p : Nat → Prop} (h : Within z s p) {a : Nat} (ha : p a) (w : Word) :
    Within z (s.setReg a w) p :=
  ⟨fun b hb => by rw [← h.1 b hb]; exact State.reg_setReg_ne s (by rintro rfl; exact hb ha) w, h.2⟩

theorem State.Within.fset {z s : State} {p : Nat → Prop} (h : Within z s p) {f : Fld} {n j : Nat} (ha : p (f.addr n j)) (v : Nat) :
    Within z (s.fset f v n j) p := h.setReg ha _

theorem State.Within.setFlag {z s : State} {p : Nat → Prop} (h : Within z s p) {f : Fld} {n j : Nat} (ha : p (f.addr n j))
    (b : Bool) : Within z (s.setFlag f b n j) p := h.setReg ha _

theorem State.Within.fsetS {z s : State} {p : Nat → Prop} (h : Within z s p) {f : Fld} {n j : Nat} (ha : p (f.addr n j))
    (v : Int) : Within z (s.fsetS f v n j) p := h.setReg ha _

theorem State.Within.finc {z s : State} {p : Nat → Prop} (h : Within z s p) {f : Fld} {n j : Nat} (ha : p (f.addr n j))
    (k : Nat) : Within z (s.finc f n j k) p := h.setReg ha _

theorem State.Within.fincWrap {z s : State} {p : Nat → Prop} (h : Within z s p) {f : Fld} {n j : Nat} (ha : p (f.addr n j)) :
    Within z (s.fincWrap f n j) p := h.setReg ha _

theorem State.Within.setWords {z : State} {p : Nat → Prop} (k : Nat) : ∀ {s : State} {a : Nat}, Within z s p →
    (∀ i < k, p (a + 4 * i)) → ∀ v, Within z (s.setWords a k v) p := by
  induction k with
  | zero => intro s a h _ v; exact h
  | succ k ih =>
    intro s a h ha v
    refine ih (h.setReg (by simpa using ha 0 (by omega)) _) (fun i hi => ?_) _
    have := ha (i + 1) (by omega)
    rwa [show a + 4 * (i + 1) = a + 4 + 4 * i by omega] at this

theorem State.Within.wset {z s : State} {p : Nat → Prop} (h : Within z s p) {w : Wide} {n j : Nat}
    (ha : ∀ i < w.words, p (w.addr n j + 4 * i)) (v : Nat) : Within z (s.wset w v n j) p := h.setWords _ ha v

theorem State.Within.wsetS {z s : State} {p : Nat → Prop} (h : Within z s p) {w : Wide} {n j : Nat}
    (ha : ∀ i < w.words, p (w.addr n j + 4 * i)) (v : Int) : Within z (s.wsetS w v n j) p := h.setWords _ ha _

theorem State.Within.ite {z s t : State} {p : Nat → Prop} {c : Prop} [Decidable c] (h : Within z s p) (k : Within z t p) :
    Within z (if c then s else t) p := by split <;> assumption

theorem State.Within.forFin {z : State} {p : Nat → Prop} {k : Nat} {f : Fin k → State → State}
    (hf : ∀ i s, Within z s p → Within z (f i s) p) {s : State} (h : Within z s p) : Within z (forFin k f s) p := by
  unfold Machine.forFin
  generalize List.finRange k = l
  induction l generalizing s with
  | nil => exact h
  | cons i l ih => exact ih (hf i s h)

theorem State.Within.forList {z : State} {p : Nat → Prop} {α : Type} {f : α → State → State}
    (hf : ∀ i s, Within z s p → Within z (f i s) p) (l : List α) : ∀ {s : State}, Within z s p → Within z (forList l f s) p := by
  unfold Machine.forList
  induction l with
  | nil => intro s h; exact h
  | cons i l ih => intro s h; exact ih (hf i s h)

end Sys2Proof.Machine
end

