-- ==== Sys2Proof/Laws/Memory.lean ====
section
/-! SUPPORT. Memory: reading after a write, and the canonical form. -/
set_option Elab.async false
namespace Sys2Proof.Machine

theorem Memory.rising_iff (m : Memory) : m.rising = true ↔ m.Pairwise (fun x y => x.1 < y.1) := by
  induction m with
  | nil => simp [Memory.rising]
  | cons x m ih =>
    cases m with
    | nil => simp [Memory.rising]
    | cons y m =>
      simp only [Memory.rising, Bool.and_eq_true, decide_eq_true_eq, ih, List.pairwise_cons]
      refine ⟨fun h => ⟨?_, h.2⟩, fun h => ⟨h.1 y (by simp), h.2⟩⟩
      intro z hz
      rcases List.mem_cons.1 hz with rfl | hz
      · exact h.1
      · exact Nat.lt_trans h.1 (h.2.1 z hz)

theorem Memory.wf_iff (m : Memory) : m.wf = true ↔ m.Pairwise (fun x y => x.1 < y.1) ∧ ∀ c ∈ m, c.2 ≠ 0 := by
  simp [Memory.wf, Memory.rising_iff]

theorem Memory.mem_erase {a : Nat} {m : Memory} {c : Host.Cell} (h : c ∈ Memory.erase a m) : c ∈ m := by
  induction m with
  | nil => simp [Memory.erase] at h
  | cons x m ih =>
    unfold Memory.erase at h
    split at h
    · exact List.mem_cons_of_mem _ h
    · rcases List.mem_cons.1 h with rfl | h
      · simp
      · exact List.mem_cons_of_mem _ (ih h)

theorem Memory.mem_insert {a : Nat} {b : Byte} {m : Memory} {c : Host.Cell} (h : c ∈ Memory.insert a b m) :
    c = (a, b) ∨ c ∈ m := by
  induction m with
  | nil => simpa [Memory.insert] using h
  | cons x m ih =>
    unfold Memory.insert at h
    split at h
    · rcases List.mem_cons.1 h with h | h <;> simp [h]
    · split at h
      · rcases List.mem_cons.1 h with h | h
        · exact .inl h
        · exact .inr (List.mem_cons_of_mem _ h)
      · rcases List.mem_cons.1 h with h | h
        · simp [h]
        · rcases ih h with h | h
          · exact .inl h
          · exact .inr (List.mem_cons_of_mem _ h)

theorem Memory.erase_rise {a : Nat} {m : Memory} (h : m.Pairwise (fun x y => x.1 < y.1)) :
    (Memory.erase a m).Pairwise (fun x y => x.1 < y.1) := by
  induction m with
  | nil => simp [Memory.erase]
  | cons x m ih =>
    unfold Memory.erase
    rw [List.pairwise_cons] at h
    split
    · exact h.2
    · exact List.pairwise_cons.2 ⟨fun y hy => h.1 y (Memory.mem_erase hy), ih h.2⟩

theorem Memory.insert_rise {a : Nat} {b : Byte} {m : Memory} (h : m.Pairwise (fun x y => x.1 < y.1)) :
    (Memory.insert a b m).Pairwise (fun x y => x.1 < y.1) := by
  induction m with
  | nil => simp [Memory.insert]
  | cons x m ih =>
    unfold Memory.insert
    have h' := List.pairwise_cons.1 h
    split
    · rename_i hlt
      refine List.pairwise_cons.2 ⟨fun y hy => ?_, h⟩
      rcases List.mem_cons.1 hy with rfl | hy
      · exact hlt
      · exact Nat.lt_trans hlt (h'.1 y hy)
    · split
      · rename_i heq
        subst heq
        exact List.pairwise_cons.2 ⟨h'.1, h'.2⟩
      · refine List.pairwise_cons.2 ⟨fun y hy => ?_, ih h'.2⟩
        rcases Memory.mem_insert hy with rfl | hy
        · show x.1 < a
          omega
        · exact h'.1 y hy

/-- A write keeps the canonical form. -/
theorem Memory.write_wf {m : Memory} (h : m.wf = true) (a : Nat) (b : Byte) : (m.write a b).wf = true := by
  rw [Memory.wf_iff] at h ⊢
  unfold Memory.write
  split
  · exact ⟨Memory.erase_rise h.1, fun c hc => h.2 c (Memory.mem_erase hc)⟩
  · rename_i hb
    refine ⟨Memory.insert_rise h.1, fun c hc => ?_⟩
    rcases Memory.mem_insert hc with rfl | hc
    · exact hb
    · exact h.2 c hc

theorem Memory.writeBytes_wf {m : Memory} (h : m.wf = true) (a : Nat) (l : List Nat) : (m.writeBytes a l).wf = true := by
  induction l generalizing m a with
  | nil => exact h
  | cons b l ih => exact ih (Memory.write_wf h a _) (a + 1)

theorem Memory.writeN_wf {m : Memory} (h : m.wf = true) (a k v : Nat) : (m.writeN a k v).wf = true :=
  Memory.writeBytes_wf h a _

theorem Memory.filter_wf {m : Memory} (h : m.wf = true) (p : Host.Cell → Bool) : Memory.wf (m.filter p) = true := by
  rw [Memory.wf_iff] at h ⊢
  exact ⟨h.1.filter p, fun c hc => h.2 c (List.mem_filter.1 hc).1⟩

theorem Memory.read_erase_ne {a b : Nat} (h : a ≠ b) (m : Memory) : Memory.read (Memory.erase a m) b = m.read b := by
  induction m with
  | nil => rfl
  | cons x m ih =>
    obtain ⟨k, v⟩ := x
    by_cases hk : k = a <;> by_cases hb : k = b <;> simp_all [Memory.erase, Memory.read]

theorem Memory.read_insert_ne {a b : Nat} (h : a ≠ b) (v : Byte) (m : Memory) :
    Memory.read (Memory.insert a v m) b = m.read b := by
  induction m with
  | nil => simp [Memory.insert, Memory.read, h]
  | cons x m ih =>
    obtain ⟨k, w⟩ := x
    unfold Memory.insert
    split
    · simp [Memory.read, h]
    · split <;> by_cases hb : k = b <;> simp_all [Memory.read]

/-- A write leaves every other byte alone. -/
theorem Memory.read_write_ne {a b : Nat} (h : a ≠ b) (v : Byte) (m : Memory) : (m.write a v).read b = m.read b := by
  unfold Memory.write
  split
  · exact Memory.read_erase_ne h m
  · exact Memory.read_insert_ne h v m

theorem Memory.read_insert (a : Nat) (v : Byte) (m : Memory) : Memory.read (Memory.insert a v m) a = v := by
  induction m with
  | nil => simp [Memory.insert, Memory.read]
  | cons x m ih =>
    obtain ⟨k, w⟩ := x
    unfold Memory.insert
    split
    · simp [Memory.read]
    · split <;> simp_all [Memory.read]

theorem Memory.read_none {a : Nat} {m : Memory} (h : ∀ c ∈ m, c.1 ≠ a) : m.read a = 0 := by
  induction m with
  | nil => rfl
  | cons x m ih =>
    obtain ⟨k, v⟩ := x
    have hk : k ≠ a := h (k, v) (by simp)
    simp only [Memory.read, hk, if_false]
    exact ih (fun c hc => h c (List.mem_cons_of_mem _ hc))

theorem Memory.read_erase {m : Memory} (h : m.Pairwise (fun x y => x.1 < y.1)) (a : Nat) :
    Memory.read (Memory.erase a m) a = 0 := by
  induction m with
  | nil => rfl
  | cons x m ih =>
    obtain ⟨k, v⟩ := x
    rw [List.pairwise_cons] at h
    by_cases hk : k = a
    · subst hk
      simp only [Memory.erase, if_true]
      exact Memory.read_none (fun p hp => Nat.ne_of_gt (h.1 p hp))
    · simp only [Memory.erase, hk, if_false, Memory.read]
      exact ih h.2

/-- Reading what was written. -/
theorem Memory.read_write {m : Memory} (h : m.wf = true) (a : Nat) (v : Byte) : (m.write a v).read a = v := by
  unfold Memory.write
  split
  · rename_i hv
    rw [Memory.read_erase ((Memory.wf_iff m).1 h).1, hv]
  · exact Memory.read_insert a v m

/-- Bytes written from `a` on leave the others alone. -/
theorem Memory.read_writeBytes_out (l : List Nat) (m : Memory) (a : Nat) {b : Nat} (h : b < a ∨ a + l.length ≤ b) :
    (m.writeBytes a l).read b = m.read b := by
  induction l generalizing m a with
  | nil => rfl
  | cons x l ih =>
    simp only [List.length_cons] at h
    show (Memory.writeBytes (m.write a _) (a + 1) l).read b = _
    rw [ih _ (a + 1) (by omega), Memory.read_write_ne (by omega)]

theorem bytesLE_length (k v : Nat) : (bytesLE k v).length = k := by
  induction k generalizing v with
  | zero => rfl
  | succ k ih => simp [bytesLE, ih]

theorem Memory.read_writeN_out (m : Memory) (a k v : Nat) {b : Nat} (h : b < a ∨ a + k ≤ b) :
    (m.writeN a k v).read b = m.read b :=
  Memory.read_writeBytes_out _ m a (by rwa [bytesLE_length])

end Sys2Proof.Machine
end

