-- ==== Sys2Proof/Laws/Keeps.lean ====
section
/-! SUPPORT. What every operation keeps: the relation, and the operations that change what it speaks of. -/
set_option Elab.async false
namespace Sys2Proof.Machine

/-- What a command changes nothing of, beyond the passing of time: the canonical forms stay, the queue behind it and
physical time are the same, and a programmed fuse stays programmed. -/
structure State.Keeps (s t : State) : Prop where
  sound : s.Sound → t.Sound
  pending : t.pending = s.pending
  phys : t.phys = s.phys
  burnt : ∀ w b, s.burntBit w b = true → t.burntBit w b = true

open State (Keeps)

theorem State.Keeps.refl (s : State) : Keeps s s := ⟨id, rfl, rfl, fun _ _ h => h⟩

theorem State.Keeps.trans {s t u : State} (h : Keeps s t) (k : Keeps t u) : Keeps s u :=
  ⟨k.sound ∘ h.sound, k.pending.trans h.pending, k.phys.trans h.phys, fun w b x => k.burnt w b (h.burnt w b x)⟩

/-- A change of nothing that the relation speaks of. -/
theorem State.Keeps.of_eq {z s t : State} (h : Keeps z s) (h1 : t.regs = s.regs) (h2 : t.snaps = s.snaps)
    (h3 : t.held = s.held) (h4 : t.mem = s.mem) (h5 : t.flash = s.flash) (h6 : t.pending = s.pending)
    (h7 : t.phys = s.phys) (h8 : t.fuses = s.fuses) : Keeps z t := by
  refine h.trans ⟨?_, h6, h7, ?_⟩
  · intro k; simpa only [State.Sound, h1, h2, h3, h4, h5] using k
  · intro w b k; simpa only [State.burntBit, h8] using k

/-- A record update outside what the relation speaks of. -/
theorem State.Keeps.upd {z s : State} (h : Keeps z s)
    {lclk0 : Nat} {run0 : Nat} {steps0 : List (Nat × Int)} {freeCtr0 : Nat} {rdata0 : Word} {strobe0 : Strobe}
    {badPar0 : List Nat} {sp0 : Vector Spindle 16} {snap0 : Snapshot} {seq0 : Sequencer} {led0 : Ledger} {mark0 :
    Vector Mark 16} {tout0 : Vector Tout 16} {raf0 : Rafter} {evs0 : List CelEvent} {ax0 : Vector Axis 64} {prevTick0
    : Vector SpinSnap 16} {prevJumps0 : Vector Int 16} {attic0 : Attic} {lp0 : Vector Loop 64} {outer0 : Outer} {fld0
    : Vector Field 64} {bl0 : Vector Bridge 16} {stp0 : Vector StpPlan 16} {stpOld0 : RegFile} {gateLinks0 : Nat}
    {sleepGate0 : Bool} {chuck0 : Vector ChuckCh 32} {cmdIn0 : Vector CmdIn 8} {sill0 : List (Nat × Nat × Nat)} {core0
    : Vector GCore 10} {march0 : March} {hostPan0 : Bool} {jet0 : Vector Jet 8} {bar0 : Vector Bar 16} {skew0 : Skew}
    {jo0 : Joist} {cel0 : Cellar} {past0 : List Past} {resetReq0 : Option Nat} {violAt0 : Option Nat} {sessions0 :
    List Session} {stream0 : Option StreamTo} {thr0 : Thr} {hw0 : Hallway} {zen0 : Zensor} {can0 : Vector Can 2}
    {boot0 : Boot} {servo0 : Servo} :
    Keeps z { s with
      lclk := lclk0, run := run0, steps := steps0, freeCtr := freeCtr0, rdata := rdata0, strobe := strobe0, badPar :=
      badPar0, sp := sp0, snap := snap0, seq := seq0, led := led0, mark := mark0, tout := tout0, raf := raf0, evs :=
      evs0, ax := ax0, prevTick := prevTick0, prevJumps := prevJumps0, attic := attic0, lp := lp0, outer := outer0,
      fld := fld0, bl := bl0, stp := stp0, stpOld := stpOld0, gateLinks := gateLinks0, sleepGate := sleepGate0, chuck
      := chuck0, cmdIn := cmdIn0, sill := sill0, core := core0, march := march0, hostPan := hostPan0, jet := jet0, bar
      := bar0, skew := skew0, jo := jo0, cel := cel0, past := past0, resetReq := resetReq0, violAt := violAt0,
      sessions := sessions0, stream := stream0, thr := thr0, hw := hw0, zen := zen0, can := can0, boot := boot0, servo
      := servo0 } :=
  h.of_eq rfl rfl rfl rfl rfl rfl rfl rfl

/-- The same with the new registers and memory in canonical form. -/
theorem State.Keeps.of_sound {z s t : State} (h : Keeps z s) (k : s.Sound → t.Sound) (h6 : t.pending = s.pending)
    (h7 : t.phys = s.phys) (h8 : t.fuses = s.fuses) : Keeps z t := by
  refine h.trans ⟨k, h6, h7, ?_⟩
  intro w b k; simpa only [State.burntBit, h8] using k

theorem State.Keeps.memory {z s t : State} (h : Keeps z s) (k : s.mem.wf = true → t.mem.wf = true) (h1 : t.regs = s.regs)
    (h2 : t.snaps = s.snaps) (h3 : t.held = s.held) (h5 : t.flash = s.flash) (h6 : t.pending = s.pending)
    (h7 : t.phys = s.phys) (h8 : t.fuses = s.fuses) : Keeps z t :=
  h.of_sound (fun x => ⟨h1 ▸ x.1, h2 ▸ x.2.1, h3 ▸ x.2.2.1, k x.2.2.2.1, h5 ▸ x.2.2.2.2⟩) h6 h7 h8

/-! What answers a state among other things, or no state, keeps it so. -/

structure State.KeepsO (z : State) (o : Option State) : Prop where
  get : ∀ t, o = some t → Keeps z t

structure State.KeepsE (z : State) (o : Except Refusal State) : Prop where
  get : ∀ t, o = .ok t → Keeps z t

structure State.KeepsR (z : State) (o : Out) : Prop where
  get : ∀ t, o = .next t → Keeps z t

structure State.KeepsP {α : Type} (z : State) (o : Except Refusal (α × State)) : Prop where
  get : ∀ t, o = .ok t → Keeps z t.2

structure State.KeepsQ {α : Type} (z : State) (o : Option (α × State)) : Prop where
  get : ∀ t, o = some t → Keeps z t.2

open State (KeepsO KeepsE KeepsR KeepsP KeepsQ)

theorem State.KeepsO.some {z s : State} (h : Keeps z s) : KeepsO z (some s) := ⟨by rintro t ⟨⟩; exact h⟩
theorem State.KeepsO.none {z : State} : KeepsO z none := ⟨by rintro t ⟨⟩⟩
theorem State.KeepsE.ok {z s : State} (h : Keeps z s) : KeepsE z (.ok s) := ⟨by rintro t ⟨⟩; exact h⟩
theorem State.KeepsE.error {z : State} {e : Refusal} : KeepsE z (.error e) := ⟨by rintro t ⟨⟩⟩
theorem State.KeepsP.ok {α : Type} {z : State} {x : α × State} (h : Keeps z x.2) : KeepsP z (.ok x) :=
  ⟨by rintro t ⟨⟩; exact h⟩
theorem State.KeepsP.error {α : Type} {z : State} {e : Refusal} : KeepsP z (.error e : Except Refusal (α × State)) :=
  ⟨by rintro t ⟨⟩⟩
theorem State.KeepsQ.some {α : Type} {z : State} {x : α × State} (h : Keeps z x.2) : KeepsQ z (some x) :=
  ⟨by rintro t ⟨⟩; exact h⟩
theorem State.KeepsQ.none {α : Type} {z : State} : KeepsQ z (none : Option (α × State)) := ⟨by rintro t ⟨⟩⟩
theorem State.KeepsR.next {z s : State} (h : Keeps z s) : KeepsR z (.next s) := ⟨by rintro t ⟨⟩; exact h⟩
theorem State.KeepsR.refused {z : State} {e : Refusal} : KeepsR z (.refused e) := ⟨by rintro t ⟨⟩⟩

theorem State.KeepsO.map {z : State} {o : Option State} {f : State → State} (h : KeepsO z o)
    (k : ∀ t, Keeps z t → Keeps z (f t)) : KeepsO z (o.map f) := by
  cases o with
  | none => exact ⟨by rintro t ⟨⟩⟩
  | some s => exact ⟨by rintro t ⟨⟩; exact k s (h.get s rfl)⟩

theorem State.KeepsE.bind {z : State} {o : Except Refusal State} {f : State → Except Refusal State} (h : KeepsE z o)
    (k : ∀ t, Keeps z t → KeepsE z (f t)) : KeepsE z (o.bind f) := by
  cases o with
  | error e => exact ⟨by rintro t ⟨⟩⟩
  | ok s => exact k s (h.get s rfl)

theorem State.KeepsE.bindP {α : Type} {z : State} {o : Except Refusal State} {f : State → Except Refusal (α × State)}
    (h : KeepsE z o) (k : ∀ t, Keeps z t → KeepsP z (f t)) : KeepsP z (o.bind f) := by
  cases o with
  | error e => exact ⟨by rintro t ⟨⟩⟩
  | ok s => exact k s (h.get s rfl)

theorem State.KeepsP.bind {α : Type} {z : State} {o : Except Refusal (α × State)} {f : α × State → Except Refusal State}
    (h : KeepsP z o) (k : ∀ t : α × State, Keeps z t.2 → KeepsE z (f t)) : KeepsE z (o.bind f) := by
  cases o with
  | error e => exact ⟨by rintro t ⟨⟩⟩
  | ok s => exact k s (h.get s rfl)

theorem State.KeepsP.bindP {α β : Type} {z : State} {o : Except Refusal (α × State)}
    {f : α × State → Except Refusal (β × State)} (h : KeepsP z o) (k : ∀ t : α × State, Keeps z t.2 → KeepsP z (f t)) :
    KeepsP z (o.bind f) := by
  cases o with
  | error e => exact ⟨by rintro t ⟨⟩⟩
  | ok s => exact k s (h.get s rfl)

theorem State.KeepsP.map {α : Type} {z : State} {o : Except Refusal (α × State)} {f : α × State → State}
    (h : KeepsP z o) (k : ∀ t : α × State, Keeps z t.2 → Keeps z (f t)) : KeepsE z (o.map f) := by
  cases o with
  | error e => exact ⟨by rintro t ⟨⟩⟩
  | ok s => exact ⟨by rintro t ⟨⟩; exact k s (h.get s rfl)⟩

theorem State.Keeps.ite {z a b : State} {c : Prop} [Decidable c] (h : Keeps z a) (k : Keeps z b) :
    Keeps z (if c then a else b) := by
  split
  · exact h
  · exact k

theorem State.KeepsO.ite {z : State} {a b : Option State} {c : Prop} [Decidable c] (h : KeepsO z a) (k : KeepsO z b) :
    KeepsO z (if c then a else b) := by
  split
  · exact h
  · exact k

theorem State.KeepsE.ite {z : State} {a b : Except Refusal State} {c : Prop} [Decidable c] (h : KeepsE z a)
    (k : KeepsE z b) : KeepsE z (if c then a else b) := by
  split
  · exact h
  · exact k

/-! ### Iteration -/

theorem foldl_keeps {α : Type} {z : State} (f : State → α → State) (l : List α) (k : ∀ t a, Keeps z t → Keeps z (f t a)) :
    ∀ s, Keeps z s → Keeps z (l.foldl f s) := by
  induction l with
  | nil => intro s h; exact h
  | cons a l ih => intro s h; exact ih _ (k s a h)

theorem forFin_keeps {z s : State} {k : Nat} {f : Fin k → State → State} (h : Keeps z s)
    (g : ∀ i t, Keeps z t → Keeps z (f i t)) : Keeps z (forFin k f s) :=
  foldl_keeps _ _ (fun t a x => g a t x) s h

theorem forList_keeps {α : Type} {z s : State} {l : List α} {f : α → State → State} (h : Keeps z s)
    (g : ∀ i t, Keeps z t → Keeps z (f i t)) : Keeps z (forList l f s) :=
  foldl_keeps _ _ (fun t a x => g a t x) s h

/-! ### Registers, memory, free values -/

theorem State.setReg_keeps {z s : State} (h : Keeps z s) (a : Nat) (w : Word) : Keeps z (s.setReg a w) :=
  h.of_sound (fun x => ⟨RegFile.set_wf x.1 a w, x.2⟩) rfl rfl rfl

theorem State.writeN_keeps {z s : State} (h : Keeps z s) (a k v : Nat) : Keeps z (s.writeN a k v) :=
  h.memory (fun x => Memory.writeN_wf x a k v) rfl rfl rfl rfl rfl rfl rfl

theorem State.writeBytes_keeps {z s : State} (h : Keeps z s) {a : Nat} {l : List Nat} :
    Keeps z { s with mem := s.mem.writeBytes a l } :=
  h.memory (fun x => Memory.writeBytes_wf x a l) rfl rfl rfl rfl rfl rfl rfl

theorem State.takeFree_keeps {z s : State} (h : Keeps z s) : Keeps z s.takeFree.2 :=
  h.of_eq rfl rfl rfl rfl rfl rfl rfl rfl

theorem State.setWords_keeps {z : State} (k : Nat) : ∀ {s : State}, Keeps z s → ∀ a v, Keeps z (s.setWords a k v) := by
  induction k with
  | zero => intro s h a v; exact h
  | succ k ih => intro s h a v; exact ih (State.setReg_keeps h a _) _ _

/-- Time passes: nothing else that the relation speaks of changes. -/
theorem State.elapse_sound {s : State} (h : s.Sound) (dt : Nat) : (s.elapse dt).Sound := h

/-! ### What the proofs about single operations rest on -/

theorem mem_regsAfter {kind : Nat} {r : RegFile} {p : Nat × Word} (h : p ∈ regsAfter kind r) :
    p.2 ≠ resetWord p.1 ∧ ∃ q ∈ r, q.1 = p.1 := by
  induction r with
  | nil => simp [regsAfter] at h
  | cons x r ih =>
    obtain ⟨a, w⟩ := x
    unfold regsAfter at h
    dsimp only at h
    split at h
    · obtain ⟨h1, q, hq, h2⟩ := ih h
      exact ⟨h1, q, List.mem_cons_of_mem _ hq, h2⟩
    · rename_i hne
      rcases List.mem_cons.1 h with rfl | h
      · exact ⟨hne, (a, w), by simp, rfl⟩
      · obtain ⟨h1, q, hq, h2⟩ := ih h
        exact ⟨h1, q, List.mem_cons_of_mem _ hq, h2⟩

/-- A reset leaves the registers in canonical form. -/
theorem regsAfter_wf {r : RegFile} (h : r.wf = true) (kind : Nat) : (regsAfter kind r).wf = true := by
  rw [RegFile.wf_iff] at h ⊢
  refine ⟨?_, fun p hp => (mem_regsAfter hp).1⟩
  have h1 := h.1
  clear h
  induction r with
  | nil => simp [regsAfter]
  | cons x r ih =>
    obtain ⟨a, w⟩ := x
    rw [List.pairwise_cons] at h1
    unfold regsAfter
    dsimp only
    split
    · exact ih h1.2
    · refine List.pairwise_cons.2 ⟨fun p hp => ?_, ih h1.2⟩
      obtain ⟨-, q, hq, h2⟩ := mem_regsAfter hp
      exact h2 ▸ h1.1 q hq

theorem programBytes_wf {m : Memory} (h : m.wf = true) (a : Nat) (l : List Nat) : (programBytes m a l).wf = true := by
  induction l generalizing m a with
  | nil => exact h
  | cons b l ih => exact ih (Memory.write_wf h a _) (a + 1)

theorem writeSection_wf {m : Memory} (h : m.wf = true) (a : Nat) (l : List Nat) : (writeSection m a l).wf = true := by
  induction l generalizing m a with
  | nil => exact h
  | cons b l ih =>
    unfold writeSection
    refine ih ?_ (a + 1)
    split
    · exact h
    · exact Memory.write_wf h a _

theorem find_filter_ne {l : List (Nat × Nat)} {w v : Nat} (h : v ≠ w) :
    (l.filter (fun x => x.1 != w)).find? (fun x => x.1 == v) = l.find? (fun x => x.1 == v) := by
  induction l with
  | nil => rfl
  | cons x l ih =>
    by_cases hx : x.1 = w
    · rw [List.filter_cons_of_neg (by simp [hx]), ih, List.find?_cons_of_neg (by simp [hx, Ne.symm h])]
    · rw [List.filter_cons_of_pos (by simp [hx])]
      by_cases hv : x.1 = v
      · rw [List.find?_cons_of_pos (by simp [hv]), List.find?_cons_of_pos (by simp [hv])]
      · rw [List.find?_cons_of_neg (by simp [hv]), List.find?_cons_of_neg (by simp [hv]), ih]

/-- Programming a fuse word leaves every programmed bit programmed (R69). -/
theorem State.burntBit_orWord {s : State} {l : List (Nat × Nat)} {w d : Nat} {t : State} (hs : l = s.fuses.burnt)
    (ht : t.fuses.burnt = orWord l w d) (v b : Nat) (h : s.burntBit v b = true) : t.burntBit v b = true := by
  subst hs
  unfold State.burntBit at h ⊢
  rw [ht]
  unfold orWord
  by_cases hv : w = v
  · subst hv
    rw [List.find?_cons_of_pos (by simp)]
    unfold bit at h ⊢
    simp [Nat.testBit_or, h]
  · rw [List.find?_cons_of_neg (by simp [hv]), find_filter_ne (Ne.symm hv)]
    exact h

end Sys2Proof.Machine
end

