-- ==== Sys2Proof/Laws/KeepsTime.lean ====
section
/-! SUPPORT. One lemma per operation: what time-keeping, spindle, Ledger, headstock and fault operations keep. -/
set_option Elab.async false
namespace Sys2Proof.Machine

theorem State.fset_keeps {z : State} {s : State} {f : Fld} {v : Nat} {n : Nat} {j : Nat} (hs : State.Keeps z s) :
    State.Keeps z (State.fset s f v n j) := by
  unfold State.fset
  with_reducible repeat' (first | assumption | apply State.setReg_keeps)

theorem State.fsetS_keeps {z : State} {s : State} {f : Fld} {v : Int} {n : Nat} {j : Nat} (hs : State.Keeps z s) :
    State.Keeps z (State.fsetS s f v n j) := by
  unfold State.fsetS
  with_reducible repeat' (first | assumption | apply State.fset_keeps)

theorem State.setFlag_keeps {z : State} {s : State} {f : Fld} {b : Bool} {n : Nat} {j : Nat} (hs : State.Keeps z s) :
    State.Keeps z (State.setFlag s f b n j) := by
  unfold State.setFlag
  with_reducible repeat' (first | assumption | apply State.fset_keeps)

theorem State.noteSet_keeps {z : State} {s : State} {a m : Nat} (hs : State.Keeps z s) :
    State.Keeps z (State.noteSet s a m) := by
  unfold State.noteSet
  with_reducible repeat' (first
    | assumption
    | (apply State.Keeps.upd; first
        | assumption))

theorem State.noteWrote_keeps {z : State} {s : State} {a m : Nat} (hs : State.Keeps z s) :
    State.Keeps z (State.noteWrote s a m) := by
  unfold State.noteWrote
  with_reducible repeat' (first
    | assumption
    | (apply State.Keeps.upd; first
        | assumption))

theorem State.raise_keeps {z : State} {s : State} {f : Fld} {n : Nat} {j : Nat} (hs : State.Keeps z s) :
    State.Keeps z (State.raise s f n j) := by
  unfold State.raise
  with_reducible repeat' (first | assumption | apply State.setFlag_keeps | apply State.noteSet_keeps)

theorem State.raiseBits_keeps {z : State} {s : State} {f : Fld} {m : Nat} {n : Nat} {j : Nat} (hs : State.Keeps z s) :
    State.Keeps z (State.raiseBits s f m n j) := by
  unfold State.raiseBits
  with_reducible repeat' (first | assumption | apply State.fset_keeps | apply State.noteSet_keeps)

theorem State.finc_keeps {z : State} {s : State} {f : Fld} {n : Nat} {j : Nat} {by' : Nat} (hs : State.Keeps z s) :
    State.Keeps z (State.finc s f n j by') := by
  unfold State.finc
  with_reducible repeat' (first | assumption | apply State.fset_keeps | apply State.noteSet_keeps)

theorem State.fincWrap_keeps {z : State} {s : State} {f : Fld} {n : Nat} {j : Nat} (hs : State.Keeps z s) :
    State.Keeps z (State.fincWrap s f n j) := by
  unfold State.fincWrap
  with_reducible repeat' (first | assumption | apply State.fset_keeps)

theorem State.wset_keeps {z : State} {s : State} {w : Wide} {v : Nat} {n : Nat} {j : Nat} (hs : State.Keeps z s) :
    State.Keeps z (State.wset s w v n j) := by
  unfold State.wset
  with_reducible repeat' (first | assumption | apply State.setWords_keeps)

theorem State.wsetS_keeps {z : State} {s : State} {w : Wide} {v : Int} {n : Nat} {j : Nat} (hs : State.Keeps z s) :
    State.Keeps z (State.wsetS s w v n j) := by
  unfold State.wsetS
  with_reducible repeat' (first | assumption | apply State.wset_keeps)

theorem State.setMem32_keeps {z : State} {s : State} {a v : Nat} (hs : State.Keeps z s) :
    State.Keeps z (State.setMem32 s a v) := by
  unfold State.setMem32
  with_reducible repeat' (first | assumption | apply State.writeN_keeps)

theorem State.setMem24_keeps {z : State} {s : State} {a v : Nat} (hs : State.Keeps z s) :
    State.Keeps z (State.setMem24 s a v) := by
  unfold State.setMem24
  with_reducible repeat' (first | assumption | apply State.writeN_keeps)

theorem State.parityCure_keeps {z : State} {s : State} {a k : Nat} (hs : State.Keeps z s) :
    State.Keeps z (State.parityCure s a k) := by
  unfold State.parityCure
  with_reducible repeat' (first
    | assumption | intro _ | split
    | (apply State.Keeps.upd; first
        | assumption)
    | dsimp only)

theorem State.localPut_keeps {z : State} {s : State} {a v : Nat} (hs : State.Keeps z s) :
    State.Keeps z (State.localPut s a v) := by
  unfold State.localPut
  with_reducible repeat' (first | assumption | apply State.setMem24_keeps | apply State.parityCure_keeps)

theorem State.modSp_keeps {z : State} {s : State} {n : Fin 16} {f : Spindle → Spindle} (hs : State.Keeps z s) :
    State.Keeps z (State.modSp s n f) := by
  unfold State.modSp
  with_reducible repeat' (first
    | assumption
    | (apply State.Keeps.upd; first
        | assumption))

theorem State.modMark_keeps {z : State} {s : State} {n : Fin 16} {f : Mark → Mark} (hs : State.Keeps z s) :
    State.Keeps z (State.modMark s n f) := by
  unfold State.modMark
  with_reducible repeat' (first
    | assumption
    | (apply State.Keeps.upd; first
        | assumption))

theorem State.modAx_keeps {z : State} {s : State} {n : Fin 64} {f : Axis → Axis} (hs : State.Keeps z s) :
    State.Keeps z (State.modAx s n f) := by
  unfold State.modAx
  with_reducible repeat' (first
    | assumption
    | (apply State.Keeps.upd; first
        | assumption))

theorem State.modLp_keeps {z : State} {s : State} {n : Fin 64} {f : Loop → Loop} (hs : State.Keeps z s) :
    State.Keeps z (State.modLp s n f) := by
  unfold State.modLp
  with_reducible repeat' (first
    | assumption
    | (apply State.Keeps.upd; first
        | assumption))

theorem State.modFld_keeps {z : State} {s : State} {n : Fin 64} {f : Field → Field} (hs : State.Keeps z s) :
    State.Keeps z (State.modFld s n f) := by
  unfold State.modFld
  with_reducible repeat' (first
    | assumption
    | (apply State.Keeps.upd; first
        | assumption))

theorem State.modBl_keeps {z : State} {s : State} {n : Fin 16} {f : Bridge → Bridge} (hs : State.Keeps z s) :
    State.Keeps z (State.modBl s n f) := by
  unfold State.modBl
  with_reducible repeat' (first
    | assumption
    | (apply State.Keeps.upd; first
        | assumption))

theorem State.modCh_keeps {z : State} {s : State} {n : Fin 32} {f : ChuckCh → ChuckCh} (hs : State.Keeps z s) :
    State.Keeps z (State.modCh s n f) := by
  unfold State.modCh
  with_reducible repeat' (first
    | assumption
    | (apply State.Keeps.upd; first
        | assumption))

theorem State.modCore_keeps {z : State} {s : State} {n : Fin 10} {f : GCore → GCore} (hs : State.Keeps z s) :
    State.Keeps z (State.modCore s n f) := by
  unfold State.modCore
  with_reducible repeat' (first
    | assumption
    | (apply State.Keeps.upd; first
        | assumption))

theorem State.modCmd_keeps {z : State} {s : State} {n : Fin 8} {f : CmdIn → CmdIn} (hs : State.Keeps z s) :
    State.Keeps z (State.modCmd s n f) := by
  unfold State.modCmd
  with_reducible repeat' (first
    | assumption
    | (apply State.Keeps.upd; first
        | assumption))

theorem State.modJet_keeps {z : State} {s : State} {n : Fin 8} {f : Jet → Jet} (hs : State.Keeps z s) :
    State.Keeps z (State.modJet s n f) := by
  unfold State.modJet
  with_reducible repeat' (first
    | assumption
    | (apply State.Keeps.upd; first
        | assumption))

theorem State.modBar_keeps {z : State} {s : State} {n : Fin 16} {f : Bar → Bar} (hs : State.Keeps z s) :
    State.Keeps z (State.modBar s n f) := by
  unfold State.modBar
  with_reducible repeat' (first
    | assumption
    | (apply State.Keeps.upd; first
        | assumption))

theorem State.spinNorm_keeps {z : State} {s : State} {n : Fin 16} (hs : State.Keeps z s) :
    State.Keeps z (State.spinNorm s n) := by
  unfold State.spinNorm
  with_reducible repeat' (first
    | assumption | apply State.modSp_keeps | apply State.raise_keeps | exact State.KeepsE.error
    | apply State.KeepsE.ok | exact State.KeepsP.error | apply State.KeepsP.ok | intro _ | split
    | (apply State.Keeps.upd; first
        | assumption | apply State.modSp_keeps | apply State.raise_keeps)
    | dsimp only)

theorem State.spinSet_keeps {z : State} {s : State} {n : Fin 16} {x : Int} (hs : State.Keeps z s) :
    State.Keeps z (State.spinSet s n x) := by
  unfold State.spinSet
  with_reducible repeat' (first
    | assumption | apply State.modSp_keeps | exact State.KeepsE.error | apply State.KeepsE.ok
    | exact State.KeepsP.error | apply State.KeepsP.ok | intro _ | split
    | (apply State.Keeps.upd; first
        | assumption | apply State.modSp_keeps)
    | dsimp only)

theorem State.spinLoad_keeps {z : State} {s : State} {n : Fin 16} {x : Int} (hs : State.Keeps z s) :
    State.Keeps z (State.spinLoad s n x) := by
  unfold State.spinLoad
  with_reducible repeat' (first
    | assumption | apply State.spinSet_keeps | apply State.modSp_keeps | intro _
    | (apply State.Keeps.upd; first
        | assumption | apply State.spinSet_keeps | apply State.modSp_keeps)
    | dsimp only)

theorem State.spinTimeDir_keeps {z : State} {s : State} {n : Fin 16} (hs : State.Keeps z s) :
    State.Keeps z (State.spinTimeDir s n) := by
  unfold State.spinTimeDir
  with_reducible repeat' (first | assumption | apply State.setFlag_keeps | split)

theorem State.spinEnable_keeps {z : State} {s : State} {n : Fin 16} {srcPos : Int} {bad : Bool} (hs : State.Keeps z s) :
    State.Keeps z (State.spinEnable s n srcPos bad) := by
  unfold State.spinEnable
  with_reducible repeat' (first
    | assumption | apply State.modSp_keeps | apply State.setFlag_keeps | apply State.spinTimeDir_keeps | intro _
    | split
    | (apply State.Keeps.upd; first
        | assumption | apply State.modSp_keeps | apply State.setFlag_keeps | apply State.spinTimeDir_keeps)
    | dsimp only)

theorem State.spinHold_keeps {z : State} {s : State} {n : Fin 16} (hs : State.Keeps z s) :
    State.Keeps z (State.spinHold s n) := by
  unfold State.spinHold
  with_reducible repeat' (first
    | assumption | apply State.modSp_keeps | intro _
    | (apply State.Keeps.upd; first
        | assumption | apply State.modSp_keeps)
    | dsimp only)

theorem State.spinCount_keeps {z : State} {s : State} {n : Fin 16} {d : Int} {stamp : Nat} (hs : State.Keeps z s) :
    State.Keeps z (State.spinCount s n d stamp) := by
  unfold State.spinCount
  with_reducible repeat' (first
    | assumption | apply State.modSp_keeps | apply State.setFlag_keeps | apply State.spinNorm_keeps | intro _
    | split
    | (apply State.Keeps.upd; first
        | assumption | apply State.modSp_keeps | apply State.setFlag_keeps | apply State.spinNorm_keeps)
    | dsimp only)

theorem State.spinJump_keeps {z : State} {s : State} {n : Fin 16} {d : Int} (hs : State.Keeps z s) :
    State.Keeps z (State.spinJump s n d) := by
  unfold State.spinJump
  with_reducible repeat' (first
    | assumption | apply State.modSp_keeps | apply State.setFlag_keeps | apply State.spinNorm_keeps | intro _
    | split
    | (apply State.Keeps.upd; first
        | assumption | apply State.modSp_keeps | apply State.setFlag_keeps | apply State.spinNorm_keeps)
    | dsimp only)

theorem State.spinSource_keeps {z : State} {s : State} {src sel : Nat} {d : Int} {stamp : Nat} (hs : State.Keeps z s) :
    State.Keeps z (State.spinSource s src sel d stamp) := by
  unfold State.spinSource
  with_reducible repeat' (first
    | assumption | apply forFin_keeps | apply State.spinCount_keeps | intro _ | split | dsimp only)

theorem State.spinAxis_keeps {z : State} {s : State} {src sel : Nat} {pos vel acc : Int} (hs : State.Keeps z s) :
    State.Keeps z (State.spinAxis s src sel pos vel acc) := by
  unfold State.spinAxis
  with_reducible repeat' (first
    | assumption | apply forFin_keeps | apply State.modSp_keeps | apply State.setFlag_keeps
    | apply State.spinNorm_keeps | intro _ | split
    | (apply State.Keeps.upd; first
        | assumption | apply forFin_keeps | apply State.modSp_keeps | apply State.setFlag_keeps
        | apply State.spinNorm_keeps)
    | dsimp only)

theorem State.spinFault_keeps {z : State} {s : State} {ch : Nat} {bad : Bool} (hs : State.Keeps z s) :
    State.Keeps z (State.spinFault s ch bad) := by
  unfold State.spinFault
  with_reducible repeat' (first
    | assumption | apply forFin_keeps | apply State.setFlag_keeps | apply State.modSp_keeps
    | apply State.raise_keeps | apply State.spinNorm_keeps | intro _ | split
    | (apply State.Keeps.upd; first
        | assumption | apply forFin_keeps | apply State.setFlag_keeps | apply State.modSp_keeps
        | apply State.raise_keeps | apply State.spinNorm_keeps)
    | dsimp only)

theorem State.spinStandstill_keeps {z : State} {s : State} {n : Fin 16} (hs : State.Keeps z s) :
    State.Keeps z (State.spinStandstill s n) := by
  unfold State.spinStandstill
  with_reducible repeat' (first
    | assumption | apply State.setFlag_keeps | split
    | (apply State.Keeps.upd; first
        | assumption | apply State.setFlag_keeps)
    | dsimp only)

theorem State.spinRescale_keeps {z : State} {s old : State} {n : Fin 16} (hs : State.Keeps z s)
    (hold : State.Keeps z old) :
    State.Keeps z (State.spinRescale s old n) := by
  unfold State.spinRescale
  with_reducible repeat' (first | assumption | apply State.spinSet_keeps | apply State.spinTimeDir_keeps | split)

theorem State.spinAccTick_keeps {z : State} {s : State} {n : Fin 16} {tp : Nat} (hs : State.Keeps z s) :
    State.Keeps z (State.spinAccTick s n tp) := by
  unfold State.spinAccTick
  with_reducible repeat' (first
    | assumption | apply State.modSp_keeps | intro _ | split
    | (apply State.Keeps.upd; first
        | assumption | apply State.modSp_keeps)
    | dsimp only)

theorem State.spinStep_keeps {z : State} {s : State} {d : Int} (hs : State.Keeps z s) :
    State.Keeps z (State.spinStep s d) := by
  unfold State.spinStep
  with_reducible repeat' (first
    | assumption | apply forFin_keeps | apply State.wsetS_keeps | apply State.raise_keeps | intro _ | split
    | dsimp only)

theorem State.gougeEvent_keeps {z : State} {s : State} {e : Nat} (hs : State.Keeps z s) :
    State.Keeps z (State.gougeEvent s e) := by
  unfold State.gougeEvent
  with_reducible repeat' (first
    | assumption | apply forFin_keeps | apply State.raise_keeps | apply State.fset_keeps | intro _ | split
    | dsimp only)

theorem State.celEvent_keeps {z : State} {s : State} {op sel at' num from' : Nat} (hs : State.Keeps z s) :
    State.Keeps z (State.celEvent s op sel at' num from') := by
  unfold State.celEvent
  with_reducible repeat' (first
    | assumption | split
    | (apply State.Keeps.upd; first
        | assumption)
    | dsimp only)

theorem State.modTout_keeps {z : State} {s : State} {n : Fin 16} {f : Tout → Tout} (hs : State.Keeps z s) :
    State.Keeps z (State.modTout s n f) := by
  unfold State.modTout
  with_reducible repeat' (first
    | assumption
    | (apply State.Keeps.upd; first
        | assumption))

theorem State.toutDrive_keeps {z : State} {s : State} {n : Fin 16} {b : Bool} {r : Nat} (hs : State.Keeps z s) :
    State.Keeps z (State.toutDrive s n b r) := by
  unfold State.toutDrive
  with_reducible repeat' (first
    | assumption | apply State.setFlag_keeps | apply State.modTout_keeps | apply State.finc_keeps | intro _ | split
    | (apply State.Keeps.upd; first
        | assumption | apply State.setFlag_keeps | apply State.modTout_keeps | apply State.finc_keeps)
    | dsimp only)

theorem State.toutConfig_keeps {z : State} {s : State} {n : Fin 16} {wasEn : Bool} (hs : State.Keeps z s) :
    State.Keeps z (State.toutConfig s n wasEn) := by
  unfold State.toutConfig
  with_reducible repeat' (first
    | assumption | apply State.setFlag_keeps | apply State.modTout_keeps | intro _ | split
    | (apply State.Keeps.upd; first
        | assumption | apply State.setFlag_keeps | apply State.modTout_keeps)
    | dsimp only)

theorem State.toutForce_keeps {z : State} {s : State} {n : Fin 16} {op : Nat} (hs : State.Keeps z s) :
    State.Keeps z (State.toutForce s n op) := by
  unfold State.toutForce
  with_reducible repeat' (first
    | assumption | apply State.toutDrive_keeps | apply State.modTout_keeps | intro _ | split
    | (apply State.Keeps.upd; first
        | assumption | apply State.toutDrive_keeps | apply State.modTout_keeps)
    | dsimp only)

theorem State.toutEdge_keeps {z : State} {s : State} {n : Fin 16} {op r : Nat} (hs : State.Keeps z s) :
    State.Keeps z (State.toutEdge s n op r) := by
  unfold State.toutEdge
  with_reducible repeat' (first
    | assumption | apply State.toutDrive_keeps | apply State.setFlag_keeps | apply State.modTout_keeps
    | apply State.fset_keeps | intro _ | split
    | (apply State.Keeps.upd; first
        | assumption | apply State.toutDrive_keeps | apply State.setFlag_keeps | apply State.modTout_keeps
        | apply State.fset_keeps)
    | dsimp only)

theorem State.rafDrive_keeps {z : State} {s : State} {l : Fin 4} {kind id t : Nat} (hs : State.Keeps z s) :
    State.Keeps z (State.rafDrive s l kind id t) := by
  unfold State.rafDrive
  with_reducible repeat' (first
    | assumption | split
    | (apply State.Keeps.upd; first
        | assumption)
    | dsimp only)

theorem State.rafAwait_keeps {z : State} {s : State} {l : Fin 4} {id t : Nat} (hs : State.Keeps z s) :
    State.Keeps z (State.rafAwait s l id t) := by
  unfold State.rafAwait
  with_reducible repeat' (first
    | assumption
    | (apply State.Keeps.upd; first
        | assumption))

theorem State.rafLaunch_keeps {z : State} {s : State} {l : Fin 4} {kind id t : Nat} (hs : State.Keeps z s) :
    State.Keeps z (State.rafLaunch s l kind id t) := by
  unfold State.rafLaunch
  with_reducible repeat' (first
    | assumption | apply State.rafAwait_keeps | apply State.finc_keeps | apply State.rafDrive_keeps | intro _
    | split
    | (apply State.Keeps.upd; first
        | assumption | apply State.rafAwait_keeps | apply State.finc_keeps | apply State.rafDrive_keeps)
    | dsimp only)

theorem State.rafTrig_keeps {z : State} {s : State} {l : Fin 4} {t : Nat} (hs : State.Keeps z s) :
    State.Keeps z (State.rafTrig s l t) := by
  unfold State.rafTrig
  with_reducible repeat' (first | assumption | apply State.rafLaunch_keeps)

theorem State.rafDeferred_keeps {z : State} {s : State} {l : Fin 4} (hs : State.Keeps z s) :
    State.Keeps z (State.rafDeferred s l) := by
  unfold State.rafDeferred
  with_reducible repeat' (first
    | assumption | apply State.rafDrive_keeps | apply State.rafAwait_keeps | intro _ | split
    | (apply State.Keeps.upd; first
        | assumption | apply State.rafDrive_keeps | apply State.rafAwait_keeps)
    | dsimp only)

theorem State.rafAct_keeps {z : State} {s : State} {a : RafAct} (hs : State.Keeps z s) :
    State.Keeps z (State.rafAct s a) := by
  unfold State.rafAct
  with_reducible repeat' (first
    | assumption | apply State.spinSource_keeps | apply State.gougeEvent_keeps | apply State.celEvent_keeps
    | apply State.fset_keeps | apply State.setFlag_keeps | split | dsimp only)

theorem State.rafActions_keeps {z : State} {s : State} {l : Fin 4} (hs : State.Keeps z s) :
    State.Keeps z (State.rafActions s l) := by
  unfold State.rafActions
  with_reducible repeat' (first
    | assumption | apply forList_keeps | apply State.rafAct_keeps | intro _
    | (apply State.Keeps.upd; first
        | assumption | apply forList_keeps | apply State.rafAct_keeps)
    | dsimp only)

theorem State.rafResult_keeps {z : State} {s : State} {l : Fin 4} {id stamp : Nat} (hs : State.Keeps z s) :
    State.Keeps z (State.rafResult s l id stamp) := by
  unfold State.rafResult
  with_reducible repeat' (first
    | assumption | apply State.fset_keeps | apply State.setFlag_keeps | split
    | (apply State.Keeps.upd; first
        | assumption | apply State.fset_keeps | apply State.setFlag_keeps)
    | dsimp only)

theorem State.rafDecode_keeps {z : State} {s : State} {b : RxBurst} (hs : State.Keeps z s) :
    State.Keeps z (State.rafDecode s b) := by
  unfold State.rafDecode
  with_reducible repeat' (first
    | assumption | apply State.finc_keeps | apply State.rafAct_keeps | apply State.rafResult_keeps | split
    | (apply State.Keeps.upd; first
        | assumption | apply State.finc_keeps | apply State.rafAct_keeps | apply State.rafResult_keeps)
    | dsimp only)

theorem State.rafSettle_keeps {z : State} {s : State} (hs : State.Keeps z s) :
    State.Keeps z (State.rafSettle s) := by
  unfold State.rafSettle
  with_reducible repeat' (first
    | assumption | apply forList_keeps | apply State.rafDecode_keeps | intro _ | split
    | (apply State.Keeps.upd; first
        | assumption | apply forList_keeps | apply State.rafDecode_keeps)
    | dsimp only)

theorem State.rafReceive_keeps {z : State} {s : State} {l : Fin 4} {bits : BitVec 7} {stable : Bool} {ago : Nat}
    (hs : State.Keeps z s) :
    State.Keeps z (State.rafReceive s l bits stable ago) := by
  unfold State.rafReceive
  with_reducible repeat' (first
    | assumption | apply State.rafSettle_keeps | split
    | (apply State.Keeps.upd; first
        | assumption | apply State.rafSettle_keeps)
    | dsimp only)

theorem State.rafRespond_keeps {z : State} {s : State} {l : Fin 4} (hs : State.Keeps z s) :
    State.Keeps z (State.rafRespond s l) := by
  unfold State.rafRespond
  with_reducible repeat' (first
    | assumption | apply State.rafDrive_keeps | intro _ | split
    | (apply State.Keeps.upd; first
        | assumption | apply State.rafDrive_keeps)
    | dsimp only)

theorem State.rafMeasure_keeps {z : State} {s : State} (hs : State.Keeps z s) :
    State.Keeps z (State.rafMeasure s) := by
  unfold State.rafMeasure
  with_reducible repeat' (first
    | assumption | apply State.setFlag_keeps | apply State.rafLaunch_keeps | split | dsimp only)

theorem State.rafTimeout_keeps {z : State} {s : State} (hs : State.Keeps z s) :
    State.Keeps z (State.rafTimeout s) := by
  unfold State.rafTimeout
  with_reducible repeat' (first
    | assumption | apply State.setFlag_keeps | intro _ | split
    | (apply State.Keeps.upd; first
        | assumption | apply State.setFlag_keeps)
    | dsimp only)

theorem State.rafFire_keeps {z : State} {s : State} {lines : Nat} (hs : State.Keeps z s) :
    State.Keeps z (State.rafFire s lines) := by
  unfold State.rafFire
  with_reducible repeat' (first
    | assumption | apply forFin_keeps | apply State.rafTrig_keeps | intro _ | split | dsimp only)

theorem State.setAxState_keeps {z : State} {s : State} {n : Nat} {c : Nat} (hs : State.Keeps z s) :
    State.Keeps z (State.setAxState s n c) := by
  unfold State.setAxState
  with_reducible repeat' (first | assumption | apply State.fset_keeps)

theorem State.axPublish_keeps {z : State} {s : State} {n : Fin 64} (hs : State.Keeps z s) :
    State.Keeps z (State.axPublish s n) := by
  unfold State.axPublish
  with_reducible repeat' (first | assumption | apply State.wsetS_keeps | split | dsimp only)

theorem State.shiftDrop_keeps {z : State} {s : State} {n : Fin 64} (hs : State.Keeps z s) :
    State.Keeps z (State.shiftDrop s n) := by
  unfold State.shiftDrop
  with_reducible repeat' (first
    | assumption | apply State.modAx_keeps | apply State.wsetS_keeps | apply State.setFlag_keeps | intro _
    | (apply State.Keeps.upd; first
        | assumption | apply State.modAx_keeps | apply State.wsetS_keeps | apply State.setFlag_keeps)
    | dsimp only)

theorem State.axSync_keeps {z : State} {s : State} {n : Fin 64} (hs : State.Keeps z s) :
    State.Keeps z (State.axSync s n) := by
  unfold State.axSync
  with_reducible repeat' (first
    | assumption | apply State.shiftDrop_keeps | apply State.modAx_keeps | apply State.setAxState_keeps | intro _
    | (apply State.Keeps.upd; first
        | assumption | apply State.shiftDrop_keeps | apply State.modAx_keeps | apply State.setAxState_keeps)
    | dsimp only)

theorem State.axKeepMaster_keeps {z : State} {s : State} {n : Fin 64} {spin : Fin 16} (hs : State.Keeps z s) :
    State.Keeps z (State.axKeepMaster s n spin) := by
  unfold State.axKeepMaster
  with_reducible repeat' (first
    | assumption | apply State.modAx_keeps | intro _
    | (apply State.Keeps.upd; first
        | assumption | apply State.modAx_keeps)
    | dsimp only)

theorem State.grpAbort_keeps {z : State} {s : State} {leader : Fin 64} (hs : State.Keeps z s) :
    State.Keeps z (State.grpAbort s leader) := by
  unfold State.grpAbort
  with_reducible repeat' (first
    | assumption | apply State.modAx_keeps | apply State.raise_keeps | apply State.fset_keeps
    | exact State.KeepsE.error | apply State.KeepsE.ok | exact State.KeepsP.error | apply State.KeepsP.ok | intro _
    | (apply State.Keeps.upd; first
        | assumption | apply State.modAx_keeps | apply State.raise_keeps | apply State.fset_keeps)
    | dsimp only)

theorem State.grpOff_keeps {z : State} {s : State} {n : Fin 64} (hs : State.Keeps z s) :
    State.Keeps z (State.grpOff s n) := by
  unfold State.grpOff
  with_reducible repeat' (first
    | assumption | apply State.modAx_keeps | exact State.KeepsE.error | apply State.KeepsE.ok
    | exact State.KeepsP.error | apply State.KeepsP.ok | intro _ | split
    | (apply State.Keeps.upd; first
        | assumption | apply State.modAx_keeps)
    | dsimp only)

theorem State.grpLeave_keeps {z : State} {s : State} {n : Fin 64} (hs : State.Keeps z s) :
    State.Keeps z (State.grpLeave s n) := by
  unfold State.grpLeave
  with_reducible repeat' (first | assumption | apply State.grpAbort_keeps | apply State.grpOff_keeps | split)

theorem State.grpPush_keeps {z : State} {s : State} {leader : Fin 64} (hs : State.Keeps z s) :
    State.Keeps z (State.grpPush s leader) := by
  unfold State.grpPush
  with_reducible repeat' (first
    | assumption | apply State.raise_keeps | apply State.modAx_keeps | apply State.fset_keeps
    | exact State.KeepsE.error | apply State.KeepsE.ok | exact State.KeepsP.error | apply State.KeepsP.ok | intro _
    | split
    | (apply State.Keeps.upd; first
        | assumption | apply State.raise_keeps | apply State.modAx_keeps | apply State.fset_keeps)
    | dsimp only)

theorem State.grpPlace_keeps {z : State} {s : State} {g : Segment} {last : Bool} (hs : State.Keeps z s) :
    State.Keeps z (State.grpPlace s g last) := by
  unfold State.grpPlace
  with_reducible repeat' (first
    | assumption | apply forList_keeps | apply State.modAx_keeps | intro _ | split
    | (apply State.Keeps.upd; first
        | assumption | apply forList_keeps | apply State.modAx_keeps)
    | dsimp only)

theorem State.grpTick_keeps {z : State} {s : State} {leader : Fin 64} {T : Rat} (hs : State.Keeps z s) :
    State.Keeps z (State.grpTick s leader T) := by
  unfold State.grpTick
  with_reducible repeat' (first
    | assumption | apply State.modAx_keeps | apply forList_keeps | apply State.grpPlace_keeps
    | apply State.wsetS_keeps | exact State.KeepsE.error | apply State.KeepsE.ok | exact State.KeepsP.error
    | apply State.KeepsP.ok | intro _ | split
    | (apply State.Keeps.upd; first
        | assumption | apply State.modAx_keeps | apply forList_keeps | apply State.grpPlace_keeps
        | apply State.wsetS_keeps)
    | dsimp only)

theorem State.grpShow_keeps {z : State} {s : State} {leader : Fin 64} (hs : State.Keeps z s) :
    State.Keeps z (State.grpShow s leader) := by
  unfold State.grpShow
  with_reducible repeat' (first
    | assumption | apply State.setFlag_keeps | apply State.fset_keeps | intro _ | split | dsimp only)

theorem State.camTurn_keeps {z : State} {s : State} {n : Nat} {c : CamTable} {k : Int} (hs : State.Keeps z s) :
    State.Keeps z (State.camTurn s n c k) := by
  unfold State.camTurn
  with_reducible repeat' (first | assumption | apply State.wsetS_keeps | apply State.fsetS_keeps)

theorem State.camRound_keeps {z : State} {s : State} {n : Nat} {x : Rat} (hs : State.Keeps z s) :
    State.Keeps z (State.camRound s n x).2 := by
  unfold State.camRound
  with_reducible repeat' (first | assumption | apply State.camTurn_keeps | split | dsimp only)

theorem State.camWrap_keeps {z : State} {s : State} {n : Nat} {x : Rat} (hs : State.Keeps z s) :
    State.Keeps z (State.camWrap s n x).2 := by
  unfold State.camWrap
  with_reducible repeat' (first
    | assumption | apply State.camTurn_keeps | apply State.fset_keeps | apply State.camRound_keeps | split
    | dsimp only)

theorem State.shiftTick_keeps {z : State} {s : State} {n : Fin 64} {T : Rat} (hs : State.Keeps z s) :
    State.Keeps z (State.shiftTick s n T).1 := by
  unfold State.shiftTick
  with_reducible repeat' (first
    | assumption | apply State.modAx_keeps | apply State.wsetS_keeps | apply State.setFlag_keeps | intro _
    | (apply State.Keeps.upd; first
        | assumption | apply State.modAx_keeps | apply State.wsetS_keeps | apply State.setFlag_keeps)
    | dsimp only)

theorem State.shiftPause_keeps {z : State} {s : State} {n : Fin 64} (hs : State.Keeps z s) :
    State.Keeps z (State.shiftPause s n) := by
  unfold State.shiftPause
  with_reducible repeat' (first
    | assumption | apply State.modAx_keeps | intro _
    | (apply State.Keeps.upd; first
        | assumption | apply State.modAx_keeps)
    | dsimp only)

theorem State.shiftKeep_keeps {z : State} {s : State} {n : Fin 64} (hs : State.Keeps z s) :
    State.Keeps z (State.shiftKeep s n) := by
  unfold State.shiftKeep
  with_reducible repeat' (first
    | assumption | apply State.modAx_keeps | intro _
    | (apply State.Keeps.upd; first
        | assumption | apply State.modAx_keeps)
    | dsimp only)

theorem State.axBrake_keeps {z : State} {s : State} {n : Fin 64} {hard : Bool} (hs : State.Keeps z s) :
    State.Keeps z (State.axBrake s n hard) := by
  unfold State.axBrake
  with_reducible repeat' (first
    | assumption | apply State.shiftDrop_keeps | apply State.modAx_keeps | apply State.setAxState_keeps | intro _
    | (apply State.Keeps.upd; first
        | assumption | apply State.shiftDrop_keeps | apply State.modAx_keeps | apply State.setAxState_keeps)
    | dsimp only)

theorem State.axVlim_keeps {z : State} {s : State} {n : Fin 64} (hs : State.Keeps z s) :
    State.Keeps z (State.axVlim s n) := by
  unfold State.axVlim
  with_reducible repeat' (first | assumption | apply State.raise_keeps | split | dsimp only)

theorem State.gearStep_keeps {z : State} {s : State} {n : Fin 64} {spin : Fin 16} {dm : Rat} {first paused : Bool}
    {T : Rat} (hs : State.Keeps z s) :
    State.Keeps z (State.gearStep s n spin dm first paused T) := by
  unfold State.gearStep
  with_reducible repeat' (first
    | assumption | apply State.modAx_keeps | apply State.shiftPause_keeps | apply State.shiftTick_keeps
    | apply State.setFlag_keeps | apply State.wsetS_keeps | apply State.shiftDrop_keeps
    | apply State.setAxState_keeps | apply State.axVlim_keeps | intro _ | split
    | (apply State.Keeps.upd; first
        | assumption | apply State.modAx_keeps | apply State.shiftPause_keeps | apply State.shiftTick_keeps
        | apply State.setFlag_keeps | apply State.wsetS_keeps | apply State.shiftDrop_keeps
        | apply State.setAxState_keeps | apply State.axVlim_keeps)
    | dsimp only)

theorem State.camStep_keeps {z : State} {s : State} {n : Fin 64} {spin : Fin 16} {dm : Rat} {first paused : Bool}
    {T : Rat} (hs : State.Keeps z s) :
    State.Keeps z (State.camStep s n spin dm first paused T) := by
  unfold State.camStep
  with_reducible repeat' (first
    | assumption | apply State.camWrap_keeps | apply State.wsetS_keeps | apply State.shiftPause_keeps
    | apply State.shiftTick_keeps | apply State.modAx_keeps | apply State.setFlag_keeps | apply State.axVlim_keeps
    | intro _ | split
    | (apply State.Keeps.upd; first
        | assumption | apply State.camWrap_keeps | apply State.wsetS_keeps | apply State.shiftPause_keeps
        | apply State.shiftTick_keeps | apply State.modAx_keeps | apply State.setFlag_keeps
        | apply State.axVlim_keeps)
    | dsimp only)

theorem State.plainLaw_keeps {z : State} {s : State} {n : Fin 64} {law : Nat} {T : Rat} (hs : State.Keeps z s) :
    State.Keeps z (State.plainLaw s n law T).1 := by
  unfold State.plainLaw
  with_reducible repeat' (first
    | assumption | apply State.modAx_keeps | apply State.setFlag_keeps | intro _ | split
    | (apply State.Keeps.upd; first
        | assumption | apply State.modAx_keeps | apply State.setFlag_keeps)
    | dsimp only)

theorem State.axCommand_keeps {z : State} {s : State} {n : Fin 64} {op : Nat} (hs : State.Keeps z s) :
    State.Keeps z (State.axCommand s n op) := by
  unfold State.axCommand
  with_reducible repeat' (first
    | assumption | apply State.grpOff_keeps | apply State.grpAbort_keeps | apply State.grpLeave_keeps
    | apply State.shiftKeep_keeps | apply State.shiftDrop_keeps | apply State.setAxState_keeps
    | apply State.axSync_keeps | apply State.modAx_keeps | apply State.axBrake_keeps | intro _ | split
    | (apply State.Keeps.upd; first
        | assumption | apply State.grpOff_keeps | apply State.grpAbort_keeps | apply State.grpLeave_keeps
        | apply State.shiftKeep_keeps | apply State.shiftDrop_keeps | apply State.setAxState_keeps
        | apply State.axSync_keeps | apply State.modAx_keeps | apply State.axBrake_keeps)
    | dsimp only)

theorem State.masterLost_keeps {z : State} {s : State} {n : Fin 64} {T : Rat} (hs : State.Keeps z s) :
    State.Keeps z (State.masterLost s n T) := by
  unfold State.masterLost
  with_reducible repeat' (first
    | assumption | apply State.grpLeave_keeps | apply State.raise_keeps | apply State.axBrake_keeps
    | apply State.plainLaw_keeps)

theorem State.gearWaits_keeps {z : State} {s : State} {n : Fin 64} {law : Nat} {T : Rat} (hs : State.Keeps z s) :
    State.Keeps z (State.gearWaits s n law T) := by
  unfold State.gearWaits
  with_reducible repeat' (first
    | assumption | apply State.gearStep_keeps | apply State.masterLost_keeps | apply State.camStep_keeps
    | apply State.plainLaw_keeps | apply State.modAx_keeps | intro _ | split
    | (apply State.Keeps.upd; first
        | assumption | apply State.gearStep_keeps | apply State.masterLost_keeps | apply State.camStep_keeps
        | apply State.plainLaw_keeps | apply State.modAx_keeps)
    | dsimp only)

theorem State.axLaw_keeps {z : State} {s : State} {n : Fin 64} {T : Rat} (hs : State.Keeps z s) :
    State.Keeps z (State.axLaw s n T) := by
  unfold State.axLaw
  with_reducible repeat' (first
    | assumption | apply State.masterLost_keeps | apply State.modAx_keeps | apply State.gearStep_keeps
    | apply State.axKeepMaster_keeps | apply State.grpOff_keeps | apply State.gearWaits_keeps
    | apply State.camStep_keeps | apply State.plainLaw_keeps | apply State.setAxState_keeps | intro _ | split
    | (apply State.Keeps.upd; first
        | assumption | apply State.masterLost_keeps | apply State.modAx_keeps | apply State.gearStep_keeps
        | apply State.axKeepMaster_keeps | apply State.grpOff_keeps | apply State.gearWaits_keeps
        | apply State.camStep_keeps | apply State.plainLaw_keeps | apply State.setAxState_keeps)
    | dsimp only)

theorem State.atticQueue_keeps {z : State} {s : State} {r : AtticRec} (hs : State.Keeps z s) :
    State.Keeps z (State.atticQueue s r) := by
  unfold State.atticQueue
  with_reducible repeat' (first
    | assumption | apply State.finc_keeps | apply State.fset_keeps | split
    | (apply State.Keeps.upd; first
        | assumption | apply State.finc_keeps | apply State.fset_keeps)
    | dsimp only)

theorem State.atticUrgent_keeps {z : State} {s : State} {r : AtticRec} (hs : State.Keeps z s) :
    State.Keeps z (State.atticUrgent s r) := by
  unfold State.atticUrgent
  with_reducible repeat' (first
    | assumption | apply State.finc_keeps | split
    | (apply State.Keeps.upd; first
        | assumption | apply State.finc_keeps))

theorem State.countFault_keeps {z : State} {s : State} {cls : Nat} (hs : State.Keeps z s) :
    State.Keeps z (State.countFault s cls) := by
  unfold State.countFault
  with_reducible repeat' (first | assumption | apply State.finc_keeps | apply State.raiseBits_keeps)

theorem State.raiseFault_keeps {z : State} {s : State} {cls src inst detail : Nat} {data : List Nat}
    (hs : State.Keeps z s) :
    State.Keeps z (State.raiseFault s cls src inst detail data) := by
  unfold State.raiseFault
  with_reducible repeat' (first
    | assumption | apply State.countFault_keeps | apply State.fset_keeps | apply State.gougeEvent_keeps
    | apply State.atticUrgent_keeps | apply State.atticQueue_keeps | split | dsimp only)

theorem State.atticPut_keeps {z : State} {s : State} {bs : List Nat} (hs : State.Keeps z s) :
    State.Keeps z (State.atticPut s bs) := by
  unfold State.atticPut
  with_reducible repeat' (first
    | assumption | apply State.fset_keeps | apply State.writeBytes_keeps
    | (apply State.Keeps.upd; first
        | assumption | apply State.fset_keeps)
    | dsimp only)

theorem State.atticTry_keeps {z : State} {bs : List Nat} (l : List (List Nat)) : ∀ {s : State}, State.Keeps z s →
    State.Keeps z (State.atticTry s bs l) := by
  induction l with
  | nil => intro s hs; exact State.atticPut_keeps hs
  | cons x l ih =>
    intro s hs
    unfold State.atticTry
    split
    · exact State.atticPut_keeps hs
    · exact ih (State.raise_keeps (State.atticPut_keeps hs))

theorem State.atticWrite_keeps {z : State} {s : State} {r : AtticRec} {slots : List (List Nat)} (hs : State.Keeps z s) :
    State.Keeps z (State.atticWrite s r slots) := by
  unfold State.atticWrite
  with_reducible repeat' (first
    | assumption | apply State.atticTry_keeps | apply State.wset_keeps | split | dsimp only)

theorem State.atticCommit_keeps {z : State} {s : State} {slots : List (List Nat)} (hs : State.Keeps z s) :
    State.Keeps z (State.atticCommit s slots) := by
  unfold State.atticCommit
  with_reducible repeat' (first
    | assumption | apply State.atticWrite_keeps | apply State.fset_keeps | split
    | (apply State.Keeps.upd; first
        | assumption | apply State.atticWrite_keeps | apply State.fset_keeps)
    | dsimp only)

theorem State.atticCut_keeps {z : State} {s : State} (hs : State.Keeps z s) :
    State.Keeps z (State.atticCut s) := by
  unfold State.atticCut
  split
  · exact hs
  · split
    · exact hs
    · dsimp only
      refine (State.takeFree_keeps hs).memory (fun x => ?_) rfl rfl rfl rfl rfl rfl rfl
      exact List.foldlRecOn (motive := fun m => Memory.wf m = true) _ _ x (fun m hm i _ => Memory.writeBytes_wf hm _ _)

theorem State.atticScan_keeps {z : State} {s : State} (hs : State.Keeps z s) :
    State.Keeps z (State.atticScan s) := by
  unfold State.atticScan
  with_reducible repeat' (first
    | assumption | apply State.clear_keeps | apply State.fset_keeps | apply State.wset_keeps
    | apply State.setFlag_keeps | exact State.KeepsE.error | apply State.KeepsE.ok | exact State.KeepsP.error
    | apply State.KeepsP.ok | apply foldl_keeps | intro _ | split
    | (apply State.Keeps.upd; first
        | assumption | apply State.clear_keeps | apply State.fset_keeps | apply State.wset_keeps
        | apply State.setFlag_keeps)
    | dsimp only)

theorem State.atticUser_keeps {z : State} {s : State} {inst detail : Nat} (hs : State.Keeps z s) :
    State.Keeps z (State.atticUser s inst detail) := by
  unfold State.atticUser
  with_reducible repeat' (first
    | assumption | apply State.raiseFault_keeps | exact State.KeepsE.error | apply State.KeepsE.ok
    | exact State.KeepsP.error | apply State.KeepsP.ok | intro _ | dsimp only)

theorem State.atticClear_keeps {z : State} {s : State} {key : Nat} {go : Bool} (hs : State.Keeps z s) :
    State.Keeps z (State.atticClear s key go) := by
  unfold State.atticClear
  with_reducible repeat' (first | assumption | apply State.raiseFault_keeps | split)

theorem State.violCapture_keeps {z : State} {s : State} {m : Master} {k : Viol} {a : Nat} (hs : State.Keeps z s) :
    State.Keeps z (State.violCapture s m k a) := by
  unfold State.violCapture
  with_reducible repeat' (first
    | assumption | apply State.fset_keeps | apply State.setFlag_keeps | apply State.raise_keeps | dsimp only)

theorem State.violRequeue_keeps {z : State} {s : State} {old : Nat} {m : Master} {k : Viol} {a : Nat}
    (hs : State.Keeps z s) :
    State.Keeps z (State.violRequeue s old m k a) := by
  unfold State.violRequeue
  with_reducible repeat' (first
    | assumption | apply State.fset_keeps | exact State.KeepsE.error | apply State.KeepsE.ok
    | exact State.KeepsP.error | apply State.KeepsP.ok | intro _ | split
    | (apply State.Keeps.upd; first
        | assumption | apply State.fset_keeps)
    | dsimp only)

theorem State.violate_keeps {z : State} {s : State} {m : Master} {k : Viol} {a : Nat} (hs : State.Keeps z s) :
    State.Keeps z (State.violate s m k a) := by
  unfold State.violate
  with_reducible repeat' (first
    | assumption | apply State.finc_keeps | apply State.raise_keeps | apply State.violCapture_keeps
    | apply State.violRequeue_keeps | apply State.raiseFault_keeps | split
    | (apply State.Keeps.upd; first
        | assumption | apply State.finc_keeps | apply State.raise_keeps | apply State.violCapture_keeps
        | apply State.violRequeue_keeps | apply State.raiseFault_keeps)
    | dsimp only)

theorem State.region_keeps {z : State} {s : State} {a : Nat} (hs : State.Keeps z s) :
    State.Keeps z (State.region s a).2 := by
  unfold State.region
  with_reducible repeat' (first
    | assumption | apply State.takeFree_keeps | split
    | (apply State.Keeps.upd; first
        | assumption | apply State.takeFree_keeps)
    | dsimp only)

theorem State.lodge_keeps {z : State} {s : State} {m : Master} {write : Bool} {a : Nat} (hs : State.Keeps z s) :
    State.Keeps z (State.lodge s m write a).2 := by
  unfold State.lodge
  split
  · exact hs
  · dsimp only
    have hr : ∀ c, State.Keeps z { s with freeCtr := c } := fun c => State.Keeps.upd hs
    repeat' split
    all_goals first
      | exact State.violate_keeps (hr _)
      | exact hr _

theorem State.readAs_keeps {z : State} {s : State} {m : Master} {a k : Nat} (hs : State.Keeps z s) :
    State.Keeps z (State.readAs s m a k).2 := by
  unfold State.readAs
  with_reducible repeat' (first | assumption | apply State.lodge_keeps | split | dsimp only)

theorem State.writeAs_keeps {z : State} {s : State} {m : Master} {a : Nat} {f : State → State} (hs : State.Keeps z s)
    (hf : ∀ t, State.Keeps z t → State.Keeps z (f t)) : State.Keeps z (s.writeAs m a f) :=
  State.Keeps.ite (hf _ (State.lodge_keeps hs)) (State.lodge_keeps hs)

theorem State.entryRead_keeps {z : State} {s : State} {slot : Nat} (hs : State.Keeps z s) :
    State.Keeps z (State.entryRead s slot).2 := by
  unfold State.entryRead
  with_reducible repeat' (first | assumption | apply State.lodge_keeps | split | dsimp only)

theorem State.entryBack_keeps {z : State} {s : State} {slot pos rep : Nat} {armed : Bool} (hs : State.Keeps z s) :
    State.Keeps z (State.entryBack s slot pos rep armed) := by
  unfold State.entryBack
  with_reducible repeat' (first
    | assumption | apply State.writeAs_keeps | apply State.writeN_keeps | apply State.setMem32_keeps | intro _
    | dsimp only)

theorem State.ledDone_keeps {z : State} {s : State} {r : DoneRec} (hs : State.Keeps z s) :
    State.Keeps z (State.ledDone s r) := by
  unfold State.ledDone
  with_reducible repeat' (first
    | assumption | apply State.raise_keeps | split
    | (apply State.Keeps.upd; first
        | assumption | apply State.raise_keeps))

theorem State.ledPop_keeps {z : State} {s : State} (hs : State.Keeps z s) :
    State.Keeps z (State.ledPop s) := by
  unfold State.ledPop
  with_reducible repeat' (first
    | assumption
    | (apply State.Keeps.upd; first
        | assumption))

theorem State.ledAct_keeps {z : State} {s : State} {e : Entry} {r : Nat} (hs : State.Keeps z s) :
    State.Keeps z (State.ledAct s e r) := by
  unfold State.ledAct
  with_reducible repeat' (first
    | assumption | apply State.toutEdge_keeps | apply State.gougeEvent_keeps | apply State.rafTrig_keeps
    | apply State.celEvent_keeps | split
    | (apply State.Keeps.upd; first
        | assumption | apply State.toutEdge_keeps | apply State.gougeEvent_keeps | apply State.rafTrig_keeps
        | apply State.celEvent_keeps)
    | dsimp only)

theorem State.predictTarget_keeps {z : State} {s : State} {n : Fin 16} {t : Target} {fresh : Bool}
    (hs : State.Keeps z s) :
    State.Keeps z (State.predictTarget s n t fresh).2 := by
  unfold State.predictTarget
  with_reducible repeat' (first
    | assumption | apply State.finc_keeps | intro _ | split
    | (apply State.Keeps.upd; first
        | assumption | apply State.finc_keeps)
    | dsimp only)

theorem State.dropArmed_keeps {z : State} {s : State} {slot : Nat} (hs : State.Keeps z s) :
    State.Keeps z (State.dropArmed s slot) := by
  unfold State.dropArmed
  with_reducible repeat' (first
    | assumption | intro _
    | (apply State.Keeps.upd; first
        | assumption)
    | dsimp only)

theorem State.ledRetire_keeps {z : State} {s : State} {lane slot : Nat} {e : Entry} {code stamp : Nat} {pos rep : Nat}
    (hs : State.Keeps z s) :
    State.Keeps z (State.ledRetire s lane slot e code stamp pos rep) := by
  unfold State.ledRetire
  with_reducible repeat' (first
    | assumption | apply State.dropArmed_keeps | apply State.entryBack_keeps | apply State.ledDone_keeps | split
    | dsimp only)

theorem State.spinFire_keeps {z : State} {n : Fin 16} {slot : Nat} {fwd : Bool} (fuel : Nat) :
    ∀ {s : State} {e : Entry} {p : Int} {code r : Nat} {keep : List (Nat × Bool)}, State.Keeps z s →
      State.Keeps z (s.spinFire n slot e p fwd code r keep fuel) := by
  induction fuel with
  | zero => intro s e p code r keep hs; exact hs
  | succ k ih =>
    intro s e p code r keep hs
    unfold State.spinFire
    extract_lets stamp s1 s2 rep s3 ts pos' e' s4 late preds s5 a
    have h2 : State.Keeps z s2 := State.Keeps.ite (State.finc_keeps (State.ledAct_keeps hs)) (State.ledAct_keeps hs)
    have h4 : State.Keeps z s4 := State.entryBack_keeps (State.Keeps.ite (State.ledDone_keeps h2) h2)
    have h5 : ∀ (l : List Target) (u : List Target × State), State.Keeps z u.2 → State.Keeps z (l.foldl (fun (acc :
        List Target × State) t => if t.due.isEmpty then
          let q := acc.2.predictTarget n t false
          (acc.1 ++ [q.1], q.2)
        else (acc.1 ++ [t], acc.2)) u).2 := by
      intro l
      induction l with
      | nil => intro u hu; exact hu
      | cons t l ih2 =>
        intro u hu
        refine ih2 _ ?_
        dsimp only
        split
        · exact State.predictTarget_keeps hu
        · exact hu
    exact State.Keeps.ite (State.ledRetire_keeps h2) (State.Keeps.ite (ih h4) (State.Keeps.upd
      (State.dropArmed_keeps (h5 _ _ h4))))

theorem State.evalArm_keeps {z : State} {s : State} {n : Fin 16} {a : Armed} (hs : State.Keeps z s) :
    State.Keeps z (State.evalArm s n a) := by
  unfold State.evalArm
  dsimp only
  split
  · split
    · exact State.spinFire_keeps _ hs
    · apply State.Keeps.upd; exact State.predictTarget_keeps hs
  · apply State.Keeps.upd; exact State.predictTarget_keeps hs

theorem State.lclkFire_keeps {z : State} {s : State} {slot : Nat} {e : Entry} {late : Bool} (hs : State.Keeps z s) :
    State.Keeps z (State.lclkFire s slot e late) := by
  unfold State.lclkFire
  with_reducible repeat' (first
    | assumption | apply State.ledAct_keeps | apply State.finc_keeps | apply State.ledRetire_keeps
    | apply State.ledDone_keeps | apply State.entryBack_keeps | apply State.dropArmed_keeps | split
    | (apply State.Keeps.upd; first
        | assumption | apply State.ledAct_keeps | apply State.finc_keeps | apply State.ledRetire_keeps
        | apply State.ledDone_keeps | apply State.entryBack_keeps | apply State.dropArmed_keeps)
    | dsimp only)

theorem State.lclkLate_keeps {z : State} {s : State} {strict : Bool} (hs : State.Keeps z s) :
    State.Keeps z (State.lclkLate s strict) := by
  unfold State.lclkLate
  with_reducible repeat' (first
    | assumption | apply forList_keeps | apply State.lclkFire_keeps | intro _ | split | dsimp only)

theorem State.ledArm_keeps {z : State} {s0 : State} {lane slot : Nat} (hs0 : State.Keeps z s0) :
    State.Keeps z (State.ledArm s0 lane slot) := by
  unfold State.ledArm
  with_reducible repeat' (first
    | assumption | apply State.finc_keeps | apply State.entryRead_keeps | apply State.ledDone_keeps
    | apply State.entryBack_keeps | apply State.lclkFire_keeps | apply State.evalArm_keeps | split
    | (apply State.Keeps.upd; first
        | assumption | apply State.finc_keeps | apply State.entryRead_keeps | apply State.ledDone_keeps
        | apply State.entryBack_keeps | apply State.lclkFire_keeps | apply State.evalArm_keeps)
    | dsimp only)

theorem State.ledCancel_keeps {z : State} {s : State} {slot : Nat} (hs : State.Keeps z s) :
    State.Keeps z (State.ledCancel s slot) := by
  unfold State.ledCancel
  with_reducible repeat' (first
    | assumption | apply State.finc_keeps | apply State.ledRetire_keeps | split
    | (apply State.Keeps.upd; first
        | assumption | apply State.finc_keeps | apply State.ledRetire_keeps)
    | dsimp only)

theorem State.ledServe_keeps {z : State} (os : List LedOp) : ∀ {s : State}, State.Keeps z s →
    State.Keeps z (s.ledServe os) := by
  induction os with
  | nil => intro s hs; exact hs
  | cons o os ih =>
    intro s hs
    unfold State.ledServe
    refine State.Keeps.ite (State.Keeps.upd hs) (ih (State.Keeps.ite ?_ ?_))
    · exact State.ledCancel_keeps (State.Keeps.upd hs)
    · exact State.ledArm_keeps (State.Keeps.upd hs)

theorem State.ledSettle_keeps {z : State} {s : State} (hs : State.Keeps z s) :
    State.Keeps z (State.ledSettle s) := by
  unfold State.ledSettle
  with_reducible repeat' (first | assumption | apply State.ledServe_keeps | split)

/-- Beyond the passing of time a wait keeps what every command keeps. -/
theorem State.wait_keeps (s : State) (dt : Nat) : State.Keeps (s.elapse dt) (s.wait dt) :=
  State.ledSettle_keeps (State.rafSettle_keeps (State.Keeps.refl _))

theorem State.ledSubmit_keeps {z : State} {s : State} {cancel : Bool} {lane slot : Nat} (hs : State.Keeps z s) :
    State.Keeps z (State.ledSubmit s cancel lane slot) := by
  unfold State.ledSubmit
  with_reducible repeat' (first
    | assumption | apply State.ledSettle_keeps | split
    | (apply State.Keeps.upd; first
        | assumption | apply State.ledSettle_keeps)
    | dsimp only)

theorem State.ledFireNow_keeps {z : State} {s : State} {n : Fin 16} {slot : Nat} (hs : State.Keeps z s) :
    State.Keeps z (State.ledFireNow s n slot) := by
  unfold State.ledFireNow
  split
  · exact hs
  · split
    · exact hs
    · dsimp only
      split
      · exact hs
      · exact State.spinFire_keeps _ hs

theorem State.ledLclkFireNow_keeps {z : State} {s : State} {slot : Nat} (hs : State.Keeps z s) :
    State.Keeps z (State.ledLclkFireNow s slot) := by
  unfold State.ledLclkFireNow
  with_reducible repeat' (first
    | assumption | apply State.lclkFire_keeps | split
    | (apply State.Keeps.upd; first
        | assumption | apply State.lclkFire_keeps)
    | dsimp only)

theorem State.ledPause_keeps {z : State} {s : State} {p : Nat → Bool} (hs : State.Keeps z s) :
    State.Keeps z (State.ledPause s p) := by
  unfold State.ledPause
  with_reducible repeat' (first
    | assumption | exact State.KeepsE.error | apply State.KeepsE.ok | exact State.KeepsP.error
    | apply State.KeepsP.ok | intro _ | split
    | (apply State.Keeps.upd; first
        | assumption)
    | dsimp only)

theorem State.compareEntry_keeps {z : State} {s : State} {n : Fin 16} {prev cur : Int} {code : Nat} {a : Armed}
    (hs : State.Keeps z s) :
    State.Keeps z (State.compareEntry s n prev cur code a) := by
  unfold State.compareEntry
  dsimp only
  split
  · exact State.spinFire_keeps _ hs
  · exact State.Keeps.upd hs

theorem State.predictLane_keeps {z : State} {s : State} {n : Fin 16} (hs : State.Keeps z s) :
    State.Keeps z (State.predictLane s n) := by
  unfold State.predictLane
  refine forList_keeps hs ?_
  intro a t ht
  apply State.Keeps.upd
  have h5 : ∀ (ts : List Target) (u : List Target × State), State.Keeps z u.2 → State.Keeps z (ts.foldl (fun (acc :
      List Target × State) x => (acc.1 ++ [(acc.2.predictTarget n x true).1], (acc.2.predictTarget n x true).2)) u).2 := by
    intro ts
    induction ts with
    | nil => intro u hu; exact hu
    | cons t ts ih2 => intro u hu; exact ih2 _ (State.predictTarget_keeps hu)
  exact h5 _ _ ht

theorem State.newBasis_keeps {z : State} {s : State} {n : Fin 16} {snap : SpinSnap} (hs : State.Keeps z s) :
    State.Keeps z (State.newBasis s n snap) := by
  unfold State.newBasis
  with_reducible repeat' (first
    | assumption
    | (apply State.Keeps.upd; first
        | assumption)
    | dsimp only)

theorem State.laneEntries_keeps {z : State} {s : State} {n : Fin 16} {snap : SpinSnap} {prev : Int} {code : Nat}
    (hs : State.Keeps z s) :
    State.Keeps z (State.laneEntries s n snap prev code) := by
  unfold State.laneEntries
  with_reducible repeat' (first
    | assumption | apply forList_keeps | apply State.evalArm_keeps | apply State.compareEntry_keeps
    | apply State.predictLane_keeps | intro _ | split
    | (apply State.Keeps.upd; first
        | assumption | apply forList_keeps | apply State.evalArm_keeps | apply State.compareEntry_keeps
        | apply State.predictLane_keeps)
    | dsimp only)

theorem State.ledLaneTick_keeps {z : State} {s : State} {n : Fin 16} {snap : SpinSnap} {fpTick : Bool}
    (hs : State.Keeps z s) :
    State.Keeps z (State.ledLaneTick s n snap fpTick) := by
  unfold State.ledLaneTick
  with_reducible repeat' (first
    | assumption | apply State.newBasis_keeps | apply State.laneEntries_keeps | split
    | (apply State.Keeps.upd; first
        | assumption | apply State.newBasis_keeps | apply State.laneEntries_keeps)
    | dsimp only)

theorem State.ledTick_keeps {z : State} {s : State} {nextAt : Nat} {fpTick : Bool} (hs : State.Keeps z s) :
    State.Keeps z (State.ledTick s nextAt fpTick) := by
  unfold State.ledTick
  with_reducible repeat' (first
    | assumption | apply forFin_keeps | apply State.ledLaneTick_keeps | intro _
    | (apply State.Keeps.upd; first
        | assumption | apply forFin_keeps | apply State.ledLaneTick_keeps)
    | dsimp only)

theorem State.markEdge_keeps {z : State} {s : State} {n : Fin 16} {rise : Bool} (hs : State.Keeps z s) :
    State.Keeps z (State.markEdge s n rise) := by
  unfold State.markEdge
  with_reducible repeat' (first
    | assumption | apply State.setFlag_keeps | apply State.modMark_keeps | apply State.celEvent_keeps
    | apply State.finc_keeps | apply State.raise_keeps | intro _ | split
    | (apply State.Keeps.upd; first
        | assumption | apply State.setFlag_keeps | apply State.modMark_keeps | apply State.celEvent_keeps
        | apply State.finc_keeps | apply State.raise_keeps)
    | dsimp only)

theorem State.markPop_keeps {z : State} {s : State} {n : Fin 16} (hs : State.Keeps z s) :
    State.Keeps z (State.markPop s n) := by
  unfold State.markPop
  with_reducible repeat' (first
    | assumption | apply State.modMark_keeps | intro _
    | (apply State.Keeps.upd; first
        | assumption | apply State.modMark_keeps)
    | dsimp only)

theorem State.blPut_keeps {z : State} {s : State} {l : Fin 16} {at' : Nat} {syms : List Sym} (hs : State.Keeps z s) :
    State.Keeps z (State.blPut s l at' syms) := by
  unfold State.blPut
  with_reducible repeat' (first
    | assumption | apply State.modBl_keeps | intro _ | split
    | (apply State.Keeps.upd; first
        | assumption | apply State.modBl_keeps)
    | dsimp only)

theorem State.blPutSync_keeps {z : State} {s : State} {l : Fin 16} {at' fine : Nat} (hs : State.Keeps z s) :
    State.Keeps z (State.blPutSync s l at' fine) := by
  unfold State.blPutSync
  with_reducible repeat' (first
    | assumption | apply State.blPut_keeps | apply State.modBl_keeps | intro _
    | (apply State.Keeps.upd; first
        | assumption | apply State.blPut_keeps | apply State.modBl_keeps)
    | dsimp only)

theorem State.blGoff_keeps {z : State} {s : State} {l : Fin 16} (hs : State.Keeps z s) :
    State.Keeps z (State.blGoff s l) := by
  unfold State.blGoff
  with_reducible repeat' (first
    | assumption | apply State.modBl_keeps | apply State.blPut_keeps | apply State.blPutSync_keeps | intro _ | split
    | (apply State.Keeps.upd; first
        | assumption | apply State.modBl_keeps | apply State.blPut_keeps | apply State.blPutSync_keeps)
    | dsimp only)

theorem State.gateUpdate_keeps {z : State} {s : State} (hs : State.Keeps z s) :
    State.Keeps z (State.gateUpdate s) := by
  unfold State.gateUpdate
  with_reducible repeat' (first
    | assumption | apply forFin_keeps | apply State.setFlag_keeps | apply State.blGoff_keeps | intro _ | split
    | dsimp only)

theorem State.stpSettle_keeps {z : State} {s : State} {n : Fin 64} {o : Fin 16} (hs : State.Keeps z s) :
    State.Keeps z (State.stpSettle s n o) := by
  unfold State.stpSettle
  with_reducible repeat' (first
    | assumption | apply State.forward_keeps | apply State.fset_keeps | apply State.wsetS_keeps
    | apply State.modFld_keeps | intro _ | split
    | (apply State.Keeps.upd; first
        | assumption | apply State.forward_keeps | apply State.fset_keeps | apply State.wsetS_keeps
        | apply State.modFld_keeps)
    | dsimp only)

theorem State.removeTorque_keeps {z : State} {s : State} {n : Fin 64} (hs : State.Keeps z s) :
    State.Keeps z (State.removeTorque s n) := by
  unfold State.removeTorque
  with_reducible repeat' (first
    | assumption | apply State.setFlag_keeps | apply State.fset_keeps | apply State.modLp_keeps
    | apply State.react_keeps | apply State.modFld_keeps | apply State.modAx_keeps | apply State.stpSettle_keeps
    | intro _ | split
    | (apply State.Keeps.upd; first
        | assumption | apply State.setFlag_keeps | apply State.fset_keeps | apply State.modLp_keeps
        | apply State.react_keeps | apply State.modFld_keeps | apply State.modAx_keeps | apply State.stpSettle_keeps)
    | dsimp only)

theorem State.react_keeps {z : State} {s : State} {n : Fin 64} {code : Nat} (hs : State.Keeps z s) :
    State.Keeps z (State.react s n code) := by
  unfold State.react
  with_reducible repeat' (first
    | assumption | apply State.modLp_keeps | apply State.grpLeave_keeps | apply State.modAx_keeps
    | apply State.fset_keeps | apply State.modFld_keeps | apply State.removeTorque_keeps | intro _ | split
    | (apply State.Keeps.upd; first
        | assumption | apply State.modLp_keeps | apply State.grpLeave_keeps | apply State.modAx_keeps
        | apply State.fset_keeps | apply State.modFld_keeps | apply State.removeTorque_keeps)
    | dsimp only)

theorem State.firstCause_keeps {z : State} {s : State} {n : Fin 64} {cause : Nat} (hs : State.Keeps z s) :
    State.Keeps z (State.firstCause s n cause) := by
  unfold State.firstCause
  with_reducible repeat' (first | assumption | apply State.fset_keeps | split)

theorem State.axisCause_keeps {z : State} {s : State} {n : Fin 64} {cause code : Nat} (hs : State.Keeps z s) :
    State.Keeps z (State.axisCause s n cause code) := by
  unfold State.axisCause
  with_reducible repeat' (first
    | assumption | apply State.raiseBits_keeps | apply State.firstCause_keeps | apply State.setFlag_keeps
    | apply State.fset_keeps | apply State.modLp_keeps | apply State.raiseFault_keeps | apply State.react_keeps
    | intro _ | split
    | (apply State.Keeps.upd; first
        | assumption | apply State.raiseBits_keeps | apply State.firstCause_keeps | apply State.setFlag_keeps
        | apply State.fset_keeps | apply State.modLp_keeps | apply State.raiseFault_keeps | apply State.react_keeps)
    | dsimp only)

theorem State.axisFault_keeps {z : State} {s : State} {n : Fin 64} {cause : Nat} (hs : State.Keeps z s) :
    State.Keeps z (State.axisFault s n cause) := by
  unfold State.axisFault
  with_reducible repeat' (first | assumption | apply State.axisCause_keeps)

theorem State.feedbackFault_keeps {z : State} {s : State} {n : Fin 64} {ch : Nat} (hs : State.Keeps z s) :
    State.Keeps z (State.feedbackFault s n ch) := by
  unfold State.feedbackFault
  with_reducible repeat' (first | assumption | apply State.axisCause_keeps | split | dsimp only)

theorem State.faultRelease_keeps {z : State} {s : State} {n : Fin 64} (hs : State.Keeps z s) :
    State.Keeps z (State.faultRelease s n) := by
  unfold State.faultRelease
  with_reducible repeat' (first
    | assumption | apply State.setFlag_keeps | apply State.modLp_keeps | apply State.react_keeps
    | apply State.fset_keeps | intro _ | split
    | (apply State.Keeps.upd; first
        | assumption | apply State.setFlag_keeps | apply State.modLp_keeps | apply State.react_keeps
        | apply State.fset_keeps)
    | dsimp only)

theorem State.skewConfig_keeps {z : State} {s : State} (hs : State.Keeps z s) :
    State.Keeps z (State.skewConfig s) := by
  unfold State.skewConfig
  with_reducible repeat' (first
    | assumption | apply forFin_keeps | apply State.modBar_keeps | apply State.fset_keeps | intro _ | split
    | (apply State.Keeps.upd; first
        | assumption | apply forFin_keeps | apply State.modBar_keeps | apply State.fset_keeps)
    | dsimp only)

theorem State.raiseF3_keeps {z : State} {s : State} {src inst detail : Nat} {data : List Nat} (hs : State.Keeps z s) :
    State.Keeps z (State.raiseF3 s src inst detail data) := by
  unfold State.raiseF3
  with_reducible repeat' (first
    | assumption | apply State.raiseFault_keeps | apply State.setFlag_keeps | apply State.ledPause_keeps
    | apply State.skewConfig_keeps | apply forFin_keeps | apply State.removeTorque_keeps
    | apply State.gateUpdate_keeps | intro _ | split
    | (apply State.Keeps.upd; first
        | assumption | apply State.raiseFault_keeps | apply State.setFlag_keeps | apply State.ledPause_keeps
        | apply State.skewConfig_keeps | apply forFin_keeps | apply State.removeTorque_keeps
        | apply State.gateUpdate_keeps)
    | dsimp only)

theorem State.memFault_keeps {z : State} {s : State} {k : MemKind} {a : Nat} (hs : State.Keeps z s) :
    State.Keeps z (State.memFault s k a) := by
  unfold State.memFault
  with_reducible repeat' (first
    | assumption | apply State.fset_keeps | apply State.finc_keeps | apply State.raiseF3_keeps
    | apply State.raiseFault_keeps | split
    | (apply State.Keeps.upd; first
        | assumption | apply State.fset_keeps | apply State.finc_keeps | apply State.raiseF3_keeps
        | apply State.raiseFault_keeps)
    | dsimp only)

theorem State.parityFind_keeps {z : State} {s : State} {k : MemKind} {a n : Nat} (hs : State.Keeps z s) :
    State.Keeps z (State.parityFind s k a n) := by
  unfold State.parityFind
  with_reducible repeat' (first
    | assumption | apply forList_keeps | apply State.memFault_keeps | exact State.KeepsE.error
    | apply State.KeepsE.ok | exact State.KeepsP.error | apply State.KeepsP.ok | intro _ | dsimp only)

theorem State.panWrite_keeps {z : State} {s : State} {a v : Nat} (hs : State.Keeps z s) :
    State.Keeps z (State.panWrite s a v) := by
  unfold State.panWrite
  with_reducible repeat' (first | assumption | apply State.setMem32_keeps | apply State.parityCure_keeps)

theorem State.marchTouch_keeps {z : State} {s : State} {a : Nat} (hs : State.Keeps z s) :
    State.Keeps z (State.marchTouch s a) := by
  unfold State.marchTouch
  with_reducible repeat' (first
    | assumption | apply State.finc_keeps | split
    | (apply State.Keeps.upd; first
        | assumption | apply State.finc_keeps)
    | dsimp only)

theorem State.marchSlice_keeps {z : State} {s : State} {bad : Option (Fin 16)} (hs : State.Keeps z s) :
    State.Keeps z (State.marchSlice s bad) := by
  unfold State.marchSlice
  with_reducible repeat' (first
    | assumption | apply State.fincWrap_keeps | apply State.fset_keeps | apply State.raise_keeps
    | apply State.raiseFault_keeps | split
    | (apply State.Keeps.upd; first
        | assumption | apply State.fincWrap_keeps | apply State.fset_keeps | apply State.raise_keeps
        | apply State.raiseFault_keeps)
    | dsimp only)

theorem State.marchBackoffEnd_keeps {z : State} {s : State} {bad : Option (Fin 16)} (hs : State.Keeps z s) :
    State.Keeps z (State.marchBackoffEnd s bad) := by
  unfold State.marchBackoffEnd
  with_reducible repeat' (first
    | assumption | apply State.marchSlice_keeps | split
    | (apply State.Keeps.upd; first
        | assumption | apply State.marchSlice_keeps)
    | dsimp only)

theorem State.marchPassStart_keeps {z : State} {s : State} {bad : Option (Fin 16)} (hs : State.Keeps z s) :
    State.Keeps z (State.marchPassStart s bad) := by
  unfold State.marchPassStart
  with_reducible repeat' (first
    | assumption | apply State.marchSlice_keeps | split
    | (apply State.Keeps.upd; first
        | assumption | apply State.marchSlice_keeps)
    | dsimp only)

end Sys2Proof.Machine
end

