-- ==== Sys2Proof/Laws/KeepsMotion.lean ====
section
/-! SUPPORT. One lemma per operation: what loop, feedback, field and core operations keep. -/
set_option Elab.async false
namespace Sys2Proof.Machine

theorem State.recExtend_keeps {z : State} {s : State} (hs : State.Keeps z s) :
    State.Keeps z (State.recExtend s) := by
  unfold State.recExtend
  with_reducible repeat' (first
    | assumption | exact State.KeepsE.error | apply State.KeepsE.ok | exact State.KeepsP.error
    | apply State.KeepsP.ok | intro _
    | (apply State.Keeps.upd; first
        | assumption)
    | dsimp only)

theorem State.chLatch_keeps {z : State} {s : State} {c : Fin 32} (hs : State.Keeps z s) :
    State.Keeps z (State.chLatch s c) := by
  unfold State.chLatch
  with_reducible repeat' (first
    | assumption | apply State.fset_keeps | apply State.modCh_keeps | intro _
    | (apply State.Keeps.upd; first
        | assumption | apply State.fset_keeps | apply State.modCh_keeps)
    | dsimp only)

theorem State.vFeedback_keeps {z : State} {s : State} {n : Fin 64} (hs : State.Keeps z s) :
    State.Keeps z (State.vFeedback s n).2 := by
  unfold State.vFeedback
  with_reducible repeat' (first | assumption | apply State.takeFree_keeps | split | dsimp only)

theorem State.axFeedback_keeps {z : State} {s0 : State} {n : Fin 64} (hs0 : State.Keeps z s0) :
    State.Keeps z (State.axFeedback s0 n) := by
  unfold State.axFeedback
  with_reducible repeat' (first
    | assumption | apply State.stpSettle_keeps | apply State.vFeedback_keeps | apply State.modLp_keeps
    | apply State.wsetS_keeps | intro _ | split
    | (apply State.Keeps.upd; first
        | assumption | apply State.stpSettle_keeps | apply State.vFeedback_keeps | apply State.modLp_keeps
        | apply State.wsetS_keeps)
    | dsimp only)

theorem State.filtCompute_keeps {z : State} {s : State} {n f : Nat} (hs : State.Keeps z s) :
    State.Keeps z (State.filtCompute s n f) := by
  unfold State.filtCompute
  with_reducible repeat' (first
    | assumption | apply State.setReg_keeps | apply foldl_keeps | intro _ | split | dsimp only)

theorem State.filtStep_keeps {z : State} {s : State} {n : Fin 64} {f : Fin 3} {x : Rat} (hs : State.Keeps z s) :
    State.Keeps z (State.filtStep s n f x).1 := by
  unfold State.filtStep
  with_reducible repeat' (first
    | assumption | apply State.modLp_keeps | intro _ | split
    | (apply State.Keeps.upd; first
        | assumption | apply State.modLp_keeps)
    | dsimp only)

theorem State.filtPending_keeps {z : State} {s : State} {n : Fin 64} (hs : State.Keeps z s) :
    State.Keeps z (State.filtPending s n) := by
  unfold State.filtPending
  with_reducible repeat' (first
    | assumption | apply forFin_keeps | apply State.filtCompute_keeps | apply forList_keeps
    | apply State.setReg_keeps | apply State.modLp_keeps | apply State.setFlag_keeps | intro _ | split
    | (apply State.Keeps.upd; first
        | assumption | apply forFin_keeps | apply State.filtCompute_keeps | apply forList_keeps
        | apply State.setReg_keeps | apply State.modLp_keeps | apply State.setFlag_keeps)
    | dsimp only)

theorem State.posTick_keeps {z : State} {s : State} {n : Fin 64} (hs : State.Keeps z s) :
    State.Keeps z (State.posTick s n) := by
  unfold State.posTick
  with_reducible repeat' (first
    | assumption | apply State.modLp_keeps | apply State.wsetS_keeps | apply State.wset_keeps
    | apply State.setFlag_keeps | apply State.raise_keeps | apply State.axisFault_keeps | intro _ | split
    | (apply State.Keeps.upd; first
        | assumption | apply State.modLp_keeps | apply State.wsetS_keeps | apply State.wset_keeps
        | apply State.setFlag_keeps | apply State.raise_keeps | apply State.axisFault_keeps)
    | dsimp only)

theorem State.overspeed_keeps {z : State} {s : State} {n : Fin 64} (hs : State.Keeps z s) :
    State.Keeps z (State.overspeed s n) := by
  unfold State.overspeed
  with_reducible repeat' (first | assumption | apply State.axisFault_keeps | split)

theorem State.velTick_keeps {z : State} {s : State} {n : Fin 64} (hs : State.Keeps z s) :
    State.Keeps z (State.velTick s n) := by
  unfold State.velTick
  extract_lets k s1 s0 va ilim mode f1a f2a ya tau vc0 aff vlim vcmd s1' f0 ev xi xn u f1 f2 sat y xn' runs s2
  have h1 : State.Keeps z s1 := State.filtPending_keeps hs
  have h0 : State.Keeps z s0 := State.overspeed_keeps (State.Keeps.ite (State.modLp_keeps h1) h1)
  refine State.Keeps.ite (State.overspeed_keeps h1) (State.Keeps.ite (State.setFlag_keeps h0) (State.Keeps.ite
    (State.Keeps.ite h0 ?_) ?_))
  · exact State.setFlag_keeps (State.fsetS_keeps (State.filtStep_keeps (State.filtStep_keeps h0)))
  · have k1 : State.Keeps z s1' := State.wsetS_keeps h0
    refine State.Keeps.ite k1 (State.setFlag_keeps (State.fsetS_keeps (State.modLp_keeps ?_)))
    exact State.filtStep_keeps (State.filtStep_keeps (State.filtStep_keeps k1))

theorem State.runEntry_keeps {z : State} {s : State} {n : Fin 64} {i0 : Rat} (hs : State.Keeps z s) :
    State.Keeps z (State.runEntry s n i0) := by
  unfold State.runEntry
  with_reducible repeat' (first
    | assumption | apply State.modLp_keeps | apply State.fset_keeps | apply State.fsetS_keeps
    | apply State.modFld_keeps | apply State.modAx_keeps | apply State.axPublish_keeps | intro _ | split
    | (apply State.Keeps.upd; first
        | assumption | apply State.modLp_keeps | apply State.fset_keeps | apply State.fsetS_keeps
        | apply State.modFld_keeps | apply State.modAx_keeps | apply State.axPublish_keeps)
    | dsimp only)

theorem State.loopClose_keeps {z : State} {s : State} {n : Fin 64} (hs : State.Keeps z s) :
    State.Keeps z (State.loopClose s n) := by
  unfold State.loopClose
  with_reducible repeat' (first
    | assumption | apply State.axSync_keeps | apply State.axPublish_keeps | apply State.modLp_keeps
    | apply State.fset_keeps | apply State.modFld_keeps | apply State.runEntry_keeps | intro _ | split
    | (apply State.Keeps.upd; first
        | assumption | apply State.axSync_keeps | apply State.axPublish_keeps | apply State.modLp_keeps
        | apply State.fset_keeps | apply State.modFld_keeps | apply State.runEntry_keeps)
    | dsimp only)

theorem State.rampHeld_keeps {z : State} {s : State} {n : Fin 64} (hs : State.Keeps z s) :
    State.Keeps z (State.rampHeld s n) := by
  unfold State.rampHeld
  with_reducible repeat' (first
    | assumption | apply State.fset_keeps | apply State.modLp_keeps | apply State.react_keeps | intro _ | split
    | (apply State.Keeps.upd; first
        | assumption | apply State.fset_keeps | apply State.modLp_keeps | apply State.react_keeps)
    | dsimp only)

theorem State.axTake_keeps {z : State} {s : State} {n : Fin 64} {first : Bool} (hs : State.Keeps z s) :
    State.Keeps z (State.axTake s n first) := by
  unfold State.axTake
  with_reducible repeat' (first
    | assumption | apply State.setFlag_keeps | apply State.wsetS_keeps | apply State.loopClose_keeps
    | apply State.modAx_keeps | apply State.grpOff_keeps | apply State.axSync_keeps | apply State.raise_keeps
    | apply State.axBrake_keeps | apply State.axCommand_keeps | intro _ | split
    | (apply State.Keeps.upd; first
        | assumption | apply State.setFlag_keeps | apply State.wsetS_keeps | apply State.loopClose_keeps
        | apply State.modAx_keeps | apply State.grpOff_keeps | apply State.axSync_keeps | apply State.raise_keeps
        | apply State.axBrake_keeps | apply State.axCommand_keeps)
    | dsimp only)

theorem State.axRun_keeps {z : State} {s : State} {n : Fin 64} {T : Rat} (hs : State.Keeps z s) :
    State.Keeps z (State.axRun s n T) := by
  unfold State.axRun
  with_reducible repeat' (first
    | assumption | apply State.axLaw_keeps | apply State.react_keeps | apply State.removeTorque_keeps
    | apply State.rampHeld_keeps | apply State.axPublish_keeps | split | dsimp only)

theorem State.axCmdWrite_keeps {z : State} {s : State} {n : Fin 64} {op : Nat} (hs : State.Keeps z s) :
    State.Keeps z (State.axCmdWrite s n op) := by
  unfold State.axCmdWrite
  with_reducible repeat' (first
    | assumption | apply State.setFlag_keeps | apply State.react_keeps | apply State.raise_keeps
    | apply State.modAx_keeps | intro _ | split
    | (apply State.Keeps.upd; first
        | assumption | apply State.setFlag_keeps | apply State.react_keeps | apply State.raise_keeps
        | apply State.modAx_keeps)
    | dsimp only)

theorem State.axShift_keeps {z : State} {s : State} {n : Fin 64} {d : Int} (hs : State.Keeps z s) :
    State.Keeps z (State.axShift s n d) := by
  unfold State.axShift
  with_reducible repeat' (first
    | assumption | apply State.modAx_keeps | apply State.wsetS_keeps | apply State.setFlag_keeps | intro _ | split
    | (apply State.Keeps.upd; first
        | assumption | apply State.modAx_keeps | apply State.wsetS_keeps | apply State.setFlag_keeps)
    | dsimp only)

theorem State.loopCtrl_keeps {z : State} {s : State} {n : Fin 64} {v : Nat} (hs : State.Keeps z s) :
    State.Keeps z (State.loopCtrl s n v) := by
  unfold State.loopCtrl
  with_reducible repeat' (first
    | assumption | apply State.setFlag_keeps | apply State.modLp_keeps | apply State.fset_keeps
    | apply State.removeTorque_keeps | apply State.wset_keeps | intro _ | split
    | (apply State.Keeps.upd; first
        | assumption | apply State.setFlag_keeps | apply State.modLp_keeps | apply State.fset_keeps
        | apply State.removeTorque_keeps | apply State.wset_keeps)
    | dsimp only)

theorem State.zvecEnd_keeps {z : State} {s : State} {n : Fin 64} (hs : State.Keeps z s) :
    State.Keeps z (State.zvecEnd s n) := by
  unfold State.zvecEnd
  with_reducible repeat' (first | assumption | apply State.removeTorque_keeps | split)

theorem State.faultClear_keeps {z : State} {s : State} {n : Fin 64} {m : Nat} {persists : Nat → Bool}
    (hs : State.Keeps z s) :
    State.Keeps z (State.faultClear s n m persists) := by
  unfold State.faultClear
  with_reducible repeat' (first
    | assumption | apply State.fset_keeps | apply State.faultRelease_keeps | intro _ | dsimp only)

theorem State.chFault_keeps {z : State} {s : State} {c : Fin 32} {cause : Nat} (hs : State.Keeps z s) :
    State.Keeps z (State.chFault s c cause) := by
  unfold State.chFault
  with_reducible repeat' (first
    | assumption | apply State.setReg_keeps | apply State.noteSet_keeps | apply State.raiseFault_keeps
    | apply forFin_keeps | apply State.feedbackFault_keeps | apply State.spinFault_keeps | intro _ | split
    | dsimp only)

theorem State.chCount_keeps {z : State} {s : State} {c : Fin 32} {d : Int} {stamp : Nat} (hs : State.Keeps z s) :
    State.Keeps z (State.chCount s c d stamp) := by
  unfold State.chCount
  with_reducible repeat' (first
    | assumption | apply State.fsetS_keeps | apply State.fset_keeps | apply State.modCh_keeps
    | apply State.spinSource_keeps | intro _ | split
    | (apply State.Keeps.upd; first
        | assumption | apply State.fsetS_keeps | apply State.fset_keeps | apply State.modCh_keeps
        | apply State.spinSource_keeps)
    | dsimp only)

theorem State.chErr_keeps {z : State} {s : State} {c : Fin 32} (hs : State.Keeps z s) :
    State.Keeps z (State.chErr s c) := by
  unfold State.chErr
  with_reducible repeat' (first
    | assumption | apply State.finc_keeps | apply State.modCh_keeps | apply State.chFault_keeps | intro _ | split
    | (apply State.Keeps.upd; first
        | assumption | apply State.finc_keeps | apply State.modCh_keeps | apply State.chFault_keeps)
    | dsimp only)

theorem State.chIndexed_keeps {z : State} {s0 : State} {c : Fin 32} (hs0 : State.Keeps z s0) :
    State.Keeps z (State.chIndexed s0 c) := by
  unfold State.chIndexed
  with_reducible repeat' (first
    | assumption | apply State.modCh_keeps | apply State.fset_keeps | apply State.fincWrap_keeps
    | apply State.raise_keeps | apply State.fsetS_keeps | apply State.finc_keeps | apply State.chFault_keeps
    | intro _ | split
    | (apply State.Keeps.upd; first
        | assumption | apply State.modCh_keeps | apply State.fset_keeps | apply State.fincWrap_keeps
        | apply State.raise_keeps | apply State.fsetS_keeps | apply State.finc_keeps | apply State.chFault_keeps)
    | dsimp only)

theorem State.chGate_keeps {z : State} {s : State} {c : Fin 32} (hs : State.Keeps z s) :
    State.Keeps z (State.chGate s c) := by
  unfold State.chGate
  with_reducible repeat' (first | assumption | apply State.chIndexed_keeps | split)

theorem State.chIndex_keeps {z : State} {s : State} {c : Fin 32} {w : BitVec 16} (hs : State.Keeps z s) :
    State.Keeps z (State.chIndex s c w) := by
  unfold State.chIndex
  with_reducible repeat' (first
    | assumption | apply State.fset_keeps | apply State.modCh_keeps | apply State.chIndexed_keeps
    | apply State.chGate_keeps | intro _ | split
    | (apply State.Keeps.upd; first
        | assumption | apply State.fset_keeps | apply State.modCh_keeps | apply State.chIndexed_keeps
        | apply State.chGate_keeps)
    | dsimp only)

theorem State.quadCount_keeps {z : State} {s : State} {c : Fin 32} {step : Option Int} (hs : State.Keeps z s) :
    State.Keeps z (State.quadCount s c step) := by
  unfold State.quadCount
  with_reducible repeat' (first
    | assumption | apply State.modCh_keeps | apply State.chErr_keeps | apply State.takeFree_keeps
    | apply State.chCount_keeps | intro _ | split
    | (apply State.Keeps.upd; first
        | assumption | apply State.modCh_keeps | apply State.chErr_keeps | apply State.takeFree_keeps
        | apply State.chCount_keeps)
    | dsimp only)

theorem State.quadChange_keeps {z : State} {s : State} {c : Fin 32} {wb wa : BitVec 16} (hs : State.Keeps z s) :
    State.Keeps z (State.quadChange s c wb wa) := by
  unfold State.quadChange
  with_reducible repeat' (first
    | assumption | apply State.fset_keeps | apply State.quadCount_keeps | apply State.chGate_keeps | split
    | dsimp only)

theorem State.chShowSector_keeps {z : State} {s : State} {c : Fin 32} (hs : State.Keeps z s) :
    State.Keeps z (State.chShowSector s c) := by
  unfold State.chShowSector
  with_reducible repeat' (first
    | assumption | apply State.fset_keeps | split
    | (apply State.Keeps.upd; first
        | assumption | apply State.fset_keeps)
    | dsimp only)

theorem State.hallChange_keeps {z : State} {s : State} {c : Fin 32} {h : Nat} (hs : State.Keeps z s) :
    State.Keeps z (State.hallChange s c h) := by
  unfold State.hallChange
  with_reducible repeat' (first
    | assumption | apply State.fset_keeps | apply State.setFlag_keeps | apply State.modCh_keeps
    | apply State.chFault_keeps | apply State.chShowSector_keeps | apply State.chCount_keeps
    | apply State.chErr_keeps | intro _ | split
    | (apply State.Keeps.upd; first
        | assumption | apply State.fset_keeps | apply State.setFlag_keeps | apply State.modCh_keeps
        | apply State.chFault_keeps | apply State.chShowSector_keeps | apply State.chCount_keeps
        | apply State.chErr_keeps)
    | dsimp only)

theorem State.hallSample_keeps {z : State} {s : State} {c : Fin 32} {w3 w2 w1 : BitVec 16} (hs : State.Keeps z s) :
    State.Keeps z (State.hallSample s c w3 w2 w1) := by
  unfold State.hallSample
  with_reducible repeat' (first | assumption | apply State.hallChange_keeps | split | dsimp only)

theorem State.hallInv_keeps {z : State} {s : State} {c : Fin 32} (hs : State.Keeps z s) :
    State.Keeps z (State.hallInv s c) := by
  unfold State.hallInv
  with_reducible repeat' (first | assumption | apply State.chFault_keeps | split)

theorem State.ssiBadFrame_keeps {z : State} {s : State} {c : Fin 32} (hs : State.Keeps z s) :
    State.Keeps z (State.ssiBadFrame s c) := by
  unfold State.ssiBadFrame
  with_reducible repeat' (first
    | assumption | apply State.setFlag_keeps | apply State.modCh_keeps | apply State.chFault_keeps | intro _ | split
    | (apply State.Keeps.upd; first
        | assumption | apply State.setFlag_keeps | apply State.modCh_keeps | apply State.chFault_keeps)
    | dsimp only)

theorem State.ssiGood_keeps {z : State} {s : State} {c : Fin 32} (hs : State.Keeps z s) :
    State.Keeps z (State.ssiGood s c) := by
  unfold State.ssiGood
  with_reducible repeat' (first
    | assumption | apply State.setFlag_keeps | apply State.modCh_keeps | intro _
    | (apply State.Keeps.upd; first
        | assumption | apply State.setFlag_keeps | apply State.modCh_keeps)
    | dsimp only)

theorem State.ssiArm_keeps {z : State} {s : State} {c : Fin 32} {fv fp : Bool} (hs : State.Keeps z s) :
    State.Keeps z (State.ssiArm s c fv fp) := by
  unfold State.ssiArm
  with_reducible repeat' (first
    | assumption | apply State.modCh_keeps | intro _ | split
    | (apply State.Keeps.upd; first
        | assumption | apply State.modCh_keeps)
    | dsimp only)

theorem State.ssiRequest_keeps {z : State} {s : State} {c : Fin 32} {ready : Bool} (hs : State.Keeps z s) :
    State.Keeps z (State.ssiRequest s c ready) := by
  unfold State.ssiRequest
  with_reducible repeat' (first
    | assumption | apply State.modCh_keeps | apply State.finc_keeps | apply State.ssiGood_keeps
    | apply State.ssiBadFrame_keeps | intro _ | split
    | (apply State.Keeps.upd; first
        | assumption | apply State.modCh_keeps | apply State.finc_keeps | apply State.ssiGood_keeps
        | apply State.ssiBadFrame_keeps)
    | dsimp only)

theorem State.ssiFrameEnd_keeps {z : State} {s : State} {c : Fin 32} {fr : Nat} (hs : State.Keeps z s) :
    State.Keeps z (State.ssiFrameEnd s c fr) := by
  unfold State.ssiFrameEnd
  with_reducible repeat' (first
    | assumption | apply State.modCh_keeps | apply State.finc_keeps | apply State.ssiBadFrame_keeps
    | apply State.ssiGood_keeps | apply State.fset_keeps | apply State.chCount_keeps | exact State.KeepsE.error
    | apply State.KeepsE.ok | exact State.KeepsP.error | apply State.KeepsP.ok | intro _ | split
    | (apply State.Keeps.upd; first
        | assumption | apply State.modCh_keeps | apply State.finc_keeps | apply State.ssiBadFrame_keeps
        | apply State.ssiGood_keeps | apply State.fset_keeps | apply State.chCount_keeps)
    | dsimp only)

theorem State.chModeChange_keeps {z : State} {s : State} {c : Fin 32} (hs : State.Keeps z s) :
    State.Keeps z (State.chModeChange s c) := by
  unfold State.chModeChange
  with_reducible repeat' (first
    | assumption | apply State.modCh_keeps | apply State.setFlag_keeps | apply State.chShowSector_keeps | intro _
    | split
    | (apply State.Keeps.upd; first
        | assumption | apply State.modCh_keeps | apply State.setFlag_keeps | apply State.chShowSector_keeps)
    | dsimp only)

theorem State.chOffset_keeps {z : State} {s : State} {c : Fin 32} {v : Nat} (hs : State.Keeps z s) :
    State.Keeps z (State.chOffset s c v) := by
  unfold State.chOffset
  with_reducible repeat' (first
    | assumption | apply State.fset_keeps | apply forFin_keeps | apply State.spinJump_keeps | intro _ | split
    | dsimp only)

theorem State.chFltClear_keeps {z : State} {s : State} {c : Fin 32} {m : Nat} (hs : State.Keeps z s) :
    State.Keeps z (State.chFltClear s c m) := by
  unfold State.chFltClear
  with_reducible repeat' (first
    | assumption | apply State.setReg_keeps | apply State.spinFault_keeps | intro _ | split | dsimp only)

theorem State.fieldLatch_keeps {z : State} {s : State} {n : Fin 64} (hs : State.Keeps z s) :
    State.Keeps z (State.fieldLatch s n) := by
  unfold State.fieldLatch
  with_reducible repeat' (first
    | assumption | apply State.modFld_keeps | intro _ | split
    | (apply State.Keeps.upd; first
        | assumption | apply State.modFld_keeps)
    | dsimp only)

theorem State.observer_keeps {z : State} {s : State} {n : Fin 64} {i v : Vec2} (hs : State.Keeps z s) :
    State.Keeps z (State.observer s n i v) := by
  unfold State.observer
  with_reducible repeat' (first
    | assumption | apply State.modFld_keeps | apply State.setFlag_keeps | apply State.fset_keeps
    | apply State.fsetS_keeps | apply State.wsetS_keeps | intro _ | split
    | (apply State.Keeps.upd; first
        | assumption | apply State.modFld_keeps | apply State.setFlag_keeps | apply State.fset_keeps
        | apply State.fsetS_keeps | apply State.wsetS_keeps)
    | dsimp only)

theorem State.fieldEnter_keeps {z : State} {s : State} {n : Fin 64} {f : Nat} (hs : State.Keeps z s) :
    State.Keeps z (State.fieldEnter s n f) := by
  unfold State.fieldEnter
  with_reducible repeat' (first
    | assumption | apply State.fset_keeps | apply State.modFld_keeps | intro _
    | (apply State.Keeps.upd; first
        | assumption | apply State.fset_keeps | apply State.modFld_keeps)
    | dsimp only)

theorem State.fieldFail_keeps {z : State} {s : State} {n : Fin 64} (hs : State.Keeps z s) :
    State.Keeps z (State.fieldFail s n) := by
  unfold State.fieldFail
  with_reducible repeat' (first
    | assumption | apply State.finc_keeps | apply State.fset_keeps | apply State.fieldEnter_keeps
    | apply State.axisFault_keeps | split | dsimp only)

theorem State.fieldCycleState_keeps {z : State} {s : State} {n : Fin 64} (hs : State.Keeps z s) :
    State.Keeps z (State.fieldCycleState s n) := by
  unfold State.fieldCycleState
  with_reducible repeat' (first
    | assumption | apply State.runEntry_keeps | apply State.fieldEnter_keeps | apply State.modFld_keeps
    | apply State.removeTorque_keeps | intro _ | split
    | (apply State.Keeps.upd; first
        | assumption | apply State.runEntry_keeps | apply State.fieldEnter_keeps | apply State.modFld_keeps
        | apply State.removeTorque_keeps)
    | dsimp only)

theorem State.giveDuty_keeps {z : State} {s : State} {l : Fin 16} {h : Bool} (hs : State.Keeps z s) :
    State.Keeps z (State.giveDuty s l h) := by
  unfold State.giveDuty
  with_reducible repeat' (first
    | assumption | apply State.modBl_keeps | exact State.KeepsE.error | apply State.KeepsE.ok
    | exact State.KeepsP.error | apply State.KeepsP.ok | intro _ | split
    | (apply State.Keeps.upd; first
        | assumption | apply State.modBl_keeps)
    | dsimp only)

theorem State.setDuty_keeps {z : State} {s : State} {l : Fin 16} {h : Bool} {d : List Nat} (hs : State.Keeps z s) :
    State.Keeps z (State.setDuty s l h d) := by
  unfold State.setDuty
  with_reducible repeat' (first
    | assumption | apply forList_keeps | apply State.localPut_keeps | intro _ | dsimp only)

theorem State.measureDq_keeps {z : State} {s : State} {n : Fin 64} {l : Fin 16} {iab : Vec2} {th0 w : Rat}
    (hs : State.Keeps z s) :
    State.Keeps z (State.measureDq s n l iab th0 w) := by
  unfold State.measureDq
  with_reducible repeat' (first | assumption | apply State.fsetS_keeps | dsimp only)

theorem State.regulateField_keeps {z : State} {s : State} {n : Fin 64} {l : Fin 16} {h : Bool} {iab : Vec2}
    {th0 w : Rat} {refs : Rat × Rat} (hs : State.Keeps z s) :
    State.Keeps z (State.regulateField s n l h iab th0 w refs) := by
  unfold State.regulateField
  with_reducible repeat' (first
    | assumption | apply State.modFld_keeps | apply State.setDuty_keeps | intro _ | split
    | (apply State.Keeps.upd; first
        | assumption | apply State.modFld_keeps | apply State.setDuty_keeps)
    | dsimp only)

theorem State.busVoltage_keeps {z : State} {s : State} {n : Fin 64} {l : Fin 16} (hs : State.Keeps z s) :
    State.Keeps z (State.busVoltage s n l) := by
  unfold State.busVoltage
  with_reducible repeat' (first | assumption | apply State.fset_keeps | apply State.setFlag_keeps)

theorem State.fieldCycle_keeps {z : State} {s : State} {n : Fin 64} (hs : State.Keeps z s) :
    State.Keeps z (State.fieldCycle s n) := by
  unfold State.fieldCycle
  with_reducible repeat' (first
    | assumption | apply State.busVoltage_keeps | apply State.modFld_keeps | apply State.setDuty_keeps
    | apply State.observer_keeps | apply State.fieldCycleState_keeps | apply State.measureDq_keeps
    | apply State.regulateField_keeps | intro _ | split
    | (apply State.Keeps.upd; first
        | assumption | apply State.busVoltage_keeps | apply State.modFld_keeps | apply State.setDuty_keeps
        | apply State.observer_keeps | apply State.fieldCycleState_keeps | apply State.measureDq_keeps
        | apply State.regulateField_keeps)
    | dsimp only)

theorem State.listenTimeout_keeps {z : State} {s : State} {n : Fin 64} (hs : State.Keeps z s) :
    State.Keeps z (State.listenTimeout s n) := by
  unfold State.listenTimeout
  with_reducible repeat' (first | assumption | apply State.fieldFail_keeps | split)

theorem State.alignEnd_keeps {z : State} {s : State} {n : Fin 64} (hs : State.Keeps z s) :
    State.Keeps z (State.alignEnd s n) := by
  unfold State.alignEnd
  with_reducible repeat' (first
    | assumption | apply State.fieldEnter_keeps | apply State.modFld_keeps | apply State.fset_keeps
    | apply State.setFlag_keeps | apply State.runEntry_keeps | intro _ | split
    | (apply State.Keeps.upd; first
        | assumption | apply State.fieldEnter_keeps | apply State.modFld_keeps | apply State.fset_keeps
        | apply State.setFlag_keeps | apply State.runEntry_keeps)
    | dsimp only)

theorem State.brakeTimeout_keeps {z : State} {s : State} {n : Fin 64} (hs : State.Keeps z s) :
    State.Keeps z (State.brakeTimeout s n) := by
  unfold State.brakeTimeout
  with_reducible repeat' (first | assumption | apply State.fieldFail_keeps | split)

theorem State.ifholdTimeout_keeps {z : State} {s : State} {n : Fin 64} (hs : State.Keeps z s) :
    State.Keeps z (State.ifholdTimeout s n) := by
  unfold State.ifholdTimeout
  with_reducible repeat' (first
    | assumption | apply State.fieldFail_keeps | split
    | (apply State.Keeps.upd; first
        | assumption | apply State.fieldFail_keeps)
    | dsimp only)

theorem State.fieldRecatch_keeps {z : State} {s : State} {n : Fin 64} (hs : State.Keeps z s) :
    State.Keeps z (State.fieldRecatch s n) := by
  unfold State.fieldRecatch
  with_reducible repeat' (first | assumption | apply State.finc_keeps | apply State.fieldEnter_keeps | split)

theorem State.fieldIflow_keeps {z : State} {s : State} {n : Fin 64} (hs : State.Keeps z s) :
    State.Keeps z (State.fieldIflow s n) := by
  unfold State.fieldIflow
  with_reducible repeat' (first
    | assumption | apply State.fieldEnter_keeps | apply State.modFld_keeps | intro _ | split
    | (apply State.Keeps.upd; first
        | assumption | apply State.fieldEnter_keeps | apply State.modFld_keeps)
    | dsimp only)

theorem State.recatchTimeout_keeps {z : State} {s : State} {n : Fin 64} (hs : State.Keeps z s) :
    State.Keeps z (State.recatchTimeout s n) := by
  unfold State.recatchTimeout
  with_reducible repeat' (first | assumption | apply State.axisFault_keeps | split)

theorem State.setMu_keeps {z : State} {s : State} {n : Fin 64} {m : Int} (hs : State.Keeps z s) :
    State.Keeps z (State.setMu s n m) := by
  unfold State.setMu
  with_reducible repeat' (first
    | assumption | apply State.modFld_keeps | apply State.wsetS_keeps | intro _ | split
    | (apply State.Keeps.upd; first
        | assumption | apply State.modFld_keeps | apply State.wsetS_keeps)
    | dsimp only)

theorem State.loadAngle_keeps {z : State} {s : State} {n : Fin 64} (hs : State.Keeps z s) :
    State.Keeps z (State.loadAngle s n) := by
  unfold State.loadAngle
  with_reducible repeat' (first
    | assumption | apply State.modFld_keeps | apply State.fsetS_keeps | intro _ | split
    | (apply State.Keeps.upd; first
        | assumption | apply State.modFld_keeps | apply State.fsetS_keeps)
    | dsimp only)

theorem State.stall_keeps {z : State} {s : State} {n : Fin 64} (hs : State.Keeps z s) :
    State.Keeps z (State.stall s n) := by
  unfold State.stall
  with_reducible repeat' (first
    | assumption | apply State.raise_keeps | apply State.finc_keeps | apply State.modFld_keeps
    | apply State.removeTorque_keeps | intro _ | split
    | (apply State.Keeps.upd; first
        | assumption | apply State.raise_keeps | apply State.finc_keeps | apply State.modFld_keeps
        | apply State.removeTorque_keeps)
    | dsimp only)

theorem State.holdCurrent_keeps {z : State} {s : State} {n : Fin 64} (hs : State.Keeps z s) :
    State.Keeps z (State.holdCurrent s n) := by
  unfold State.holdCurrent
  with_reducible repeat' (first
    | assumption | apply State.modFld_keeps | intro _ | split
    | (apply State.Keeps.upd; first
        | assumption | apply State.modFld_keeps)
    | dsimp only)

theorem State.stepperCycle_keeps {z : State} {s : State} {n : Fin 64} (hs : State.Keeps z s) :
    State.Keeps z (State.stepperCycle s n) := by
  unfold State.stepperCycle
  with_reducible repeat' (first
    | assumption | apply State.busVoltage_keeps | apply State.observer_keeps | apply State.modFld_keeps
    | apply State.raise_keeps | apply State.setMu_keeps | apply State.loadAngle_keeps | apply State.setDuty_keeps
    | intro _ | split
    | (apply State.Keeps.upd; first
        | assumption | apply State.busVoltage_keeps | apply State.observer_keeps | apply State.modFld_keeps
        | apply State.raise_keeps | apply State.setMu_keeps | apply State.loadAngle_keeps
        | apply State.setDuty_keeps)
    | dsimp only)

theorem State.stpPulses_keeps {z : State} {s : State} {n : Fin 64} {o : Fin 16} (hs : State.Keeps z s) :
    State.Keeps z (State.stpPulses s n o) := by
  unfold State.stpPulses
  with_reducible repeat' (first
    | assumption | apply State.stpSettle_keeps | apply State.setFlag_keeps | apply State.raise_keeps
    | apply State.fset_keeps | apply State.forward_keeps | apply State.loadAngle_keeps | split
    | (apply State.Keeps.upd; first
        | assumption | apply State.stpSettle_keeps | apply State.setFlag_keeps | apply State.raise_keeps
        | apply State.fset_keeps | apply State.forward_keeps | apply State.loadAngle_keeps)
    | dsimp only)

theorem State.blSetState_keeps {z : State} {s : State} {l : Fin 16} {st : Nat} (hs : State.Keeps z s) :
    State.Keeps z (State.blSetState s l st) := by
  unfold State.blSetState
  with_reducible repeat' (first | assumption | apply State.fset_keeps)

theorem State.blAlign_keeps {z : State} {s : State} {l : Fin 16} (hs : State.Keeps z s) :
    State.Keeps z (State.blAlign s l) := by
  unfold State.blAlign
  with_reducible repeat' (first
    | assumption | apply State.modBl_keeps | apply State.blSetState_keeps | intro _
    | (apply State.Keeps.upd; first
        | assumption | apply State.modBl_keeps | apply State.blSetState_keeps)
    | dsimp only)

theorem State.blCtrl_keeps {z : State} {s : State} {l : Fin 16} {was : Bool} {v : Nat} (hs : State.Keeps z s) :
    State.Keeps z (State.blCtrl s l was v) := by
  unfold State.blCtrl
  with_reducible repeat' (first
    | assumption | apply State.modBl_keeps | apply State.blSetState_keeps | apply State.blAlign_keeps | intro _
    | split
    | (apply State.Keeps.upd; first
        | assumption | apply State.modBl_keeps | apply State.blSetState_keeps | apply State.blAlign_keeps)
    | dsimp only)

theorem State.blAligned_keeps {z : State} {s : State} {l : Fin 16} (hs : State.Keeps z s) :
    State.Keeps z (State.blAligned s l) := by
  unfold State.blAligned
  with_reducible repeat' (first
    | assumption | apply State.modBl_keeps | apply State.blSetState_keeps | intro _ | split
    | (apply State.Keeps.upd; first
        | assumption | apply State.modBl_keeps | apply State.blSetState_keeps)
    | dsimp only)

theorem State.blPing_keeps {z : State} {s : State} {l : Fin 16} (hs : State.Keeps z s) :
    State.Keeps z (State.blPing s l) := by
  unfold State.blPing
  with_reducible repeat' (first
    | assumption | apply State.blPut_keeps | apply State.modBl_keeps | intro _ | split
    | (apply State.Keeps.upd; first
        | assumption | apply State.blPut_keeps | apply State.modBl_keeps)
    | dsimp only)

theorem State.blPong_keeps {z : State} {s : State} {l : Fin 16} {tag ui : Nat} (hs : State.Keeps z s) :
    State.Keeps z (State.blPong s l tag ui) := by
  unfold State.blPong
  with_reducible repeat' (first
    | assumption | apply State.modBl_keeps | apply State.fset_keeps | apply State.raise_keeps | intro _ | split
    | (apply State.Keeps.upd; first
        | assumption | apply State.modBl_keeps | apply State.fset_keeps | apply State.raise_keeps)
    | dsimp only)

theorem State.blMeasureEnd_keeps {z : State} {s : State} {l : Fin 16} (hs : State.Keeps z s) :
    State.Keeps z (State.blMeasureEnd s l) := by
  unfold State.blMeasureEnd
  with_reducible repeat' (first
    | assumption | apply State.finc_keeps | apply State.blAlign_keeps | apply State.fset_keeps
    | apply State.modBl_keeps | apply State.blSetState_keeps | apply foldl_keeps | intro _ | split
    | (apply State.Keeps.upd; first
        | assumption | apply State.finc_keeps | apply State.blAlign_keeps | apply State.fset_keeps
        | apply State.modBl_keeps | apply State.blSetState_keeps)
    | dsimp only)

theorem State.blLoss_keeps {z : State} {s : State} {l : Fin 16} {kind : Nat} (hs : State.Keeps z s) :
    State.Keeps z (State.blLoss s l kind) := by
  unfold State.blLoss
  with_reducible repeat' (first
    | assumption | apply State.raise_keeps | apply State.raiseFault_keeps | apply forList_keeps
    | apply State.axisFault_keeps | apply State.modBl_keeps | apply State.blAlign_keeps | intro _
    | (apply State.Keeps.upd; first
        | assumption | apply State.raise_keeps | apply State.raiseFault_keeps | apply forList_keeps
        | apply State.axisFault_keeps | apply State.modBl_keeps | apply State.blAlign_keeps)
    | dsimp only)

theorem State.blCodeErrors_keeps {z : State} {s : State} {l : Fin 16} {k : Nat} (hs : State.Keeps z s) :
    State.Keeps z (State.blCodeErrors s l k) := by
  unfold State.blCodeErrors
  with_reducible repeat' (first
    | assumption | apply State.finc_keeps | apply State.modBl_keeps | apply State.blLoss_keeps | intro _ | split
    | (apply State.Keeps.upd; first
        | assumption | apply State.finc_keeps | apply State.modBl_keeps | apply State.blLoss_keeps)
    | dsimp only)

theorem State.blErrors_keeps {z : State} {s : State} {l : Fin 16} {gs : List CodeGroup} {rd : Bool}
    (hs : State.Keeps z s) :
    State.Keeps z (State.blErrors s l gs rd) := by
  unfold State.blErrors
  with_reducible repeat' (first | assumption | apply State.blCodeErrors_keeps | split)

theorem State.blDeadline_keeps {z : State} {s : State} {l : Fin 16} (hs : State.Keeps z s) :
    State.Keeps z (State.blDeadline s l) := by
  unfold State.blDeadline
  with_reducible repeat' (first
    | assumption | apply State.modBl_keeps | apply State.finc_keeps | apply State.blLoss_keeps | intro _ | split
    | (apply State.Keeps.upd; first
        | assumption | apply State.modBl_keeps | apply State.finc_keeps | apply State.blLoss_keeps)
    | dsimp only)

theorem State.blDeliver_keeps {z : State} {s : State} {l : Fin 16} {ws : List Nat} (hs : State.Keeps z s) :
    State.Keeps z (State.blDeliver s l ws) := by
  unfold State.blDeliver
  with_reducible repeat' (first
    | assumption | apply forList_keeps | apply State.localPut_keeps | intro _ | split | dsimp only)

theorem State.blUpstream_keeps {z : State} {s : State} {l : Fin 16} {gs : List CodeGroup} {rd : Bool}
    (hs : State.Keeps z s) :
    State.Keeps z (State.blUpstream s l gs rd) := by
  unfold State.blUpstream
  with_reducible repeat' (first
    | assumption | apply State.finc_keeps | apply State.blCodeErrors_keeps | apply State.modBl_keeps
    | apply State.fset_keeps | apply State.setFlag_keeps | apply State.blDeliver_keeps | apply State.axisFault_keeps
    | apply foldl_keeps | intro _ | split
    | (apply State.Keeps.upd; first
        | assumption | apply State.finc_keeps | apply State.blCodeErrors_keeps | apply State.modBl_keeps
        | apply State.fset_keeps | apply State.setFlag_keeps | apply State.blDeliver_keeps
        | apply State.axisFault_keeps)
    | dsimp only)

theorem State.blSync_keeps {z : State} {s : State} {l : Fin 16} (hs : State.Keeps z s) :
    State.Keeps z (State.blSync s l) := by
  unfold State.blSync
  with_reducible repeat' (first
    | assumption | apply State.blPutSync_keeps | apply State.modBl_keeps | intro _ | split
    | (apply State.Keeps.upd; first
        | assumption | apply State.blPutSync_keeps | apply State.modBl_keeps)
    | dsimp only)

theorem State.blDepart_keeps {z : State} {s : State} {l : Fin 16} (hs : State.Keeps z s) :
    State.Keeps z (State.blDepart s l) := by
  unfold State.blDepart
  with_reducible repeat' (first
    | assumption | apply State.modBl_keeps | intro _ | split
    | (apply State.Keeps.upd; first
        | assumption | apply State.modBl_keeps)
    | dsimp only)

theorem State.blCycle_keeps {z : State} {s : State} {l : Fin 16} (hs : State.Keeps z s) :
    State.Keeps z (State.blCycle s l) := by
  unfold State.blCycle
  with_reducible repeat' (first
    | assumption | apply State.modBl_keeps | intro _
    | (apply State.Keeps.upd; first
        | assumption | apply State.modBl_keeps)
    | dsimp only)

theorem State.coreRestate_keeps {z : State} {s : State} {n : Fin 10} {newSpare : Bool} (hs : State.Keeps z s) :
    State.Keeps z (State.coreRestate s n newSpare) := by
  unfold State.coreRestate
  with_reducible repeat' (first | assumption | apply State.fset_keeps | split | dsimp only)

theorem State.disposeSlot_keeps {z : State} {s : State} {o sp : Fin 10} {slot : Nat} {axes : List (Fin 64)}
    (hs : State.Keeps z s) :
    State.Keeps z (State.disposeSlot s o sp slot axes) := by
  unfold State.disposeSlot
  with_reducible repeat' (first
    | assumption | apply forList_keeps | apply State.setDuty_keeps | apply State.giveDuty_keeps
    | apply State.modCore_keeps | exact State.KeepsE.error | apply State.KeepsE.ok | exact State.KeepsP.error
    | apply State.KeepsP.ok | intro _ | split
    | (apply State.Keeps.upd; first
        | assumption | apply forList_keeps | apply State.setDuty_keeps | apply State.giveDuty_keeps
        | apply State.modCore_keeps)
    | dsimp only)

theorem State.holdOuter_keeps {z : State} {s : State} {n : Fin 64} (hs : State.Keeps z s) :
    State.Keeps z (State.holdOuter s n) := by
  unfold State.holdOuter
  with_reducible repeat' (first
    | assumption | apply forList_keeps | apply State.setReg_keeps | apply State.modAx_keeps
    | apply State.modLp_keeps | intro _ | split
    | (apply State.Keeps.upd; first
        | assumption | apply forList_keeps | apply State.setReg_keeps | apply State.modAx_keeps
        | apply State.modLp_keeps)
    | dsimp only)

theorem State.holdRecords_keeps {z : State} {s : State} (hs : State.Keeps z s) :
    State.Keeps z (State.holdRecords s) := by
  unfold State.holdRecords
  with_reducible repeat' (first
    | assumption | apply State.takeFree_keeps | split
    | (apply State.Keeps.upd; first
        | assumption | apply State.takeFree_keeps)
    | dsimp only)

theorem State.loseBanks_keeps {z : State} {s : State} {n : Fin 10} (hs : State.Keeps z s) :
    State.Keeps z (State.loseBanks s n) := by
  unfold State.loseBanks
  with_reducible repeat' (first
    | assumption | apply State.modCore_keeps | intro _
    | (apply State.Keeps.upd; first
        | assumption | apply State.modCore_keeps)
    | dsimp only)

theorem State.takeOver_keeps {z : State} {s : State} {n sp : Fin 10} (hs : State.Keeps z s) :
    State.Keeps z (State.takeOver s n sp) := by
  unfold State.takeOver
  with_reducible repeat' (first
    | assumption | apply State.fset_keeps | apply State.setFlag_keeps | apply State.modCore_keeps
    | apply State.loseBanks_keeps | apply forList_keeps | apply State.holdOuter_keeps
    | apply State.holdRecords_keeps | apply State.disposeSlot_keeps | intro _ | split
    | (apply State.Keeps.upd; first
        | assumption | apply State.fset_keeps | apply State.setFlag_keeps | apply State.modCore_keeps
        | apply State.loseBanks_keeps | apply forList_keeps | apply State.holdOuter_keeps
        | apply State.holdRecords_keeps | apply State.disposeSlot_keeps)
    | dsimp only)

theorem State.coreFault_keeps {z : State} {s : State} {n : Fin 10} {cause : CoreCause} (hs : State.Keeps z s) :
    State.Keeps z (State.coreFault s n cause) := by
  unfold State.coreFault
  with_reducible repeat' (first
    | assumption | apply State.fset_keeps | apply State.modCore_keeps | apply State.raiseF3_keeps
    | apply State.takeOver_keeps | apply State.raiseFault_keeps | intro _ | split
    | (apply State.Keeps.upd; first
        | assumption | apply State.fset_keeps | apply State.modCore_keeps | apply State.raiseF3_keeps
        | apply State.takeOver_keeps | apply State.raiseFault_keeps)
    | dsimp only)

theorem State.coreReplay_keeps {z : State} {s : State} {n : Fin 10} (hs : State.Keeps z s) :
    State.Keeps z (State.coreReplay s n) := by
  unfold State.coreReplay
  with_reducible repeat' (first
    | assumption | apply State.countFault_keeps | apply State.finc_keeps | apply State.modCore_keeps
    | apply State.coreFault_keeps | intro _ | split
    | (apply State.Keeps.upd; first
        | assumption | apply State.countFault_keeps | apply State.finc_keeps | apply State.modCore_keeps
        | apply State.coreFault_keeps)
    | dsimp only)

theorem State.panRead_keeps {z : State} {s : State} {n : Fin 10} {a : Nat} (hs : State.Keeps z s) :
    State.Keeps z (State.panRead s n a).2 := by
  unfold State.panRead
  with_reducible repeat' (first
    | assumption | apply State.lodge_keeps | apply State.marchTouch_keeps | apply State.coreReplay_keeps
    | apply State.memFault_keeps | split | dsimp only)

theorem State.panStore_keeps {z : State} {s : State} {n : Fin 10} {a v : Nat} (hs : State.Keeps z s) :
    State.Keeps z (State.panStore s n a v) := by
  unfold State.panStore
  with_reducible repeat' (first
    | assumption | apply State.lodge_keeps | apply State.marchTouch_keeps | apply State.panWrite_keeps | split
    | dsimp only)

theorem State.panAtomic_keeps {z : State} {s : State} {n : Fin 10} {a : Nat} {f : Nat → Nat} (hs : State.Keeps z s) :
    State.Keeps z (State.panAtomic s n a f).2 := by
  unfold State.panAtomic
  with_reducible repeat' (first
    | assumption | apply State.lodge_keeps | apply State.marchTouch_keeps | apply State.coreReplay_keeps
    | apply State.memFault_keeps | apply State.panWrite_keeps | split | dsimp only)

theorem State.panComplete_keeps {z : State} {s : State} {n : Fin 10} (hs : State.Keeps z s) :
    State.Keeps z (State.panComplete s n) := by
  unfold State.panComplete
  with_reducible repeat' (first
    | assumption | apply State.modCore_keeps | apply State.panRead_keeps | apply State.panStore_keeps
    | apply State.panAtomic_keeps | intro _ | split
    | (apply State.Keeps.upd; first
        | assumption | apply State.modCore_keeps | apply State.panRead_keeps | apply State.panStore_keeps
        | apply State.panAtomic_keeps)
    | dsimp only)

theorem State.panArrive_keeps {z : State} {s : State} {n : Fin 10} (hs : State.Keeps z s) :
    State.Keeps z (State.panArrive s n) := by
  unfold State.panArrive
  with_reducible repeat' (first
    | assumption | apply State.modCore_keeps | intro _ | split
    | (apply State.Keeps.upd; first
        | assumption | apply State.modCore_keeps)
    | dsimp only)

theorem State.panWait_keeps {z : State} {n : Fin 10} {ls : List DLoc} (fuel : Nat) : ∀ {s : State}, State.Keeps z s →
    State.Keeps z (s.panWait n ls fuel) := by
  induction fuel with
  | zero => intro s hs; exact hs
  | succ k ih =>
    intro s hs
    unfold State.panWait
    dsimp only
    split
    · split
      · exact ih (State.panComplete_keeps hs)
      · exact ih (State.panArrive_keeps hs)
    · exact hs

theorem State.interlock_keeps {z : State} {s : State} {n : Fin 10} {ls : List DLoc} (hs : State.Keeps z s) :
    State.Keeps z (State.interlock s n ls) := by
  exact State.panWait_keeps 32 hs

theorem State.panIssue_keeps {z : State} {s : State} {n : Fin 10} {x : PanAcc} (hs : State.Keeps z s) :
    State.Keeps z (State.panIssue s n x) := by
  unfold State.panIssue
  with_reducible repeat' (first
    | assumption | apply State.panComplete_keeps | apply State.modCore_keeps | intro _ | split
    | (apply State.Keeps.upd; first
        | assumption | apply State.panComplete_keeps | apply State.modCore_keeps)
    | dsimp only)

theorem State.coreFinish_keeps {z : State} {s : State} {n : Fin 10} {rot : Bool} (hs : State.Keeps z s) :
    State.KeepsO z (State.coreFinish s n rot) := by
  unfold State.coreFinish
  refine ⟨?_⟩
  intro t ht
  obtain ⟨c, -, rfl⟩ := Option.map_eq_some_iff.1 ht
  exact State.Keeps.upd hs

theorem State.mSlot_keeps {z : State} {s : State} {n : Fin 10} {rot : Bool} {locs : GRegs → List DLoc}
    {dsts : GRegs → List GDst} {f : GRegs → GRegs → GRegs} (hs : State.Keeps z s) :
    State.KeepsR z (State.mSlot s n rot locs dsts f) := by
  unfold State.mSlot
  with_reducible repeat' (first
    | assumption | apply State.interlock_keeps | exact State.KeepsR.refused | apply State.KeepsR.next | intro _
    | split
    | (apply State.Keeps.upd; first
        | assumption | apply State.interlock_keeps)
    | dsimp only)

theorem State.mAcc_keeps {z : State} {s : State} {n : Fin 10} {rot : Bool} {ds : List (Fin 16)} {d : Fin 4}
    {v : GRegs → BitVec 56} {fl : GRegs → GRegs → GRegs} (hs : State.Keeps z s) :
    State.KeepsR z (State.mAcc s n rot ds d v fl) := by
  unfold State.mAcc
  with_reducible repeat' (first
    | assumption | apply State.mSlot_keeps | exact State.KeepsE.error | apply State.KeepsE.ok
    | exact State.KeepsO.none | apply State.KeepsO.some | exact State.KeepsP.error | apply State.KeepsP.ok
    | exact State.KeepsR.refused | apply State.KeepsR.next | intro _ | dsimp only)

theorem State.mSat_keeps {z : State} {s : State} {n : Fin 10} {rot : Bool} {ds : List (Fin 16)} {d : Fin 4}
    {x : GRegs → Int} {fl : GRegs → GRegs → GRegs} (hs : State.Keeps z s) :
    State.KeepsR z (State.mSat s n rot ds d x fl) := by
  unfold State.mSat
  with_reducible repeat' (first
    | assumption | apply State.mAcc_keeps | exact State.KeepsR.refused | apply State.KeepsR.next | intro _
    | dsimp only)

theorem State.mD_keeps {z : State} {s : State} {n : Fin 10} {rot : Bool} {ds : List (Fin 16)} {d : Fin 16}
    {v : GRegs → BitVec 24} {fl : GRegs → GRegs → GRegs} (hs : State.Keeps z s) :
    State.KeepsR z (State.mD s n rot ds d v fl) := by
  unfold State.mD
  with_reducible repeat' (first
    | assumption | apply State.mSlot_keeps | exact State.KeepsE.error | apply State.KeepsE.ok
    | exact State.KeepsO.none | apply State.KeepsO.some | exact State.KeepsP.error | apply State.KeepsP.ok
    | exact State.KeepsR.refused | apply State.KeepsR.next | intro _ | dsimp only)

theorem State.mPair_keeps {z : State} {s : State} {n : Fin 10} {rot : Bool} {d : Fin 2} {x y : Fin 16}
    {lo hi : GRegs → Int} {sticky : Bool} (hs : State.Keeps z s) :
    State.KeepsR z (State.mPair s n rot d x y lo hi sticky) := by
  unfold State.mPair
  with_reducible repeat' (first
    | assumption | apply State.mSlot_keeps | exact State.KeepsO.none | apply State.KeepsO.some
    | exact State.KeepsR.refused | apply State.KeepsR.next | intro _ | dsimp only)

theorem State.lSlot_keeps {z : State} {s : State} {n : Fin 10} {more : Bool} {locs : GRegs → List DLoc}
    {dsts : GRegs → List GDst} {f : State → GRegs → Option State} (hs : State.Keeps z s)
    (hf : ∀ u r, State.Keeps z u → State.KeepsO z (f u r)) : State.KeepsR z (s.lSlot n more locs dsts f) := by
  unfold State.lSlot
  split
  · exact State.KeepsR.next hs
  · have h0 : State.KeepsO z (if s.core[n].base.isSome then s.coreFinish n false else some s) :=
      State.KeepsO.ite (State.coreFinish_keeps hs) (State.KeepsO.some hs)
    split
    · exact State.KeepsR.refused
    · rename_i s0 e0
      extract_lets s1 r
      have h1 : State.Keeps z s1 := State.interlock_keeps (h0.get s0 e0)
      split
      · exact State.KeepsR.next h1
      · have h2 := hf s1 r h1
        split
        · exact State.KeepsR.refused
        · rename_i s2 e2
          have h3 := h2.get s2 e2
          split
          · exact State.KeepsR.next h3
          · split
            · exact State.KeepsR.next (State.modCore_keeps h3)
            · split
              · rename_i s3 e3
                exact State.KeepsR.next ((State.coreFinish_keeps h3).get s3 e3)
              · exact State.KeepsR.refused

theorem State.modRegs_keeps {z : State} {s : State} {n : Fin 10} {f : GRegs → GRegs} (hs : State.Keeps z s) :
    State.Keeps z (State.modRegs s n f) := by
  unfold State.modRegs
  with_reducible repeat' (first
    | assumption | apply State.modCore_keeps | intro _
    | (apply State.Keeps.upd; first
        | assumption | apply State.modCore_keeps)
    | dsimp only)

theorem State.localRead_keeps {z : State} {s : State} {n : Fin 10} {w : Nat} (hs : State.Keeps z s) :
    State.Keeps z (State.localRead s n w).2 := by
  unfold State.localRead
  with_reducible repeat' (first
    | assumption | apply State.coreReplay_keeps | apply State.memFault_keeps | split | dsimp only)

theorem State.localWrite_keeps {z : State} {s : State} {n : Fin 10} {w : Nat} {v : BitVec 24} (hs : State.Keeps z s) :
    State.Keeps z (State.localWrite s n w v) := by
  unfold State.localWrite
  with_reducible repeat' (first | assumption | apply State.localPut_keeps | dsimp only)

theorem State.gLoad_keeps {z : State} {s : State} {n : Fin 10} {more : Bool} {reg : Fin 16} {p : Fin 8} {k : PMod}
    {imm : BitVec 16} {high : Bool} (hs : State.Keeps z s) :
    State.KeepsR z (State.gLoad s n more reg p k imm high) := by
  unfold State.gLoad
  with_reducible repeat' (first
    | assumption | apply State.lSlot_keeps | apply State.modRegs_keeps | apply State.localRead_keeps
    | apply State.panIssue_keeps | exact State.KeepsO.none | apply State.KeepsO.some | exact State.KeepsR.refused
    | apply State.KeepsR.next | intro _ | split
    | (apply State.Keeps.upd; first
        | assumption | apply State.lSlot_keeps | apply State.modRegs_keeps | apply State.localRead_keeps
        | apply State.panIssue_keeps)
    | dsimp only)

theorem State.gStore_keeps {z : State} {s : State} {n : Fin 10} {more : Bool} {locs : GRegs → List DLoc} {p : Fin 8}
    {k : PMod} {imm : BitVec 16} {v : GRegs → BitVec 24} {word : BitVec 24 → Nat} {fl : GRegs → GRegs → GRegs}
    (hs : State.Keeps z s) :
    State.KeepsR z (State.gStore s n more locs p k imm v word fl) := by
  unfold State.gStore
  with_reducible repeat' (first
    | assumption | apply State.lSlot_keeps | apply State.modRegs_keeps | apply State.localWrite_keeps
    | apply State.panIssue_keeps | exact State.KeepsO.none | apply State.KeepsO.some | exact State.KeepsR.refused
    | apply State.KeepsR.next | intro _ | split
    | (apply State.Keeps.upd; first
        | assumption | apply State.lSlot_keeps | apply State.modRegs_keeps | apply State.localWrite_keeps
        | apply State.panIssue_keeps)
    | dsimp only)

theorem State.gAtomic_keeps {z : State} {s : State} {n : Fin 10} {more : Bool} {reg : Fin 16} {p : Fin 8} {k : PMod}
    {imm : BitVec 16} {mk : Nat → BitVec 24 → DLoc → PanAcc} (hs : State.Keeps z s) :
    State.KeepsR z (State.gAtomic s n more reg p k imm mk) := by
  unfold State.gAtomic
  with_reducible repeat' (first
    | assumption | apply State.lSlot_keeps | apply State.modRegs_keeps | apply State.panIssue_keeps
    | exact State.KeepsO.none | apply State.KeepsO.some | exact State.KeepsR.refused | apply State.KeepsR.next
    | intro _ | split
    | (apply State.Keeps.upd; first
        | assumption | apply State.lSlot_keeps | apply State.modRegs_keeps | apply State.panIssue_keeps)
    | dsimp only)

theorem State.parSide_keeps {z : State} {s : State} {n : Fin 10} {r : GRegs} {x : ParSide} {y : Bool}
    (hs : State.Keeps z s) :
    State.KeepsO z (State.parSide s n r x y) := by
  unfold State.parSide
  extract_lets go
  split
  · exact State.KeepsO.some hs
  · refine ⟨?_⟩
    intro t ht
    obtain ⟨q, -, rfl⟩ := Option.map_eq_some_iff.1 ht
    exact State.modRegs_keeps (State.localRead_keeps hs)
  · refine ⟨?_⟩
    intro t ht
    obtain ⟨q, -, rfl⟩ := Option.map_eq_some_iff.1 ht
    exact State.modRegs_keeps (State.localWrite_keeps hs)

theorem State.cSlot_keeps {z : State} {s : State} {n : Fin 10} {more : Bool} {locs : GRegs → List DLoc}
    {f : State → GRegs → Option State} (hs : State.Keeps z s) (hf : ∀ u r, State.Keeps z u → State.KeepsO z (f u r)) :
    State.KeepsR z (s.cSlot n more locs f) := by
  refine State.lSlot_keeps hs (fun u r hu => State.KeepsO.ite State.KeepsO.none (hf u r hu))

theorem State.setNext_keeps {z : State} {s : State} {n : Fin 10} {t : BitVec 14} (hs : State.Keeps z s) :
    State.Keeps z (State.setNext s n t) := by
  unfold State.setNext
  with_reducible repeat' (first
    | assumption | apply State.modCore_keeps | intro _
    | (apply State.Keeps.upd; first
        | assumption | apply State.modCore_keeps)
    | dsimp only)

theorem State.slotCommit_keeps {z : State} {s : State} {n : Fin 10} (hs : State.Keeps z s) :
    State.Keeps z (State.slotCommit s n) := by
  unfold State.slotCommit
  with_reducible repeat' (first
    | assumption | apply forList_keeps | apply State.setReg_keeps | apply State.modCore_keeps | intro _
    | (apply State.Keeps.upd; first
        | assumption | apply forList_keeps | apply State.setReg_keeps | apply State.modCore_keeps)
    | dsimp only)

theorem State.coreCycle_keeps {z : State} {s : State} {n : Fin 10} (hs : State.Keeps z s) :
    State.Keeps z (State.coreCycle s n) := by
  unfold State.coreCycle
  with_reducible repeat' (first
    | assumption | apply State.slotCommit_keeps | apply State.coreRestate_keeps | apply State.modCore_keeps
    | apply State.raise_keeps | intro _ | split
    | (apply State.Keeps.upd; first
        | assumption | apply State.slotCommit_keeps | apply State.coreRestate_keeps | apply State.modCore_keeps
        | apply State.raise_keeps)
    | dsimp only)

theorem State.loopCycle_keeps {z : State} {s : State} {n : Fin 64} (hs : State.Keeps z s) :
    State.Keeps z (State.loopCycle s n) := by
  unfold State.loopCycle
  with_reducible repeat' (first
    | assumption | apply State.fieldCycle_keeps | apply State.stepperCycle_keeps | split
    | (apply State.Keeps.upd; first
        | assumption | apply State.fieldCycle_keeps | apply State.stepperCycle_keeps)
    | dsimp only)

theorem State.slotStart_keeps {z : State} {s : State} {n : Fin 10} {i : Fin 32} {axes : List (Fin 64)}
    (hs : State.Keeps z s) :
    State.KeepsO z (State.slotStart s n i axes) := by
  unfold State.slotStart
  with_reducible repeat' (first
    | assumption | apply State.localPut_keeps | apply State.fset_keeps | apply State.modCore_keeps
    | apply forList_keeps | apply State.loopCycle_keeps | exact State.KeepsO.none | apply State.KeepsO.some
    | intro _ | split
    | (apply State.Keeps.upd; first
        | assumption | apply State.localPut_keeps | apply State.fset_keeps | apply State.modCore_keeps
        | apply forList_keeps | apply State.loopCycle_keeps)
    | dsimp only)

theorem State.eventStart_keeps {z : State} {s : State} {n : Fin 10} (hs : State.Keeps z s) :
    State.Keeps z (State.eventStart s n) := by
  unfold State.eventStart
  with_reducible repeat' (first
    | assumption | apply State.fset_keeps | apply State.setFlag_keeps | apply State.modCore_keeps | intro _ | split
    | (apply State.Keeps.upd; first
        | assumption | apply State.fset_keeps | apply State.setFlag_keeps | apply State.modCore_keeps)
    | dsimp only)

theorem State.dutyDeadline_keeps {z : State} {s : State} (hs : State.Keeps z s) :
    State.Keeps z (State.dutyDeadline s) := by
  unfold State.dutyDeadline
  with_reducible repeat' (first
    | assumption | apply State.finc_keeps | apply State.raise_keeps | apply foldl_keeps | intro _ | split
    | (apply State.Keeps.upd; first
        | assumption | apply State.finc_keeps | apply State.raise_keeps)
    | dsimp only)

theorem State.coreEnable_keeps {z : State} {s : State} {n : Fin 10} (hs : State.Keeps z s) :
    State.Keeps z (State.coreEnable s n) := by
  unfold State.coreEnable
  with_reducible repeat' (first
    | assumption | apply State.coreRestate_keeps | apply State.modCore_keeps | intro _ | split
    | (apply State.Keeps.upd; first
        | assumption | apply State.coreRestate_keeps | apply State.modCore_keeps)
    | dsimp only)

end Sys2Proof.Machine
end

