-- ==== Sys2Proof/Laws/KeepsLinks.lean ====
section
/-! SUPPORT. One lemma per operation: what jet link, Skew, Cellar and Threshold operations keep. -/
set_option Elab.async false
namespace Sys2Proof.Machine

theorem State.cmdMeasure_keeps {z : State} {s : State} {k : Fin 8} {x : Rat} {meas : Int} (hs : State.Keeps z s) :
    State.Keeps z (State.cmdMeasure s k x meas) := by
  unfold State.cmdMeasure
  with_reducible repeat' (first
    | assumption | apply State.fsetS_keeps | apply State.setFlag_keeps | apply State.modCmd_keeps | intro _ | split
    | (apply State.Keeps.upd; first
        | assumption | apply State.fsetS_keeps | apply State.setFlag_keeps | apply State.modCmd_keeps)
    | dsimp only)

theorem State.cmdEdge_keeps {z : State} {s : State} {k : Fin 8} {d : Int} (hs : State.Keeps z s) :
    State.Keeps z (State.cmdEdge s k d) := by
  unfold State.cmdEdge
  with_reducible repeat' (first
    | assumption | apply State.modCmd_keeps | apply State.spinSource_keeps | intro _ | split
    | (apply State.Keeps.upd; first
        | assumption | apply State.modCmd_keeps | apply State.spinSource_keeps)
    | dsimp only)

theorem State.cmdDutyEdge_keeps {z : State} {s : State} {k : Fin 8} {pair : Bool} (hs : State.Keeps z s) :
    State.Keeps z (State.cmdDutyEdge s k pair) := by
  unfold State.cmdDutyEdge
  with_reducible repeat' (first
    | assumption | apply State.cmdEdge_keeps | apply State.raise_keeps | apply State.cmdMeasure_keeps | split
    | (apply State.Keeps.upd; first
        | assumption | apply State.cmdEdge_keeps | apply State.raise_keeps | apply State.cmdMeasure_keeps)
    | dsimp only)

theorem State.cmdFreqMeasure_keeps {z : State} {s : State} {k : Fin 8} (hs : State.Keeps z s) :
    State.Keeps z (State.cmdFreqMeasure s k) := by
  unfold State.cmdFreqMeasure
  with_reducible repeat' (first | assumption | apply State.cmdMeasure_keeps | dsimp only)

theorem State.cmdFreqEdge_keeps {z : State} {s : State} {k : Fin 8} {pair : Bool} (hs : State.Keeps z s) :
    State.Keeps z (State.cmdFreqEdge s k pair) := by
  unfold State.cmdFreqEdge
  with_reducible repeat' (first | assumption | apply State.cmdEdge_keeps | apply State.cmdFreqMeasure_keeps)

theorem State.cmdSample_keeps {z : State} {s : State} {k : Fin 8} {w : BitVec 16} {pair : Bool} (hs : State.Keeps z s) :
    State.Keeps z (State.cmdSample s k w pair) := by
  unfold State.cmdSample
  with_reducible repeat' (first
    | assumption | apply State.setFlag_keeps | apply State.modCmd_keeps | apply State.cmdDutyEdge_keeps
    | apply State.cmdFreqEdge_keeps | intro _ | split
    | (apply State.Keeps.upd; first
        | assumption | apply State.setFlag_keeps | apply State.modCmd_keeps | apply State.cmdDutyEdge_keeps
        | apply State.cmdFreqEdge_keeps)
    | dsimp only)

theorem State.cmdRefresh_keeps {z : State} {s : State} {k : Fin 8} (hs : State.Keeps z s) :
    State.Keeps z (State.cmdRefresh s k) := by
  unfold State.cmdRefresh
  with_reducible repeat' (first | assumption | apply State.cmdFreqMeasure_keeps | split)

theorem State.cmdLatch_keeps {z : State} {s : State} {k : Fin 8} (hs : State.Keeps z s) :
    State.Keeps z (State.cmdLatch s k) := by
  unfold State.cmdLatch
  with_reducible repeat' (first | assumption | apply State.cmdRefresh_keeps | apply State.fset_keeps | dsimp only)

theorem State.cmdLoss_keeps {z : State} {s : State} {k : Fin 8} (hs : State.Keeps z s) :
    State.Keeps z (State.cmdLoss s k) := by
  unfold State.cmdLoss
  with_reducible repeat' (first
    | assumption | apply State.setFlag_keeps | apply State.raise_keeps | apply forFin_keeps
    | apply State.axisFault_keeps | apply State.fset_keeps | intro _ | split | dsimp only)

theorem State.cmdConfig_keeps {z : State} {s : State} {k : Fin 8} {oldMode : Nat} (hs : State.Keeps z s) :
    State.Keeps z (State.cmdConfig s k oldMode) := by
  unfold State.cmdConfig
  with_reducible repeat' (first
    | assumption | apply State.modCmd_keeps | apply State.fset_keeps | apply State.setFlag_keeps | intro _ | split
    | (apply State.Keeps.upd; first
        | assumption | apply State.modCmd_keeps | apply State.fset_keeps | apply State.setFlag_keeps)
    | dsimp only)

theorem State.sillStart_keeps {z : State} {s : State} {k : Nat} (hs : State.Keeps z s) :
    State.Keeps z (State.sillStart s k) := by
  unfold State.sillStart
  with_reducible repeat' (first
    | assumption | apply State.raise_keeps | apply State.finc_keeps | intro _ | split
    | (apply State.Keeps.upd; first
        | assumption | apply State.raise_keeps | apply State.finc_keeps)
    | dsimp only)

theorem State.sillResult_keeps {z : State} {s : State} {c : Fin 16} {code : Nat} {tag : Nat} {sampled : Nat}
    (hs : State.Keeps z s) :
    State.Keeps z (State.sillResult s c code tag sampled) := by
  unfold State.sillResult
  with_reducible repeat' (first
    | assumption | apply State.fset_keeps | apply State.raise_keeps | apply State.cmdMeasure_keeps | split
    | dsimp only)

theorem State.sillNext_keeps {z : State} {s : State} {code : Nat} (hs : State.Keeps z s) :
    State.Keeps z (State.sillNext s code) := by
  unfold State.sillNext
  with_reducible repeat' (first
    | assumption | apply State.sillResult_keeps | split
    | (apply State.Keeps.upd; first
        | assumption | apply State.sillResult_keeps)
    | dsimp only)

theorem State.jlSend_keeps {z : State} {s : State} {l : Fin 8} {f : JetFrame} (hs : State.Keeps z s) :
    State.Keeps z (State.jlSend s l f) := by
  unfold State.jlSend
  with_reducible repeat' (first
    | assumption | apply State.modJet_keeps | intro _ | split
    | (apply State.Keeps.upd; first
        | assumption | apply State.modJet_keeps)
    | dsimp only)

theorem State.jlQueue_keeps {z : State} {s : State} {l : Fin 8} {f : JetFrame} (hs : State.Keeps z s) :
    State.Keeps z (State.jlQueue s l f) := by
  unfold State.jlQueue
  with_reducible repeat' (first
    | assumption | apply State.modJet_keeps | apply State.finc_keeps | intro _ | split
    | (apply State.Keeps.upd; first
        | assumption | apply State.modJet_keeps | apply State.finc_keeps)
    | dsimp only)

theorem State.jlDepart_keeps {z : State} {s : State} {l : Fin 8} (hs : State.Keeps z s) :
    State.Keeps z (State.jlDepart s l) := by
  unfold State.jlDepart
  with_reducible repeat' (first
    | assumption | apply State.modJet_keeps | apply State.jlSend_keeps | intro _ | split
    | (apply State.Keeps.upd; first
        | assumption | apply State.modJet_keeps | apply State.jlSend_keeps)
    | dsimp only)

theorem State.jlPurge_keeps {z : State} {s : State} {l : Fin 8} (hs : State.Keeps z s) :
    State.Keeps z (State.jlPurge s l) := by
  unfold State.jlPurge
  with_reducible repeat' (first
    | assumption | apply State.finc_keeps | apply State.modJet_keeps | exact State.KeepsE.error
    | apply State.KeepsE.ok | exact State.KeepsP.error | apply State.KeepsP.ok | intro _ | split
    | (apply State.Keeps.upd; first
        | assumption | apply State.finc_keeps | apply State.modJet_keeps)
    | dsimp only)

theorem State.jlEnter_keeps {z : State} {s : State} {l : Fin 8} {st : Nat} (hs : State.Keeps z s) :
    State.Keeps z (State.jlEnter s l st) := by
  unfold State.jlEnter
  with_reducible repeat' (first
    | assumption | apply State.jlPurge_keeps | apply State.fset_keeps | apply State.modJet_keeps
    | apply State.jlQueue_keeps | intro _ | split
    | (apply State.Keeps.upd; first
        | assumption | apply State.jlPurge_keeps | apply State.fset_keeps | apply State.modJet_keeps
        | apply State.jlQueue_keeps)
    | dsimp only)

theorem State.jlAlign_keeps {z : State} {s : State} {l : Fin 8} (hs : State.Keeps z s) :
    State.Keeps z (State.jlAlign s l) := by
  unfold State.jlAlign
  with_reducible repeat' (first
    | assumption | apply State.jlEnter_keeps | apply State.modJet_keeps | intro _
    | (apply State.Keeps.upd; first
        | assumption | apply State.jlEnter_keeps | apply State.modJet_keeps)
    | dsimp only)

theorem State.jlCtrl_keeps {z : State} {s : State} {l : Fin 8} {was : Bool} {v : Nat} (hs : State.Keeps z s) :
    State.Keeps z (State.jlCtrl s l was v) := by
  unfold State.jlCtrl
  with_reducible repeat' (first
    | assumption | apply State.modJet_keeps | apply State.jlEnter_keeps | apply State.jlAlign_keeps | intro _
    | split
    | (apply State.Keeps.upd; first
        | assumption | apply State.modJet_keeps | apply State.jlEnter_keeps | apply State.jlAlign_keeps)
    | dsimp only)

theorem State.jlAligned_keeps {z : State} {s : State} {l : Fin 8} (hs : State.Keeps z s) :
    State.Keeps z (State.jlAligned s l) := by
  unfold State.jlAligned
  with_reducible repeat' (first
    | assumption | apply State.jlEnter_keeps | apply State.modJet_keeps | apply State.jlSend_keeps | intro _ | split
    | (apply State.Keeps.upd; first
        | assumption | apply State.jlEnter_keeps | apply State.modJet_keeps | apply State.jlSend_keeps)
    | dsimp only)

theorem State.jlRetrain_keeps {z : State} {s : State} {l : Fin 8} (hs : State.Keeps z s) :
    State.Keeps z (State.jlRetrain s l) := by
  unfold State.jlRetrain
  with_reducible repeat' (first | assumption | apply State.finc_keeps | apply State.jlAlign_keeps)

theorem State.jlLose_keeps {z : State} {s : State} {l : Fin 8} (hs : State.Keeps z s) :
    State.Keeps z (State.jlLose s l) := by
  unfold State.jlLose
  with_reducible repeat' (first
    | assumption | apply State.raise_keeps | apply State.finc_keeps | apply State.raiseFault_keeps
    | apply State.jlAlign_keeps | apply State.modJet_keeps | intro _ | split
    | (apply State.Keeps.upd; first
        | assumption | apply State.raise_keeps | apply State.finc_keeps | apply State.raiseFault_keeps
        | apply State.jlAlign_keeps | apply State.modJet_keeps)
    | dsimp only)

theorem State.jlErrors_keeps {z : State} {s : State} {l : Fin 8} {k : Nat} (hs : State.Keeps z s) :
    State.Keeps z (State.jlErrors s l k) := by
  unfold State.jlErrors
  with_reducible repeat' (first
    | assumption | apply State.finc_keeps | apply State.modJet_keeps | apply State.jlLose_keeps | intro _ | split
    | (apply State.Keeps.upd; first
        | assumption | apply State.finc_keeps | apply State.modJet_keeps | apply State.jlLose_keeps)
    | dsimp only)

theorem State.jlLoss_keeps {z : State} {s : State} {l : Fin 8} {aligned : Bool} {gs : List CodeGroup} {rd : Bool}
    (hs : State.Keeps z s) :
    State.Keeps z (State.jlLoss s l aligned gs rd) := by
  unfold State.jlLoss
  with_reducible repeat' (first
    | assumption | apply State.jlErrors_keeps | apply State.jlLose_keeps | split | dsimp only)

theorem State.jlTake_keeps {z : State} {s : State} {l : Fin 8} {ty : Nat} {gs : List CodeGroup} {rd : Bool}
    {k : State → Nat → List Nat → State} (hs : State.Keeps z s) (hk : ∀ u, State.Keeps z u → ∀ p pl, State.Keeps z (k u p pl)) :
    State.Keeps z (s.jlTake l ty gs rd k) := by
  unfold State.jlTake
  refine State.Keeps.ite hs ?_
  dsimp only
  split
  · exact State.Keeps.ite (hk _ hs _ _) hs
  · exact State.jlErrors_keeps (State.Keeps.ite (State.finc_keeps hs) hs)

theorem State.jlEnum_keeps {z : State} {s : State} {l : Fin 8} {gs : List CodeGroup} {rd : Bool}
    (hs : State.Keeps z s) :
    State.Keeps z (State.jlEnum s l gs rd) := by
  unfold State.jlEnum
  with_reducible repeat' (first
    | assumption | apply State.jlTake_keeps | apply State.fset_keeps | apply State.jlEnter_keeps
    | apply State.modJet_keeps | apply State.raise_keeps | apply State.jlRetrain_keeps | intro _ | split
    | (apply State.Keeps.upd; first
        | assumption | apply State.jlTake_keeps | apply State.fset_keeps | apply State.jlEnter_keeps
        | apply State.modJet_keeps | apply State.raise_keeps | apply State.jlRetrain_keeps)
    | dsimp only)

theorem State.jlEnumTimeout_keeps {z : State} {s : State} {l : Fin 8} (hs : State.Keeps z s) :
    State.Keeps z (State.jlEnumTimeout s l) := by
  unfold State.jlEnumTimeout
  with_reducible repeat' (first | assumption | apply State.raise_keeps | apply State.jlRetrain_keeps | split)

theorem State.jlReq_keeps {z : State} {s : State} {l : Fin 8} (hs : State.Keeps z s) :
    State.Keeps z (State.jlReq s l) := by
  unfold State.jlReq
  with_reducible repeat' (first
    | assumption | apply State.modJet_keeps | apply State.jlSend_keeps | apply State.jlQueue_keeps | intro _ | split
    | (apply State.Keeps.upd; first
        | assumption | apply State.modJet_keeps | apply State.jlSend_keeps | apply State.jlQueue_keeps)
    | dsimp only)

theorem State.jlRsp_keeps {z : State} {s : State} {l : Fin 8} {gs : List CodeGroup} {rd : Bool} {ui : Nat}
    (hs : State.Keeps z s) :
    State.Keeps z (State.jlRsp s l gs rd ui) := by
  unfold State.jlRsp
  with_reducible repeat' (first
    | assumption | apply State.jlTake_keeps | apply State.modJet_keeps | apply State.fsetS_keeps
    | apply State.jlQueue_keeps | exact State.KeepsE.error | apply State.KeepsE.ok | exact State.KeepsP.error
    | apply State.KeepsP.ok | apply foldl_keeps | intro _ | split
    | (apply State.Keeps.upd; first
        | assumption | apply State.jlTake_keeps | apply State.modJet_keeps | apply State.fsetS_keeps
        | apply State.jlQueue_keeps)
    | dsimp only)

theorem State.jlMeasureEnd_keeps {z : State} {s : State} {l : Fin 8} (hs : State.Keeps z s) :
    State.Keeps z (State.jlMeasureEnd s l) := by
  unfold State.jlMeasureEnd
  with_reducible repeat' (first
    | assumption | apply forList_keeps | apply State.jlSend_keeps | apply State.jlEnter_keeps
    | apply State.jlRetrain_keeps | intro _ | split | dsimp only)

theorem State.jlTmark_keeps {z : State} {s : State} {l : Fin 8} {fine : Nat} (hs : State.Keeps z s) :
    State.Keeps z (State.jlTmark s l fine) := by
  unfold State.jlTmark
  with_reducible repeat' (first
    | assumption | apply State.modJet_keeps | intro _ | split
    | (apply State.Keeps.upd; first
        | assumption | apply State.modJet_keeps)
    | dsimp only)

theorem State.jlIdle_keeps {z : State} {s : State} {l : Fin 8} (hs : State.Keeps z s) :
    State.Keeps z (State.jlIdle s l) := by
  unfold State.jlIdle
  with_reducible repeat' (first | assumption | apply State.jlQueue_keeps | intro _ | split | dsimp only)

theorem State.jlStep_keeps {z : State} {s : State} {d : Int} (hs : State.Keeps z s) :
    State.Keeps z (State.jlStep s d) := by
  unfold State.jlStep
  with_reducible repeat' (first
    | assumption | apply forFin_keeps | apply State.modJet_keeps | apply State.jlQueue_keeps
    | exact State.KeepsE.error | apply State.KeepsE.ok | exact State.KeepsP.error | apply State.KeepsP.ok | intro _
    | split
    | (apply State.Keeps.upd; first
        | assumption | apply forFin_keeps | apply State.modJet_keeps | apply State.jlQueue_keeps)
    | dsimp only)

theorem State.jlStat_keeps {z : State} {s : State} {l : Fin 8} {gs : List CodeGroup} {rd : Bool}
    (hs : State.Keeps z s) :
    State.Keeps z (State.jlStat s l gs rd) := by
  unfold State.jlStat
  with_reducible repeat' (first
    | assumption | apply State.jlTake_keeps | apply State.writeAs_keeps | apply State.fset_keeps
    | apply State.setFlag_keeps | apply State.finc_keeps | apply State.modJet_keeps | apply State.writeBytes_keeps
    | intro _ | split
    | (apply State.Keeps.upd; first
        | assumption | apply State.jlTake_keeps | apply State.writeAs_keeps | apply State.fset_keeps
        | apply State.setFlag_keeps | apply State.finc_keeps | apply State.modJet_keeps)
    | dsimp only)

theorem State.jlModLost_keeps {z : State} {s : State} {l : Fin 8} {p : Nat} (hs : State.Keeps z s) :
    State.Keeps z (State.jlModLost s l p) := by
  unfold State.jlModLost
  with_reducible repeat' (first
    | assumption | apply State.fset_keeps | apply State.raise_keeps | apply State.raiseFault_keeps | split
    | dsimp only)

theorem State.jlDownload_keeps {z : State} {s : State} {l : Fin 8} (hs : State.Keeps z s) :
    State.Keeps z (State.jlDownload s l) := by
  unfold State.jlDownload
  with_reducible repeat' (first
    | assumption | apply State.lodge_keeps | apply State.setFlag_keeps | apply State.modJet_keeps
    | apply State.parityFind_keeps | apply State.fset_keeps | apply forList_keeps | apply State.jlQueue_keeps
    | intro _ | split
    | (apply State.Keeps.upd; first
        | assumption | apply State.lodge_keeps | apply State.setFlag_keeps | apply State.modJet_keeps
        | apply State.parityFind_keeps | apply State.fset_keeps | apply forList_keeps | apply State.jlQueue_keeps)
    | dsimp only)

theorem State.jlDlTimeout_keeps {z : State} {s : State} {l : Fin 8} (hs : State.Keeps z s) :
    State.Keeps z (State.jlDlTimeout s l) := by
  unfold State.jlDlTimeout
  with_reducible repeat' (first
    | assumption | apply State.setFlag_keeps | apply State.modJet_keeps | intro _ | split
    | (apply State.Keeps.upd; first
        | assumption | apply State.setFlag_keeps | apply State.modJet_keeps)
    | dsimp only)

theorem State.barCross_keeps {z : State} {s : State} {b : Fin 16} (hs : State.Keeps z s) :
    State.Keeps z (State.barCross s b) := by
  unfold State.barCross
  with_reducible repeat' (first
    | assumption | apply forList_keeps | apply State.writeAs_keeps | apply State.writeN_keeps
    | apply State.parityFind_keeps | apply State.lodge_keeps | intro _ | dsimp only)

theorem State.staveRow_keeps {z : State} {s : State} {base m : Nat} (hs : State.Keeps z s) :
    State.Keeps z (State.staveRow s base m).2 := by
  unfold State.staveRow
  with_reducible repeat' (first
    | assumption | apply State.lodge_keeps | apply State.parityFind_keeps | exact State.KeepsE.error
    | apply State.KeepsE.ok | exact State.KeepsP.error | apply State.KeepsP.ok | intro _ | split | dsimp only)

theorem State.staveModule_keeps {z : State} {s0 : State} {b : Fin 16} {ng : Nat} {first : Bool} {m : Nat}
    (hs0 : State.Keeps z s0) :
    State.Keeps z (State.staveModule s0 b ng first m) := by
  unfold State.staveModule
  with_reducible repeat' (first
    | assumption | apply State.staveRow_keeps | apply State.writeAs_keeps | apply forList_keeps
    | apply State.writeN_keeps | apply State.raise_keeps | apply State.finc_keeps | apply State.jlQueue_keeps
    | apply State.modJet_keeps | exact State.KeepsE.error | apply State.KeepsE.ok | exact State.KeepsP.error
    | apply State.KeepsP.ok | intro _ | split
    | (apply State.Keeps.upd; first
        | assumption | apply State.staveRow_keeps | apply State.writeAs_keeps | apply forList_keeps
        | apply State.writeN_keeps | apply State.raise_keeps | apply State.finc_keeps | apply State.jlQueue_keeps
        | apply State.modJet_keeps)
    | dsimp only)

theorem State.staves_keeps {z : State} {s : State} {b : Fin 16} {ng : Nat} {first : Bool} (hs : State.Keeps z s) :
    State.Keeps z (State.staves s b ng first) := by
  unfold State.staves
  with_reducible repeat' (first
    | assumption | apply forList_keeps | apply State.staveModule_keeps | apply State.lodge_keeps
    | apply State.modBar_keeps | intro _
    | (apply State.Keeps.upd; first
        | assumption | apply forList_keeps | apply State.staveModule_keeps | apply State.lodge_keeps
        | apply State.modBar_keeps)
    | dsimp only)

theorem State.markGroup_keeps {z : State} {s : State} {b : Fin 16} {n : Nat} {ope : Int} (hs : State.Keeps z s) :
    State.Keeps z (State.markGroup s b n ope) := by
  unfold State.markGroup
  with_reducible repeat' (first
    | assumption | apply State.finc_keeps | exact State.KeepsE.error | apply State.KeepsE.ok
    | exact State.KeepsP.error | apply State.KeepsP.ok | intro _ | split
    | (apply State.Keeps.upd; first
        | assumption | apply State.finc_keeps)
    | dsimp only)

theorem State.groupRecord_keeps {z : State} {s : State} {g : MarkGroup} (hs : State.Keeps z s) :
    State.Keeps z (State.groupRecord s g) := by
  unfold State.groupRecord
  with_reducible repeat' (first
    | assumption | apply State.raise_keeps | apply State.lodge_keeps | apply forList_keeps
    | apply State.panWrite_keeps | apply State.marchTouch_keeps | apply State.fincWrap_keeps
    | exact State.KeepsE.error | apply State.KeepsE.ok | exact State.KeepsP.error | apply State.KeepsP.ok | intro _
    | split
    | (apply State.Keeps.upd; first
        | assumption | apply State.raise_keeps | apply State.lodge_keeps | apply forList_keeps
        | apply State.panWrite_keeps | apply State.marchTouch_keeps | apply State.fincWrap_keeps)
    | dsimp only)

theorem State.groupsDone_keeps {z : State} {s : State} (hs : State.Keeps z s) :
    State.Keeps z (State.groupsDone s) := by
  unfold State.groupsDone
  with_reducible repeat' (first
    | assumption | apply forList_keeps | apply State.groupRecord_keeps | intro _ | split
    | (apply State.Keeps.upd; first
        | assumption | apply forList_keeps | apply State.groupRecord_keeps)
    | dsimp only)

theorem State.skewCapture_keeps {z : State} {s : State} {k : Nat} {pos : List Int} (hs : State.Keeps z s) :
    State.Keeps z (State.skewCapture s k pos) := by
  unfold State.skewCapture
  with_reducible repeat' (first
    | assumption | apply State.finc_keeps | apply State.groupsDone_keeps | exact State.KeepsE.error
    | apply State.KeepsE.ok | exact State.KeepsP.error | apply State.KeepsP.ok | apply foldl_keeps | intro _ | split
    | (apply State.Keeps.upd; first
        | assumption | apply State.finc_keeps | apply State.groupsDone_keeps)
    | dsimp only)

theorem State.marksMissed_keeps {z : State} {s : State} (hs : State.Keeps z s) :
    State.Keeps z (State.marksMissed s) := by
  unfold State.marksMissed
  with_reducible repeat' (first
    | assumption | apply forList_keeps | apply State.finc_keeps | apply State.groupsDone_keeps
    | exact State.KeepsE.error | apply State.KeepsE.ok | exact State.KeepsP.error | apply State.KeepsP.ok | intro _
    | split
    | (apply State.Keeps.upd; first
        | assumption | apply forList_keeps | apply State.finc_keeps | apply State.groupsDone_keeps)
    | dsimp only)

theorem State.termStep_keeps {z : State} {s : State} {b i : Nat} {e : Rat} (hs : State.Keeps z s) :
    State.Keeps z (State.termStep s b i e) := by
  unfold State.termStep
  with_reducible repeat' (first
    | assumption | apply State.raise_keeps | apply State.wsetS_keeps | split | dsimp only)

theorem State.onGroup_keeps {z : State} {s : State} {r : GroupRec} (hs : State.Keeps z s) :
    State.Keeps z (State.onGroup s r) := by
  unfold State.onGroup
  with_reducible repeat' (first
    | assumption | apply forList_keeps | apply State.termStep_keeps | exact State.KeepsE.error
    | apply State.KeepsE.ok | exact State.KeepsP.error | apply State.KeepsP.ok | intro _ | split | dsimp only)

theorem State.estimator_keeps {z : State} {s : State} (hs : State.Keeps z s) :
    State.Keeps z (State.estimator s) := by
  unfold State.estimator
  with_reducible repeat' (first
    | assumption | apply forList_keeps | apply State.onGroup_keeps | intro _
    | (apply State.Keeps.upd; first
        | assumption | apply forList_keeps | apply State.onGroup_keeps)
    | dsimp only)

theorem State.barState_keeps {z : State} {s : State} {b : Fin 16} (hs : State.Keeps z s) :
    State.Keeps z (State.barState s b) := by
  unfold State.barState
  with_reducible repeat' (first | assumption | apply State.fset_keeps | apply State.raise_keeps | split | dsimp only)

theorem State.barRun_keeps {z : State} {s : State} {b : Fin 16} {nextAt : Nat} (hs : State.Keeps z s) :
    State.Keeps z (State.barRun s b nextAt) := by
  unfold State.barRun
  with_reducible repeat' (first
    | assumption | apply State.barState_keeps | apply State.fset_keeps | apply State.wsetS_keeps
    | apply State.finc_keeps | apply State.modBar_keeps | apply forList_keeps | apply State.jlQueue_keeps
    | apply State.markGroup_keeps | apply State.groupsDone_keeps | exact State.KeepsE.error | apply State.KeepsE.ok
    | exact State.KeepsP.error | apply State.KeepsP.ok | intro _ | split
    | (apply State.Keeps.upd; first
        | assumption | apply State.barState_keeps | apply State.fset_keeps | apply State.wsetS_keeps
        | apply State.finc_keeps | apply State.modBar_keeps | apply forList_keeps | apply State.jlQueue_keeps
        | apply State.markGroup_keeps | apply State.groupsDone_keeps)
    | dsimp only)

theorem State.barEnable_keeps {z : State} {s : State} {b : Fin 16} (hs : State.Keeps z s) :
    State.Keeps z (State.barEnable s b) := by
  unfold State.barEnable
  with_reducible repeat' (first
    | assumption | apply State.fset_keeps | apply State.modBar_keeps | apply State.barCross_keeps
    | apply State.staves_keeps | intro _ | split
    | (apply State.Keeps.upd; first
        | assumption | apply State.fset_keeps | apply State.modBar_keeps | apply State.barCross_keeps
        | apply State.staves_keeps)
    | dsimp only)

theorem State.barCreset_keeps {z : State} {s : State} {b : Fin 16} (hs : State.Keeps z s) :
    State.Keeps z (State.barCreset s b) := by
  unfold State.barCreset
  with_reducible repeat' (first
    | assumption | apply State.modBar_keeps | intro _
    | (apply State.Keeps.upd; first
        | assumption | apply State.modBar_keeps)
    | dsimp only)

theorem State.skewTick_keeps {z : State} {s : State} {fp : Bool} {nextAt k every : Nat} (hs : State.Keeps z s) :
    State.Keeps z (State.skewTick s fp nextAt k every) := by
  unfold State.skewTick
  with_reducible repeat' (first
    | assumption | apply forFin_keeps | apply State.wset_keeps | apply State.modBar_keeps
    | apply State.barEnable_keeps | apply State.barRun_keeps | apply State.estimator_keeps
    | apply State.marksMissed_keeps | apply State.staves_keeps | intro _ | split
    | (apply State.Keeps.upd; first
        | assumption | apply forFin_keeps | apply State.wset_keeps | apply State.modBar_keeps
        | apply State.barEnable_keeps | apply State.barRun_keeps | apply State.estimator_keeps
        | apply State.marksMissed_keeps | apply State.staves_keeps)
    | dsimp only)

theorem State.modCel_keeps {z : State} {s : State} {f : Cellar → Cellar} (hs : State.Keeps z s) :
    State.Keeps z (State.modCel s f) := by
  unfold State.modCel
  with_reducible repeat' (first
    | assumption
    | (apply State.Keeps.upd; first
        | assumption))

theorem State.probeArm_keeps {z : State} {s : State} {i : Nat} (hs : State.Keeps z s) :
    State.Keeps z (State.probeArm s i) := by
  unfold State.probeArm
  with_reducible repeat' (first
    | assumption | apply State.lodge_keeps | apply State.modCel_keeps | apply State.memFault_keeps | intro _ | split
    | (apply State.Keeps.upd; first
        | assumption | apply State.lodge_keeps | apply State.modCel_keeps | apply State.memFault_keeps)
    | dsimp only)

theorem State.celArm_keeps {z : State} {s : State} (hs : State.Keeps z s) :
    State.Keeps z (State.celArm s) := by
  unfold State.celArm
  with_reducible repeat' (first
    | assumption | apply State.fset_keeps | apply State.setFlag_keeps | apply State.wset_keeps | apply forList_keeps
    | apply State.probeArm_keeps | exact State.KeepsE.error | apply State.KeepsE.ok | exact State.KeepsP.error
    | apply State.KeepsP.ok | intro _ | split
    | (apply State.Keeps.upd; first
        | assumption | apply State.fset_keeps | apply State.setFlag_keeps | apply State.wset_keeps
        | apply forList_keeps | apply State.probeArm_keeps)
    | dsimp only)

theorem State.celWord_keeps {z : State} {s : State} {a v : Nat} (hs : State.Keeps z s) :
    State.Keeps z (State.celWord s a v) := by
  unfold State.celWord
  with_reducible repeat' (first
    | assumption | apply State.lodge_keeps | apply State.setMem32_keeps | apply State.parityCure_keeps | split
    | dsimp only)

theorem State.celWrite_keeps {z : State} {s : State} {a : Nat} {ws : List Nat} (hs : State.Keeps z s) :
    State.Keeps z (State.celWrite s a ws) := by
  unfold State.celWrite
  with_reducible repeat' (first
    | assumption | apply forList_keeps | apply State.celWord_keeps | intro _ | dsimp only)

theorem State.celHeader_keeps {z : State} {s : State} {t : CelTrig} (hs : State.Keeps z s) :
    State.Keeps z (State.celHeader s t) := by
  unfold State.celHeader
  with_reducible repeat' (first | assumption | apply State.celWrite_keeps | apply State.finc_keeps | dsimp only)

theorem State.celEnd_keeps {z : State} {s : State} {t : CelTrig} {at' : Nat} (hs : State.Keeps z s) :
    State.Keeps z (State.celEnd s t at') := by
  unfold State.celEnd
  with_reducible repeat' (first
    | assumption | apply State.celHeader_keeps | apply State.fset_keeps | apply State.modCel_keeps | intro _ | split
    | (apply State.Keeps.upd; first
        | assumption | apply State.celHeader_keeps | apply State.fset_keeps | apply State.modCel_keeps)
    | dsimp only)

theorem State.celTriggers_keeps {z : State} {s : State} {evs : List CelEvent} {mask : Nat} {forced : Bool}
    (hs : State.Keeps z s) :
    State.Keeps z (State.celTriggers s evs mask forced).2 := by
  unfold State.celTriggers
  with_reducible repeat' (first
    | assumption | apply State.modCel_keeps | apply State.rafTrig_keeps | apply foldl_keeps | intro _ | split
    | (apply State.Keeps.upd; first
        | assumption | apply State.modCel_keeps | apply State.rafTrig_keeps)
    | dsimp only)

theorem State.celLast_keeps {z : State} {s : State} {t : Nat × Bool × Bool} {ns : Nat} (hs : State.Keeps z s) :
    State.Keeps z (State.celLast s t ns) := by
  unfold State.celLast
  with_reducible repeat' (first
    | assumption | apply State.raise_keeps | apply State.fset_keeps | apply State.setFlag_keeps | dsimp only)

theorem State.celAble_keeps {z : State} {s : State} {at' : Nat} (hs : State.Keeps z s) :
    State.Keeps z (State.celAble s at') := by
  unfold State.celAble
  with_reducible repeat' (first
    | assumption | apply State.modCel_keeps | apply State.fset_keeps | intro _ | split
    | (apply State.Keeps.upd; first
        | assumption | apply State.modCel_keeps | apply State.fset_keeps)
    | dsimp only)

theorem State.celBuffer_keeps {z : State} {s : State} {ws : List Nat} {t : Option (Nat × Bool × Bool)}
    {idx ns at' : Nat} (hs : State.Keeps z s) :
    State.Keeps z (State.celBuffer s ws t idx ns at') := by
  unfold State.celBuffer
  with_reducible repeat' (first
    | assumption | apply State.celWrite_keeps | apply State.modCel_keeps | apply State.finc_keeps
    | apply State.fset_keeps | apply State.celEnd_keeps | exact State.KeepsE.error | apply State.KeepsE.ok
    | exact State.KeepsP.error | apply State.KeepsP.ok | intro _ | split
    | (apply State.Keeps.upd; first
        | assumption | apply State.celWrite_keeps | apply State.modCel_keeps | apply State.finc_keeps
        | apply State.fset_keeps | apply State.celEnd_keeps)
    | dsimp only)

theorem State.celMark_keeps {z : State} {s : State} {kind idx ns : Nat} {ws : List Nat} (hs : State.Keeps z s) :
    State.Keeps z (State.celMark s kind idx ns ws) := by
  unfold State.celMark
  with_reducible repeat' (first
    | assumption | apply State.modCel_keeps | apply State.raise_keeps | intro _ | split
    | (apply State.Keeps.upd; first
        | assumption | apply State.modCel_keeps | apply State.raise_keeps)
    | dsimp only)

theorem State.celStream_keeps {z : State} {s : State} {ws : List Nat} {evs : List CelEvent}
    {t : Option (Nat × Bool × Bool)} {idx ns at' : Nat} (hs : State.Keeps z s) :
    State.Keeps z (State.celStream s ws evs t idx ns at') := by
  unfold State.celStream
  with_reducible repeat' (first
    | assumption | apply forList_keeps | apply State.celMark_keeps | apply State.modCel_keeps
    | apply State.finc_keeps | apply State.raise_keeps | intro _ | split
    | (apply State.Keeps.upd; first
        | assumption | apply forList_keeps | apply State.celMark_keeps | apply State.modCel_keeps
        | apply State.finc_keeps | apply State.raise_keeps)
    | dsimp only)

theorem State.celDue_keeps {z : State} {s : State} (hs : State.Keeps z s) :
    State.KeepsQ z (State.celDue s) := by
  unfold State.celDue
  with_reducible repeat' (first
    | assumption | apply State.modCel_keeps | exact State.KeepsQ.none | apply State.KeepsQ.some | intro _ | split
    | (apply State.Keeps.upd; first
        | assumption | apply State.modCel_keeps)
    | dsimp only)

theorem State.celSample_keeps {z : State} {s : State} {bs : List Balls} (hs : State.Keeps z s) :
    State.Keeps z (State.celSample s bs) := by
  unfold State.celSample
  split
  · exact hs
  · split
    · exact hs
    · rename_i at' s0 e0
      have h0 : State.Keeps z s0 := (State.celDue_keeps hs).get _ e0
      extract_lets c idx s1 near ns now row evs mask s2 q s3 s4 s5
      have h1 : State.Keeps z s1 := State.modCel_keeps (State.wset_keeps h0)
      refine State.Keeps.ite (State.modCel_keeps (State.finc_keeps (State.raise_keeps h1))) ?_
      have h2 : State.Keeps z s2 := State.celAble_keeps (State.Keeps.upd h1)
      have h3 : State.Keeps z s3 := State.celTriggers_keeps h2
      have h4 : State.Keeps z s4 := by
        have : ∀ o : Option (Nat × Bool × Bool), State.Keeps z (match o with
            | some t => s3.celLast t ns
            | none => s3) := by
          intro o
          cases o with
          | some t => exact State.celLast_keeps h3
          | none => exact h3
        exact this q.1
      exact State.modCel_keeps (State.Keeps.ite (State.celStream_keeps h4) (State.celBuffer_keeps h4))

theorem State.celAuto_keeps {z : State} {s : State} (hs : State.Keeps z s) :
    State.Keeps z (State.celAuto s) := by
  unfold State.celAuto
  with_reducible repeat' (first
    | assumption | apply State.modCel_keeps | intro _ | split
    | (apply State.Keeps.upd; first
        | assumption | apply State.modCel_keeps)
    | dsimp only)

theorem State.celStop_keeps {z : State} {s : State} (hs : State.Keeps z s) :
    State.Keeps z (State.celStop s) := by
  unfold State.celStop
  with_reducible repeat' (first
    | assumption | apply State.celHeader_keeps | apply State.modCel_keeps | apply State.fset_keeps | intro _ | split
    | (apply State.Keeps.upd; first
        | assumption | apply State.celHeader_keeps | apply State.modCel_keeps | apply State.fset_keeps)
    | dsimp only)

theorem State.celForce_keeps {z : State} {s : State} (hs : State.Keeps z s) :
    State.Keeps z (State.celForce s) := by
  unfold State.celForce
  with_reducible repeat' (first
    | assumption | apply State.modCel_keeps | intro _ | split
    | (apply State.Keeps.upd; first
        | assumption | apply State.modCel_keeps)
    | dsimp only)

theorem State.celCycle_keeps {z : State} {s : State} {k : Nat} {first fv fp : Bool} (hs : State.Keeps z s) :
    State.Keeps z (State.celCycle s k first fv fp) := by
  unfold State.celCycle
  with_reducible repeat' (first
    | assumption | apply State.modCel_keeps | apply State.celEvent_keeps | intro _ | split
    | (apply State.Keeps.upd; first
        | assumption | apply State.modCel_keeps | apply State.celEvent_keeps)
    | dsimp only)

theorem State.celStep_keeps {z : State} {s : State} {d : Int} (hs : State.Keeps z s) :
    State.Keeps z (State.celStep s d) := by
  unfold State.celStep
  with_reducible repeat' (first
    | assumption | apply State.raise_keeps | apply State.modCel_keeps | intro _ | split
    | (apply State.Keeps.upd; first
        | assumption | apply State.raise_keeps | apply State.modCel_keeps)
    | dsimp only)

theorem State.celDatagram_keeps {z : State} {s : State} (hs : State.Keeps z s) :
    State.KeepsQ z (State.celDatagram s) := by
  unfold State.celDatagram
  with_reducible repeat' (first
    | assumption | apply State.modCel_keeps | apply State.finc_keeps | apply State.raise_keeps
    | exact State.KeepsE.error | apply State.KeepsE.ok | exact State.KeepsP.error | apply State.KeepsP.ok
    | exact State.KeepsQ.none | apply State.KeepsQ.some | intro _ | split
    | (apply State.Keeps.upd; first
        | assumption | apply State.modCel_keeps | apply State.finc_keeps | apply State.raise_keeps)
    | dsimp only)

theorem State.modThr_keeps {z : State} {s : State} {f : Thr → Thr} (hs : State.Keeps z s) :
    State.Keeps z (State.modThr s f) := by
  unfold State.modThr
  with_reducible repeat' (first
    | assumption
    | (apply State.Keeps.upd; first
        | assumption))

theorem State.modThCh_keeps {z : State} {s : State} {c : Fin 2} {f : ThrCh → ThrCh} (hs : State.Keeps z s) :
    State.Keeps z (State.modThCh s c f) := by
  unfold State.modThCh
  with_reducible repeat' (first
    | assumption | apply State.modThr_keeps | intro _
    | (apply State.Keeps.upd; first
        | assumption | apply State.modThr_keeps)
    | dsimp only)

theorem State.modThGrp_keeps {z : State} {s : State} {g : Fin 4} {f : ThrGrp → ThrGrp} (hs : State.Keeps z s) :
    State.Keeps z (State.modThGrp s g f) := by
  unfold State.modThGrp
  with_reducible repeat' (first
    | assumption | apply State.modThr_keeps | intro _
    | (apply State.Keeps.upd; first
        | assumption | apply State.modThr_keeps)
    | dsimp only)

theorem State.thrMirror_keeps {z : State} {s : State} (hs : State.Keeps z s) :
    State.Keeps z (State.thrMirror s) := by
  unfold State.thrMirror
  with_reducible repeat' (first
    | assumption | apply State.setReg_keeps | apply State.fset_keeps | apply forFin_keeps | intro _ | dsimp only)

theorem State.thrRecord_keeps {z : State} {s : State} {inst : Nat} (hs : State.Keeps z s) :
    State.Keeps z (State.thrRecord s inst) := by
  unfold State.thrRecord
  with_reducible repeat' (first
    | assumption | apply State.raiseFault_keeps | split
    | (apply State.Keeps.upd; first
        | assumption | apply State.raiseFault_keeps)
    | dsimp only)

theorem State.thrEffect_keeps {z : State} {s : State} (hs : State.Keeps z s) :
    State.Keeps z (State.thrEffect s) := by
  unfold State.thrEffect
  with_reducible repeat' (first
    | assumption | apply forFin_keeps | apply State.axisFault_keeps | apply State.gateUpdate_keeps
    | apply foldl_keeps | intro _ | split
    | (apply State.Keeps.upd; first
        | assumption | apply forFin_keeps | apply State.axisFault_keeps | apply State.gateUpdate_keeps)
    | dsimp only)

theorem State.thrSwitch_keeps {z : State} {s : State} {g : Fin 4} {h l : Bool} (hs : State.Keeps z s) :
    State.Keeps z (State.thrSwitch s g h l) := by
  unfold State.thrSwitch
  with_reducible repeat' (first
    | assumption | apply State.modThGrp_keeps | apply State.settle_keeps | apply State.modThr_keeps
    | exact State.KeepsE.error | apply State.KeepsE.ok | exact State.KeepsP.error | apply State.KeepsP.ok | intro _
    | split
    | (apply State.Keeps.upd; first
        | assumption | apply State.modThGrp_keeps | apply State.settle_keeps | apply State.modThr_keeps)
    | dsimp only)

theorem State.thrMute_keeps {z : State} {s : State} {c : Fin 2} (hs : State.Keeps z s) :
    State.Keeps z (State.thrMute s c) := by
  unfold State.thrMute
  with_reducible repeat' (first
    | assumption | apply State.modThCh_keeps | apply State.modThr_keeps | exact State.KeepsE.error
    | apply State.KeepsE.ok | exact State.KeepsP.error | apply State.KeepsP.ok | intro _ | split
    | (apply State.Keeps.upd; first
        | assumption | apply State.modThCh_keeps | apply State.modThr_keeps)
    | dsimp only)

theorem State.thrClockStop_keeps {z : State} {s : State} (hs : State.Keeps z s) :
    State.Keeps z (State.thrClockStop s) := by
  unfold State.thrClockStop
  with_reducible repeat' (first
    | assumption | apply State.thrMute_keeps | apply State.modThCh_keeps | intro _
    | (apply State.Keeps.upd; first
        | assumption | apply State.thrMute_keeps | apply State.modThCh_keeps)
    | dsimp only)

theorem State.thrForget_keeps {z : State} {s : State} {g : Fin 4} (hs : State.Keeps z s) :
    State.Keeps z (State.thrForget s g) := by
  unfold State.thrForget
  with_reducible repeat' (first
    | assumption | apply State.modThr_keeps | exact State.KeepsE.error | apply State.KeepsE.ok
    | exact State.KeepsP.error | apply State.KeepsP.ok | intro _
    | (apply State.Keeps.upd; first
        | assumption | apply State.modThr_keeps)
    | dsimp only)

theorem State.thrSto_keeps {z : State} {s : State} {g : Fin 4} {cause : Nat} (hs : State.Keeps z s) :
    State.Keeps z (State.thrSto s g cause) := by
  unfold State.thrSto
  with_reducible repeat' (first
    | assumption | apply State.modThGrp_keeps | apply State.thrForget_keeps | apply State.thrSwitch_keeps
    | apply State.thrEffect_keeps | intro _ | split
    | (apply State.Keeps.upd; first
        | assumption | apply State.modThGrp_keeps | apply State.thrForget_keeps | apply State.thrSwitch_keeps
        | apply State.thrEffect_keeps)
    | dsimp only)

theorem State.thrLock_keeps {z : State} {s : State} {g : Fin 4} {byGrace : Bool} (hs : State.Keeps z s) :
    State.Keeps z (State.thrLock s g byGrace) := by
  unfold State.thrLock
  with_reducible repeat' (first
    | assumption | apply State.modThGrp_keeps | apply State.thrSwitch_keeps | apply State.thrEffect_keeps
    | apply State.thrRecord_keeps | intro _ | split
    | (apply State.Keeps.upd; first
        | assumption | apply State.modThGrp_keeps | apply State.thrSwitch_keeps | apply State.thrEffect_keeps
        | apply State.thrRecord_keeps)
    | dsimp only)

theorem State.thrDegrade_keeps {z : State} {s : State} {g : Fin 4} {switch : Bool} (hs : State.Keeps z s) :
    State.Keeps z (State.thrDegrade s g switch) := by
  unfold State.thrDegrade
  with_reducible repeat' (first
    | assumption | apply State.thrSto_keeps | apply State.thrLock_keeps | apply State.modThGrp_keeps
    | apply State.thrRecord_keeps | intro _ | split
    | (apply State.Keeps.upd; first
        | assumption | apply State.thrSto_keeps | apply State.thrLock_keeps | apply State.modThGrp_keeps
        | apply State.thrRecord_keeps)
    | dsimp only)

theorem State.thrSwitchFault_keeps {z : State} {s : State} {g : Fin 4} {low known : Bool} (hs : State.Keeps z s) :
    State.Keeps z (State.thrSwitchFault s g low known) := by
  unfold State.thrSwitchFault
  with_reducible repeat' (first
    | assumption | apply State.modThGrp_keeps | apply State.thrDegrade_keeps | intro _ | split
    | (apply State.Keeps.upd; first
        | assumption | apply State.modThGrp_keeps | apply State.thrDegrade_keeps)
    | dsimp only)

theorem State.thrReadbackFault_keeps {z : State} {s : State} {g : Fin 4} (hs : State.Keeps z s) :
    State.Keeps z (State.thrReadbackFault s g) := by
  unfold State.thrReadbackFault
  with_reducible repeat' (first
    | assumption | apply State.modThGrp_keeps | apply State.thrDegrade_keeps | intro _ | split
    | (apply State.Keeps.upd; first
        | assumption | apply State.modThGrp_keeps | apply State.thrDegrade_keeps)
    | dsimp only)

theorem State.thrChannelFault_keeps {z : State} {s : State} {c : Fin 2} (hs : State.Keeps z s) :
    State.Keeps z (State.thrChannelFault s c) := by
  unfold State.thrChannelFault
  with_reducible repeat' (first
    | assumption | apply State.modThCh_keeps | apply State.thrRecord_keeps | apply forFin_keeps
    | apply State.modThGrp_keeps | apply State.thrLock_keeps | apply State.thrDegrade_keeps | intro _ | split
    | (apply State.Keeps.upd; first
        | assumption | apply State.modThCh_keeps | apply State.thrRecord_keeps | apply forFin_keeps
        | apply State.modThGrp_keeps | apply State.thrLock_keeps | apply State.thrDegrade_keeps)
    | dsimp only)

theorem State.thrRun_keeps {z : State} {s : State} {g : Fin 4} (hs : State.Keeps z s) :
    State.Keeps z (State.thrRun s g) := by
  unfold State.thrRun
  with_reducible repeat' (first
    | assumption | apply State.modThGrp_keeps | apply State.thrForget_keeps | apply State.thrSwitch_keeps
    | apply State.thrEffect_keeps | intro _ | split
    | (apply State.Keeps.upd; first
        | assumption | apply State.modThGrp_keeps | apply State.thrForget_keeps | apply State.thrSwitch_keeps
        | apply State.thrEffect_keeps)
    | dsimp only)

theorem State.thrSample_keeps {z : State} {s : State} {c : Fin 2} {ins : BitVec 8} {bands : BitVec 8}
    (hs : State.Keeps z s) :
    State.Keeps z (State.thrSample s c ins bands) := by
  unfold State.thrSample
  with_reducible repeat' (first
    | assumption | apply State.modThCh_keeps | apply forFin_keeps | apply State.modThGrp_keeps
    | apply State.thrForget_keeps | apply State.thrSto_keeps | exact State.KeepsE.error | apply State.KeepsE.ok
    | exact State.KeepsP.error | apply State.KeepsP.ok | intro _ | split
    | (apply State.Keeps.upd; first
        | assumption | apply State.modThCh_keeps | apply forFin_keeps | apply State.modThGrp_keeps
        | apply State.thrForget_keeps | apply State.thrSto_keeps)
    | dsimp only)

theorem State.thrDiscrepancy_keeps {z : State} {s : State} {c : Fin 2} {g : Fin 4} (hs : State.Keeps z s) :
    State.Keeps z (State.thrDiscrepancy s c g) := by
  unfold State.thrDiscrepancy
  with_reducible repeat' (first
    | assumption | apply State.modThCh_keeps | apply State.modThGrp_keeps | apply State.thrSto_keeps | intro _
    | split
    | (apply State.Keeps.upd; first
        | assumption | apply State.modThCh_keeps | apply State.modThGrp_keeps | apply State.thrSto_keeps)
    | dsimp only)

theorem State.thrAccused_keeps {z : State} {s : State} {g : Fin 4} {band : Nat} (hs : State.Keeps z s) :
    State.Keeps z (State.thrAccused s g band).2 := by
  unfold State.thrAccused
  with_reducible repeat' (first | assumption | apply State.takeFree_keeps | split | dsimp only)

theorem State.thrReadback_keeps {z : State} {s : State} {c : Fin 2} {g : Fin 4} (hs : State.Keeps z s) :
    State.Keeps z (State.thrReadback s c g) := by
  unfold State.thrReadback
  with_reducible repeat' (first
    | assumption | apply State.settle_keeps | apply State.modThCh_keeps | apply State.modThGrp_keeps
    | apply State.thrReadbackFault_keeps | apply State.thrAccused_keeps | apply State.thrSwitchFault_keeps | intro _
    | split
    | (apply State.Keeps.upd; first
        | assumption | apply State.settle_keeps | apply State.modThCh_keeps | apply State.modThGrp_keeps
        | apply State.thrReadbackFault_keeps | apply State.thrAccused_keeps | apply State.thrSwitchFault_keeps)
    | dsimp only)

theorem State.thrDecide_keeps {z : State} {s : State} {c : Fin 2} {g : Fin 4} (hs : State.Keeps z s) :
    State.Keeps z (State.thrDecide s c g) := by
  unfold State.thrDecide
  with_reducible repeat' (first
    | assumption | apply State.modThCh_keeps | apply State.thrRun_keeps | apply State.modThr_keeps
    | apply State.thrForget_keeps | apply State.modThGrp_keeps | intro _ | split
    | (apply State.Keeps.upd; first
        | assumption | apply State.modThCh_keeps | apply State.thrRun_keeps | apply State.modThr_keeps
        | apply State.thrForget_keeps | apply State.modThGrp_keeps)
    | dsimp only)

theorem State.thrGroupTick_keeps {z : State} {s : State} {c : Fin 2} {g : Fin 4} (hs : State.Keeps z s) :
    State.Keeps z (State.thrGroupTick s c g) := by
  unfold State.thrGroupTick
  with_reducible repeat' (first
    | assumption | apply State.thrDecide_keeps | apply State.thrDiscrepancy_keeps | apply State.modThGrp_keeps
    | apply State.thrSto_keeps | apply State.thrReadback_keeps | intro _ | split
    | (apply State.Keeps.upd; first
        | assumption | apply State.thrDecide_keeps | apply State.thrDiscrepancy_keeps | apply State.modThGrp_keeps
        | apply State.thrSto_keeps | apply State.thrReadback_keeps)
    | dsimp only)

theorem State.thrJudge_keeps {z : State} {s : State} (hs : State.Keeps z s) :
    State.Keeps z (State.thrJudge s) := by
  unfold State.thrJudge
  with_reducible repeat' (first
    | assumption | apply State.modThr_keeps | apply forFin_keeps | apply State.modThGrp_keeps
    | apply State.thrEffect_keeps | intro _ | split
    | (apply State.Keeps.upd; first
        | assumption | apply State.modThr_keeps | apply forFin_keeps | apply State.modThGrp_keeps
        | apply State.thrEffect_keeps)
    | dsimp only)

theorem State.thrOffer_keeps {z : State} {s : State} {sec : List Nat} (hs : State.Keeps z s) :
    State.Keeps z (State.thrOffer s sec) := by
  unfold State.thrOffer
  with_reducible repeat' (first
    | assumption | apply State.modThr_keeps | apply State.thrJudge_keeps | intro _
    | (apply State.Keeps.upd; first
        | assumption | apply State.modThr_keeps | apply State.thrJudge_keeps)
    | dsimp only)

theorem State.thrTick_keeps {z : State} {s : State} {c : Fin 2} {refclk : Refclk} {badParity : Bool}
    (hs : State.Keeps z s) :
    State.Keeps z (State.thrTick s c refclk badParity) := by
  unfold State.thrTick
  with_reducible repeat' (first
    | assumption | apply State.thrChannelFault_keeps | apply State.thrMirror_keeps | apply State.modThr_keeps
    | apply State.thrRecord_keeps | apply State.thrClockStop_keeps | apply forFin_keeps
    | apply State.thrGroupTick_keeps | intro _ | split
    | (apply State.Keeps.upd; first
        | assumption | apply State.thrChannelFault_keeps | apply State.thrMirror_keeps | apply State.modThr_keeps
        | apply State.thrRecord_keeps | apply State.thrClockStop_keeps | apply forFin_keeps
        | apply State.thrGroupTick_keeps)
    | dsimp only)

theorem State.thrRequest_keeps {z : State} {s : State} {key groups : Nat} (hs : State.Keeps z s) :
    State.Keeps z (State.thrRequest s key groups) := by
  unfold State.thrRequest
  with_reducible repeat' (first
    | assumption | apply forFin_keeps | apply State.modThGrp_keeps | apply State.thrForget_keeps | intro _ | split
    | (apply State.Keeps.upd; first
        | assumption | apply forFin_keeps | apply State.modThGrp_keeps | apply State.thrForget_keeps)
    | dsimp only)

theorem State.thrDark_keeps {z : State} {s : State} {g : Fin 4} (hs : State.Keeps z s) :
    State.Keeps z (State.thrDark s g) := by
  unfold State.thrDark
  with_reducible repeat' (first
    | assumption | apply State.modThGrp_keeps | apply State.thrSwitch_keeps | intro _ | split
    | (apply State.Keeps.upd; first
        | assumption | apply State.modThGrp_keeps | apply State.thrSwitch_keeps)
    | dsimp only)

theorem State.thrDarkLow_keeps {z : State} {s : State} {g : Fin 4} (hs : State.Keeps z s) :
    State.Keeps z (State.thrDarkLow s g) := by
  unfold State.thrDarkLow
  with_reducible repeat' (first
    | assumption | apply State.modThGrp_keeps | apply State.thrSwitch_keeps | intro _ | split
    | (apply State.Keeps.upd; first
        | assumption | apply State.modThGrp_keeps | apply State.thrSwitch_keeps)
    | dsimp only)

theorem State.thrDarkEnd_keeps {z : State} {s : State} {g : Fin 4} (hs : State.Keeps z s) :
    State.Keeps z (State.thrDarkEnd s g) := by
  unfold State.thrDarkEnd
  with_reducible repeat' (first
    | assumption | apply State.modThGrp_keeps | apply State.thrSwitch_keeps | apply State.thrSwitchFault_keeps
    | intro _ | split
    | (apply State.Keeps.upd; first
        | assumption | apply State.modThGrp_keeps | apply State.thrSwitch_keeps | apply State.thrSwitchFault_keeps)
    | dsimp only)

theorem State.thrGrace_keeps {z : State} {s : State} {g : Fin 4} (hs : State.Keeps z s) :
    State.Keeps z (State.thrGrace s g) := by
  unfold State.thrGrace
  with_reducible repeat' (first | assumption | apply State.thrLock_keeps | split)

theorem State.thrMessage_keeps {z : State} {s : State} {c : Fin 2} {sameCrc : Bool} {interval : Nat}
    (hs : State.Keeps z s) :
    State.Keeps z (State.thrMessage s c sameCrc interval) := by
  unfold State.thrMessage
  with_reducible repeat' (first
    | assumption | apply State.thrChannelFault_keeps | apply State.modThCh_keeps | apply forFin_keeps
    | apply State.thrRun_keeps | intro _ | split
    | (apply State.Keeps.upd; first
        | assumption | apply State.thrChannelFault_keeps | apply State.modThCh_keeps | apply forFin_keeps
        | apply State.thrRun_keeps)
    | dsimp only)

theorem State.thrSilence_keeps {z : State} {s : State} {c : Fin 2} (hs : State.Keeps z s) :
    State.Keeps z (State.thrSilence s c) := by
  unfold State.thrSilence
  with_reducible repeat' (first | assumption | apply State.thrChannelFault_keeps | split | dsimp only)

theorem State.thrStarted_keeps {z : State} {s : State} {c : Fin 2} {pass : Bool} (hs : State.Keeps z s) :
    State.Keeps z (State.thrStarted s c pass) := by
  unfold State.thrStarted
  with_reducible repeat' (first
    | assumption | apply State.modThr_keeps | apply State.modThCh_keeps | apply State.thrChannelFault_keeps
    | apply State.thrJudge_keeps | exact State.KeepsE.error | apply State.KeepsE.ok | exact State.KeepsP.error
    | apply State.KeepsP.ok | intro _ | split
    | (apply State.Keeps.upd; first
        | assumption | apply State.modThr_keeps | apply State.modThCh_keeps | apply State.thrChannelFault_keeps
        | apply State.thrJudge_keeps)
    | dsimp only)

end Sys2Proof.Machine
end

