-- ==== Sys2Proof/Laws/KeepsNet.lean ====
section
/-! SUPPORT. One lemma per operation: what network, boot and cycle operations keep. -/
set_option Elab.async false
namespace Sys2Proof.Machine

theorem State.modHw_keeps {z : State} {s : State} {f : Hallway → Hallway} (hs : State.Keeps z s) :
    State.Keeps z (State.modHw s f) := by
  unfold State.modHw
  with_reducible repeat' (first
    | assumption
    | (apply State.Keeps.upd; first
        | assumption))

theorem State.portDown_keeps {z : State} {s : State} {p : Nat} (hs : State.Keeps z s) :
    State.Keeps z (State.portDown s p) := by
  unfold State.portDown
  with_reducible repeat' (first | assumption | apply State.setFlag_keeps | apply State.raise_keeps | split)

theorem State.linkChange_keeps {z : State} {s : State} {p : Nat} {up : Bool} {sgmii : Nat} {half : Bool}
    (hs : State.Keeps z s) :
    State.Keeps z (State.linkChange s p up sgmii half) := by
  unfold State.linkChange
  with_reducible repeat' (first
    | assumption | apply State.portDown_keeps | apply State.fset_keeps | apply State.setFlag_keeps
    | apply State.raise_keeps | split
    | (apply State.Keeps.upd; first
        | assumption | apply State.portDown_keeps | apply State.fset_keeps | apply State.setFlag_keeps
        | apply State.raise_keeps)
    | dsimp only)

theorem State.mdioWrite_keeps {z : State} {s : State} {w : Nat} (hs : State.Keeps z s) :
    State.Keeps z (State.mdioWrite s w) := by
  unfold State.mdioWrite
  with_reducible repeat' (first
    | assumption | apply State.setReg_keeps | apply State.setFlag_keeps | apply State.modHw_keeps | intro _ | split
    | (apply State.Keeps.upd; first
        | assumption | apply State.setReg_keeps | apply State.setFlag_keeps | apply State.modHw_keeps)
    | dsimp only)

theorem State.mdioEnd_keeps {z : State} {s : State} {data : Nat} (hs : State.Keeps z s) :
    State.Keeps z (State.mdioEnd s data) := by
  unfold State.mdioEnd
  with_reducible repeat' (first
    | assumption | apply State.setFlag_keeps | apply State.modHw_keeps | apply State.fset_keeps | intro _ | split
    | (apply State.Keeps.upd; first
        | assumption | apply State.setFlag_keeps | apply State.modHw_keeps | apply State.fset_keeps)
    | dsimp only)

theorem State.qbvApply_keeps {z : State} {s : State} {p : Fin 4} (hs : State.Keeps z s) :
    State.Keeps z (State.qbvApply s p) := by
  unfold State.qbvApply
  with_reducible repeat' (first
    | assumption | apply State.modHw_keeps | intro _
    | (apply State.Keeps.upd; first
        | assumption | apply State.modHw_keeps)
    | dsimp only)

theorem State.qbvCommit_keeps {z : State} {s : State} {p : Fin 4} (hs : State.Keeps z s) :
    State.Keeps z (State.qbvCommit s p) := by
  unfold State.qbvCommit
  with_reducible repeat' (first
    | assumption | apply State.setFlag_keeps | apply State.modHw_keeps | intro _ | split
    | (apply State.Keeps.upd; first
        | assumption | apply State.setFlag_keeps | apply State.modHw_keeps)
    | dsimp only)

theorem State.qbvStart_keeps {z : State} {s : State} {p : Fin 4} (hs : State.Keeps z s) :
    State.Keeps z (State.qbvStart s p) := by
  unfold State.qbvStart
  with_reducible repeat' (first
    | assumption | apply State.setFlag_keeps | apply State.modHw_keeps | apply State.qbvApply_keeps | intro _
    | split
    | (apply State.Keeps.upd; first
        | assumption | apply State.setFlag_keeps | apply State.modHw_keeps | apply State.qbvApply_keeps)
    | dsimp only)

theorem State.enqueue_keeps {z : State} {s : State} {p : Fin 4} {f : EFrame} (hs : State.Keeps z s) :
    State.Keeps z (State.enqueue s p f) := by
  unfold State.enqueue
  with_reducible repeat' (first
    | assumption | apply State.modHw_keeps | apply State.finc_keeps | intro _ | split
    | (apply State.Keeps.upd; first
        | assumption | apply State.modHw_keeps | apply State.finc_keeps)
    | dsimp only)

theorem State.toMgmt_keeps {z : State} {s : State} {f : HRx} (hs : State.Keeps z s) :
    State.Keeps z (State.toMgmt s f) := by
  unfold State.toMgmt
  with_reducible repeat' (first
    | assumption | apply State.modHw_keeps | apply foldl_keeps | intro _ | split
    | (apply State.Keeps.upd; first
        | assumption | apply State.modHw_keeps)
    | dsimp only)

theorem State.mgmtTake_keeps {z : State} {s : State} (hs : State.Keeps z s) :
    State.Keeps z (State.mgmtTake s) := by
  unfold State.mgmtTake
  with_reducible repeat' (first
    | assumption | apply State.modHw_keeps | intro _
    | (apply State.Keeps.upd; first
        | assumption | apply State.modHw_keeps)
    | dsimp only)

theorem State.vlan_keeps {z : State} {s : State} {vid : Nat} (hs : State.Keeps z s) :
    State.Keeps z (State.vlan s vid).2 := by
  unfold State.vlan
  with_reducible repeat' (first
    | assumption | apply State.takeFree_keeps | intro _ | split
    | (apply State.Keeps.upd; first
        | assumption | apply State.takeFree_keeps)
    | dsimp only)

theorem State.learn_keeps {z : State} {s : State} {mac : Nat} {p : Fin 4} (hs : State.Keeps z s) :
    State.Keeps z (State.learn s mac p) := by
  unfold State.learn
  with_reducible repeat' (first
    | assumption | apply State.modHw_keeps | intro _ | split
    | (apply State.Keeps.upd; first
        | assumption | apply State.modHw_keeps)
    | dsimp only)

theorem State.macAge_keeps {z : State} {s : State} {mac : Nat} (hs : State.Keeps z s) :
    State.Keeps z (State.macAge s mac) := by
  unfold State.macAge
  with_reducible repeat' (first
    | assumption | apply State.modHw_keeps | intro _
    | (apply State.Keeps.upd; first
        | assumption | apply State.modHw_keeps)
    | dsimp only)

theorem State.announceHeard_keeps {z : State} {s : State} {p : Fin 4} {b : List Nat} (hs : State.Keeps z s) :
    State.Keeps z (State.announceHeard s p b) := by
  unfold State.announceHeard
  with_reducible repeat' (first
    | assumption | split
    | (apply State.Keeps.upd; first
        | assumption)
    | dsimp only)

theorem State.forward_keeps {z : State} {s : State} {v : Nat} {ports : List (Fin 4)} {b : List Nat} {pcp vid : Nat}
    {rw : TxRewrite} (hs : State.Keeps z s) :
    State.Keeps z (State.forward s v ports b pcp vid rw) := by
  unfold State.forward
  with_reducible repeat' (first
    | assumption | apply forList_keeps | apply State.enqueue_keeps | intro _ | dsimp only)

theorem State.hwReceive_keeps {z : State} {s : State} {p : Fin 4} {frame : List Nat} {ago : Nat}
    (hs : State.Keeps z s) :
    State.Keeps z (State.hwReceive s p frame ago).2 := by
  unfold State.hwReceive
  with_reducible repeat' (first
    | assumption | apply State.finc_keeps | apply State.vlan_keeps | apply State.learn_keeps
    | apply State.announceHeard_keeps | apply State.toMgmt_keeps | apply State.forward_keeps | split
    | (apply State.Keeps.upd; first
        | assumption | apply State.finc_keeps | apply State.vlan_keeps | apply State.learn_keeps
        | apply State.announceHeard_keeps | apply State.toMgmt_keeps | apply State.forward_keeps)
    | dsimp only)

theorem State.sendFrame_keeps {z : State} {s : State} {p : Fin 4} {f : EFrame} (hs : State.Keeps z s) :
    State.Keeps z (State.sendFrame s p f) := by
  unfold State.sendFrame
  with_reducible repeat' (first
    | assumption | apply State.finc_keeps | apply State.modHw_keeps | apply State.toMgmt_keeps | intro _ | split
    | (apply State.Keeps.upd; first
        | assumption | apply State.finc_keeps | apply State.modHw_keeps | apply State.toMgmt_keeps)
    | dsimp only)

theorem State.dropTooLong_keeps {z : State} {p : Fin 4} (fuel : Nat) : ∀ {s : State}, State.Keeps z s →
    State.Keeps z (s.dropTooLong p fuel) := by
  induction fuel with
  | zero => intro s hs; exact hs
  | succ k ih =>
    intro s hs
    unfold State.dropTooLong
    split
    · exact hs
    · exact ih (State.finc_keeps (State.Keeps.upd hs))

theorem State.hwTransmit_keeps {z : State} {s0 : State} {p : Fin 4} (hs0 : State.Keeps z s0) :
    State.Keeps z (State.hwTransmit s0 p) := by
  unfold State.hwTransmit
  extract_lets s s1
  have h : State.Keeps z s := State.qbvApply_keeps (State.qbvStart_keeps hs0)
  split
  · exact h
  · split
    · exact State.dropTooLong_keeps _ h
    · exact State.sendFrame_keeps (State.modHw_keeps (State.dropTooLong_keeps _ h))

theorem State.mgmtSend_keeps {z : State} {s : State} {m : MgmtTx} (hs : State.Keeps z s) :
    State.Keeps z (State.mgmtSend s m) := by
  unfold State.mgmtSend
  with_reducible repeat' (first
    | assumption | apply forFin_keeps | apply State.enqueue_keeps | exact State.KeepsE.error | apply State.KeepsE.ok
    | exact State.KeepsP.error | apply State.KeepsP.ok | intro _ | split | dsimp only)

theorem State.modJo_keeps {z : State} {s : State} {f : Joist → Joist} (hs : State.Keeps z s) :
    State.Keeps z (State.modJo s f) := by
  unfold State.modJo
  with_reducible repeat' (first
    | assumption
    | (apply State.Keeps.upd; first
        | assumption))

theorem State.recBegin_keeps {z : State} {s : State} {r : Nat} (hs : State.Keeps z s) :
    State.Keeps z (State.recBegin s r) := by
  unfold State.recBegin
  with_reducible repeat' (first
    | assumption | apply State.modJo_keeps | intro _ | split
    | (apply State.Keeps.upd; first
        | assumption | apply State.modJo_keeps)
    | dsimp only)

theorem State.joistRecord_keeps {z : State} {s : State} {rec' : List Nat} (hs : State.Keeps z s) :
    State.Keeps z (State.joistRecord s rec') := by
  unfold State.joistRecord
  with_reducible repeat' (first
    | assumption | apply State.fset_keeps | apply State.wset_keeps | apply State.setFlag_keeps
    | apply State.recBegin_keeps | apply State.modJo_keeps | apply forList_keeps | apply State.axisFault_keeps
    | apply foldl_keeps | intro _ | split
    | (apply State.Keeps.upd; first
        | assumption | apply State.fset_keeps | apply State.wset_keeps | apply State.setFlag_keeps
        | apply State.recBegin_keeps | apply State.modJo_keeps | apply forList_keeps | apply State.axisFault_keeps)
    | dsimp only)

theorem State.freeSources_keeps {z : State} {s : State} (hs : State.Keeps z s) :
    State.Keeps z (State.freeSources s) := by
  unfold State.freeSources
  with_reducible repeat' (first
    | assumption | apply State.modJo_keeps | intro _
    | (apply State.Keeps.upd; first
        | assumption | apply State.modJo_keeps)
    | dsimp only)

theorem State.joistReceive_keeps {z : State} {s : State} {b : List Nat} (hs : State.Keeps z s) :
    State.Keeps z (State.joistReceive s b) := by
  unfold State.joistReceive
  with_reducible repeat' (first
    | assumption | apply State.finc_keeps | apply State.modJo_keeps | apply forList_keeps
    | apply State.joistRecord_keeps | apply State.raise_keeps | exact State.KeepsE.error | apply State.KeepsE.ok
    | exact State.KeepsP.error | apply State.KeepsP.ok | intro _ | split
    | (apply State.Keeps.upd; first
        | assumption | apply State.finc_keeps | apply State.modJo_keeps | apply forList_keeps
        | apply State.joistRecord_keeps | apply State.raise_keeps)
    | dsimp only)

theorem State.joistCount_keeps {z : State} {s : State} (hs : State.Keeps z s) :
    State.Keeps z (State.joistCount s) := by
  unfold State.joistCount
  with_reducible repeat' (first
    | assumption | apply State.modJo_keeps | exact State.KeepsE.error | apply State.KeepsE.ok
    | exact State.KeepsP.error | apply State.KeepsP.ok | intro _
    | (apply State.Keeps.upd; first
        | assumption | apply State.modJo_keeps)
    | dsimp only)

theorem State.joistTimeout_keeps {z : State} {s : State} {r : Fin 64} (hs : State.Keeps z s) :
    State.Keeps z (State.joistTimeout s r) := by
  unfold State.joistTimeout
  with_reducible repeat' (first
    | assumption | apply State.wset_keeps | apply State.setFlag_keeps | apply forList_keeps
    | apply State.axisFault_keeps | apply State.freeSources_keeps | exact State.KeepsE.error | apply State.KeepsE.ok
    | exact State.KeepsP.error | apply State.KeepsP.ok | intro _ | split | dsimp only)

theorem State.joistStamp_keeps {z : State} {s : State} {r : Nat} (hs : State.Keeps z s) :
    State.Keeps z (State.joistStamp s r) := by
  unfold State.joistStamp
  with_reducible repeat' (first | assumption | apply State.fset_keeps | dsimp only)

theorem State.joistSend_keeps {z : State} {s : State} {k ns : Nat} (hs : State.Keeps z s) :
    State.Keeps z (State.joistSend s k ns) := by
  unfold State.joistSend
  with_reducible repeat' (first
    | assumption | apply forList_keeps | apply State.joistStamp_keeps | apply forFin_keeps
    | apply State.enqueue_keeps | apply State.finc_keeps | apply State.modJo_keeps | intro _ | split
    | (apply State.Keeps.upd; first
        | assumption | apply forList_keeps | apply State.joistStamp_keeps | apply forFin_keeps
        | apply State.enqueue_keeps | apply State.finc_keeps | apply State.modJo_keeps)
    | dsimp only)

theorem State.joistWrite_keeps {z : State} {s : State} {rows : List (Nat × List Nat)} (hs : State.Keeps z s) :
    State.Keeps z (State.joistWrite s rows) := by
  unfold State.joistWrite
  with_reducible repeat' (first | assumption | apply forList_keeps | apply State.fset_keeps | intro _ | dsimp only)

theorem State.latchJoist_keeps {z : State} {s : State} (hs : State.Keeps z s) :
    State.Keeps z (State.latchJoist s) := by
  unfold State.latchJoist
  with_reducible repeat' (first
    | assumption | apply State.joistWrite_keeps | apply State.modJo_keeps | intro _ | split
    | (apply State.Keeps.upd; first
        | assumption | apply State.joistWrite_keeps | apply State.modJo_keeps)
    | dsimp only)

theorem State.joistGo_keeps {z : State} {s : State} {k ns : Nat} (hs : State.Keeps z s) :
    State.Keeps z (State.joistGo s k ns) := by
  unfold State.joistGo
  with_reducible repeat' (first
    | assumption | apply State.raise_keeps | apply State.joistSend_keeps | apply State.joistWrite_keeps
    | apply State.modJo_keeps | intro _ | split
    | (apply State.Keeps.upd; first
        | assumption | apply State.raise_keeps | apply State.joistSend_keeps | apply State.joistWrite_keeps
        | apply State.modJo_keeps)
    | dsimp only)

theorem State.joistDepart_keeps {z : State} {s : State} (hs : State.Keeps z s) :
    State.Keeps z (State.joistDepart s) := by
  unfold State.joistDepart
  with_reducible repeat' (first
    | assumption | apply State.modJo_keeps | apply State.joistGo_keeps | intro _ | split
    | (apply State.Keeps.upd; first
        | assumption | apply State.modJo_keeps | apply State.joistGo_keeps)
    | dsimp only)

theorem State.modZen_keeps {z : State} {s : State} {f : Zensor → Zensor} (hs : State.Keeps z s) :
    State.Keeps z (State.modZen s f) := by
  unfold State.modZen
  with_reducible repeat' (first
    | assumption
    | (apply State.Keeps.upd; first
        | assumption))

theorem State.answer_keeps {z : State} {s : State} {bs : List Nat} (hs : State.Keeps z s) :
    State.Keeps z (State.answer s bs) := by
  unfold State.answer
  with_reducible repeat' (first
    | assumption | apply State.modZen_keeps | intro _
    | (apply State.Keeps.upd; first
        | assumption | apply State.modZen_keeps)
    | dsimp only)

theorem State.modSession_keeps {z : State} {s : State} {sid : Nat} {f : Session → Session} (hs : State.Keeps z s) :
    State.Keeps z (State.modSession s sid f) := by
  unfold State.modSession
  with_reducible repeat' (first
    | assumption | exact State.KeepsE.error | apply State.KeepsE.ok | exact State.KeepsP.error
    | apply State.KeepsP.ok | intro _ | split
    | (apply State.Keeps.upd; first
        | assumption)
    | dsimp only)

theorem State.setSessions_keeps {z : State} {s : State} {l : List Session} (hs : State.Keeps z s) :
    State.Keeps z (State.setSessions s l) := by
  unfold State.setSessions
  with_reducible repeat' (first
    | assumption | apply State.fset_keeps
    | (apply State.Keeps.upd; first
        | assumption | apply State.fset_keeps))

theorem State.endSession_keeps {z : State} {s : State} {sid : Nat} (hs : State.Keeps z s) :
    State.Keeps z (State.endSession s sid) := by
  unfold State.endSession
  with_reducible repeat' (first
    | assumption | apply State.setSessions_keeps | apply State.modZen_keeps | intro _
    | (apply State.Keeps.upd; first
        | assumption | apply State.setSessions_keeps | apply State.modZen_keeps)
    | dsimp only)

theorem State.respond_keeps {z : State} {s : State} {x : Session} {seq cmd status : Nat} {payload : List Nat}
    (hs : State.Keeps z s) :
    State.Keeps z (State.respond s x seq cmd status payload) := by
  unfold State.respond
  with_reducible repeat' (first
    | assumption | apply State.modSession_keeps | apply State.answer_keeps | intro _
    | (apply State.Keeps.upd; first
        | assumption | apply State.modSession_keeps | apply State.answer_keeps)
    | dsimp only)

theorem State.zenServe_keeps {z : State} {s : State} {h : ZHead} {cmd : Nat} {payload : List Nat}
    {act : Session → State → Act} (hs : State.Keeps z s)
    (ha : ∀ x t, State.Keeps z t → State.KeepsP z (act x t)) : State.KeepsE z (s.zenServe h cmd payload act) := by
  unfold State.zenServe
  split
  · exact State.KeepsE.ok (State.answer_keeps hs)
  · dsimp only
    split
    · exact State.KeepsE.ok (State.answer_keeps hs)
    · rename_i x _
      refine State.KeepsE.ite (State.KeepsE.ok (State.finc_keeps (State.answer_keeps hs)))
        (State.KeepsE.ite (State.KeepsE.ok (State.answer_keeps hs)) (State.KeepsE.ite ?_
          (State.KeepsE.ite (State.KeepsE.ok (State.answer_keeps hs)) (State.KeepsE.ok (State.finc_keeps
            (State.answer_keeps hs))))))
      have h1 := ha x ((s.modSession h.sid.toNat fun y => { y with seq := some h.seq.toNat, at' := s.phys, resp := [] }).answer
        []) (State.answer_keeps (State.modSession_keeps hs))
      split
      · exact State.KeepsE.error
      · rename_i t ht
        exact State.KeepsE.ok (h1.get _ ht)
      · rename_i st pl t ht
        exact State.KeepsE.ok (State.respond_keeps (h1.get _ ht))

theorem State.newSid_keeps {z : State} {s : State} (hs : State.Keeps z s) :
    State.Keeps z (State.newSid s).2 := by
  unfold State.newSid
  with_reducible repeat' (first
    | assumption | apply State.takeFree_keeps | apply State.modZen_keeps | intro _
    | (apply State.Keeps.upd; first
        | assumption | apply State.takeFree_keeps | apply State.modZen_keeps)
    | dsimp only)

theorem State.openSession_keeps {z : State} {s : State} {sid : Nat} {secure : Bool} {key : List Nat}
    (hs : State.Keeps z s) :
    State.Keeps z (State.openSession s sid secure key) := by
  unfold State.openSession
  with_reducible repeat' (first | assumption | apply State.setSessions_keeps)

theorem State.free256_keeps {z : State} {s : State} (hs : State.Keeps z s) :
    State.Keeps z (State.free256 s).2 := by
  unfold State.free256
  with_reducible repeat' (first | assumption | apply State.takeFree_keeps | dsimp only)

theorem State.zenOpen_keeps {z : State} {s : State} {seq : Nat} (hs : State.Keeps z s) :
    State.Keeps z (State.zenOpen s seq) := by
  unfold State.zenOpen
  with_reducible repeat' (first
    | assumption | apply State.answer_keeps | apply State.newSid_keeps | apply State.openSession_keeps | split
    | dsimp only)

theorem State.zenOpenSecure_keeps {z : State} {s : State} {seq hkey : Nat} {nc : BitVec 128} {form : Nat}
    {qx qy r sg : BitVec 256} (hs : State.Keeps z s) :
    State.Keeps z (State.zenOpenSecure s seq hkey nc form qx qy r sg) := by
  unfold State.zenOpenSecure
  with_reducible repeat' (first
    | assumption | apply State.answer_keeps | apply State.newSid_keeps | apply State.free256_keeps
    | apply State.openSession_keeps | split
    | (apply State.Keeps.upd; first
        | assumption | apply State.answer_keeps | apply State.newSid_keeps | apply State.free256_keeps
        | apply State.openSession_keeps)
    | dsimp only)

theorem State.zenTimeout_keeps {z : State} {s : State} {sid : Nat} (hs : State.Keeps z s) :
    State.Keeps z (State.zenTimeout s sid) := by
  unfold State.zenTimeout
  with_reducible repeat' (first
    | assumption | apply State.endSession_keeps | split
    | (apply State.Keeps.upd; first
        | assumption | apply State.endSession_keeps)
    | dsimp only)

theorem State.streamOpen_keeps {z : State} {s : State} {x : Session} {seq : Nat} {to' : StreamTo} {mac : Option Nat}
    (hs : State.Keeps z s) :
    State.Keeps z (State.streamOpen s x seq to' mac).2 := by
  unfold State.streamOpen
  with_reducible repeat' (first
    | assumption | apply State.modZen_keeps | intro _ | split
    | (apply State.Keeps.upd; first
        | assumption | apply State.modZen_keeps)
    | dsimp only)

theorem State.streamNoRoute_keeps {z : State} {s : State} (hs : State.Keeps z s) :
    State.Keeps z (State.streamNoRoute s) := by
  unfold State.streamNoRoute
  with_reducible repeat' (first
    | assumption | apply State.modZen_keeps | apply State.respond_keeps | intro _ | split
    | (apply State.Keeps.upd; first
        | assumption | apply State.modZen_keeps | apply State.respond_keeps)
    | dsimp only)

theorem State.streamSend_keeps {z : State} {s : State} {payload : List Nat} (hs : State.Keeps z s) :
    State.Keeps z (State.streamSend s payload) := by
  unfold State.streamSend
  with_reducible repeat' (first
    | assumption | apply State.enqueue_keeps | split
    | (apply State.Keeps.upd; first
        | assumption | apply State.enqueue_keeps)
    | dsimp only)

theorem State.celSendDatagram_keeps {z : State} {s : State} (hs : State.Keeps z s) :
    State.Keeps z (State.celSendDatagram s) := by
  unfold State.celSendDatagram
  split
  · exact hs
  · rename_i pl t h
    have h1 := (State.celDatagram_keeps hs).get _ h
    dsimp only at h1
    split
    · exact h1
    · exact State.streamSend_keeps h1

theorem State.flashStart_keeps {z : State} {s : State} {x : Session} {seq slot offset : Nat} {erase : Bool}
    {data : List Nat} {half : Nat} (hs : State.Keeps z s) :
    State.Keeps z (State.flashStart s x seq slot offset erase data half).2 := by
  unfold State.flashStart
  with_reducible repeat' (first
    | assumption | apply State.modZen_keeps | intro _ | split
    | (apply State.Keeps.upd; first
        | assumption | apply State.modZen_keeps)
    | dsimp only)

theorem State.flashCut_keeps {z : State} {s : State} (hs : State.Keeps z s) :
    State.Keeps z (State.flashCut s) := by
  unfold State.flashCut
  split
  · exact hs
  · rename_i f _
    extract_lets r m
    have hr : State.Keeps z r.2 := State.takeFree_keeps hs
    refine State.Keeps.ite hr (hr.of_sound (fun x => ⟨x.1, x.2.1, x.2.2.1, x.2.2.2.1, ?_⟩) rfl rfl rfl)
    refine programBytes_wf ?_ _ _
    show (if f.erase then eraseBytes s.flash f.at' 65536 else s.flash).wf = true
    split
    · exact Memory.filter_wf x.2.2.2.2 _
    · exact x.2.2.2.2

theorem State.flashDone_keeps {z : State} {s : State} {found : Option (List Nat)} (hs : State.Keeps z s) :
    State.Keeps z (State.flashDone s found) := by
  unfold State.flashDone
  split
  · exact hs
  · rename_i f _
    extract_lets m0 s0 n s1 ok
    have h1 : State.Keeps z s1 := by
      have h0 : State.Keeps z s0 := State.modZen_keeps hs
      refine h0.of_sound (fun x => ⟨x.1, x.2.1, x.2.2.1, x.2.2.2.1, ?_⟩) rfl rfl rfl
      have hm : m0.wf = true := by
        show (if f.erase then eraseBytes s.flash f.at' 65536 else s.flash).wf = true
        split
        · exact Memory.filter_wf x.2.2.2.2 _
        · exact x.2.2.2.2
      show (match found with
        | none => programBytes m0 f.at' f.data
        | some bs => programBytes (eraseBytes m0 f.at' n) f.at' (bs.take n)).wf = true
      cases found with
      | none => exact programBytes_wf hm _ _
      | some bs => exact programBytes_wf (Memory.filter_wf hm _) _ _
    split
    · exact h1
    · exact State.respond_keeps h1

theorem State.modCan_keeps {z : State} {s : State} {n : Fin 2} {f : Can → Can} (hs : State.Keeps z s) :
    State.Keeps z (State.modCan s n f) := by
  unfold State.modCan
  with_reducible repeat' (first
    | assumption
    | (apply State.Keeps.upd; first
        | assumption))

theorem State.canPut_keeps {z : State} {s : State} {f : Fld} {n b : Nat} {v : Bool} (hs : State.Keeps z s) :
    State.Keeps z (State.canPut s f n b v) := by
  unfold State.canPut
  with_reducible repeat' (first | assumption | apply State.setWords_keeps)

theorem State.canRaise_keeps {z : State} {s : State} {f : Fld} {n b : Nat} (hs : State.Keeps z s) :
    State.Keeps z (State.canRaise s f n b) := by
  unfold State.canRaise
  with_reducible repeat' (first | assumption | apply State.canPut_keeps | apply State.noteSet_keeps)

theorem State.canEndReq_keeps {z : State} {s : State} {n : Fin 2} {b : Nat} {f : Fld} (hs : State.Keeps z s) :
    State.Keeps z (State.canEndReq s n b f) := by
  unfold State.canEndReq
  with_reducible repeat' (first
    | assumption | apply State.canPut_keeps | apply State.canRaise_keeps | apply State.modCan_keeps | intro _
    | (apply State.Keeps.upd; first
        | assumption | apply State.canPut_keeps | apply State.canRaise_keeps | apply State.modCan_keeps)
    | dsimp only)

theorem State.canFailed_keeps {z : State} {s : State} {n : Fin 2} {b : Nat} (hs : State.Keeps z s) :
    State.Keeps z (State.canFailed s n b) := by
  unfold State.canFailed
  with_reducible repeat' (first | assumption | apply State.canEndReq_keeps | split)

theorem State.canOff_keeps {z : State} {s : State} {n : Fin 2} (hs : State.Keeps z s) :
    State.Keeps z (State.canOff s n) := by
  unfold State.canOff
  with_reducible repeat' (first
    | assumption | apply State.canFailed_keeps | apply State.fset_keeps | apply State.raise_keeps
    | apply State.modCan_keeps | intro _ | split
    | (apply State.Keeps.upd; first
        | assumption | apply State.canFailed_keeps | apply State.fset_keeps | apply State.raise_keeps
        | apply State.modCan_keeps)
    | dsimp only)

theorem State.canCounts_keeps {z : State} {s : State} {n : Fin 2} {tec rec' : Nat} (hs : State.Keeps z s) :
    State.Keeps z (State.canCounts s n tec rec') := by
  unfold State.canCounts
  with_reducible repeat' (first
    | assumption | apply State.fset_keeps | apply State.setFlag_keeps | apply State.canOff_keeps
    | apply State.raise_keeps | split | dsimp only)

theorem State.canIdle_keeps {z : State} {s : State} {n : Fin 2} (hs : State.Keeps z s) :
    State.Keeps z (State.canIdle s n) := by
  unfold State.canIdle
  with_reducible repeat' (first
    | assumption | apply State.modCan_keeps | apply State.setFlag_keeps | apply State.fset_keeps | intro _ | split
    | (apply State.Keeps.upd; first
        | assumption | apply State.modCan_keeps | apply State.setFlag_keeps | apply State.fset_keeps)
    | dsimp only)

theorem State.canAfter_keeps {z : State} {s : State} {n : Fin 2} (hs : State.Keeps z s) :
    State.Keeps z (State.canAfter s n) := by
  unfold State.canAfter
  with_reducible repeat' (first | assumption | apply State.canIdle_keeps | split)

theorem State.canInit_keeps {z : State} {s : State} {n : Fin 2} (hs : State.Keeps z s) :
    State.Keeps z (State.canInit s n) := by
  unfold State.canInit
  with_reducible repeat' (first
    | assumption | apply State.fset_keeps | apply State.modCan_keeps | apply State.canCounts_keeps | intro _ | split
    | (apply State.Keeps.upd; first
        | assumption | apply State.fset_keeps | apply State.modCan_keeps | apply State.canCounts_keeps)
    | dsimp only)

theorem State.canCtrl_keeps {z : State} {s : State} {n : Fin 2} {w : Nat} {idle : Bool} (hs : State.Keeps z s) :
    State.Keeps z (State.canCtrl s n w idle) := by
  unfold State.canCtrl
  with_reducible repeat' (first
    | assumption | apply State.setReg_keeps | apply State.canInit_keeps | apply State.fset_keeps
    | apply State.canIdle_keeps | apply State.modCan_keeps | intro _ | split
    | (apply State.Keeps.upd; first
        | assumption | apply State.setReg_keeps | apply State.canInit_keeps | apply State.fset_keeps
        | apply State.canIdle_keeps | apply State.modCan_keeps)
    | dsimp only)

theorem State.canIntegrated_keeps {z : State} {s : State} {n : Fin 2} (hs : State.Keeps z s) :
    State.Keeps z (State.canIntegrated s n) := by
  unfold State.canIntegrated
  with_reducible repeat' (first
    | assumption | apply State.modCan_keeps | apply State.fset_keeps | apply State.canCounts_keeps
    | apply State.canAfter_keeps | intro _ | split
    | (apply State.Keeps.upd; first
        | assumption | apply State.modCan_keeps | apply State.fset_keeps | apply State.canCounts_keeps
        | apply State.canAfter_keeps)
    | dsimp only)

theorem State.canRecovered_keeps {z : State} {s : State} {n : Fin 2} (hs : State.Keeps z s) :
    State.Keeps z (State.canRecovered s n) := by
  unfold State.canRecovered
  with_reducible repeat' (first
    | assumption | apply State.fset_keeps | apply State.canCounts_keeps | apply State.canAfter_keeps | split)

theorem State.canEvent_keeps {z : State} {s : State} {n b : Nat} (hs : State.Keeps z s) :
    State.Keeps z (State.canEvent s n b) := by
  unfold State.canEvent
  with_reducible repeat' (first | assumption | apply State.gougeEvent_keeps | split)

theorem State.canStore_keeps {z : State} {s : State} {n : Fin 2} {b : Nat} {f : CanFrame} {stamp : Nat}
    (hs : State.Keeps z s) :
    State.Keeps z (State.canStore s n b f stamp) := by
  unfold State.canStore
  extract_lets s0 s1 s2 s3 s4
  have h0 : State.Keeps z s0 := State.Keeps.ite (State.canRaise_keeps hs) hs
  have h1 : State.Keeps z s1 := State.modCan_keeps (State.canRaise_keeps h0)
  have h2 : State.Keeps z s2 := h1.memory (fun x => Memory.writeBytes_wf x _ _) rfl rfl rfl rfl rfl rfl rfl
  exact State.canEvent_keeps (State.setMem32_keeps (State.setMem32_keeps (State.setMem32_keeps h2)))

theorem State.canGood_keeps {z : State} {s : State} {n : Fin 2} (hs : State.Keeps z s) :
    State.Keeps z (State.canGood s n) := by
  unfold State.canGood
  with_reducible repeat' (first
    | assumption | apply State.takeFree_keeps | apply State.canCounts_keeps | split | dsimp only)

theorem State.canReceive_keeps {z : State} {s : State} {n : Fin 2} {f : CanFrame} {ago : Nat} (hs : State.Keeps z s) :
    State.Keeps z (State.canReceive s n f ago) := by
  unfold State.canReceive
  with_reducible repeat' (first
    | assumption | apply State.canGood_keeps | apply State.finc_keeps | apply State.canStore_keeps
    | apply State.canAfter_keeps | intro _ | split
    | (apply State.Keeps.upd; first
        | assumption | apply State.canGood_keeps | apply State.finc_keeps | apply State.canStore_keeps
        | apply State.canAfter_keeps)
    | dsimp only)

theorem State.canNewdat_keeps {z : State} {s : State} {n : Fin 2} {hi : Bool} {w : Nat} (hs : State.Keeps z s) :
    State.Keeps z (State.canNewdat s n hi w) := by
  unfold State.canNewdat
  with_reducible repeat' (first
    | assumption | apply State.takeFree_keeps | apply State.clear_keeps | apply State.fset_keeps | split
    | (apply State.Keeps.upd; first
        | assumption | apply State.takeFree_keeps | apply State.clear_keeps | apply State.fset_keeps)
    | dsimp only)

theorem State.canStart_keeps {z : State} {s : State} {n : Fin 2} (hs : State.Keeps z s) :
    State.Keeps z (State.canStart s n) := by
  unfold State.canStart
  with_reducible repeat' (first
    | assumption | apply State.modCan_keeps | intro _ | split
    | (apply State.Keeps.upd; first
        | assumption | apply State.modCan_keeps)
    | dsimp only)

theorem State.canLoop_keeps {z : State} {s : State} {n : Fin 2} {fd : Bool} {loop : Option Nat} (hs : State.Keeps z s) :
    State.Keeps z (State.canLoop s n fd loop) := by
  unfold State.canLoop
  with_reducible repeat' (first
    | assumption | apply State.fset_keeps | split
    | (apply State.Keeps.upd; first
        | assumption | apply State.fset_keeps)
    | dsimp only)

theorem State.canEnd_keeps {z : State} {s : State} {n : Fin 2} {how : CanEnd} {loop : Option Nat}
    (hs : State.Keeps z s) :
    State.Keeps z (State.canEnd s n how loop) := by
  unfold State.canEnd
  with_reducible repeat' (first
    | assumption | apply State.modCan_keeps | apply State.canLoop_keeps | apply State.canEndReq_keeps
    | apply State.setMem32_keeps | apply State.canCounts_keeps | apply State.canEvent_keeps
    | apply State.canFailed_keeps | apply State.canAfter_keeps | intro _ | split
    | (apply State.Keeps.upd; first
        | assumption | apply State.modCan_keeps | apply State.canLoop_keeps | apply State.canEndReq_keeps
        | apply State.setMem32_keeps | apply State.canCounts_keeps | apply State.canEvent_keeps
        | apply State.canFailed_keeps | apply State.canAfter_keeps)
    | dsimp only)

theorem State.canCancel_keeps {z : State} {s : State} {n : Fin 2} {hi : Bool} {w : Nat} (hs : State.Keeps z s) :
    State.Keeps z (State.canCancel s n hi w) := by
  unfold State.canCancel
  with_reducible repeat' (first
    | assumption | apply forList_keeps | apply State.modCan_keeps | apply State.canEndReq_keeps | intro _ | split
    | (apply State.Keeps.upd; first
        | assumption | apply forList_keeps | apply State.modCan_keeps | apply State.canEndReq_keeps)
    | dsimp only)

theorem State.canError_keeps {z : State} {s : State} {n : Fin 2} {code : CanCode} {rule : CanRule} {dataPhase : Bool}
    (hs : State.Keeps z s) :
    State.Keeps z (State.canError s n code rule dataPhase) := by
  unfold State.canError
  with_reducible repeat' (first
    | assumption | apply State.fset_keeps | apply State.finc_keeps | apply State.modCan_keeps
    | apply State.canAfter_keeps | apply State.canCounts_keeps | intro _ | split
    | (apply State.Keeps.upd; first
        | assumption | apply State.fset_keeps | apply State.finc_keeps | apply State.modCan_keeps
        | apply State.canAfter_keeps | apply State.canCounts_keeps)
    | dsimp only)

theorem State.canException_keeps {z : State} {s : State} {n : Fin 2} (hs : State.Keeps z s) :
    State.Keeps z (State.canException s n) := by
  unfold State.canException
  with_reducible repeat' (first
    | assumption | apply State.canError_keeps | apply State.raise_keeps | apply State.modCan_keeps | intro _ | split
    | (apply State.Keeps.upd; first
        | assumption | apply State.canError_keeps | apply State.raise_keeps | apply State.modCan_keeps)
    | dsimp only)

theorem State.canWoken_keeps {z : State} {s : State} {n : Fin 2} {cause : Nat} (hs : State.Keeps z s) :
    State.Keeps z (State.canWoken s n cause) := by
  unfold State.canWoken
  with_reducible repeat' (first
    | assumption | apply State.raise_keeps | apply State.fset_keeps | apply State.setFlag_keeps | split | dsimp only)

theorem State.canSeen_keeps {z : State} {s : State} {n : Fin 2} {x : CanSeen} (hs : State.Keeps z s) :
    State.Keeps z (State.canSeen s n x).2 := by
  unfold State.canSeen
  with_reducible repeat' (first
    | assumption | apply State.canWoken_keeps | apply State.modCan_keeps | apply State.takeFree_keeps
    | apply State.fset_keeps | apply State.wset_keeps | intro _ | split
    | (apply State.Keeps.upd; first
        | assumption | apply State.canWoken_keeps | apply State.modCan_keeps | apply State.takeFree_keeps
        | apply State.fset_keeps | apply State.wset_keeps)
    | dsimp only)

theorem State.modBoot_keeps {z : State} {s : State} {f : Boot → Boot} (hs : State.Keeps z s) :
    State.Keeps z (State.modBoot s f) := by
  unfold State.modBoot
  with_reducible repeat' (first
    | assumption
    | (apply State.Keeps.upd; first
        | assumption))

theorem State.fuseWrite_keeps {z : State} {s : State} {w : Nat} (hs : State.Keeps z s) :
    State.Keeps z (State.fuseWrite s w) := by
  unfold State.fuseWrite
  extract_lets word s1
  have h1 : State.Keeps z s1 := State.fset_keeps hs
  refine State.Keeps.ite h1 (State.Keeps.ite ?_ hs)
  have h2 : State.Keeps z (s1.setFlag F.DEV_FUSE_PGM_BUSY true) := State.setFlag_keeps h1
  exact ⟨fun x => h2.sound x, h2.pending, h2.phys, fun w' b x => h2.burnt w' b x⟩

theorem State.fuseDone_keeps {z : State} {s : State} (hs : State.Keeps z s) :
    State.Keeps z (State.fuseDone s) := by
  unfold State.fuseDone
  split
  · exact hs
  · exact (State.setFlag_keeps hs).trans ⟨id, rfl, rfl, State.burntBit_orWord rfl rfl⟩

theorem State.fuseCut_keeps {z : State} {s : State} (hs : State.Keeps z s) :
    State.Keeps z (State.fuseCut s) := by
  unfold State.fuseCut
  split
  · exact hs
  · exact (State.takeFree_keeps hs).trans ⟨id, rfl, rfl, State.burntBit_orWord rfl rfl⟩

theorem State.placeSections_keeps {z : State} {s : State} {slot : Nat} (hs : State.Keeps z s) :
    State.Keeps z (State.placeSections s slot) := by
  unfold State.placeSections
  have h : ∀ (l : List Section) (u : State × Nat), State.Keeps z u.1 → State.Keeps z (l.foldl (fun (acc : State × Nat) x =>
      match sectionTarget x with
      | some a => ({ acc.1 with mem := writeSection acc.1.mem a (s.slotBytes slot x.offset x.length) }, acc.2)
      | none => if stagedType x.type
          then ({ acc.1 with mem := acc.1.mem.writeBytes acc.2 (s.slotBytes slot x.offset x.length) }, acc.2 + x.length)
          else acc) u).1 := by
    intro l
    induction l with
    | nil => intro u hu; exact hu
    | cons x l ih =>
      intro u hu
      refine ih _ ?_
      dsimp only
      split
      · exact hu.memory (fun y => writeSection_wf y _ _) rfl rfl rfl rfl rfl rfl rfl
      · split
        · exact hu.memory (fun y => Memory.writeBytes_wf y _ _) rfl rfl rfl rfl rfl rfl rfl
        · exact hu
  exact h _ _ hs

theorem State.clearStaging_keeps {z : State} {s : State} (hs : State.Keeps z s) :
    State.Keeps z (State.clearStaging s) := by
  unfold State.clearStaging
  exact hs.memory (fun x => Memory.filter_wf x _) rfl rfl rfl rfl rfl rfl rfl

theorem State.applyNetcfg_keeps {z : State} {s : State} {b : List Nat} (hs : State.Keeps z s) :
    State.Keeps z (State.applyNetcfg s b) := by
  unfold State.applyNetcfg
  with_reducible repeat' (first
    | assumption | apply State.wset_keeps | apply State.modZen_keeps | intro _ | split
    | (apply State.Keeps.upd; first
        | assumption | apply State.wset_keeps | apply State.modZen_keeps)
    | dsimp only)

theorem State.bootStart_keeps {z : State} {s : State} {kind : Nat} (hs : State.Keeps z s) :
    State.Keeps z (State.bootStart s kind) := by
  unfold State.bootStart
  with_reducible repeat' (first
    | assumption | apply State.fset_keeps | apply State.setFlag_keeps | apply State.modBoot_keeps | intro _ | split
    | (apply State.Keeps.upd; first
        | assumption | apply State.fset_keeps | apply State.setFlag_keeps | apply State.modBoot_keeps)
    | dsimp only)

theorem State.bootFail_keeps {z : State} {s : State} {l : Load} {code : Nat} (hs : State.Keeps z s) :
    State.Keeps z (State.bootFail s l code) := by
  unfold State.bootFail
  with_reducible repeat' (first
    | assumption | apply State.fset_keeps | apply State.modBoot_keeps | intro _ | split
    | (apply State.Keeps.upd; first
        | assumption | apply State.fset_keeps | apply State.modBoot_keeps)
    | dsimp only)

theorem State.bootDone_keeps {z : State} {s : State} {l : Load} (hs : State.Keeps z s) :
    State.Keeps z (State.bootDone s l) := by
  unfold State.bootDone
  with_reducible repeat' (first
    | assumption | apply State.clearStaging_keeps | apply State.setFlag_keeps | apply State.fset_keeps
    | apply State.modBoot_keeps | intro _
    | (apply State.Keeps.upd; first
        | assumption | apply State.clearStaging_keeps | apply State.setFlag_keeps | apply State.fset_keeps
        | apply State.modBoot_keeps)
    | dsimp only)

theorem State.bootPass_keeps {z : State} {s : State} {read : Option Nat} (hs : State.Keeps z s) :
    State.Keeps z (State.bootPass s read) := by
  unfold State.bootPass
  with_reducible repeat' (first
    | assumption | apply State.bootFail_keeps | apply State.placeSections_keeps | apply State.applyNetcfg_keeps
    | apply State.thrOffer_keeps | apply State.modBoot_keeps | intro _ | split
    | (apply State.Keeps.upd; first
        | assumption | apply State.bootFail_keeps | apply State.placeSections_keeps | apply State.applyNetcfg_keeps
        | apply State.thrOffer_keeps | apply State.modBoot_keeps)
    | dsimp only)

theorem State.clear_keeps {z : State} {s : State} {kind : Nat} (hs : State.Keeps z s) :
    State.Keeps z (State.clear s kind) := by
  unfold State.clear
  dsimp only
  refine hs.trans ⟨?_, rfl, rfl, ?_⟩
  · intro x
    exact ⟨regsAfter_wf x.1 kind, filter_rise _ x.2.1, filter_rise _ x.2.2.1, Memory.filter_wf x.2.2.2.1 _, x.2.2.2.2⟩
  · intro w b h
    unfold State.burntBit at h ⊢
    dsimp only
    split <;> exact h

theorem State.doReset_keeps {z : State} {s : State} {kind : Nat} {refsel : Bool} (hs : State.Keeps z s) :
    State.Keeps z (State.doReset s kind refsel) := by
  unfold State.doReset
  with_reducible repeat' (first
    | assumption | apply State.flashCut_keeps | apply State.fuseCut_keeps | apply State.atticCut_keeps
    | apply State.clear_keeps | apply State.modBoot_keeps | apply State.fset_keeps | apply State.setFlag_keeps
    | apply State.raiseFault_keeps | apply State.thrEffect_keeps | apply State.bootStart_keeps | intro _ | split
    | (apply State.Keeps.upd; first
        | assumption | apply State.flashCut_keeps | apply State.fuseCut_keeps | apply State.atticCut_keeps
        | apply State.clear_keeps | apply State.modBoot_keeps | apply State.fset_keeps | apply State.setFlag_keeps
        | apply State.raiseFault_keeps | apply State.thrEffect_keeps | apply State.bootStart_keeps)
    | dsimp only)

theorem State.resetN_keeps {z : State} {s : State} {ns : Nat} {refsel : Bool} (hs : State.Keeps z s) :
    State.Keeps z (State.resetN s ns refsel) := by
  unfold State.resetN
  with_reducible repeat' (first
    | assumption | apply State.doReset_keeps | apply State.takeFree_keeps | split | dsimp only)

theorem State.supplyLow_keeps {z : State} {s : State} (hs : State.Keeps z s) :
    State.Keeps z (State.supplyLow s) := by
  unfold State.supplyLow
  with_reducible repeat' (first
    | assumption | apply State.flashCut_keeps | apply State.fuseCut_keeps | apply State.atticCut_keeps
    | apply State.clear_keeps | apply State.modBoot_keeps | intro _
    | (apply State.Keeps.upd; first
        | assumption | apply State.flashCut_keeps | apply State.fuseCut_keeps | apply State.atticCut_keeps
        | apply State.clear_keeps | apply State.modBoot_keeps)
    | dsimp only)

theorem State.requestedReset_keeps {z : State} {s : State} {kind : Nat} {refsel : Bool} (hs : State.Keeps z s) :
    State.Keeps z (State.requestedReset s kind refsel) := by
  unfold State.requestedReset
  with_reducible repeat' (first | assumption | apply State.doReset_keeps | split)

theorem State.pwrReset_keeps {z : State} {s : State} {w : Nat} (hs : State.Keeps z s) :
    State.Keeps z (State.pwrReset s w) := by
  unfold State.pwrReset
  with_reducible repeat' (first
    | assumption | split
    | (apply State.Keeps.upd; first
        | assumption)
    | dsimp only)

theorem State.wdtStart_keeps {z : State} {s : State} {w : Nat} (hs : State.Keeps z s) :
    State.Keeps z (State.wdtStart s w) := by
  unfold State.wdtStart
  with_reducible repeat' (first
    | assumption | apply State.fset_keeps | apply State.setFlag_keeps | apply State.modBoot_keeps | intro _ | split
    | (apply State.Keeps.upd; first
        | assumption | apply State.fset_keeps | apply State.setFlag_keeps | apply State.modBoot_keeps)
    | dsimp only)

theorem State.wdtKick_keeps {z : State} {s : State} {key : Nat} (hs : State.Keeps z s) :
    State.Keeps z (State.wdtKick s key) := by
  unfold State.wdtKick
  with_reducible repeat' (first
    | assumption | apply State.modBoot_keeps | intro _ | split
    | (apply State.Keeps.upd; first
        | assumption | apply State.modBoot_keeps)
    | dsimp only)

theorem State.watchdog_keeps {z : State} {s : State} {refsel : Bool} (hs : State.Keeps z s) :
    State.Keeps z (State.watchdog s refsel) := by
  unfold State.watchdog
  with_reducible repeat' (first
    | assumption | apply State.doReset_keeps | split
    | (apply State.Keeps.upd; first
        | assumption | apply State.doReset_keeps)
    | dsimp only)

theorem State.f3reset_keeps {z : State} {s : State} {refsel : Bool} (hs : State.Keeps z s) :
    State.Keeps z (State.f3reset s refsel) := by
  unfold State.f3reset
  with_reducible repeat' (first
    | assumption | apply State.doReset_keeps | split
    | (apply State.Keeps.upd; first
        | assumption | apply State.doReset_keeps)
    | dsimp only)

theorem State.sleepRequest_keeps {z : State} {s : State} {w : Nat} (hs : State.Keeps z s) :
    State.Keeps z (State.sleepRequest s w) := by
  unfold State.sleepRequest
  with_reducible repeat' (first
    | assumption | apply State.raise_keeps | apply forFin_keeps | apply State.removeTorque_keeps
    | apply State.gateUpdate_keeps | apply State.joistSend_keeps | apply State.modBoot_keeps
    | apply State.wake_keeps | intro _ | split
    | (apply State.Keeps.upd; first
        | assumption | apply State.raise_keeps | apply forFin_keeps | apply State.removeTorque_keeps
        | apply State.gateUpdate_keeps | apply State.joistSend_keeps | apply State.modBoot_keeps
        | apply State.wake_keeps)
    | dsimp only)

theorem State.wake_keeps {z : State} {s : State} {cause : Nat} {refsel : Bool} (hs : State.Keeps z s) :
    State.Keeps z (State.wake s cause refsel) := by
  unfold State.wake
  with_reducible repeat' (first
    | assumption | apply State.fset_keeps | apply State.doReset_keeps | apply State.modBoot_keeps | intro _ | split
    | (apply State.Keeps.upd; first
        | assumption | apply State.fset_keeps | apply State.doReset_keeps | apply State.modBoot_keeps)
    | dsimp only)

theorem State.sleepEntry_keeps {z : State} {s : State} {refsel : Bool} (hs : State.Keeps z s) :
    State.Keeps z (State.sleepEntry s refsel) := by
  unfold State.sleepEntry
  with_reducible repeat' (first
    | assumption | apply State.flashCut_keeps | apply State.clear_keeps | apply State.modBoot_keeps
    | apply State.wake_keeps | intro _ | split
    | (apply State.Keeps.upd; first
        | assumption | apply State.flashCut_keeps | apply State.clear_keeps | apply State.modBoot_keeps
        | apply State.wake_keeps)
    | dsimp only)

theorem State.wakePin_keeps {z : State} {s : State} {ns : Nat} {refsel : Bool} (hs : State.Keeps z s) :
    State.Keeps z (State.wakePin s ns refsel) := by
  unfold State.wakePin
  with_reducible repeat' (first | assumption | apply State.wake_keeps | split)

theorem State.wakeTimer_keeps {z : State} {s : State} {refsel : Bool} (hs : State.Keeps z s) :
    State.Keeps z (State.wakeTimer s refsel) := by
  unfold State.wakeTimer
  with_reducible repeat' (first
    | assumption | apply State.wake_keeps | split
    | (apply State.Keeps.upd; first
        | assumption | apply State.wake_keeps)
    | dsimp only)

theorem State.canWake_keeps {z : State} {s : State} {n : Fin 2} {x : CanSeen} {refsel : Bool}
    {seen : State → Fin 2 → CanSeen → Bool × State} (hs : State.Keeps z s)
    (hseen : ∀ u : State, State.Keeps z u → State.Keeps z (seen u n x).2) : State.Keeps z (s.canWake n x refsel seen) := by
  unfold State.canWake
  extract_lets deep r
  exact State.Keeps.ite hs (State.Keeps.ite hs (State.Keeps.ite (State.wake_keeps (hseen _ hs)) (hseen _ hs)))

theorem State.clockLost_keeps {z : State} {s : State} {cause : Nat} (hs : State.Keeps z s) :
    State.Keeps z (State.clockLost s cause) := by
  unfold State.clockLost
  with_reducible repeat' (first
    | assumption | apply State.thrClockStop_keeps | apply State.modBoot_keeps | apply State.setFlag_keeps
    | apply State.raiseF3_keeps | intro _ | split
    | (apply State.Keeps.upd; first
        | assumption | apply State.thrClockStop_keeps | apply State.modBoot_keeps | apply State.setFlag_keeps
        | apply State.raiseF3_keeps)
    | dsimp only)

theorem State.modSeq_keeps {z : State} {s : State} {f : Sequencer → Sequencer} (hs : State.Keeps z s) :
    State.Keeps z (State.modSeq s f) := by
  unfold State.modSeq
  with_reducible repeat' (first
    | assumption
    | (apply State.Keeps.upd; first
        | assumption))

theorem State.seqLatch_keeps {z : State} {s : State} (hs : State.Keeps z s) :
    State.Keeps z (State.seqLatch s) := by
  unfold State.seqLatch
  with_reducible repeat' (first
    | assumption | apply State.modSeq_keeps | intro _
    | (apply State.Keeps.upd; first
        | assumption | apply State.modSeq_keeps)
    | dsimp only)

theorem State.seqSettle_keeps {z : State} {s : State} (hs : State.Keeps z s) :
    State.Keeps z (State.seqSettle s) := by
  unfold State.seqSettle
  with_reducible repeat' (first
    | assumption | apply State.setFlag_keeps | apply State.modSeq_keeps | apply State.ledPause_keeps | intro _
    | split
    | (apply State.Keeps.upd; first
        | assumption | apply State.setFlag_keeps | apply State.modSeq_keeps | apply State.ledPause_keeps)
    | dsimp only)

theorem State.seqRun_keeps {z : State} {s0 : State} (hs0 : State.Keeps z s0) :
    State.Keeps z (State.seqRun s0) := by
  unfold State.seqRun
  with_reducible repeat' (first
    | assumption | apply State.seqSettle_keeps | apply State.setFlag_keeps | apply State.raise_keeps
    | apply State.modSeq_keeps | apply State.seqLatch_keeps | intro _ | split
    | (apply State.Keeps.upd; first
        | assumption | apply State.seqSettle_keeps | apply State.setFlag_keeps | apply State.raise_keeps
        | apply State.modSeq_keeps | apply State.seqLatch_keeps)
    | dsimp only)

theorem State.seqStop_keeps {z : State} {s0 : State} (hs0 : State.Keeps z s0) :
    State.Keeps z (State.seqStop s0) := by
  unfold State.seqStop
  with_reducible repeat' (first
    | assumption | apply State.seqSettle_keeps | apply State.setFlag_keeps | apply State.modSeq_keeps | intro _
    | split
    | (apply State.Keeps.upd; first
        | assumption | apply State.seqSettle_keeps | apply State.setFlag_keeps | apply State.modSeq_keeps)
    | dsimp only)

theorem State.seqStep_keeps {z : State} {s0 : State} (hs0 : State.Keeps z s0) :
    State.Keeps z (State.seqStep s0) := by
  unfold State.seqStep
  with_reducible repeat' (first
    | assumption | apply State.seqSettle_keeps | apply State.modSeq_keeps | apply State.raise_keeps
    | apply State.finc_keeps | apply State.setFlag_keeps | intro _ | split
    | (apply State.Keeps.upd; first
        | assumption | apply State.seqSettle_keeps | apply State.modSeq_keeps | apply State.raise_keeps
        | apply State.finc_keeps | apply State.setFlag_keeps)
    | dsimp only)

theorem State.lclkMove_keeps {z : State} {s : State} {new : Nat} (hs : State.Keeps z s) :
    State.Keeps z (State.lclkMove s new) := by
  unfold State.lclkMove
  with_reducible repeat' (first
    | assumption | apply State.wsetS_keeps | apply State.raise_keeps | apply State.finc_keeps
    | apply State.setFlag_keeps | apply State.seqStep_keeps | apply State.spinStep_keeps
    | apply State.lclkLate_keeps | apply State.jlStep_keeps | apply State.celStep_keeps | apply State.modJo_keeps
    | apply forFin_keeps | apply State.qbvApply_keeps | apply State.raiseFault_keeps | exact State.KeepsE.error
    | apply State.KeepsE.ok | exact State.KeepsP.error | apply State.KeepsP.ok | intro _ | split
    | (apply State.Keeps.upd; first
        | assumption | apply State.wsetS_keeps | apply State.raise_keeps | apply State.finc_keeps
        | apply State.setFlag_keeps | apply State.seqStep_keeps | apply State.spinStep_keeps
        | apply State.lclkLate_keeps | apply State.jlStep_keeps | apply State.celStep_keeps
        | apply State.modJo_keeps | apply forFin_keeps | apply State.qbvApply_keeps | apply State.raiseFault_keeps)
    | dsimp only)

theorem State.lclkSet_keeps {z : State} {s : State} (hs : State.Keeps z s) :
    State.Keeps z (State.lclkSet s) := by
  unfold State.lclkSet
  with_reducible repeat' (first | assumption | apply State.lclkMove_keeps | dsimp only)

theorem State.lclkBy_keeps {z : State} {s : State} {d : Int} (hs : State.Keeps z s) :
    State.KeepsO z (State.lclkBy s d) := by
  unfold State.lclkBy
  with_reducible repeat' (first
    | assumption | apply State.lclkMove_keeps | exact State.KeepsO.none | apply State.KeepsO.some | split
    | dsimp only)

theorem State.modServo_keeps {z : State} {s : State} {f : Servo → Servo} (hs : State.Keeps z s) :
    State.Keeps z (State.modServo s f) := by
  unfold State.modServo
  with_reducible repeat' (first
    | assumption
    | (apply State.Keeps.upd; first
        | assumption))

theorem State.servoAdj_keeps {z : State} {s : State} (hs : State.Keeps z s) :
    State.Keeps z (State.servoAdj s) := by
  unfold State.servoAdj
  with_reducible repeat' (first | assumption | apply State.fsetS_keeps | split | dsimp only)

theorem State.holdEnd_keeps {z : State} {s : State} (hs : State.Keeps z s) :
    State.Keeps z (State.holdEnd s) := by
  unfold State.holdEnd
  with_reducible repeat' (first
    | assumption | apply State.fset_keeps | apply State.setFlag_keeps | apply State.modServo_keeps | intro _
    | (apply State.Keeps.upd; first
        | assumption | apply State.fset_keeps | apply State.setFlag_keeps | apply State.modServo_keeps)
    | dsimp only)

theorem State.holdStart_keeps {z : State} {s : State} (hs : State.Keeps z s) :
    State.Keeps z (State.holdStart s) := by
  unfold State.holdStart
  with_reducible repeat' (first
    | assumption | apply State.setFlag_keeps | apply State.modServo_keeps | intro _
    | (apply State.Keeps.upd; first
        | assumption | apply State.setFlag_keeps | apply State.modServo_keeps)
    | dsimp only)

theorem State.servoLock_keeps {z : State} {s : State} {theta : Int} (hs : State.Keeps z s) :
    State.Keeps z (State.servoLock s theta) := by
  unfold State.servoLock
  with_reducible repeat' (first
    | assumption | apply State.modServo_keeps | apply State.setFlag_keeps | intro _ | split
    | (apply State.Keeps.upd; first
        | assumption | apply State.modServo_keeps | apply State.setFlag_keeps)
    | dsimp only)

theorem State.servoReport_keeps {z : State} {s : State} {p : Fin 4} {x : Measurement} (hs : State.Keeps z s) :
    State.Keeps z (State.servoReport s p x) := by
  unfold State.servoReport
  with_reducible repeat' (first
    | assumption | apply State.fsetS_keeps | apply State.wset_keeps | apply State.modServo_keeps | apply foldl_keeps
    | intro _ | split
    | (apply State.Keeps.upd; first
        | assumption | apply State.fsetS_keeps | apply State.wset_keeps | apply State.modServo_keeps)
    | dsimp only)

theorem State.servoPort_keeps {z : State} {s : State} {p : Fin 4} {x : Measurement} (hs : State.Keeps z s) :
    State.Keeps z (State.servoPort s p x) := by
  unfold State.servoPort
  with_reducible repeat' (first
    | assumption | apply State.modServo_keeps | intro _ | split
    | (apply State.Keeps.upd; first
        | assumption | apply State.modServo_keeps)
    | dsimp only)

theorem State.servoParent_keeps {z : State} {s : State} {parent : Nat} (hs : State.Keeps z s) :
    State.Keeps z (State.servoParent s parent) := by
  unfold State.servoParent
  with_reducible repeat' (first
    | assumption | apply State.raise_keeps | apply State.modServo_keeps | apply State.setFlag_keeps
    | apply State.holdEnd_keeps | intro _ | split
    | (apply State.Keeps.upd; first
        | assumption | apply State.raise_keeps | apply State.modServo_keeps | apply State.setFlag_keeps
        | apply State.holdEnd_keeps)
    | dsimp only)

theorem State.servoSlew_keeps {z : State} {s : State} {theta : Int} {ts : Nat} (hs : State.Keeps z s) :
    State.Keeps z (State.servoSlew s theta ts) := by
  unfold State.servoSlew
  with_reducible repeat' (first
    | assumption | apply State.modServo_keeps | apply State.servoAdj_keeps | intro _
    | (apply State.Keeps.upd; first
        | assumption | apply State.modServo_keeps | apply State.servoAdj_keeps)
    | dsimp only)

theorem State.servoMeasure_keeps {z : State} {s : State} {p : Fin 4} {dom : Nat} {x : Measurement}
    (hs : State.Keeps z s) :
    State.KeepsO z (State.servoMeasure s p dom x) := by
  unfold State.servoMeasure
  with_reducible repeat' (first
    | assumption | apply State.servoReport_keeps | apply State.servoPort_keeps | apply State.servoLock_keeps
    | apply State.servoParent_keeps | apply State.modServo_keeps | apply State.setFlag_keeps
    | apply State.lclkBy_keeps | apply State.servoSlew_keeps | exact State.KeepsO.none | apply State.KeepsO.some
    | intro _ | split
    | (apply State.Keeps.upd; first
        | assumption | apply State.servoReport_keeps | apply State.servoPort_keeps | apply State.servoLock_keeps
        | apply State.servoParent_keeps | apply State.modServo_keeps | apply State.setFlag_keeps
        | apply State.lclkBy_keeps | apply State.servoSlew_keeps)
    | dsimp only)

theorem State.parentLoss_keeps {z : State} {s : State} (hs : State.Keeps z s) :
    State.Keeps z (State.parentLoss s) := by
  unfold State.parentLoss
  with_reducible repeat' (first
    | assumption | apply State.raise_keeps | apply State.modServo_keeps | apply State.servoAdj_keeps
    | apply State.holdStart_keeps | apply State.raiseFault_keeps | intro _ | split
    | (apply State.Keeps.upd; first
        | assumption | apply State.raise_keeps | apply State.modServo_keeps | apply State.servoAdj_keeps
        | apply State.holdStart_keeps | apply State.raiseFault_keeps)
    | dsimp only)

theorem State.grandmaster_keeps {z : State} {s : State} (hs : State.Keeps z s) :
    State.Keeps z (State.grandmaster s) := by
  unfold State.grandmaster
  with_reducible repeat' (first
    | assumption | apply State.setFlag_keeps | apply State.modServo_keeps | apply State.servoAdj_keeps
    | apply State.holdStart_keeps | apply State.holdEnd_keeps | intro _ | split
    | (apply State.Keeps.upd; first
        | assumption | apply State.setFlag_keeps | apply State.modServo_keeps | apply State.servoAdj_keeps
        | apply State.holdStart_keeps | apply State.holdEnd_keeps)
    | dsimp only)

theorem State.rafclkLoss_keeps {z : State} {s : State} (hs : State.Keeps z s) :
    State.Keeps z (State.rafclkLoss s) := by
  unfold State.rafclkLoss
  with_reducible repeat' (first | assumption | apply State.clockLost_keeps | split)

theorem State.cycleBegin_keeps {z : State} {s : State} {at' : Nat} (hs : State.Keeps z s) :
    State.Keeps z (State.cycleBegin s at') := by
  unfold State.cycleBegin
  with_reducible repeat' (first
    | assumption | apply State.setFlag_keeps | apply State.wset_keeps | apply State.modSeq_keeps | intro _ | split
    | (apply State.Keeps.upd; first
        | assumption | apply State.setFlag_keeps | apply State.wset_keeps | apply State.modSeq_keeps)
    | dsimp only)

theorem State.latchAxis_keeps {z : State} {s : State} {tick : Bool} {n : Fin 64} (hs : State.Keeps z s) :
    State.Keeps z (State.latchAxis s tick n) := by
  unfold State.latchAxis
  with_reducible repeat' (first
    | assumption | apply State.modLp_keeps | apply State.modFld_keeps | intro _ | split
    | (apply State.Keeps.upd; first
        | assumption | apply State.modLp_keeps | apply State.modFld_keeps)
    | dsimp only)

theorem State.snapPage_keeps {z : State} {s : State} (hs : State.Keeps z s) :
    State.Keeps z (State.snapPage s) := by
  unfold State.snapPage
  with_reducible repeat' (first
    | assumption | apply forList_keeps | apply State.panWrite_keeps | apply State.marchTouch_keeps | intro _ | split
    | dsimp only)

theorem State.axisSpindles_keeps {z : State} {s : State} {fp : Bool} (hs : State.Keeps z s) :
    State.Keeps z (State.axisSpindles s fp) := by
  unfold State.axisSpindles
  with_reducible repeat' (first
    | assumption | apply forFin_keeps | apply State.spinAxis_keeps | intro _ | split | dsimp only)

theorem State.takeSnapshot_keeps {z : State} {s : State} {first fp : Bool} (hs : State.Keeps z s) :
    State.Keeps z (State.takeSnapshot s first fp) := by
  unfold State.takeSnapshot
  with_reducible repeat' (first
    | assumption | apply forFin_keeps | apply State.chLatch_keeps | apply State.cmdLatch_keeps
    | apply State.axFeedback_keeps | apply State.fieldLatch_keeps | apply State.recExtend_keeps
    | apply State.axisSpindles_keeps | apply State.modSp_keeps | apply State.spinAccTick_keeps
    | apply State.snapPage_keeps | intro _ | split
    | (apply State.Keeps.upd; first
        | assumption | apply forFin_keeps | apply State.chLatch_keeps | apply State.cmdLatch_keeps
        | apply State.axFeedback_keeps | apply State.fieldLatch_keeps | apply State.recExtend_keeps
        | apply State.axisSpindles_keeps | apply State.modSp_keeps | apply State.spinAccTick_keeps
        | apply State.snapPage_keeps)
    | dsimp only)

theorem State.txRecords_keeps {z : State} {s : State} (hs : State.Keeps z s) :
    State.Keeps z (State.txRecords s) := by
  unfold State.txRecords
  with_reducible repeat' (first
    | assumption | apply State.modJo_keeps | exact State.KeepsE.error | apply State.KeepsE.ok
    | exact State.KeepsP.error | apply State.KeepsP.ok | intro _
    | (apply State.Keeps.upd; first
        | assumption | apply State.modJo_keeps)
    | dsimp only)

theorem State.joistTick_keeps {z : State} {s : State} (hs : State.Keeps z s) :
    State.Keeps z (State.joistTick s) := by
  unfold State.joistTick
  with_reducible repeat' (first
    | assumption | apply State.modJo_keeps | apply State.joistCount_keeps | intro _ | split
    | (apply State.Keeps.upd; first
        | assumption | apply State.modJo_keeps | apply State.joistCount_keeps)
    | dsimp only)

theorem State.persistent_keeps {z : State} {s : State} {n : Fin 64} (hs : State.Keeps z s) :
    State.Keeps z (State.persistent s n) := by
  unfold State.persistent
  with_reducible repeat' (first
    | assumption | apply forList_keeps | apply State.feedbackFault_keeps | apply State.axisFault_keeps | intro _
    | split | dsimp only)

theorem State.outerLoops_keeps {z : State} {s : State} {fv fp : Bool} (hs : State.Keeps z s) :
    State.Keeps z (State.outerLoops s fv fp) := by
  unfold State.outerLoops
  with_reducible repeat' (first
    | assumption | apply forFin_keeps | apply State.grpTick_keeps | apply State.axTake_keeps
    | apply State.grpShow_keeps | apply State.axRun_keeps | apply State.posTick_keeps | apply State.modSeq_keeps
    | apply State.velTick_keeps | apply State.txRecords_keeps | intro _ | split
    | (apply State.Keeps.upd; first
        | assumption | apply forFin_keeps | apply State.grpTick_keeps | apply State.axTake_keeps
        | apply State.grpShow_keeps | apply State.axRun_keeps | apply State.posTick_keeps | apply State.modSeq_keeps
        | apply State.velTick_keeps | apply State.txRecords_keeps)
    | dsimp only)

theorem State.cycleWork_keeps {z : State} {s : State} {first pred tick : Bool} {e : Int} (hs : State.Keeps z s) :
    State.Keeps z (State.cycleWork s first pred tick e) := by
  unfold State.cycleWork
  with_reducible repeat' (first
    | assumption | apply forFin_keeps | apply State.filtCompute_keeps | apply State.latchAxis_keeps
    | apply State.latchJoist_keeps | apply State.takeSnapshot_keeps | apply State.blCycle_keeps
    | apply State.coreCycle_keeps | apply State.ssiArm_keeps | apply State.celCycle_keeps
    | apply State.sillStart_keeps | apply State.ledTick_keeps | apply State.skewTick_keeps
    | apply State.outerLoops_keeps | apply State.joistTick_keeps | apply State.stpPulses_keeps
    | apply State.persistent_keeps | intro _ | split
    | (apply State.Keeps.upd; first
        | assumption | apply forFin_keeps | apply State.filtCompute_keeps | apply State.latchAxis_keeps
        | apply State.latchJoist_keeps | apply State.takeSnapshot_keeps | apply State.blCycle_keeps
        | apply State.coreCycle_keeps | apply State.ssiArm_keeps | apply State.celCycle_keeps
        | apply State.sillStart_keeps | apply State.ledTick_keeps | apply State.skewTick_keeps
        | apply State.outerLoops_keeps | apply State.joistTick_keeps | apply State.stpPulses_keeps
        | apply State.persistent_keeps)
    | dsimp only)

theorem State.hostDefer_keeps {z : State} {s : State} (hs : State.Keeps z s) :
    State.Keeps z (State.hostDefer s) := by
  unfold State.hostDefer
  with_reducible repeat' (first
    | assumption | apply State.takeFree_keeps | apply State.finc_keeps | split
    | (apply State.Keeps.upd; first
        | assumption | apply State.takeFree_keeps | apply State.finc_keeps)
    | dsimp only)

theorem State.cycleStart_keeps {z : State} {s0 : State} (hs0 : State.Keeps z s0) :
    State.Keeps z (State.cycleStart s0) := by
  unfold State.cycleStart
  with_reducible repeat' (first
    | assumption | apply State.seqSettle_keeps | apply State.cycleBegin_keeps | apply State.hostDefer_keeps
    | apply State.cycleWork_keeps | split
    | (apply State.Keeps.upd; first
        | assumption | apply State.seqSettle_keeps | apply State.cycleBegin_keeps | apply State.hostDefer_keeps
        | apply State.cycleWork_keeps)
    | dsimp only)

theorem State.axFaultClear_keeps {z : State} {s : State} {n : Fin 64} {m : Nat} (hs : State.Keeps z s) :
    State.Keeps z (State.axFaultClear s n m) := by
  unfold State.axFaultClear
  with_reducible repeat' (first | assumption | apply State.faultClear_keeps | intro _ | dsimp only)

end Sys2Proof.Machine
end

