-- ==== Sys2Proof/Laws/KeepsBus.lean ====
section
/-! SUPPORT. One lemma per operation: what register accesses and joined operations keep. -/
set_option Elab.async false
namespace Sys2Proof.Machine

theorem okIf_keeps {z : State} {b : Bool} {p : State} (hp : State.Keeps z p) :
    State.KeepsO z (okIf b p) := by
  unfold okIf
  with_reducible repeat' (first | assumption | exact State.KeepsO.none | apply State.KeepsO.some | split)

theorem State.effCyc_keeps {z : State} {s p : State} {o v : Nat} (hs : State.Keeps z s) (hp : State.Keeps z p) :
    State.KeepsO z (State.effCyc s p o v) := by
  unfold State.effCyc
  with_reducible repeat' (first
    | assumption | apply State.setFlag_keeps | apply State.seqRun_keeps | apply State.seqStop_keeps
    | apply okIf_keeps | exact State.KeepsO.none | apply State.KeepsO.some | split | dsimp only)

theorem State.effLodge_keeps {z : State} {s p : State} {o v : Nat} (hs : State.Keeps z s) (hp : State.Keeps z p) :
    State.KeepsO z (State.effLodge s p o v) := by
  unfold State.effLodge
  with_reducible repeat' (first
    | assumption | apply State.setFlag_keeps | apply State.setReg_keeps | exact State.KeepsO.none
    | apply State.KeepsO.some | split | dsimp only)

theorem State.effDev_keeps {z : State} {s p : State} {o v : Nat} (hs : State.Keeps z s) (hp : State.Keeps z p) :
    State.KeepsO z (State.effDev s p o v) := by
  unfold State.effDev
  with_reducible repeat' (first
    | assumption | apply State.fuseWrite_keeps | exact State.KeepsO.none | apply State.KeepsO.some | split)

theorem State.effSpindle_keeps {z : State} {s p : State} {n : Fin 16} {o v : Nat} (hs : State.Keeps z s)
    (hp : State.Keeps z p) :
    State.KeepsO z (State.effSpindle s p n o v) := by
  unfold State.effSpindle
  with_reducible repeat' (first
    | assumption | apply State.spinHold_keeps | apply State.setFlag_keeps | apply State.ledPause_keeps
    | apply okIf_keeps | apply State.spinEnable_keeps | apply State.spinRescale_keeps | apply State.spinLoad_keeps
    | exact State.KeepsO.none | apply State.KeepsO.some | intro _ | split | dsimp only)

theorem State.effLedger_keeps {z : State} {s p : State} {o v : Nat} (hs : State.Keeps z s) (hp : State.Keeps z p) :
    State.KeepsO z (State.effLedger s p o v) := by
  unfold State.effLedger
  with_reducible repeat' (first
    | assumption | apply State.lclkLate_keeps | apply State.ledPause_keeps | apply okIf_keeps
    | apply State.parityFind_keeps | apply State.ledSubmit_keeps | apply State.ledPop_keeps
    | exact State.KeepsO.none | apply State.KeepsO.some | intro _ | split | dsimp only)

theorem State.effMarkTout_keeps {z : State} {s p : State} {o v : Nat} (hs : State.Keeps z s) (hp : State.Keeps z p) :
    State.KeepsO z (State.effMarkTout s p o v) := by
  unfold State.effMarkTout
  with_reducible repeat' (first
    | assumption | apply State.markPop_keeps | apply State.toutConfig_keeps | apply State.toutForce_keeps
    | exact State.KeepsO.none | apply State.KeepsO.some | split | dsimp only)

theorem State.effChuck_keeps {z : State} {s p : State} {c : Fin 32} {o v : Nat} (hs : State.Keeps z s)
    (hp : State.Keeps z p) :
    State.KeepsO z (State.effChuck s p c o v) := by
  unfold State.effChuck
  with_reducible repeat' (first
    | assumption | apply okIf_keeps | apply State.chShowSector_keeps | apply State.chGate_keeps
    | apply State.chModeChange_keeps | apply State.chOffset_keeps | apply State.chFltClear_keeps
    | exact State.KeepsO.none | apply State.KeepsO.some | split)

theorem State.effHearth_keeps {z : State} {s p : State} {o v : Nat} (hs : State.Keeps z s) (hp : State.Keeps z p) :
    State.KeepsO z (State.effHearth s p o v) := by
  unfold State.effHearth
  with_reducible repeat' (first
    | assumption | apply State.servoAdj_keeps | apply State.holdEnd_keeps | apply State.lclkSet_keeps
    | apply State.lclkBy_keeps | apply okIf_keeps | exact State.KeepsO.none | apply State.KeepsO.some | split
    | dsimp only)

theorem State.effRafter_keeps {z : State} {s p : State} {o v : Nat} (hs : State.Keeps z s) (hp : State.Keeps z p) :
    State.KeepsO z (State.effRafter s p o v) := by
  unfold State.effRafter
  with_reducible repeat' (first
    | assumption | apply State.rafFire_keeps | apply State.rafMeasure_keeps | exact State.KeepsO.none
    | apply State.KeepsO.some | split)

theorem State.keepOld_keeps {z : State} {s p : State} {a : Nat} (hs : State.Keeps z s) (hp : State.Keeps z p) :
    State.Keeps z (State.keepOld s p a) := by
  unfold State.keepOld
  with_reducible repeat' (first
    | assumption | split
    | (apply State.Keeps.upd; first
        | assumption))

theorem State.effFilter_keeps {z : State} {s p : State} {n : Fin 64} {o v : Nat} (hs : State.Keeps z s)
    (hp : State.Keeps z p) :
    State.KeepsO z (State.effFilter s p n o v) := by
  unfold State.effFilter
  with_reducible repeat' (first
    | assumption | apply State.modLp_keeps | exact State.KeepsO.none | apply State.KeepsO.some | intro _ | split
    | (apply State.Keeps.upd; first
        | assumption | apply State.modLp_keeps)
    | dsimp only)

theorem State.effAxis_keeps {z : State} {s p : State} {n : Fin 64} {o v : Nat} (hs : State.Keeps z s)
    (hp : State.Keeps z p) :
    State.KeepsO z (State.effAxis s p n o v) := by
  unfold State.effAxis
  with_reducible repeat' (first
    | assumption | apply State.grpAbort_keeps | apply State.grpPush_keeps | apply State.effFilter_keeps
    | apply State.persistent_keeps | apply okIf_keeps | apply State.axCmdWrite_keeps | apply State.modAx_keeps
    | apply State.axShift_keeps | apply State.loopCtrl_keeps | apply State.axFaultClear_keeps
    | apply State.faultRelease_keeps | apply State.keepOld_keeps | exact State.KeepsO.none | apply State.KeepsO.some
    | intro _ | split
    | (apply State.Keeps.upd; first
        | assumption | apply State.grpAbort_keeps | apply State.grpPush_keeps | apply State.effFilter_keeps
        | apply State.persistent_keeps | apply okIf_keeps | apply State.axCmdWrite_keeps | apply State.modAx_keeps
        | apply State.axShift_keeps | apply State.loopCtrl_keeps | apply State.axFaultClear_keeps
        | apply State.faultRelease_keeps | apply State.keepOld_keeps)
    | dsimp only)

theorem State.effCmd_keeps {z : State} {s p : State} {k : Fin 8} {o _v : Nat} (hs : State.Keeps z s)
    (hp : State.Keeps z p) :
    State.KeepsO z (State.effCmd s p k o _v) := by
  unfold State.effCmd
  with_reducible repeat' (first
    | assumption | apply State.cmdConfig_keeps | exact State.KeepsO.none | apply State.KeepsO.some | split)

theorem State.effSill_keeps {z : State} {_s p : State} {o v : Nat} (h_s : State.Keeps z _s) (hp : State.Keeps z p) :
    State.KeepsO z (State.effSill _s p o v) := by
  unfold State.effSill
  with_reducible repeat' (first
    | assumption | apply okIf_keeps | exact State.KeepsO.none | apply State.KeepsO.some | split)

theorem State.stpOff_keeps {z : State} {s : State} {o : Fin 16} (hs : State.Keeps z s) :
    State.Keeps z (State.stpOff s o) := by
  unfold State.stpOff
  with_reducible repeat' (first
    | assumption
    | (apply State.Keeps.upd; first
        | assumption)
    | dsimp only)

theorem State.effStp_keeps {z : State} {s p : State} {o v : Nat} (hs : State.Keeps z s) (hp : State.Keeps z p) :
    State.KeepsO z (State.effStp s p o v) := by
  unfold State.effStp
  with_reducible repeat' (first
    | assumption | apply okIf_keeps | apply State.stpOff_keeps | apply State.keepOld_keeps | exact State.KeepsO.none
    | apply State.KeepsO.some | split)

theorem State.effBridge_keeps {z : State} {s p : State} {l : Fin 16} {o v : Nat} (hs : State.Keeps z s)
    (hp : State.Keeps z p) :
    State.KeepsO z (State.effBridge s p l o v) := by
  unfold State.effBridge
  with_reducible repeat' (first
    | assumption | apply State.blCtrl_keeps | apply okIf_keeps | exact State.KeepsO.none | apply State.KeepsO.some
    | split | dsimp only)

theorem State.effSkew_keeps {z : State} {s p : State} {o v : Nat} (hs : State.Keeps z s) (hp : State.Keeps z p) :
    State.KeepsO z (State.effSkew s p o v) := by
  unfold State.effSkew
  with_reducible repeat' (first
    | assumption | apply State.setFlag_keeps | apply State.skewConfig_keeps | apply okIf_keeps
    | exact State.KeepsO.none | apply State.KeepsO.some | split
    | (apply State.Keeps.upd; first
        | assumption | apply State.setFlag_keeps | apply State.skewConfig_keeps | apply okIf_keeps)
    | dsimp only)

theorem State.effBar_keeps {z : State} {s p : State} {b : Fin 16} {o v : Nat} (hs : State.Keeps z s)
    (hp : State.Keeps z p) :
    State.KeepsO z (State.effBar s p b o v) := by
  unfold State.effBar
  with_reducible repeat' (first
    | assumption | apply State.setFlag_keeps | apply State.skewConfig_keeps | apply okIf_keeps
    | apply State.wsetS_keeps | apply State.barCreset_keeps | exact State.KeepsO.none | apply State.KeepsO.some
    | split)

theorem State.effJet_keeps {z : State} {s p : State} {l : Fin 8} {o v : Nat} (hs : State.Keeps z s)
    (hp : State.Keeps z p) :
    State.KeepsO z (State.effJet s p l o v) := by
  unfold State.effJet
  with_reducible repeat' (first
    | assumption | apply State.jlCtrl_keeps | apply okIf_keeps | apply State.jlDownload_keeps
    | exact State.KeepsO.none | apply State.KeepsO.some | split)

theorem State.effGouge_keeps {z : State} {s p : State} {n : Fin 10} {o v : Nat} (hs : State.Keeps z s)
    (hp : State.Keeps z p) :
    State.KeepsO z (State.effGouge s p n o v) := by
  unfold State.effGouge
  with_reducible repeat' (first
    | assumption | apply State.coreEnable_keeps | apply State.coreFault_keeps | apply okIf_keeps
    | apply State.modCore_keeps | exact State.KeepsO.none | apply State.KeepsO.some | intro _ | split
    | (apply State.Keeps.upd; first
        | assumption | apply State.coreEnable_keeps | apply State.coreFault_keeps | apply okIf_keeps
        | apply State.modCore_keeps)
    | dsimp only)

theorem State.effGs_keeps {z : State} {s p : State} {o v : Nat} (hs : State.Keeps z s) (hp : State.Keeps z p) :
    State.KeepsO z (State.effGs s p o v) := by
  unfold State.effGs
  with_reducible repeat' (first
    | assumption | apply okIf_keeps | exact State.KeepsO.none | apply State.KeepsO.some | intro _ | split
    | dsimp only)

theorem State.effPan_keeps {z : State} {_s p : State} {o v : Nat} (h_s : State.Keeps z _s) (hp : State.Keeps z p) :
    State.KeepsO z (State.effPan _s p o v) := by
  unfold State.effPan
  with_reducible repeat' (first
    | assumption | apply okIf_keeps | exact State.KeepsO.none | apply State.KeepsO.some | split)

theorem State.effCellar_keeps {z : State} {s p : State} {o v : Nat} (hs : State.Keeps z s) (hp : State.Keeps z p) :
    State.KeepsO z (State.effCellar s p o v) := by
  unfold State.effCellar
  with_reducible repeat' (first
    | assumption | apply State.celStop_keeps | apply State.celArm_keeps | apply okIf_keeps
    | apply State.celForce_keeps | exact State.KeepsO.none | apply State.KeepsO.some | split | dsimp only)

theorem State.effThr_keeps {z : State} {s p : State} {o v : Nat} (hs : State.Keeps z s) (hp : State.Keeps z p) :
    State.KeepsO z (State.effThr s p o v) := by
  unfold State.effThr
  with_reducible repeat' (first
    | assumption | apply State.thrRequest_keeps | exact State.KeepsO.none | apply State.KeepsO.some | split)

theorem State.effFault_keeps {z : State} {s p : State} {o v : Nat} (hs : State.Keeps z s) (hp : State.Keeps z p) :
    State.KeepsO z (State.effFault s p o v) := by
  unfold State.effFault
  with_reducible repeat' (first
    | assumption | apply State.fset_keeps | apply State.atticClear_keeps | apply State.atticUser_keeps
    | exact State.KeepsO.none | apply State.KeepsO.some | split)

theorem State.joistFltrst_keeps {z : State} {s : State} {m : Nat} (hs : State.Keeps z s) :
    State.Keeps z (State.joistFltrst s m) := by
  unfold State.joistFltrst
  with_reducible repeat' (first
    | assumption | apply State.modJo_keeps | intro _
    | (apply State.Keeps.upd; first
        | assumption | apply State.modJo_keeps)
    | dsimp only)

theorem State.effHallway_keeps {z : State} {s p : State} {o v : Nat} (hs : State.Keeps z s) (hp : State.Keeps z p) :
    State.KeepsO z (State.effHallway s p o v) := by
  unfold State.effHallway
  with_reducible repeat' (first
    | assumption | apply okIf_keeps | apply State.portDown_keeps | apply State.qbvApply_keeps
    | apply State.qbvCommit_keeps | apply State.mdioWrite_keeps | apply State.joistFltrst_keeps
    | exact State.KeepsO.none | apply State.KeepsO.some | split
    | (apply State.Keeps.upd; first
        | assumption | apply okIf_keeps | apply State.portDown_keeps | apply State.qbvApply_keeps
        | apply State.qbvCommit_keeps | apply State.mdioWrite_keeps | apply State.joistFltrst_keeps)
    | dsimp only)

theorem State.effCan_keeps {z : State} {s p : State} {n : Fin 2} {o v : Nat} {idle : Option Bool}
    (hs : State.Keeps z s) (hp : State.Keeps z p) :
    State.KeepsO z (State.effCan s p n o v idle) := by
  unfold State.effCan
  with_reducible repeat' (first
    | assumption | apply State.canCtrl_keeps | apply State.takeFree_keeps | apply okIf_keeps
    | apply State.canCancel_keeps | apply State.canNewdat_keeps | exact State.KeepsO.none | apply State.KeepsO.some
    | split
    | (apply State.Keeps.upd; first
        | assumption | apply State.canCtrl_keeps | apply State.takeFree_keeps | apply okIf_keeps
        | apply State.canCancel_keeps | apply State.canNewdat_keeps)
    | dsimp only)

theorem State.effPower_keeps {z : State} {s p : State} {o v : Nat} (hs : State.Keeps z s) (hp : State.Keeps z p) :
    State.KeepsO z (State.effPower s p o v) := by
  unfold State.effPower
  with_reducible repeat' (first
    | assumption | apply State.pwrReset_keeps | apply State.sleepRequest_keeps | apply State.wdtStart_keeps
    | apply State.wdtKick_keeps | exact State.KeepsO.none | apply State.KeepsO.some | split
    | (apply State.Keeps.upd; first
        | assumption | apply State.pwrReset_keeps | apply State.sleepRequest_keeps | apply State.wdtStart_keeps
        | apply State.wdtKick_keeps)
    | dsimp only)

theorem State.regEffect_keeps {z : State} {s p : State} {a v : Nat} {idle : Option Bool} (hs : State.Keeps z s)
    (hp : State.Keeps z p) :
    State.KeepsO z (State.regEffect s p a v idle) := by
  unfold State.regEffect
  extract_lets o
  with_reducible repeat' (first
    | apply State.KeepsO.ite | apply State.effDev_keeps | apply State.effLodge_keeps
    | apply State.effPower_keeps | apply State.effCyc_keeps | apply State.effGs_keeps | apply State.effPan_keeps
    | apply State.effThr_keeps | apply State.effFault_keeps | apply State.effHearth_keeps | apply State.effRafter_keeps
    | apply State.effHallway_keeps | apply State.effChuck_keeps | apply State.effSpindle_keeps
    | apply State.effLedger_keeps | apply State.effAxis_keeps | apply State.effGouge_keeps | apply State.effBridge_keeps
    | apply State.effStp_keeps | apply State.effCmd_keeps | apply State.effSill_keeps | apply State.effMarkTout_keeps
    | apply State.effSkew_keeps | apply State.effBar_keeps | apply State.effJet_keeps | apply State.effCellar_keeps
    | apply State.effCan_keeps | apply State.KeepsO.some | assumption)

theorem State.settle_keeps {z : State} {s : State} (hs : State.Keeps z s) :
    State.Keeps z (State.settle s) := by
  unfold State.settle
  with_reducible repeat' (first
    | assumption | apply forFin_keeps | apply State.stpSettle_keeps | apply State.seqSettle_keeps | intro _ | split
    | (apply State.Keeps.upd; first
        | assumption | apply forFin_keeps | apply State.stpSettle_keeps | apply State.seqSettle_keeps)
    | dsimp only)

theorem State.settleAt_keeps {z : State} {s : State} {a : Nat} (hs : State.Keeps z s) :
    State.Keeps z (State.settleAt s a) := by
  unfold State.settleAt
  with_reducible repeat' (first
    | assumption | apply State.settle_keeps | apply State.spinStandstill_keeps | apply State.spinNorm_keeps
    | apply forFin_keeps | apply State.qbvStart_keeps | intro _ | split
    | (apply State.Keeps.upd; first
        | assumption | apply State.settle_keeps | apply State.spinStandstill_keeps | apply State.spinNorm_keeps
        | apply forFin_keeps | apply State.qbvStart_keeps)
    | dsimp only)

theorem State.commitWide_keeps {z : State} {s : State} {r : RegD} {a v : Nat} (hs : State.Keeps z s) :
    State.Keeps z (State.commitWide s r a v) := by
  unfold State.commitWide
  dsimp only
  refine State.setReg_keeps (forList_keeps hs ?_) _ _
  intro x t ht
  split
  · refine ht.of_sound (fun y => ⟨RegFile.set_wf y.1 _ _, y.2.1, ?_, y.2.2.2⟩) rfl rfl rfl
    exact (keysRise_iff _).2 (eraseKey_rise ((keysRise_iff _).1 y.2.2.1))
  · exact ht

theorem State.plainWrite_keeps {z : State} {s : State} {r : RegD} {a v : Nat} (hs : State.Keeps z s) :
    State.Keeps z (State.plainWrite s r a v) := by
  unfold State.plainWrite
  dsimp only
  split
  · exact State.Keeps.ite (State.setReg_keeps hs _ _) (State.noteWrote_keeps (State.setReg_keeps hs _ _))
  · split
    · exact hs
    · split
      · exact State.commitWide_keeps hs
      · refine hs.of_sound (fun y => ⟨y.1, y.2.1, ?_, y.2.2.2⟩) rfl rfl rfl
        exact (keysRise_iff _).2 (insertKey_rise ((keysRise_iff _).1 y.2.2.1))

theorem State.regWrite_keeps {z : State} {s : State} {m : Master} {r : RegD} {a v : Nat} {idle : Option Bool}
    (hs : State.Keeps z s) :
    State.KeepsE z (State.regWrite s m r a v idle) := by
  unfold State.regWrite
  split
  · exact State.KeepsE.ok (State.violate_keeps hs)
  · split
    · exact State.KeepsE.error
    · split
      · rename_i t h
        exact State.KeepsE.ok ((State.regEffect_keeps hs (State.plainWrite_keeps hs)).get t h)
      · exact State.KeepsE.error

theorem State.readWide_keeps {z : State} {s : State} {r : RegD} {a : Nat} (hs : State.Keeps z s) :
    State.Keeps z (State.readWide s r a).2 := by
  unfold State.readWide
  split
  · refine forList_keeps hs ?_
    intro i t ht
    refine ht.of_sound (fun y => ⟨y.1, ?_, y.2.2⟩) rfl rfl rfl
    exact (keysRise_iff _).2 (insertKey_rise ((keysRise_iff _).1 y.2.1))
  · exact hs

theorem State.regRead_keeps {z : State} {s : State} {m : Master} {r : RegD} {a at' : Nat} (hs : State.Keeps z s) :
    State.Keeps z (State.regRead s m r a at').2 := by
  unfold State.regRead
  with_reducible repeat' (first
    | assumption | apply State.violate_keeps | apply State.readWide_keeps | apply State.setReg_keeps | intro _
    | split | dsimp only)

theorem State.canRamWrite_keeps {z : State} {s : State} {a v : Nat} (hs : State.Keeps z s) :
    State.KeepsE z (State.canRamWrite s a v) := by
  unfold State.canRamWrite
  with_reducible repeat' (first
    | assumption | apply State.setMem32_keeps | exact State.KeepsE.error | apply State.KeepsE.ok | split
    | dsimp only)

theorem State.parityRead_keeps {z : State} {s : State} {k : MemKind} {a : Nat} (hs : State.Keeps z s) :
    State.Keeps z (State.parityRead s k a) := by
  unfold State.parityRead
  with_reducible repeat' (first | assumption | apply State.memFault_keeps | split)

theorem State.memMerge_keeps {z : State} {s : State} {k : MemKind} {a n v : Nat} (hs : State.Keeps z s) :
    State.Keeps z (State.memMerge s k a n v) := by
  unfold State.memMerge
  with_reducible repeat' (first
    | assumption | apply State.setMem32_keeps | apply State.parityCure_keeps | apply State.parityRead_keeps
    | apply State.writeN_keeps | split)

theorem State.loftWrite_keeps {z : State} {s : State} {a n v : Nat} (hs : State.Keeps z s) :
    State.KeepsE z (State.loftWrite s a n v) := by
  unfold State.loftWrite
  with_reducible repeat' (first
    | assumption | apply State.memMerge_keeps | exact State.KeepsE.error | apply State.KeepsE.ok | split
    | dsimp only)

theorem State.ledgerWrite_keeps {z : State} {s : State} {a n v : Nat} (hs : State.Keeps z s) :
    State.Keeps z (State.ledgerWrite s a n v) := by
  unfold State.ledgerWrite
  with_reducible repeat' (first
    | assumption | apply State.memMerge_keeps | apply State.setMem32_keeps | split | dsimp only)

theorem State.gougeWrite_keeps {z : State} {s : State} {m : Master} {a n v : Nat} (hs : State.Keeps z s) :
    State.KeepsE z (State.gougeWrite s m a n v) := by
  unfold State.gougeWrite
  with_reducible repeat' (first
    | assumption | apply State.violate_keeps | apply State.setMem32_keeps | apply State.parityCure_keeps
    | apply State.writeN_keeps | exact State.KeepsE.error | apply State.KeepsE.ok | split | dsimp only)

theorem State.gougeRead_keeps {z : State} {s : State} {m : Master} {a n : Nat} (hs : State.Keeps z s) :
    State.Keeps z (State.gougeRead s m a n).2 := by
  unfold State.gougeRead
  with_reducible repeat' (first
    | assumption | apply State.violate_keeps | apply State.memFault_keeps | split | dsimp only)

theorem State.memWrite_keeps {z : State} {s : State} {m : Master} {k : MemKind} {a n v : Nat} (hs : State.Keeps z s) :
    State.KeepsE z (State.memWrite s m k a n v) := by
  unfold State.memWrite
  with_reducible repeat' (first
    | assumption | apply State.gougeWrite_keeps | apply State.ledgerWrite_keeps | apply State.loftWrite_keeps
    | apply State.memMerge_keeps | exact State.KeepsE.error | apply State.KeepsE.ok | split
    | (apply State.Keeps.upd; first
        | assumption | apply State.gougeWrite_keeps | apply State.ledgerWrite_keeps | apply State.loftWrite_keeps
        | apply State.memMerge_keeps)
    | dsimp only)

theorem State.memRead_keeps {z : State} {s : State} {m : Master} {k : MemKind} {a n : Nat} (hs : State.Keeps z s) :
    State.Keeps z (State.memRead s m k a n).2 := by
  unfold State.memRead
  with_reducible repeat' (first
    | assumption | apply State.gougeRead_keeps | apply State.parityRead_keeps | split
    | (apply State.Keeps.upd; first
        | assumption | apply State.gougeRead_keeps | apply State.parityRead_keeps)
    | dsimp only)

theorem State.spaceWrite_keeps {z : State} {s : State} {m : Master} {n a v : Nat} {idle : Option Bool}
    (hs : State.Keeps z s) :
    State.KeepsE z (State.spaceWrite s m n a v idle) := by
  unfold State.spaceWrite
  with_reducible repeat' (first
    | assumption | apply State.violate_keeps | apply State.canRamWrite_keeps | apply State.regWrite_keeps
    | exact State.KeepsE.error | apply State.KeepsE.ok | split
    | (apply State.Keeps.upd; first
        | assumption | apply State.violate_keeps | apply State.canRamWrite_keeps | apply State.regWrite_keeps)
    | dsimp only)

theorem State.readForms_keeps {z : State} {s : State} {w : Nat} (hs : State.Keeps z s) :
    State.Keeps z (State.readForms s w) := by
  unfold State.readForms
  with_reducible repeat' (first | assumption | apply State.cmdRefresh_keeps | split | dsimp only)

theorem State.spaceRead_keeps {z : State} {s0 : State} {m : Master} {n a : Nat} (hs0 : State.Keeps z s0) :
    State.Keeps z (State.spaceRead s0 m n a).2 := by
  unfold State.spaceRead
  with_reducible repeat' (first
    | assumption | apply State.readForms_keeps | apply State.regRead_keeps | apply State.takeFree_keeps | split
    | (apply State.Keeps.upd; first
        | assumption | apply State.readForms_keeps | apply State.regRead_keeps | apply State.takeFree_keeps)
    | dsimp only)

theorem State.hostMark_keeps {z : State} {s : State} {m : Master} {k : MemKind} (hs : State.Keeps z s) :
    State.Keeps z (State.hostMark s m k) := by
  unfold State.hostMark
  with_reducible repeat' (first
    | assumption | split
    | (apply State.Keeps.upd; first
        | assumption)
    | dsimp only)

theorem State.busWrite_keeps {z : State} {s : State} {m : Master} {size : Size} {a v : Nat} {idle : Option Bool}
    (hs : State.Keeps z s) :
    State.KeepsE z (State.busWrite s m size a v idle) := by
  unfold State.busWrite
  with_reducible repeat' (first
    | assumption | apply State.settleAt_keeps | apply State.lodge_keeps | apply State.spaceWrite_keeps
    | apply State.hostMark_keeps | apply State.memWrite_keeps | exact State.KeepsE.error | apply State.KeepsE.ok
    | split
    | (apply State.Keeps.upd; first
        | assumption | apply State.settleAt_keeps | apply State.lodge_keeps | apply State.spaceWrite_keeps
        | apply State.hostMark_keeps | apply State.memWrite_keeps)
    | dsimp only)

theorem State.busRead_keeps {z : State} {s : State} {m : Master} {size : Size} {a : Nat} (hs : State.Keeps z s) :
    State.KeepsP z (State.busRead s m size a) := by
  unfold State.busRead
  with_reducible repeat' (first
    | assumption | apply State.settleAt_keeps | apply State.lodge_keeps | apply State.spaceRead_keeps
    | apply State.takeFree_keeps | apply State.hostMark_keeps | apply State.memRead_keeps | exact State.KeepsP.error
    | apply State.KeepsP.ok | split
    | (apply State.Keeps.upd; first
        | assumption | apply State.settleAt_keeps | apply State.lodge_keeps | apply State.spaceRead_keeps
        | apply State.takeFree_keeps | apply State.hostMark_keeps | apply State.memRead_keeps)
    | dsimp only)

theorem State.loaderRead_keeps {z : State} {s : State} {a : Nat} (hs : State.Keeps z s) :
    State.KeepsP z (State.loaderRead s a) := by
  unfold State.loaderRead
  with_reducible repeat' (first
    | assumption | apply State.busRead_keeps | exact State.KeepsP.error | apply State.KeepsP.ok)

theorem State.regsNext_keeps {z : State} {s : State} (hs : State.Keeps z s) :
    State.Keeps z (State.regsNext s) := by
  unfold State.regsNext
  with_reducible repeat' (first
    | assumption | apply State.modBoot_keeps | apply State.wait_keeps | exact State.KeepsE.error
    | apply State.KeepsE.ok | exact State.KeepsP.error | apply State.KeepsP.ok | intro _
    | (apply State.Keeps.upd; first
        | assumption | apply State.modBoot_keeps | apply State.wait_keeps)
    | dsimp only)

theorem State.regsWait_keeps {z : State} {s : State} (hs : State.Keeps z s) :
    State.Keeps z (State.regsWait s) := by
  unfold State.regsWait
  with_reducible repeat' (first
    | assumption | apply State.modBoot_keeps | apply State.wait_keeps | exact State.KeepsE.error
    | apply State.KeepsE.ok | exact State.KeepsP.error | apply State.KeepsP.ok | intro _
    | (apply State.Keeps.upd; first
        | assumption | apply State.modBoot_keeps | apply State.wait_keeps)
    | dsimp only)

theorem State.regsRun_keeps {z : State} (fuel : Nat) : ∀ {s : State}, State.Keeps z s →
    State.KeepsE z (State.regsRun fuel s) := by
  induction fuel with
  | zero => intro s hs; exact State.KeepsE.ok hs
  | succ k ih =>
    intro s hs
    unfold State.regsRun
    split
    · exact State.KeepsE.ok hs
    · dsimp only
      split
      · split
        · exact State.KeepsE.ok (State.bootDone_keeps hs)
        · exact State.KeepsE.ok hs
      · split
        · exact State.KeepsE.bind (State.busWrite_keeps hs) (fun t ht => ih (State.regsNext_keeps ht))
        · exact State.KeepsP.bind (State.loaderRead_keeps hs) (fun x hx =>
            State.KeepsE.bind (State.busWrite_keeps hx) (fun t ht => ih (State.regsNext_keeps ht)))
        · refine State.KeepsP.bind (State.loaderRead_keeps hs) (fun x hx => ?_)
          split
          · exact ih (State.regsNext_keeps hx)
          · split
            · exact State.KeepsE.ok hx
            · exact State.KeepsE.ok (State.regsWait_keeps hx)
        · split
          · exact State.KeepsE.error
          · split
            · exact ih (State.regsNext_keeps hs)
            · split
              · exact State.KeepsE.ok hs
              · exact State.KeepsE.ok (State.regsWait_keeps hs)

theorem State.regsGo_keeps {z : State} {s : State} (hs : State.Keeps z s) :
    State.KeepsE z (State.regsGo s) := by
  unfold State.regsGo
  exact State.regsRun_keeps _ hs

theorem State.loadPass_keeps {z : State} {s : State} {read : Option Nat} (hs : State.Keeps z s) :
    State.KeepsE z (State.loadPass s read) := by
  unfold State.loadPass
  with_reducible repeat' (first
    | assumption | apply State.bootPass_keeps | apply State.regsGo_keeps | exact State.KeepsE.error
    | apply State.KeepsE.ok | intro _ | split | dsimp only)

theorem State.regsPoll_keeps {z : State} {s : State} (hs : State.Keeps z s) :
    State.KeepsE z (State.regsPoll s) := by
  unfold State.regsPoll
  with_reducible repeat' (first
    | assumption | apply State.regsGo_keeps | exact State.KeepsE.error | apply State.KeepsE.ok | split
    | (apply State.Keeps.upd; first
        | assumption | apply State.regsGo_keeps)
    | dsimp only)

theorem State.regsTimeout_keeps {z : State} {s : State} (hs : State.Keeps z s) :
    State.KeepsE z (State.regsTimeout s) := by
  unfold State.regsTimeout
  with_reducible repeat' (first
    | assumption | apply State.setFlag_keeps | apply State.regsNext_keeps | apply State.regsGo_keeps
    | exact State.KeepsE.error | apply State.KeepsE.ok | split
    | (apply State.Keeps.upd; first
        | assumption | apply State.setFlag_keeps | apply State.regsNext_keeps | apply State.regsGo_keeps)
    | dsimp only)

theorem State.regsDelay_keeps {z : State} {s : State} (hs : State.Keeps z s) :
    State.KeepsE z (State.regsDelay s) := by
  unfold State.regsDelay
  with_reducible repeat' (first
    | assumption | apply State.regsNext_keeps | apply State.regsGo_keeps | exact State.KeepsE.error
    | apply State.KeepsE.ok | split
    | (apply State.Keeps.upd; first
        | assumption | apply State.regsNext_keeps | apply State.regsGo_keeps)
    | dsimp only)

theorem orUnpredictable_keeps {z : State} {o : Option State} (h : State.KeepsO z o) :
    State.KeepsE z (orUnpredictable o) := by
  cases o with
  | none => exact State.KeepsE.error
  | some t => exact State.KeepsE.ok (h.get t rfl)

theorem State.fabricRead_keeps {z : State} {s : State} {m : Master} {size : Size} {a : Nat} (hs : State.Keeps z s) :
    State.KeepsE z (State.fabricRead s m size a) := by
  unfold State.fabricRead
  exact State.KeepsP.map (State.busRead_keeps hs) (fun t ht => State.Keeps.upd ht)

theorem State.startCycle_keeps {z : State} {s : State} (hs : State.Keeps z s) :
    State.KeepsE z (State.startCycle s) := by
  unfold State.startCycle
  with_reducible repeat' (first
    | assumption | apply State.seqSettle_keeps | apply State.cycleStart_keeps | exact State.KeepsE.error
    | apply State.KeepsE.ok | split
    | (apply State.Keeps.upd; first
        | assumption | apply State.seqSettle_keeps | apply State.cycleStart_keeps)
    | dsimp only)

theorem State.upstreamDeadline_keeps {z : State} {s : State} (hs : State.Keeps z s) :
    State.Keeps z (State.upstreamDeadline s) := by
  unfold State.upstreamDeadline
  with_reducible repeat' (first
    | assumption | apply forFin_keeps | apply State.blDeadline_keeps | apply State.modSeq_keeps | intro _ | split
    | (apply State.Keeps.upd; first
        | assumption | apply forFin_keeps | apply State.blDeadline_keeps | apply State.modSeq_keeps)
    | dsimp only)

theorem State.replayEnd_keeps {z : State} {s : State} (hs : State.Keeps z s) :
    State.Keeps z (State.replayEnd s) := by
  unfold State.replayEnd
  with_reducible repeat' (first
    | assumption | apply forFin_keeps | apply State.modBl_keeps | intro _ | split
    | (apply State.Keeps.upd; first
        | assumption | apply forFin_keeps | apply State.modBl_keeps)
    | dsimp only)

theorem State.markSkew_keeps {z : State} {s : State} {n : Fin 16} {w : BitVec 16} (hs : State.Keeps z s) :
    State.Keeps z (State.markSkew s n w) := by
  unfold State.markSkew
  with_reducible repeat' (first
    | assumption | apply State.markEdge_keeps | apply State.skewCapture_keeps | split | dsimp only)

theorem State.ssiGo_keeps {z : State} {s : State} {c : Fin 32} {ready : Bool} (hs : State.Keeps z s) :
    State.KeepsE z (State.ssiGo s c ready) := by
  unfold State.ssiGo
  with_reducible repeat' (first
    | assumption | apply State.ssiRequest_keeps | exact State.KeepsE.error | apply State.KeepsE.ok | split
    | (apply State.Keeps.upd; first
        | assumption | apply State.ssiRequest_keeps)
    | dsimp only)

theorem State.receiveFrame_keeps {z : State} {s : State} {p : Fin 4} {frame : List Nat} {ago : Nat}
    (hs : State.Keeps z s) :
    State.Keeps z (State.receiveFrame s p frame ago) := by
  unfold State.receiveFrame
  with_reducible repeat' (first
    | assumption | apply State.hwReceive_keeps | apply State.joistReceive_keeps | split | dsimp only)

theorem State.transmit_keeps {z : State} {s : State} {p : Fin 4} {own : Option MgmtTx} (hs : State.Keeps z s) :
    State.Keeps z (State.transmit s p own) := by
  unfold State.transmit
  with_reducible repeat' (first
    | assumption | apply State.mgmtSend_keeps | apply State.hwTransmit_keeps | split
    | (apply State.Keeps.upd; first
        | assumption | apply State.mgmtSend_keeps | apply State.hwTransmit_keeps)
    | dsimp only)

theorem State.readWords_keeps {z : State} {m : Master} (k : Nat) : ∀ {a : Nat} {s : State}, State.Keeps z s →
    State.KeepsP z (State.readWords m k a s) := by
  induction k with
  | zero => intro a s hs; exact State.KeepsP.ok hs
  | succ k ih =>
    intro a s hs
    unfold State.readWords
    split
    · exact State.KeepsP.error
    · rename_i x hx
      have h1 := (State.busRead_keeps (m := m) (size := .b32) (a := a) hs).get x hx
      split
      · exact State.KeepsP.error
      · rename_i y hy
        exact State.KeepsP.ok ((ih h1).get y hy)

theorem State.writeWords_keeps {z : State} {m : Master} (l : List Nat) : ∀ {a : Nat} {s : State}, State.Keeps z s →
    State.KeepsE z (State.writeWords m l a s) := by
  induction l with
  | nil => intro a s hs; exact State.KeepsE.ok hs
  | cons v l ih =>
    intro a s hs
    unfold State.writeWords
    split
    · exact State.KeepsE.error
    · rename_i t ht
      exact ih ((State.busWrite_keeps hs).get t ht)

theorem answered_keeps {z : State} {status : Nat} {payload : List Nat} {t : State} (ht : State.Keeps z t) :
    State.KeepsP z (answered status payload t) := by
  unfold answered
  with_reducible repeat' (first | assumption | exact State.KeepsP.error | apply State.KeepsP.ok)

theorem actReads_keeps {z : State} {a k : Nat} {x : Session} {t : State} (ht : State.Keeps z t) :
    State.KeepsP z (actReads a k x t) := by
  unfold actReads answered
  exact State.KeepsP.bindP (State.readWords_keeps k ht) (fun r hr => State.KeepsP.ok hr)

theorem actWrites_keeps {z : State} {a : Nat} {ws : List Nat} {x : Session} {t : State} (ht : State.Keeps z t) :
    State.KeepsP z (actWrites a ws x t) := by
  unfold actWrites answered
  exact State.KeepsE.bindP (State.writeWords_keeps ws ht) (fun r hr => State.KeepsP.ok hr)

theorem State.zenReadWord_keeps {z : State} {s : State} {h : ZHead} {a : Nat} (hs : State.Keeps z s) :
    State.KeepsE z (State.zenReadWord s h a) := by
  unfold State.zenReadWord
  with_reducible repeat' (first
    | assumption | apply State.zenServe_keeps | apply actReads_keeps | exact State.KeepsE.error
    | apply State.KeepsE.ok)

theorem State.zenWriteWord_keeps {z : State} {s : State} {h : ZHead} {a v : Nat} (hs : State.Keeps z s) :
    State.KeepsE z (State.zenWriteWord s h a v) := by
  unfold State.zenWriteWord
  with_reducible repeat' (first
    | assumption | apply State.zenServe_keeps | apply actWrites_keeps | exact State.KeepsE.error
    | apply State.KeepsE.ok)

theorem State.zenReadBlock_keeps {z : State} {s : State} {h : ZHead} {a k : Nat} (hs : State.Keeps z s) :
    State.KeepsE z (State.zenReadBlock s h a k) := by
  unfold State.zenReadBlock
  with_reducible repeat' (first
    | assumption | apply State.zenServe_keeps | apply answered_keeps | apply actReads_keeps
    | exact State.KeepsE.error | apply State.KeepsE.ok | intro _ | split | dsimp only)

theorem State.zenWriteBlock_keeps {z : State} {s : State} {h : ZHead} {a k : Nat} {ws : List Nat}
    (hs : State.Keeps z s) :
    State.KeepsE z (State.zenWriteBlock s h a k ws) := by
  unfold State.zenWriteBlock
  with_reducible repeat' (first
    | assumption | apply State.zenServe_keeps | apply answered_keeps | apply actWrites_keeps
    | exact State.KeepsE.error | apply State.KeepsE.ok | intro _ | split | dsimp only)

theorem actInsert_keeps {z : State} {slot lane entry : Nat} {x : Session} {t : State} (ht : State.Keeps z t) :
    State.KeepsP z (actInsert slot lane entry x t) := by
  unfold actInsert answered
  dsimp only
  exact State.KeepsE.bindP (State.writeWords_keeps _ ht) (fun t1 h1 => State.KeepsE.bindP (State.busWrite_keeps h1)
    (fun t2 h2 => State.KeepsP.bindP (State.busRead_keeps h2) (fun r hr => State.KeepsP.ok hr)))

theorem State.zenInsert_keeps {z : State} {s : State} {h : ZHead} {slot lane entry : Nat} (hs : State.Keeps z s) :
    State.KeepsE z (State.zenInsert s h slot lane entry) := by
  unfold State.zenInsert
  with_reducible repeat' (first
    | assumption | apply State.zenServe_keeps | apply actInsert_keeps | exact State.KeepsE.error
    | apply State.KeepsE.ok)

theorem actFlash_keeps {z : State} {seq slot erase offset : Nat} {data : List Nat} {x : Session} {t : State}
    (ht : State.Keeps z t) :
    State.KeepsP z (actFlash seq slot erase offset data x t) := by
  unfold actFlash
  with_reducible repeat' (first
    | assumption | apply answered_keeps | apply State.flashStart_keeps | exact State.KeepsP.error
    | apply State.KeepsP.ok | split)

theorem State.zenFlash_keeps {z : State} {s : State} {h : ZHead} {slot erase offset : Nat} {data : List Nat}
    (hs : State.Keeps z s) :
    State.KeepsE z (State.zenFlash s h slot erase offset data) := by
  unfold State.zenFlash
  with_reducible repeat' (first
    | assumption | apply State.zenServe_keeps | apply actFlash_keeps | exact State.KeepsE.error
    | apply State.KeepsE.ok)

theorem actReload_keeps {z : State} {mode : Nat} {x : Session} {t : State} (ht : State.Keeps z t) :
    State.KeepsP z (actReload mode x t) := by
  unfold actReload
  with_reducible repeat' (first
    | assumption | apply answered_keeps | exact State.KeepsP.error | apply State.KeepsP.ok | split
    | (apply State.Keeps.upd; first
        | assumption | apply answered_keeps))

theorem State.zenReload_keeps {z : State} {s : State} {h : ZHead} {mode : Nat} (hs : State.Keeps z s) :
    State.KeepsE z (State.zenReload s h mode) := by
  unfold State.zenReload
  with_reducible repeat' (first
    | assumption | apply State.zenServe_keeps | apply actReload_keeps | exact State.KeepsE.error
    | apply State.KeepsE.ok)

theorem State.zenOpenReq_keeps {z : State} {s : State} {seq : Nat} {q : OpenReq} (hs : State.Keeps z s) :
    State.Keeps z (s.zenOpenReq seq q) := by
  cases q with
  | plain => exact State.zenOpen_keeps hs
  | secure => exact State.zenOpenSecure_keeps hs

theorem State.zenClose_keeps {z : State} {s : State} {h : ZHead} (hs : State.Keeps z s) :
    State.KeepsE z (State.zenClose s h) := by
  unfold State.zenClose
  with_reducible repeat' (first
    | assumption | apply State.zenServe_keeps | apply answered_keeps | apply State.endSession_keeps
    | exact State.KeepsE.error | apply State.KeepsE.ok | intro _ | dsimp only)

theorem actStream_keeps {z : State} {seq : Nat} {q : StreamReq} {mac : Option Nat} {x : Session} {t : State}
    (ht : State.Keeps z t) :
    State.KeepsP z (actStream seq q mac x t) := by
  unfold actStream
  with_reducible repeat' (first
    | assumption | apply answered_keeps | apply State.streamOpen_keeps | exact State.KeepsP.error
    | apply State.KeepsP.ok | split | dsimp only)

theorem State.zenStream_keeps {z : State} {s : State} {h : ZHead} {q : StreamReq} {mac : Option Nat}
    (hs : State.Keeps z s) :
    State.KeepsE z (State.zenStream s h q mac) := by
  unfold State.zenStream
  with_reducible repeat' (first
    | assumption | apply State.zenServe_keeps | apply actStream_keeps | exact State.KeepsE.error
    | apply State.KeepsE.ok)
/-! ### The frames of commands -/

theorem State.act_keeps {s : State} {dt : Nat} {f : State → State}
    (h : ∀ t, State.Keeps (s.elapse dt) t → State.Keeps (s.elapse dt) (f t)) : State.KeepsR (s.elapse dt) (s.act dt f) :=
  State.KeepsR.next (State.Keeps.ite (State.wait_keeps s dt) (h _ (State.wait_keeps s dt)))

theorem State.actE_keeps {s : State} {dt : Nat} {f : State → Except Refusal State}
    (h : ∀ t, State.Keeps (s.elapse dt) t → State.KeepsE (s.elapse dt) (f t)) :
    State.KeepsR (s.elapse dt) (s.actE dt f) := by
  have k : State.KeepsE (s.elapse dt) (if (s.wait dt).off then Except.ok (s.wait dt) else f (s.wait dt)) :=
    State.KeepsE.ite (State.KeepsE.ok (State.wait_keeps s dt)) (h _ (State.wait_keeps s dt))
  unfold State.actE
  dsimp only
  split
  · rename_i u e
    exact State.KeepsR.next (k.get u e)
  · exact State.KeepsR.refused

theorem State.actThr_keeps {s : State} {dt : Nat} {f : State → State}
    (h : ∀ t, State.Keeps (s.elapse dt) t → State.Keeps (s.elapse dt) (f t)) : State.KeepsR (s.elapse dt) (s.actThr dt f) :=
  State.KeepsR.next (State.Keeps.ite (State.wait_keeps s dt) (h _ (State.wait_keeps s dt)))

theorem State.actPower_keeps {s : State} {dt : Nat} {f : State → State}
    (h : ∀ t, State.Keeps (s.elapse dt) t → State.Keeps (s.elapse dt) (f t)) :
    State.KeepsR (s.elapse dt) (s.actPower dt f) :=
  State.KeepsR.next (h _ (State.wait_keeps s dt))


end Sys2Proof.Machine
end

