-- ==== Sys2Proof/Laws/KeepsGouge.lean ====
section
/-! SUPPORT. One lemma per command of a Gouge slot: what it keeps beyond the passing of time. -/
namespace Sys2Proof.Machine

theorem execMnop_keeps {dt : Nat} {n : Fin 10} {rot : Bool} {s : State} :
    State.KeepsR (s.elapse dt) (execMnop dt n rot s) := by
  unfold execMnop
  with_reducible repeat' (first
    | assumption | apply State.wait_keeps | apply State.mSlot_keeps | exact State.KeepsO.none
    | apply State.KeepsO.some | exact State.KeepsR.refused | apply State.KeepsR.next | exact State.wait_keeps _ _
    | intro _ | dsimp only)

theorem execMpy_keeps {dt : Nat} {n : Fin 10} {rot : Bool} {d : Fin 4} {x y : Fin 16} {int ux uy : Bool} {s : State} :
    State.KeepsR (s.elapse dt) (execMpy dt n rot d x y int ux uy s) := by
  unfold execMpy
  with_reducible repeat' (first
    | assumption | apply State.wait_keeps | apply State.mAcc_keeps | exact State.wait_keeps _ _ | intro _
    | dsimp only)

theorem execMac_keeps {dt : Nat} {n : Fin 10} {rot : Bool} {d : Fin 4} {x y : Fin 16} {int ux uy : Bool} {s : State} :
    State.KeepsR (s.elapse dt) (execMac dt n rot d x y int ux uy s) := by
  unfold execMac
  with_reducible repeat' (first
    | assumption | apply State.wait_keeps | apply State.mSat_keeps | exact State.wait_keeps _ _ | intro _
    | dsimp only)

theorem execMsu_keeps {dt : Nat} {n : Fin 10} {rot : Bool} {d : Fin 4} {x y : Fin 16} {int ux uy : Bool} {s : State} :
    State.KeepsR (s.elapse dt) (execMsu dt n rot d x y int ux uy s) := by
  unfold execMsu
  with_reducible repeat' (first
    | assumption | apply State.wait_keeps | apply State.mSat_keeps | exact State.wait_keeps _ _ | intro _
    | dsimp only)

theorem execMpy2_keeps {dt : Nat} {n : Fin 10} {rot : Bool} {d : Fin 2} {x y : Fin 16} {s0 s1 : Bool} {s : State} :
    State.KeepsR (s.elapse dt) (execMpy2 dt n rot d x y s0 s1 s) := by
  unfold execMpy2
  with_reducible repeat' (first
    | assumption | apply State.wait_keeps | apply State.mPair_keeps | exact State.wait_keeps _ _ | intro _
    | dsimp only)

theorem execMac2_keeps {dt : Nat} {n : Fin 10} {rot : Bool} {d : Fin 2} {x y : Fin 16} {s0 s1 : Bool} {s : State} :
    State.KeepsR (s.elapse dt) (execMac2 dt n rot d x y s0 s1 s) := by
  unfold execMac2
  with_reducible repeat' (first
    | assumption | apply State.wait_keeps | apply State.mPair_keeps | exact State.wait_keeps _ _ | intro _
    | dsimp only)

theorem execAdd_keeps {dt : Nat} {n : Fin 10} {rot : Bool} {d a : Fin 4} {s : State} :
    State.KeepsR (s.elapse dt) (execAdd dt n rot d a s) := by
  unfold execAdd
  with_reducible repeat' (first
    | assumption | apply State.wait_keeps | apply State.mSat_keeps | exact State.wait_keeps _ _ | intro _
    | dsimp only)

theorem execSub_keeps {dt : Nat} {n : Fin 10} {rot : Bool} {d a : Fin 4} {s : State} :
    State.KeepsR (s.elapse dt) (execSub dt n rot d a s) := by
  unfold execSub
  with_reducible repeat' (first
    | assumption | apply State.wait_keeps | apply State.mSat_keeps | exact State.wait_keeps _ _ | intro _
    | dsimp only)

theorem execAdc_keeps {dt : Nat} {n : Fin 10} {rot : Bool} {d a : Fin 4} {s : State} :
    State.KeepsR (s.elapse dt) (execAdc dt n rot d a s) := by
  unfold execAdc
  with_reducible repeat' (first
    | assumption | apply State.wait_keeps | apply State.mAcc_keeps | exact State.wait_keeps _ _ | intro _
    | dsimp only)

theorem execSbc_keeps {dt : Nat} {n : Fin 10} {rot : Bool} {d a : Fin 4} {s : State} :
    State.KeepsR (s.elapse dt) (execSbc dt n rot d a s) := by
  unfold execSbc
  with_reducible repeat' (first
    | assumption | apply State.wait_keeps | apply State.mAcc_keeps | exact State.wait_keeps _ _ | intro _
    | dsimp only)

theorem execAddd_keeps {dt : Nat} {n : Fin 10} {rot : Bool} {d : Fin 4} {x : Fin 16} {s : State} :
    State.KeepsR (s.elapse dt) (execAddd dt n rot d x s) := by
  unfold execAddd
  with_reducible repeat' (first
    | assumption | apply State.wait_keeps | apply State.mSat_keeps | exact State.wait_keeps _ _ | intro _
    | dsimp only)

theorem execSubd_keeps {dt : Nat} {n : Fin 10} {rot : Bool} {d : Fin 4} {x : Fin 16} {s : State} :
    State.KeepsR (s.elapse dt) (execSubd dt n rot d x s) := by
  unfold execSubd
  with_reducible repeat' (first
    | assumption | apply State.wait_keeps | apply State.mSat_keeps | exact State.wait_keeps _ _ | intro _
    | dsimp only)

theorem execNeg_keeps {dt : Nat} {n : Fin 10} {rot : Bool} {d a : Fin 4} {s : State} :
    State.KeepsR (s.elapse dt) (execNeg dt n rot d a s) := by
  unfold execNeg
  with_reducible repeat' (first
    | assumption | apply State.wait_keeps | apply State.mSat_keeps | exact State.wait_keeps _ _ | intro _
    | dsimp only)

theorem execAbs_keeps {dt : Nat} {n : Fin 10} {rot : Bool} {d a : Fin 4} {s : State} :
    State.KeepsR (s.elapse dt) (execAbs dt n rot d a s) := by
  unfold execAbs
  with_reducible repeat' (first
    | assumption | apply State.wait_keeps | apply State.mSat_keeps | exact State.wait_keeps _ _ | intro _
    | dsimp only)

theorem execMova_keeps {dt : Nat} {n : Fin 10} {rot : Bool} {d a : Fin 4} {s : State} :
    State.KeepsR (s.elapse dt) (execMova dt n rot d a s) := by
  unfold execMova
  with_reducible repeat' (first
    | assumption | apply State.wait_keeps | apply State.mAcc_keeps | exact State.wait_keeps _ _ | intro _
    | dsimp only)

theorem execClr_keeps {dt : Nat} {n : Fin 10} {rot : Bool} {d : Fin 4} {s : State} :
    State.KeepsR (s.elapse dt) (execClr dt n rot d s) := by
  unfold execClr
  with_reducible repeat' (first
    | assumption | apply State.wait_keeps | apply State.mAcc_keeps | exact State.wait_keeps _ _ | intro _
    | dsimp only)

theorem execAsl_keeps {dt : Nat} {n : Fin 10} {rot : Bool} {d a : Fin 4} {k : Fin 64} {s : State} :
    State.KeepsR (s.elapse dt) (execAsl dt n rot d a k s) := by
  unfold execAsl
  with_reducible repeat' (first
    | assumption | apply State.wait_keeps | apply State.mSat_keeps | exact State.wait_keeps _ _ | intro _
    | dsimp only)

theorem execAsr_keeps {dt : Nat} {n : Fin 10} {rot : Bool} {d a : Fin 4} {k : Fin 64} {s : State} :
    State.KeepsR (s.elapse dt) (execAsr dt n rot d a k s) := by
  unfold execAsr
  with_reducible repeat' (first
    | assumption | apply State.wait_keeps | apply State.mAcc_keeps | exact State.wait_keeps _ _ | intro _
    | dsimp only)

theorem execLsr_keeps {dt : Nat} {n : Fin 10} {rot : Bool} {d a : Fin 4} {k : Fin 64} {s : State} :
    State.KeepsR (s.elapse dt) (execLsr dt n rot d a k s) := by
  unfold execLsr
  with_reducible repeat' (first
    | assumption | apply State.wait_keeps | apply State.mAcc_keeps | exact State.wait_keeps _ _ | intro _
    | dsimp only)

theorem execShv_keeps {dt : Nat} {n : Fin 10} {rot : Bool} {d a : Fin 4} {y : Fin 16} {s : State} :
    State.KeepsR (s.elapse dt) (execShv dt n rot d a y s) := by
  unfold execShv
  with_reducible repeat' (first
    | assumption | apply State.wait_keeps | apply State.mSat_keeps | exact State.wait_keeps _ _ | intro _ | split
    | dsimp only)

theorem execRnd_keeps {dt : Nat} {n : Fin 10} {rot : Bool} {d a : Fin 4} {s : State} :
    State.KeepsR (s.elapse dt) (execRnd dt n rot d a s) := by
  unfold execRnd
  with_reducible repeat' (first
    | assumption | apply State.wait_keeps | apply State.mSat_keeps | exact State.wait_keeps _ _ | intro _
    | dsimp only)

theorem execMax_keeps {dt : Nat} {n : Fin 10} {rot : Bool} {d a : Fin 4} {s : State} :
    State.KeepsR (s.elapse dt) (execMax dt n rot d a s) := by
  unfold execMax
  with_reducible repeat' (first
    | assumption | apply State.wait_keeps | apply State.mAcc_keeps | exact State.wait_keeps _ _ | intro _ | split
    | dsimp only)

theorem execMin_keeps {dt : Nat} {n : Fin 10} {rot : Bool} {d a : Fin 4} {s : State} :
    State.KeepsR (s.elapse dt) (execMin dt n rot d a s) := by
  unfold execMin
  with_reducible repeat' (first
    | assumption | apply State.wait_keeps | apply State.mAcc_keeps | exact State.wait_keeps _ _ | intro _ | split
    | dsimp only)

theorem execCmp_keeps {dt : Nat} {n : Fin 10} {rot : Bool} {d a : Fin 4} {s : State} :
    State.KeepsR (s.elapse dt) (execCmp dt n rot d a s) := by
  unfold execCmp
  with_reducible repeat' (first
    | assumption | apply State.wait_keeps | apply State.mSlot_keeps | exact State.KeepsO.none
    | apply State.KeepsO.some | exact State.KeepsR.refused | apply State.KeepsR.next | exact State.wait_keeps _ _
    | intro _ | dsimp only)

theorem execDtoa_keeps {dt : Nat} {n : Fin 10} {rot : Bool} {d : Fin 4} {x : Fin 16} {s : State} :
    State.KeepsR (s.elapse dt) (execDtoa dt n rot d x s) := by
  unfold execDtoa
  with_reducible repeat' (first
    | assumption | apply State.wait_keeps | apply State.mAcc_keeps | exact State.wait_keeps _ _ | intro _
    | dsimp only)

theorem execDiv_keeps {dt : Nat} {n : Fin 10} {rot : Bool} {d : Fin 4} {x : Fin 16} {s : State} :
    State.KeepsR (s.elapse dt) (execDiv dt n rot d x s) := by
  unfold execDiv
  with_reducible repeat' (first
    | assumption | apply State.wait_keeps | apply State.takeFree_keeps | apply State.mSlot_keeps
    | exact State.KeepsO.none | apply State.KeepsO.some | exact State.KeepsR.refused | apply State.KeepsR.next
    | exact State.wait_keeps _ _ | intro _ | dsimp only)

theorem execMovd_keeps {dt : Nat} {n : Fin 10} {rot : Bool} {d : Fin 16} {a : Fin 4} {s : State} :
    State.KeepsR (s.elapse dt) (execMovd dt n rot d a s) := by
  unfold execMovd
  with_reducible repeat' (first
    | assumption | apply State.wait_keeps | apply State.mD_keeps | exact State.wait_keeps _ _ | intro _ | dsimp only)

theorem execCls_keeps {dt : Nat} {n : Fin 10} {rot : Bool} {d : Fin 16} {a : Fin 4} {s : State} :
    State.KeepsR (s.elapse dt) (execCls dt n rot d a s) := by
  unfold execCls
  with_reducible repeat' (first
    | assumption | apply State.wait_keeps | apply State.mD_keeps | exact State.wait_keeps _ _ | intro _ | dsimp only)

theorem execDadd_keeps {dt : Nat} {n : Fin 10} {rot : Bool} {d x y : Fin 16} {s : State} :
    State.KeepsR (s.elapse dt) (execDadd dt n rot d x y s) := by
  unfold execDadd
  with_reducible repeat' (first
    | assumption | apply State.wait_keeps | apply State.mD_keeps | exact State.wait_keeps _ _ | intro _ | dsimp only)

theorem execDsub_keeps {dt : Nat} {n : Fin 10} {rot : Bool} {d x y : Fin 16} {s : State} :
    State.KeepsR (s.elapse dt) (execDsub dt n rot d x y s) := by
  unfold execDsub
  with_reducible repeat' (first
    | assumption | apply State.wait_keeps | apply State.mD_keeps | exact State.wait_keeps _ _ | intro _ | dsimp only)

theorem execDaddi_keeps {dt : Nat} {n : Fin 10} {rot : Bool} {d x : Fin 16} {imm : BitVec 6} {s : State} :
    State.KeepsR (s.elapse dt) (execDaddi dt n rot d x imm s) := by
  unfold execDaddi
  with_reducible repeat' (first
    | assumption | apply State.wait_keeps | apply State.mD_keeps | exact State.wait_keeps _ _ | intro _ | dsimp only)

theorem execDand_keeps {dt : Nat} {n : Fin 10} {rot : Bool} {d x y : Fin 16} {s : State} :
    State.KeepsR (s.elapse dt) (execDand dt n rot d x y s) := by
  unfold execDand
  with_reducible repeat' (first
    | assumption | apply State.wait_keeps | apply State.mD_keeps | exact State.wait_keeps _ _ | intro _ | dsimp only)

theorem execDor_keeps {dt : Nat} {n : Fin 10} {rot : Bool} {d x y : Fin 16} {s : State} :
    State.KeepsR (s.elapse dt) (execDor dt n rot d x y s) := by
  unfold execDor
  with_reducible repeat' (first
    | assumption | apply State.wait_keeps | apply State.mD_keeps | exact State.wait_keeps _ _ | intro _ | dsimp only)

theorem execDxor_keeps {dt : Nat} {n : Fin 10} {rot : Bool} {d x y : Fin 16} {s : State} :
    State.KeepsR (s.elapse dt) (execDxor dt n rot d x y s) := by
  unfold execDxor
  with_reducible repeat' (first
    | assumption | apply State.wait_keeps | apply State.mD_keeps | exact State.wait_keeps _ _ | intro _ | dsimp only)

theorem execDshl_keeps {dt : Nat} {n : Fin 10} {rot : Bool} {d x : Fin 16} {k : Fin 64} {s : State} :
    State.KeepsR (s.elapse dt) (execDshl dt n rot d x k s) := by
  unfold execDshl
  with_reducible repeat' (first
    | assumption | apply State.wait_keeps | apply State.mD_keeps | exact State.wait_keeps _ _ | intro _ | dsimp only)

theorem execDshr_keeps {dt : Nat} {n : Fin 10} {rot : Bool} {d x : Fin 16} {k : Fin 64} {s : State} :
    State.KeepsR (s.elapse dt) (execDshr dt n rot d x k s) := by
  unfold execDshr
  with_reducible repeat' (first
    | assumption | apply State.wait_keeps | apply State.mD_keeps | exact State.wait_keeps _ _ | intro _ | dsimp only)

theorem execDlsr_keeps {dt : Nat} {n : Fin 10} {rot : Bool} {d x : Fin 16} {k : Fin 64} {s : State} :
    State.KeepsR (s.elapse dt) (execDlsr dt n rot d x k s) := by
  unfold execDlsr
  with_reducible repeat' (first
    | assumption | apply State.wait_keeps | apply State.mD_keeps | exact State.wait_keeps _ _ | intro _ | dsimp only)

theorem execLd_keeps {dt : Nat} {n : Fin 10} {more : Bool} {reg : Fin 16} {p : Fin 8} {k : PMod} {imm : BitVec 16}
    {s : State} :
    State.KeepsR (s.elapse dt) (execLd dt n more reg p k imm s) := by
  unfold execLd
  with_reducible repeat' (first
    | assumption | apply State.wait_keeps | apply State.gLoad_keeps | exact State.wait_keeps _ _ | intro _)

theorem execLdh_keeps {dt : Nat} {n : Fin 10} {more : Bool} {reg : Fin 16} {p : Fin 8} {k : PMod} {imm : BitVec 16}
    {s : State} :
    State.KeepsR (s.elapse dt) (execLdh dt n more reg p k imm s) := by
  unfold execLdh
  with_reducible repeat' (first
    | assumption | apply State.wait_keeps | apply State.gLoad_keeps | exact State.wait_keeps _ _ | intro _)

theorem execSt_keeps {dt : Nat} {n : Fin 10} {more : Bool} {reg : Fin 16} {p : Fin 8} {k : PMod} {imm : BitVec 16}
    {s : State} :
    State.KeepsR (s.elapse dt) (execSt dt n more reg p k imm s) := by
  unfold execSt
  with_reducible repeat' (first
    | assumption | apply State.wait_keeps | apply State.gStore_keeps | exact State.wait_keeps _ _ | intro _
    | dsimp only)

theorem execSth_keeps {dt : Nat} {n : Fin 10} {more : Bool} {reg : Fin 16} {p : Fin 8} {k : PMod} {imm : BitVec 16}
    {s : State} :
    State.KeepsR (s.elapse dt) (execSth dt n more reg p k imm s) := by
  unfold execSth
  with_reducible repeat' (first
    | assumption | apply State.wait_keeps | apply State.gStore_keeps | exact State.wait_keeps _ _ | intro _
    | dsimp only)

theorem execSta_keeps {dt : Nat} {n : Fin 10} {more : Bool} {a : Fin 4} {p : Fin 8} {k : PMod} {imm : BitVec 16}
    {s : State} :
    State.KeepsR (s.elapse dt) (execSta dt n more a p k imm s) := by
  unfold execSta
  with_reducible repeat' (first
    | assumption | apply State.wait_keeps | apply State.gStore_keeps | exact State.wait_keeps _ _ | intro _
    | dsimp only)

theorem execXadd_keeps {dt : Nat} {n : Fin 10} {more : Bool} {reg : Fin 16} {p : Fin 8} {k : PMod} {imm : BitVec 16}
    {s : State} :
    State.KeepsR (s.elapse dt) (execXadd dt n more reg p k imm s) := by
  unfold execXadd
  with_reducible repeat' (first
    | assumption | apply State.wait_keeps | apply State.gAtomic_keeps | exact State.wait_keeps _ _ | intro _)

theorem execXswp_keeps {dt : Nat} {n : Fin 10} {more : Bool} {reg : Fin 16} {p : Fin 8} {k : PMod} {imm : BitVec 16}
    {s : State} :
    State.KeepsR (s.elapse dt) (execXswp dt n more reg p k imm s) := by
  unfold execXswp
  with_reducible repeat' (first
    | assumption | apply State.wait_keeps | apply State.gAtomic_keeps | exact State.wait_keeps _ _ | intro _)

theorem execPar_keeps {dt : Nat} {n : Fin 10} {more : Bool} {x y : ParSide} {s : State} :
    State.KeepsR (s.elapse dt) (execPar dt n more x y s) := by
  unfold execPar
  refine State.lSlot_keeps (State.wait_keeps _ _) ?_
  intro u r hu
  split
  · exact State.KeepsO.none
  · rename_i s2 h2
    refine State.KeepsO.map (State.parSide_keeps ((State.parSide_keeps hu).get s2 h2)) ?_
    intro s3 h3
    split
    · exact State.modRegs_keeps (State.takeFree_keeps h3)
    · exact h3

theorem execLdi_keeps {dt : Nat} {n : Fin 10} {more : Bool} {g : GReg} {imm : BitVec 16} {s : State} :
    State.KeepsR (s.elapse dt) (execLdi dt n more g imm s) := by
  unfold execLdi
  with_reducible repeat' (first
    | assumption | apply State.wait_keeps | apply State.lSlot_keeps | apply State.modCore_keeps
    | exact State.KeepsO.none | apply State.KeepsO.some | exact State.KeepsR.refused | apply State.KeepsR.next
    | exact State.wait_keeps _ _ | intro _ | dsimp only)

theorem execLdih_keeps {dt : Nat} {n : Fin 10} {more : Bool} {g : GReg} {imm : BitVec 16} {s : State} :
    State.KeepsR (s.elapse dt) (execLdih dt n more g imm s) := by
  unfold execLdih
  with_reducible repeat' (first
    | assumption | apply State.wait_keeps | apply State.lSlot_keeps | apply State.modCore_keeps
    | exact State.KeepsO.none | apply State.KeepsO.some | exact State.KeepsR.refused | apply State.KeepsR.next
    | exact State.wait_keeps _ _ | intro _ | split | dsimp only)

theorem execMovc_keeps {dt : Nat} {n : Fin 10} {more : Bool} {g src : GReg} {s : State} :
    State.KeepsR (s.elapse dt) (execMovc dt n more g src s) := by
  unfold execMovc
  with_reducible repeat' (first
    | assumption | apply State.wait_keeps | apply State.lSlot_keeps | apply State.modCore_keeps
    | exact State.KeepsO.none | apply State.KeepsO.some | exact State.KeepsR.refused | apply State.KeepsR.next
    | exact State.wait_keeps _ _ | intro _ | dsimp only)

theorem execPadd_keeps {dt : Nat} {n : Fin 10} {more : Bool} {p : Fin 8} {imm : BitVec 16} {s : State} :
    State.KeepsR (s.elapse dt) (execPadd dt n more p imm s) := by
  unfold execPadd
  with_reducible repeat' (first
    | assumption | apply State.wait_keeps | apply State.lSlot_keeps | apply State.modRegs_keeps
    | exact State.KeepsO.none | apply State.KeepsO.some | exact State.KeepsR.refused | apply State.KeepsR.next
    | exact State.wait_keeps _ _ | intro _ | dsimp only)

theorem execClrf_keeps {dt : Nat} {n : Fin 10} {more : Bool} {imm : BitVec 16} {s : State} :
    State.KeepsR (s.elapse dt) (execClrf dt n more imm s) := by
  unfold execClrf
  with_reducible repeat' (first
    | assumption | apply State.wait_keeps | apply State.lSlot_keeps | apply State.modRegs_keeps
    | exact State.KeepsO.none | apply State.KeepsO.some | exact State.KeepsR.refused | apply State.KeepsR.next
    | exact State.wait_keeps _ _ | intro _ | split | dsimp only)

theorem execTfault_keeps {dt : Nat} {n : Fin 10} {more : Bool} {s : State} :
    State.KeepsR (s.elapse dt) (execTfault dt n more s) := by
  unfold execTfault
  with_reducible repeat' (first
    | assumption | apply State.wait_keeps | apply State.lSlot_keeps | apply State.coreFault_keeps
    | exact State.KeepsO.none | apply State.KeepsO.some | exact State.KeepsR.refused | apply State.KeepsR.next
    | exact State.wait_keeps _ _ | intro _ | dsimp only)

theorem execDuty_keeps {dt : Nat} {n : Fin 10} {more : Bool} {l : Fin 16} {a : Bool} {s : State} :
    State.KeepsR (s.elapse dt) (execDuty dt n more l a s) := by
  unfold execDuty
  with_reducible repeat' (first
    | assumption | apply State.wait_keeps | apply State.lSlot_keeps | apply State.giveDuty_keeps
    | exact State.KeepsO.none | apply State.KeepsO.some | exact State.KeepsR.refused | apply State.KeepsR.next
    | exact State.wait_keeps _ _ | intro _ | dsimp only)

theorem execLnop_keeps {dt : Nat} {n : Fin 10} {more : Bool} {s : State} :
    State.KeepsR (s.elapse dt) (execLnop dt n more s) := by
  unfold execLnop
  with_reducible repeat' (first
    | assumption | apply State.wait_keeps | apply State.lSlot_keeps | exact State.KeepsO.none
    | apply State.KeepsO.some | exact State.KeepsR.refused | apply State.KeepsR.next | exact State.wait_keeps _ _
    | intro _ | dsimp only)

theorem execBra_keeps {dt : Nat} {n : Fin 10} {more : Bool} {c : Cond} {t : BitVec 14} {s : State} :
    State.KeepsR (s.elapse dt) (execBra dt n more c t s) := by
  unfold execBra
  with_reducible repeat' (first
    | assumption | apply State.wait_keeps | apply State.cSlot_keeps | apply State.setNext_keeps
    | exact State.KeepsO.none | apply State.KeepsO.some | exact State.KeepsR.refused | apply State.KeepsR.next
    | exact State.wait_keeps _ _ | intro _ | split | dsimp only)

theorem execCall_keeps {dt : Nat} {n : Fin 10} {more : Bool} {t : BitVec 14} {s : State} :
    State.KeepsR (s.elapse dt) (execCall dt n more t s) := by
  unfold execCall
  with_reducible repeat' (first
    | assumption | apply State.wait_keeps | apply State.cSlot_keeps | apply State.modCore_keeps
    | apply State.setNext_keeps | exact State.KeepsO.none | apply State.KeepsO.some | exact State.KeepsR.refused
    | apply State.KeepsR.next | exact State.wait_keeps _ _ | intro _ | split
    | (apply State.Keeps.upd; first
        | assumption | apply State.wait_keeps | apply State.cSlot_keeps | apply State.modCore_keeps
        | apply State.setNext_keeps | apply State.wait_keeps)
    | dsimp only)

theorem execRet_keeps {dt : Nat} {n : Fin 10} {more : Bool} {s : State} :
    State.KeepsR (s.elapse dt) (execRet dt n more s) := by
  unfold execRet
  with_reducible repeat' (first
    | assumption | apply State.wait_keeps | apply State.cSlot_keeps | apply State.modCore_keeps
    | apply State.setNext_keeps | exact State.KeepsO.none | apply State.KeepsO.some | exact State.KeepsR.refused
    | apply State.KeepsR.next | exact State.wait_keeps _ _ | intro _ | split
    | (apply State.Keeps.upd; first
        | assumption | apply State.wait_keeps | apply State.cSlot_keeps | apply State.modCore_keeps
        | apply State.setNext_keeps | apply State.wait_keeps)
    | dsimp only)

theorem execRete_keeps {dt : Nat} {n : Fin 10} {more : Bool} {s : State} :
    State.KeepsR (s.elapse dt) (execRete dt n more s) := by
  unfold execRete
  with_reducible repeat' (first
    | assumption | apply State.wait_keeps | apply State.cSlot_keeps | apply State.modCore_keeps
    | apply State.setNext_keeps | apply State.setFlag_keeps | exact State.KeepsO.none | apply State.KeepsO.some
    | exact State.KeepsR.refused | apply State.KeepsR.next | exact State.wait_keeps _ _ | intro _ | split
    | (apply State.Keeps.upd; first
        | assumption | apply State.wait_keeps | apply State.cSlot_keeps | apply State.modCore_keeps
        | apply State.setNext_keeps | apply State.setFlag_keeps | apply State.wait_keeps)
    | dsimp only)

theorem execLoop_keeps {dt : Nat} {n : Fin 10} {more : Bool} {level : Fin 2} {reg : Option (Fin 16)}
    {count : BitVec 14} {eofs : BitVec 8} {s : State} :
    State.KeepsR (s.elapse dt) (execLoop dt n more level reg count eofs s) := by
  unfold execLoop
  with_reducible repeat' (first
    | assumption | apply State.wait_keeps | apply State.cSlot_keeps | apply State.modCore_keeps
    | apply State.setNext_keeps | exact State.KeepsO.none | apply State.KeepsO.some | exact State.KeepsR.refused
    | apply State.KeepsR.next | exact State.wait_keeps _ _ | intro _ | split
    | (apply State.Keeps.upd; first
        | assumption | apply State.wait_keeps | apply State.cSlot_keeps | apply State.modCore_keeps
        | apply State.setNext_keeps | apply State.wait_keeps)
    | dsimp only)

theorem execEnd_keeps {dt : Nat} {n : Fin 10} {more : Bool} {s : State} :
    State.KeepsR (s.elapse dt) (execEnd dt n more s) := by
  unfold execEnd
  with_reducible repeat' (first
    | assumption | apply State.wait_keeps | apply State.cSlot_keeps | apply State.modCore_keeps
    | exact State.KeepsO.none | apply State.KeepsO.some | exact State.KeepsR.refused | apply State.KeepsR.next
    | exact State.wait_keeps _ _ | intro _ | split
    | (apply State.Keeps.upd; first
        | assumption | apply State.wait_keeps | apply State.cSlot_keeps | apply State.modCore_keeps
        | apply State.wait_keeps)
    | dsimp only)

theorem execFence_keeps {dt : Nat} {n : Fin 10} {more : Bool} {s : State} :
    State.KeepsR (s.elapse dt) (execFence dt n more s) := by
  unfold execFence
  with_reducible repeat' (first
    | assumption | apply State.wait_keeps | apply State.lSlot_keeps | apply State.modCore_keeps
    | exact State.KeepsO.none | apply State.KeepsO.some | exact State.KeepsR.refused | apply State.KeepsR.next
    | exact State.wait_keeps _ _ | intro _
    | (apply State.Keeps.upd; first
        | assumption | apply State.wait_keeps | apply State.lSlot_keeps | apply State.modCore_keeps
        | apply State.wait_keeps)
    | dsimp only)

theorem execPantryLoadArrival_keeps {dt : Nat} {n : Fin 10} {s : State} :
    State.KeepsR (s.elapse dt) (execPantryLoadArrival dt n s) := by
  unfold execPantryLoadArrival
  with_reducible repeat' (first
    | assumption | apply State.wait_keeps | apply State.panArrive_keeps | apply State.panComplete_keeps
    | exact State.KeepsR.refused | apply State.KeepsR.next | exact State.wait_keeps _ _ | intro _ | split
    | (apply State.Keeps.upd; first
        | assumption | apply State.wait_keeps | apply State.panArrive_keeps | apply State.panComplete_keeps
        | apply State.wait_keeps)
    | dsimp only)

theorem execPantryStoreComplete_keeps {dt : Nat} {n : Fin 10} {s : State} :
    State.KeepsR (s.elapse dt) (execPantryStoreComplete dt n s) := by
  unfold execPantryStoreComplete
  with_reducible repeat' (first
    | assumption | apply State.wait_keeps | apply State.panComplete_keeps | exact State.KeepsR.refused
    | apply State.KeepsR.next | exact State.wait_keeps _ _ | intro _ | split
    | (apply State.Keeps.upd; first
        | assumption | apply State.wait_keeps | apply State.panComplete_keeps | apply State.wait_keeps)
    | dsimp only)

end Sys2Proof.Machine
end

