-- ==== Sys2Proof/Laws/KeepsExec.lean ====
section
/-! SUPPORT. One lemma per command but those of the Gouge slots: what it keeps beyond the passing of time. -/
namespace Sys2Proof.Machine

theorem execPowerOnReset_keeps {dt : Nat} {refsel : Bool} {s : State} :
    State.KeepsR (s.elapse dt) (execPowerOnReset dt refsel s) := by
  unfold execPowerOnReset
  with_reducible repeat' (first
    | assumption | apply State.doReset_keeps | apply State.actPower_keeps | exact State.wait_keeps _ _ | intro _
    | dsimp only)

theorem execResetN_keeps {dt : Nat} {ns : Nat} {refsel : Bool} {s : State} :
    State.KeepsR (s.elapse dt) (execResetN dt ns refsel s) := by
  unfold execResetN
  with_reducible repeat' (first
    | assumption | apply State.resetN_keeps | apply State.actPower_keeps | exact State.wait_keeps _ _ | intro _
    | dsimp only)

theorem execWatchdog_keeps {dt : Nat} {refsel : Bool} {s : State} :
    State.KeepsR (s.elapse dt) (execWatchdog dt refsel s) := by
  unfold execWatchdog
  with_reducible repeat' (first
    | assumption | apply State.watchdog_keeps | apply State.act_keeps | exact State.wait_keeps _ _ | intro _
    | dsimp only)

theorem execZensorSoftReset_keeps {dt : Nat} {refsel : Bool} {s : State} :
    State.KeepsR (s.elapse dt) (execZensorSoftReset dt refsel s) := by
  unfold execZensorSoftReset
  with_reducible repeat' (first
    | assumption | apply State.requestedReset_keeps | apply State.act_keeps | exact State.wait_keeps _ _ | intro _
    | dsimp only)

theorem execWarmReload_keeps {dt : Nat} {refsel : Bool} {s : State} :
    State.KeepsR (s.elapse dt) (execWarmReload dt refsel s) := by
  unfold execWarmReload
  with_reducible repeat' (first
    | assumption | apply State.requestedReset_keeps | apply State.act_keeps | exact State.wait_keeps _ _ | intro _
    | dsimp only)

theorem execPwrResetSoft_keeps {dt : Nat} {acc : Master} {v : Word} {s : State} :
    State.KeepsR (s.elapse dt) (execPwrResetSoft dt acc v s) := by
  unfold execPwrResetSoft
  with_reducible repeat' (first
    | assumption | apply State.busWrite_keeps | apply State.actE_keeps | exact State.KeepsE.error
    | apply State.KeepsE.ok | exact State.wait_keeps _ _ | intro _ | dsimp only)

theorem execPwrResetWarm_keeps {dt : Nat} {acc : Master} {v : Word} {s : State} :
    State.KeepsR (s.elapse dt) (execPwrResetWarm dt acc v s) := by
  unfold execPwrResetWarm
  with_reducible repeat' (first
    | assumption | apply State.busWrite_keeps | apply State.actE_keeps | exact State.KeepsE.error
    | apply State.KeepsE.ok | exact State.wait_keeps _ _ | intro _ | dsimp only)

theorem execLoadPass1End_keeps {dt : Nat} {read : FlashRead} {s : State} :
    State.KeepsR (s.elapse dt) (execLoadPass1End dt read s) := by
  unfold execLoadPass1End
  with_reducible repeat' (first
    | assumption | apply State.loadPass_keeps | apply State.actE_keeps | exact State.KeepsE.error
    | apply State.KeepsE.ok | exact State.wait_keeps _ _ | intro _ | dsimp only)

theorem execRegsPoll_keeps {dt : Nat} {s : State} :
    State.KeepsR (s.elapse dt) (execRegsPoll dt s) := by
  unfold execRegsPoll
  with_reducible repeat' (first
    | assumption | apply State.regsPoll_keeps | apply State.actE_keeps | exact State.KeepsE.error
    | apply State.KeepsE.ok | exact State.wait_keeps _ _ | intro _ | dsimp only)

theorem execRegsPollTimeout_keeps {dt : Nat} {s : State} :
    State.KeepsR (s.elapse dt) (execRegsPollTimeout dt s) := by
  unfold execRegsPollTimeout
  with_reducible repeat' (first
    | assumption | apply State.regsTimeout_keeps | apply State.actE_keeps | exact State.KeepsE.error
    | apply State.KeepsE.ok | exact State.wait_keeps _ _ | intro _ | dsimp only)

theorem execRegsDelay_keeps {dt : Nat} {s : State} :
    State.KeepsR (s.elapse dt) (execRegsDelay dt s) := by
  unfold execRegsDelay
  with_reducible repeat' (first
    | assumption | apply State.regsDelay_keeps | apply State.actE_keeps | exact State.KeepsE.error
    | apply State.KeepsE.ok | exact State.wait_keeps _ _ | intro _ | dsimp only)

theorem execSleepRequest_keeps {dt : Nat} {acc : Master} {v : Word} {s : State} :
    State.KeepsR (s.elapse dt) (execSleepRequest dt acc v s) := by
  unfold execSleepRequest
  with_reducible repeat' (first
    | assumption | apply State.busWrite_keeps | apply State.actE_keeps | exact State.KeepsE.error
    | apply State.KeepsE.ok | exact State.wait_keeps _ _ | intro _ | dsimp only)

theorem execSleepEntry_keeps {dt : Nat} {refsel : Bool} {s : State} :
    State.KeepsR (s.elapse dt) (execSleepEntry dt refsel s) := by
  unfold execSleepEntry
  with_reducible repeat' (first
    | assumption | apply State.sleepEntry_keeps | apply State.act_keeps | exact State.wait_keeps _ _ | intro _
    | dsimp only)

theorem execWakeN_keeps {dt : Nat} {ns : Nat} {refsel : Bool} {s : State} :
    State.KeepsR (s.elapse dt) (execWakeN dt ns refsel s) := by
  unfold execWakeN
  with_reducible repeat' (first
    | assumption | apply State.wakePin_keeps | apply State.actPower_keeps | exact State.wait_keeps _ _ | intro _
    | dsimp only)

theorem execWakeTimer_keeps {dt : Nat} {refsel : Bool} {s : State} :
    State.KeepsR (s.elapse dt) (execWakeTimer dt refsel s) := by
  unfold execWakeTimer
  with_reducible repeat' (first
    | assumption | apply State.wakeTimer_keeps | apply State.actPower_keeps | exact State.wait_keeps _ _ | intro _
    | dsimp only)

theorem execWdtStart_keeps {dt : Nat} {acc : Master} {v : Word} {s : State} :
    State.KeepsR (s.elapse dt) (execWdtStart dt acc v s) := by
  unfold execWdtStart
  with_reducible repeat' (first
    | assumption | apply State.busWrite_keeps | apply State.actE_keeps | exact State.KeepsE.error
    | apply State.KeepsE.ok | exact State.wait_keeps _ _ | intro _ | dsimp only)

theorem execWdtKick_keeps {dt : Nat} {acc : Master} {v : Word} {s : State} :
    State.KeepsR (s.elapse dt) (execWdtKick dt acc v s) := by
  unfold execWdtKick
  with_reducible repeat' (first
    | assumption | apply State.busWrite_keeps | apply State.actE_keeps | exact State.KeepsE.error
    | apply State.KeepsE.ok | exact State.wait_keeps _ _ | intro _ | dsimp only)

theorem execSupplyBelowFallingThreshold_keeps {dt : Nat} {s : State} :
    State.KeepsR (s.elapse dt) (execSupplyBelowFallingThreshold dt s) := by
  unfold execSupplyBelowFallingThreshold
  with_reducible repeat' (first
    | assumption | apply State.supplyLow_keeps | apply State.actPower_keeps | exact State.wait_keeps _ _ | intro _
    | dsimp only)

theorem execRegisterWrite_keeps {dt : Nat} {acc : Master} {size : Size} {addr : BitVec 32} {v : Word} {s : State} :
    State.KeepsR (s.elapse dt) (execRegisterWrite dt acc size addr v s) := by
  unfold execRegisterWrite
  with_reducible repeat' (first
    | assumption | apply State.busWrite_keeps | apply State.actE_keeps | exact State.KeepsE.error
    | apply State.KeepsE.ok | exact State.wait_keeps _ _ | intro _ | dsimp only)

theorem execRcRead_keeps {dt : Nat} {acc : Master} {size : Size} {addr : BitVec 32} {s : State} :
    State.KeepsR (s.elapse dt) (execRcRead dt acc size addr s) := by
  unfold execRcRead
  with_reducible repeat' (first
    | assumption | apply State.fabricRead_keeps | apply State.actE_keeps | exact State.KeepsE.error
    | apply State.KeepsE.ok | exact State.wait_keeps _ _ | intro _ | dsimp only)

theorem execRegisterRead_keeps {dt : Nat} {acc : Master} {size : Size} {addr : BitVec 32} {s : State} :
    State.KeepsR (s.elapse dt) (execRegisterRead dt acc size addr s) := by
  unfold execRegisterRead
  with_reducible repeat' (first
    | assumption | apply State.fabricRead_keeps | apply State.actE_keeps | exact State.KeepsE.error
    | apply State.KeepsE.ok | exact State.wait_keeps _ _ | intro _ | dsimp only)

theorem execMemoryWindowAccess_keeps {dt : Nat} {acc : Master} {size : Size} {write : Bool} {addr : BitVec 32}
    {v : Word} {s : State} :
    State.KeepsR (s.elapse dt) (execMemoryWindowAccess dt acc size write addr v s) := by
  unfold execMemoryWindowAccess
  with_reducible repeat' (first
    | assumption | apply State.busWrite_keeps | apply State.fabricRead_keeps | apply State.actE_keeps
    | exact State.KeepsE.error | apply State.KeepsE.ok | exact State.wait_keeps _ _ | intro _ | split | dsimp only)

theorem execCanInit_keeps {dt : Nat} {acc : Master} {n : Fin 2} {v : Word} {idle : Bool} {s : State} :
    State.KeepsR (s.elapse dt) (execCanInit dt acc n v idle s) := by
  unfold execCanInit
  with_reducible repeat' (first
    | assumption | apply State.busWrite_keeps | apply State.actE_keeps | exact State.KeepsE.error
    | apply State.KeepsE.ok | exact State.wait_keeps _ _ | intro _ | dsimp only)

theorem execCanInitRelease_keeps {dt : Nat} {acc : Master} {n : Fin 2} {v : Word} {idle : Bool} {s : State} :
    State.KeepsR (s.elapse dt) (execCanInitRelease dt acc n v idle s) := by
  unfold execCanInitRelease
  with_reducible repeat' (first
    | assumption | apply State.busWrite_keeps | apply State.actE_keeps | exact State.KeepsE.error
    | apply State.KeepsE.ok | exact State.wait_keeps _ _ | intro _ | dsimp only)

theorem execCanBorcv_keeps {dt : Nat} {acc : Master} {n : Fin 2} {v : Word} {idle : Bool} {s : State} :
    State.KeepsR (s.elapse dt) (execCanBorcv dt acc n v idle s) := by
  unfold execCanBorcv
  with_reducible repeat' (first
    | assumption | apply State.busWrite_keeps | apply State.actE_keeps | exact State.KeepsE.error
    | apply State.KeepsE.ok | exact State.wait_keeps _ _ | intro _ | dsimp only)

theorem execCanRom_keeps {dt : Nat} {acc : Master} {n : Fin 2} {v : Word} {idle : Bool} {s : State} :
    State.KeepsR (s.elapse dt) (execCanRom dt acc n v idle s) := by
  unfold execCanRom
  with_reducible repeat' (first
    | assumption | apply State.busWrite_keeps | apply State.actE_keeps | exact State.KeepsE.error
    | apply State.KeepsE.ok | exact State.wait_keeps _ _ | intro _ | dsimp only)

theorem execCanMon_keeps {dt : Nat} {acc : Master} {n : Fin 2} {v : Word} {idle : Bool} {s : State} :
    State.KeepsR (s.elapse dt) (execCanMon dt acc n v idle s) := by
  unfold execCanMon
  with_reducible repeat' (first
    | assumption | apply State.busWrite_keeps | apply State.actE_keeps | exact State.KeepsE.error
    | apply State.KeepsE.ok | exact State.wait_keeps _ _ | intro _ | dsimp only)

theorem execCanSleep_keeps {dt : Nat} {acc : Master} {n : Fin 2} {v : Word} {idle : Bool} {s : State} :
    State.KeepsR (s.elapse dt) (execCanSleep dt acc n v idle s) := by
  unfold execCanSleep
  with_reducible repeat' (first
    | assumption | apply State.busWrite_keeps | apply State.actE_keeps | exact State.KeepsE.error
    | apply State.KeepsE.ok | exact State.wait_keeps _ _ | intro _ | dsimp only)

theorem execCanTxreq_keeps {dt : Nat} {acc : Master} {n : Fin 2} {hi : Bool} {v : Word} {s : State} :
    State.KeepsR (s.elapse dt) (execCanTxreq dt acc n hi v s) := by
  unfold execCanTxreq
  with_reducible repeat' (first
    | assumption | apply State.busWrite_keeps | apply State.actE_keeps | exact State.KeepsE.error
    | apply State.KeepsE.ok | exact State.wait_keeps _ _ | intro _ | dsimp only)

theorem execCanTxcancel_keeps {dt : Nat} {acc : Master} {n : Fin 2} {hi : Bool} {v : Word} {s : State} :
    State.KeepsR (s.elapse dt) (execCanTxcancel dt acc n hi v s) := by
  unfold execCanTxcancel
  with_reducible repeat' (first
    | assumption | apply State.busWrite_keeps | apply State.actE_keeps | exact State.KeepsE.error
    | apply State.KeepsE.ok | exact State.wait_keeps _ _ | intro _ | dsimp only)

theorem execCanNewdatClear_keeps {dt : Nat} {acc : Master} {n : Fin 2} {hi : Bool} {v : Word} {s : State} :
    State.KeepsR (s.elapse dt) (execCanNewdatClear dt acc n hi v s) := by
  unfold execCanNewdatClear
  with_reducible repeat' (first
    | assumption | apply State.busWrite_keeps | apply State.actE_keeps | exact State.KeepsE.error
    | apply State.KeepsE.ok | exact State.wait_keeps _ _ | intro _ | dsimp only)

theorem execCanIntegrated_keeps {dt : Nat} {n : Fin 2} {s : State} :
    State.KeepsR (s.elapse dt) (execCanIntegrated dt n s) := by
  unfold execCanIntegrated
  with_reducible repeat' (first
    | assumption | apply State.canIntegrated_keeps | apply State.act_keeps | exact State.wait_keeps _ _ | intro _
    | dsimp only)

theorem execCanRecovered_keeps {dt : Nat} {n : Fin 2} {s : State} :
    State.KeepsR (s.elapse dt) (execCanRecovered dt n s) := by
  unfold execCanRecovered
  with_reducible repeat' (first
    | assumption | apply State.canRecovered_keeps | apply State.act_keeps | exact State.wait_keeps _ _ | intro _
    | dsimp only)

theorem execCanFrameReceive_keeps {dt : Nat} {n : Fin 2} {f : CanFrame} {ago : Nat} {s : State} :
    State.KeepsR (s.elapse dt) (execCanFrameReceive dt n f ago s) := by
  unfold execCanFrameReceive
  with_reducible repeat' (first
    | assumption | apply State.canReceive_keeps | apply State.act_keeps | exact State.wait_keeps _ _ | intro _
    | dsimp only)

theorem execCanTransmitStart_keeps {dt : Nat} {n : Fin 2} {s : State} :
    State.KeepsR (s.elapse dt) (execCanTransmitStart dt n s) := by
  unfold execCanTransmitStart
  with_reducible repeat' (first
    | assumption | apply State.canStart_keeps | apply State.act_keeps | exact State.wait_keeps _ _ | intro _
    | dsimp only)

theorem execCanTransmitEnd_keeps {dt : Nat} {n : Fin 2} {how : CanEnd} {loopDelay : Option Nat} {s : State} :
    State.KeepsR (s.elapse dt) (execCanTransmitEnd dt n how loopDelay s) := by
  unfold execCanTransmitEnd
  with_reducible repeat' (first
    | assumption | apply State.canEnd_keeps | apply State.act_keeps | exact State.wait_keeps _ _ | intro _
    | dsimp only)

theorem execCanError_keeps {dt : Nat} {n : Fin 2} {code : CanCode} {rule : CanRule} {dataPhase : Bool} {s : State} :
    State.KeepsR (s.elapse dt) (execCanError dt n code rule dataPhase s) := by
  unfold execCanError
  with_reducible repeat' (first
    | assumption | apply State.canError_keeps | apply State.act_keeps | exact State.wait_keeps _ _ | intro _
    | dsimp only)

theorem execProtocolException_keeps {dt : Nat} {n : Fin 2} {s : State} :
    State.KeepsR (s.elapse dt) (execProtocolException dt n s) := by
  unfold execProtocolException
  with_reducible repeat' (first
    | assumption | apply State.canException_keeps | apply State.act_keeps | exact State.wait_keeps _ _ | intro _
    | dsimp only)

theorem execCanWake_keeps {dt : Nat} {n : Fin 2} {seen : CanSeen} {refsel : Bool} {s : State} :
    State.KeepsR (s.elapse dt) (execCanWake dt n seen refsel s) := by
  unfold execCanWake
  with_reducible repeat' (first
    | assumption | apply State.canWake_keeps | apply State.canSeen_keeps | apply State.actPower_keeps
    | exact State.wait_keeps _ _ | intro _ | dsimp only)

theorem execCelArm_keeps {dt : Nat} {acc : Master} {v : Word} {s : State} :
    State.KeepsR (s.elapse dt) (execCelArm dt acc v s) := by
  unfold execCelArm
  with_reducible repeat' (first
    | assumption | apply State.busWrite_keeps | apply State.actE_keeps | exact State.KeepsE.error
    | apply State.KeepsE.ok | exact State.wait_keeps _ _ | intro _ | dsimp only)

theorem execCelStop_keeps {dt : Nat} {acc : Master} {v : Word} {s : State} :
    State.KeepsR (s.elapse dt) (execCelStop dt acc v s) := by
  unfold execCelStop
  with_reducible repeat' (first
    | assumption | apply State.busWrite_keeps | apply State.actE_keeps | exact State.KeepsE.error
    | apply State.KeepsE.ok | exact State.wait_keeps _ _ | intro _ | dsimp only)

theorem execCelForce_keeps {dt : Nat} {acc : Master} {v : Word} {s : State} :
    State.KeepsR (s.elapse dt) (execCelForce dt acc v s) := by
  unfold execCelForce
  with_reducible repeat' (first
    | assumption | apply State.busWrite_keeps | apply State.actE_keeps | exact State.KeepsE.error
    | apply State.KeepsE.ok | exact State.wait_keeps _ _ | intro _ | dsimp only)

theorem execCelSample_keeps {dt : Nat} {balls : List Balls} {s : State} :
    State.KeepsR (s.elapse dt) (execCelSample dt balls s) := by
  unfold execCelSample
  with_reducible repeat' (first
    | assumption | apply State.celSample_keeps | apply State.act_keeps | exact State.wait_keeps _ _ | intro _
    | dsimp only)

theorem execAutoTrigger_keeps {dt : Nat} {s : State} :
    State.KeepsR (s.elapse dt) (execAutoTrigger dt s) := by
  unfold execAutoTrigger
  with_reducible repeat' (first
    | assumption | apply State.celAuto_keeps | apply State.act_keeps | exact State.wait_keeps _ _ | intro _
    | dsimp only)

theorem execDatagram_keeps {dt : Nat} {s : State} :
    State.KeepsR (s.elapse dt) (execDatagram dt s) := by
  unfold execDatagram
  with_reducible repeat' (first
    | assumption | apply State.celSendDatagram_keeps | apply State.act_keeps | exact State.wait_keeps _ _ | intro _
    | dsimp only)

theorem execChuckModeChange_keeps {dt : Nat} {acc : Master} {c : Fin 32} {v : Word} {s : State} :
    State.KeepsR (s.elapse dt) (execChuckModeChange dt acc c v s) := by
  unfold execChuckModeChange
  with_reducible repeat' (first
    | assumption | apply State.busWrite_keeps | apply State.actE_keeps | exact State.KeepsE.error
    | apply State.KeepsE.ok | exact State.wait_keeps _ _ | intro _ | dsimp only)

theorem execChuckOffsetWrite_keeps {dt : Nat} {acc : Master} {c : Fin 32} {v : Word} {s : State} :
    State.KeepsR (s.elapse dt) (execChuckOffsetWrite dt acc c v s) := by
  unfold execChuckOffsetWrite
  with_reducible repeat' (first
    | assumption | apply State.busWrite_keeps | apply State.actE_keeps | exact State.KeepsE.error
    | apply State.KeepsE.ok | exact State.wait_keeps _ _ | intro _ | dsimp only)

theorem execQuadCountChange_keeps {dt : Nat} {c : Fin 32} {b a : BitVec 16} {s : State} :
    State.KeepsR (s.elapse dt) (execQuadCountChange dt c b a s) := by
  unfold execQuadCountChange
  with_reducible repeat' (first
    | assumption | apply State.quadChange_keeps | apply State.act_keeps | exact State.wait_keeps _ _ | intro _
    | dsimp only)

theorem execChuckIndex_keeps {dt : Nat} {c : Fin 32} {z : BitVec 16} {s : State} :
    State.KeepsR (s.elapse dt) (execChuckIndex dt c z s) := by
  unfold execChuckIndex
  with_reducible repeat' (first
    | assumption | apply State.chIndex_keeps | apply State.act_keeps | exact State.wait_keeps _ _ | intro _
    | dsimp only)

theorem execHallSectorChange_keeps {dt : Nat} {c : Fin 32} {h3 h2 h1 : BitVec 16} {s : State} :
    State.KeepsR (s.elapse dt) (execHallSectorChange dt c h3 h2 h1 s) := by
  unfold execHallSectorChange
  with_reducible repeat' (first
    | assumption | apply State.hallSample_keeps | apply State.act_keeps | exact State.wait_keeps _ _ | intro _
    | dsimp only)

theorem execHallinv_keeps {dt : Nat} {c : Fin 32} {s : State} :
    State.KeepsR (s.elapse dt) (execHallinv dt c s) := by
  unfold execHallinv
  with_reducible repeat' (first
    | assumption | apply State.hallInv_keeps | apply State.act_keeps | exact State.wait_keeps _ _ | intro _
    | dsimp only)

theorem execSsiRequest_keeps {dt : Nat} {c : Fin 32} {ready : Bool} {s : State} :
    State.KeepsR (s.elapse dt) (execSsiRequest dt c ready s) := by
  unfold execSsiRequest
  with_reducible repeat' (first
    | assumption | apply State.ssiGo_keeps | apply State.actE_keeps | exact State.KeepsE.error
    | apply State.KeepsE.ok | exact State.wait_keeps _ _ | intro _ | dsimp only)

theorem execSsiFrameEnd_keeps {dt : Nat} {c : Fin 32} {frame : BitVec 40} {s : State} :
    State.KeepsR (s.elapse dt) (execSsiFrameEnd dt c frame s) := by
  unfold execSsiFrameEnd
  with_reducible repeat' (first
    | assumption | apply State.ssiFrameEnd_keeps | apply State.act_keeps | exact State.wait_keeps _ _ | intro _
    | dsimp only)

theorem execChuckFltClear_keeps {dt : Nat} {acc : Master} {c : Fin 32} {v : Word} {s : State} :
    State.KeepsR (s.elapse dt) (execChuckFltClear dt acc c v s) := by
  unfold execChuckFltClear
  with_reducible repeat' (first
    | assumption | apply State.busWrite_keeps | apply State.actE_keeps | exact State.KeepsE.error
    | apply State.KeepsE.ok | exact State.wait_keeps _ _ | intro _ | dsimp only)

theorem execRunStart_keeps {dt : Nat} {acc : Master} {v : Word} {s : State} :
    State.KeepsR (s.elapse dt) (execRunStart dt acc v s) := by
  unfold execRunStart
  with_reducible repeat' (first
    | assumption | apply State.busWrite_keeps | apply State.actE_keeps | exact State.KeepsE.error
    | apply State.KeepsE.ok | exact State.wait_keeps _ _ | intro _ | dsimp only)

theorem execRunStop_keeps {dt : Nat} {acc : Master} {v : Word} {s : State} :
    State.KeepsR (s.elapse dt) (execRunStop dt acc v s) := by
  unfold execRunStop
  with_reducible repeat' (first
    | assumption | apply State.busWrite_keeps | apply State.actE_keeps | exact State.KeepsE.error
    | apply State.KeepsE.ok | exact State.wait_keeps _ _ | intro _ | dsimp only)

theorem execCycleStart_keeps {dt : Nat} {s : State} :
    State.KeepsR (s.elapse dt) (execCycleStart dt s) := by
  unfold execCycleStart
  with_reducible repeat' (first
    | assumption | apply State.startCycle_keeps | apply State.actE_keeps | exact State.KeepsE.error
    | apply State.KeepsE.ok | exact State.wait_keeps _ _ | intro _ | dsimp only)

theorem execUpstreamDeadline_keeps {dt : Nat} {s : State} :
    State.KeepsR (s.elapse dt) (execUpstreamDeadline dt s) := by
  unfold execUpstreamDeadline
  with_reducible repeat' (first
    | assumption | apply State.upstreamDeadline_keeps | apply State.act_keeps | exact State.wait_keeps _ _ | intro _
    | dsimp only)

theorem execDutyDeadline_keeps {dt : Nat} {s : State} :
    State.KeepsR (s.elapse dt) (execDutyDeadline dt s) := by
  unfold execDutyDeadline
  with_reducible repeat' (first
    | assumption | apply State.dutyDeadline_keeps | apply State.act_keeps | exact State.wait_keeps _ _ | intro _
    | dsimp only)

theorem execReplayWindowEnd_keeps {dt : Nat} {s : State} :
    State.KeepsR (s.elapse dt) (execReplayWindowEnd dt s) := by
  unfold execReplayWindowEnd
  with_reducible repeat' (first
    | assumption | apply State.replayEnd_keeps | apply State.act_keeps | exact State.wait_keeps _ _ | intro _
    | dsimp only)

theorem execDownstreamFrameDepart_keeps {dt : Nat} {l : Fin 16} {s : State} :
    State.KeepsR (s.elapse dt) (execDownstreamFrameDepart dt l s) := by
  unfold execDownstreamFrameDepart
  with_reducible repeat' (first
    | assumption | apply State.blDepart_keeps | apply State.act_keeps | exact State.wait_keeps _ _ | intro _
    | dsimp only)

theorem execFuseProgram_keeps {dt : Nat} {acc : Master} {v : Word} {s : State} :
    State.KeepsR (s.elapse dt) (execFuseProgram dt acc v s) := by
  unfold execFuseProgram
  with_reducible repeat' (first
    | assumption | apply State.busWrite_keeps | apply State.actE_keeps | exact State.KeepsE.error
    | apply State.KeepsE.ok | exact State.wait_keeps _ _ | intro _ | dsimp only)

theorem execFuseProgramDone_keeps {dt : Nat} {s : State} :
    State.KeepsR (s.elapse dt) (execFuseProgramDone dt s) := by
  unfold execFuseProgramDone
  with_reducible repeat' (first
    | assumption | apply State.fuseDone_keeps | apply State.actPower_keeps | exact State.wait_keeps _ _ | intro _
    | dsimp only)

theorem execSpindleEnable_keeps {dt : Nat} {acc : Master} {n : Fin 16} {v : Word} {s : State} :
    State.KeepsR (s.elapse dt) (execSpindleEnable dt acc n v s) := by
  unfold execSpindleEnable
  with_reducible repeat' (first
    | assumption | apply State.busWrite_keeps | apply State.actE_keeps | exact State.KeepsE.error
    | apply State.KeepsE.ok | exact State.wait_keeps _ _ | intro _ | dsimp only)

theorem execSpindleRescale_keeps {dt : Nat} {acc : Master} {n : Fin 16} {v : Word} {s : State} :
    State.KeepsR (s.elapse dt) (execSpindleRescale dt acc n v s) := by
  unfold execSpindleRescale
  with_reducible repeat' (first
    | assumption | apply State.busWrite_keeps | apply State.actE_keeps | exact State.KeepsE.error
    | apply State.KeepsE.ok | exact State.wait_keeps _ _ | intro _ | dsimp only)

theorem execSpindleLoad_keeps {dt : Nat} {acc : Master} {n : Fin 16} {v : Word} {s : State} :
    State.KeepsR (s.elapse dt) (execSpindleLoad dt acc n v s) := by
  unfold execSpindleLoad
  with_reducible repeat' (first
    | assumption | apply State.busWrite_keeps | apply State.actE_keeps | exact State.KeepsE.error
    | apply State.KeepsE.ok | exact State.wait_keeps _ _ | intro _ | dsimp only)

theorem execSpindleStandstill_keeps {dt : Nat} {n : Fin 16} {s : State} :
    State.KeepsR (s.elapse dt) (execSpindleStandstill dt n s) := by
  unfold execSpindleStandstill
  with_reducible repeat' (first
    | assumption | apply State.spinStandstill_keeps | apply State.act_keeps | exact State.wait_keeps _ _ | intro _
    | dsimp only)

theorem execLedgerArm_keeps {dt : Nat} {acc : Master} {v : Word} {s : State} :
    State.KeepsR (s.elapse dt) (execLedgerArm dt acc v s) := by
  unfold execLedgerArm
  with_reducible repeat' (first
    | assumption | apply State.busWrite_keeps | apply State.actE_keeps | exact State.KeepsE.error
    | apply State.KeepsE.ok | exact State.wait_keeps _ _ | intro _ | dsimp only)

theorem execLedgerCancel_keeps {dt : Nat} {acc : Master} {v : Word} {s : State} :
    State.KeepsR (s.elapse dt) (execLedgerCancel dt acc v s) := by
  unfold execLedgerCancel
  with_reducible repeat' (first
    | assumption | apply State.busWrite_keeps | apply State.actE_keeps | exact State.KeepsE.error
    | apply State.KeepsE.ok | exact State.wait_keeps _ _ | intro _ | dsimp only)

theorem execLedgerFire_keeps {dt : Nat} {n : Fin 16} {slot : BitVec 15} {s : State} :
    State.KeepsR (s.elapse dt) (execLedgerFire dt n slot s) := by
  unfold execLedgerFire
  with_reducible repeat' (first
    | assumption | apply State.ledFireNow_keeps | apply State.act_keeps | exact State.wait_keeps _ _ | intro _
    | dsimp only)

theorem execLclkLaneFire_keeps {dt : Nat} {slot : BitVec 15} {s : State} :
    State.KeepsR (s.elapse dt) (execLclkLaneFire dt slot s) := by
  unfold execLclkLaneFire
  with_reducible repeat' (first
    | assumption | apply State.ledLclkFireNow_keeps | apply State.act_keeps | exact State.wait_keeps _ _ | intro _
    | dsimp only)

theorem execDonePop_keeps {dt : Nat} {acc : Master} {v : Word} {s : State} :
    State.KeepsR (s.elapse dt) (execDonePop dt acc v s) := by
  unfold execDonePop
  with_reducible repeat' (first
    | assumption | apply State.busWrite_keeps | apply State.actE_keeps | exact State.KeepsE.error
    | apply State.KeepsE.ok | exact State.wait_keeps _ _ | intro _ | dsimp only)

theorem execMarkCapture_keeps {dt : Nat} {n : Fin 16} {raw : BitVec 16} {s : State} :
    State.KeepsR (s.elapse dt) (execMarkCapture dt n raw s) := by
  unfold execMarkCapture
  with_reducible repeat' (first
    | assumption | apply State.markSkew_keeps | apply State.act_keeps | exact State.wait_keeps _ _ | intro _
    | dsimp only)

theorem execMarkPop_keeps {dt : Nat} {acc : Master} {n : Fin 16} {v : Word} {s : State} :
    State.KeepsR (s.elapse dt) (execMarkPop dt acc n v s) := by
  unfold execMarkPop
  with_reducible repeat' (first
    | assumption | apply State.busWrite_keeps | apply State.actE_keeps | exact State.KeepsE.error
    | apply State.KeepsE.ok | exact State.wait_keeps _ _ | intro _ | dsimp only)

theorem execToutForce_keeps {dt : Nat} {acc : Master} {n : Fin 16} {v : Word} {s : State} :
    State.KeepsR (s.elapse dt) (execToutForce dt acc n v s) := by
  unfold execToutForce
  with_reducible repeat' (first
    | assumption | apply State.busWrite_keeps | apply State.actE_keeps | exact State.KeepsE.error
    | apply State.KeepsE.ok | exact State.wait_keeps _ _ | intro _ | dsimp only)

theorem execF3reset_keeps {dt : Nat} {refsel : Bool} {s : State} :
    State.KeepsR (s.elapse dt) (execF3reset dt refsel s) := by
  unfold execF3reset
  with_reducible repeat' (first
    | assumption | apply State.f3reset_keeps | apply State.act_keeps | exact State.wait_keeps _ _ | intro _
    | dsimp only)

theorem execClockFault_keeps {dt : Nat} {cause : ClockFault} {s : State} :
    State.KeepsR (s.elapse dt) (execClockFault dt cause s) := by
  unfold execClockFault
  with_reducible repeat' (first
    | assumption | apply State.clockLost_keeps | apply State.actThr_keeps | exact State.wait_keeps _ _ | intro _
    | dsimp only)

theorem execAtticCommit_keeps {dt : Nat} {slots : List (List Byte)} {s : State} :
    State.KeepsR (s.elapse dt) (execAtticCommit dt slots s) := by
  unfold execAtticCommit
  with_reducible repeat' (first
    | assumption | apply State.atticCommit_keeps | apply State.act_keeps | exact State.wait_keeps _ _ | intro _
    | dsimp only)

theorem execAtticScanDone_keeps {dt : Nat} {s : State} :
    State.KeepsR (s.elapse dt) (execAtticScanDone dt s) := by
  unfold execAtticScanDone
  with_reducible repeat' (first
    | assumption | apply State.atticScan_keeps | apply State.act_keeps | exact State.wait_keeps _ _ | intro _
    | dsimp only)

theorem execAtticUser_keeps {dt : Nat} {acc : Master} {v : Word} {s : State} :
    State.KeepsR (s.elapse dt) (execAtticUser dt acc v s) := by
  unfold execAtticUser
  with_reducible repeat' (first
    | assumption | apply State.busWrite_keeps | apply State.actE_keeps | exact State.KeepsE.error
    | apply State.KeepsE.ok | exact State.wait_keeps _ _ | intro _ | dsimp only)

theorem execAtticClear_keeps {dt : Nat} {acc : Master} {v : Word} {s : State} :
    State.KeepsR (s.elapse dt) (execAtticClear dt acc v s) := by
  unfold execAtticClear
  with_reducible repeat' (first
    | assumption | apply State.busWrite_keeps | apply State.actE_keeps | exact State.KeepsE.error
    | apply State.KeepsE.ok | exact State.wait_keeps _ _ | intro _ | dsimp only)

theorem execListenTimeout_keeps {dt : Nat} {n : Fin 64} {s : State} :
    State.KeepsR (s.elapse dt) (execListenTimeout dt n s) := by
  unfold execListenTimeout
  with_reducible repeat' (first
    | assumption | apply State.listenTimeout_keeps | apply State.act_keeps | exact State.wait_keeps _ _ | intro _
    | dsimp only)

theorem execAlignEnd_keeps {dt : Nat} {n : Fin 64} {s : State} :
    State.KeepsR (s.elapse dt) (execAlignEnd dt n s) := by
  unfold execAlignEnd
  with_reducible repeat' (first
    | assumption | apply State.alignEnd_keeps | apply State.act_keeps | exact State.wait_keeps _ _ | intro _
    | dsimp only)

theorem execBrakeTimeout_keeps {dt : Nat} {n : Fin 64} {s : State} :
    State.KeepsR (s.elapse dt) (execBrakeTimeout dt n s) := by
  unfold execBrakeTimeout
  with_reducible repeat' (first
    | assumption | apply State.brakeTimeout_keeps | apply State.act_keeps | exact State.wait_keeps _ _ | intro _
    | dsimp only)

theorem execIfholdTimeout_keeps {dt : Nat} {n : Fin 64} {s : State} :
    State.KeepsR (s.elapse dt) (execIfholdTimeout dt n s) := by
  unfold execIfholdTimeout
  with_reducible repeat' (first
    | assumption | apply State.ifholdTimeout_keeps | apply State.act_keeps | exact State.wait_keeps _ _ | intro _
    | dsimp only)

theorem execRecatch_keeps {dt : Nat} {n : Fin 64} {s : State} :
    State.KeepsR (s.elapse dt) (execRecatch dt n s) := by
  unfold execRecatch
  with_reducible repeat' (first
    | assumption | apply State.fieldRecatch_keeps | apply State.act_keeps | exact State.wait_keeps _ _ | intro _
    | dsimp only)

theorem execIflow_keeps {dt : Nat} {n : Fin 64} {s : State} :
    State.KeepsR (s.elapse dt) (execIflow dt n s) := by
  unfold execIflow
  with_reducible repeat' (first
    | assumption | apply State.fieldIflow_keeps | apply State.act_keeps | exact State.wait_keeps _ _ | intro _
    | dsimp only)

theorem execRecatchTimeout_keeps {dt : Nat} {n : Fin 64} {s : State} :
    State.KeepsR (s.elapse dt) (execRecatchTimeout dt n s) := by
  unfold execRecatchTimeout
  with_reducible repeat' (first
    | assumption | apply State.recatchTimeout_keeps | apply State.act_keeps | exact State.wait_keeps _ _ | intro _
    | dsimp only)

theorem execZvecTimeout_keeps {dt : Nat} {n : Fin 64} {s : State} :
    State.KeepsR (s.elapse dt) (execZvecTimeout dt n s) := by
  unfold execZvecTimeout
  with_reducible repeat' (first
    | assumption | apply State.zvecEnd_keeps | apply State.act_keeps | exact State.wait_keeps _ _ | intro _
    | dsimp only)

theorem execHoldCurrent_keeps {dt : Nat} {n : Fin 64} {s : State} :
    State.KeepsR (s.elapse dt) (execHoldCurrent dt n s) := by
  unfold execHoldCurrent
  with_reducible repeat' (first
    | assumption | apply State.holdCurrent_keeps | apply State.act_keeps | exact State.wait_keeps _ _ | intro _
    | dsimp only)

theorem execStall_keeps {dt : Nat} {n : Fin 64} {s : State} :
    State.KeepsR (s.elapse dt) (execStall dt n s) := by
  unfold execStall
  with_reducible repeat' (first
    | assumption | apply State.stall_keeps | apply State.act_keeps | exact State.wait_keeps _ _ | intro _
    | dsimp only)

theorem execCreset_keeps {dt : Nat} {acc : Master} {b : Fin 16} {s : State} :
    State.KeepsR (s.elapse dt) (execCreset dt acc b s) := by
  unfold execCreset
  with_reducible repeat' (first
    | assumption | apply State.busWrite_keeps | apply State.actE_keeps | exact State.KeepsE.error
    | apply State.KeepsE.ok | exact State.wait_keeps _ _ | intro _ | dsimp only)

theorem execJlTrain_keeps {dt : Nat} {acc : Master} {l : Fin 8} {v : Word} {s : State} :
    State.KeepsR (s.elapse dt) (execJlTrain dt acc l v s) := by
  unfold execJlTrain
  with_reducible repeat' (first
    | assumption | apply State.busWrite_keeps | apply State.actE_keeps | exact State.KeepsE.error
    | apply State.KeepsE.ok | exact State.wait_keeps _ _ | intro _ | dsimp only)

theorem execJlDisable_keeps {dt : Nat} {acc : Master} {l : Fin 8} {v : Word} {s : State} :
    State.KeepsR (s.elapse dt) (execJlDisable dt acc l v s) := by
  unfold execJlDisable
  with_reducible repeat' (first
    | assumption | apply State.busWrite_keeps | apply State.actE_keeps | exact State.KeepsE.error
    | apply State.KeepsE.ok | exact State.wait_keeps _ _ | intro _ | dsimp only)

theorem execJlAligned_keeps {dt : Nat} {l : Fin 8} {s : State} :
    State.KeepsR (s.elapse dt) (execJlAligned dt l s) := by
  unfold execJlAligned
  with_reducible repeat' (first
    | assumption | apply State.jlAligned_keeps | apply State.act_keeps | exact State.wait_keeps _ _ | intro _
    | dsimp only)

theorem execJlEnum_keeps {dt : Nat} {l : Fin 8} {gs : List (BitVec 10)} {rd : Bool} {s : State} :
    State.KeepsR (s.elapse dt) (execJlEnum dt l gs rd s) := by
  unfold execJlEnum
  with_reducible repeat' (first
    | assumption | apply State.jlEnum_keeps | apply State.act_keeps | exact State.wait_keeps _ _ | intro _
    | dsimp only)

theorem execJlEnumTimeout_keeps {dt : Nat} {l : Fin 8} {s : State} :
    State.KeepsR (s.elapse dt) (execJlEnumTimeout dt l s) := by
  unfold execJlEnumTimeout
  with_reducible repeat' (first
    | assumption | apply State.jlEnumTimeout_keeps | apply State.act_keeps | exact State.wait_keeps _ _ | intro _
    | dsimp only)

theorem execJlReq_keeps {dt : Nat} {l : Fin 8} {s : State} :
    State.KeepsR (s.elapse dt) (execJlReq dt l s) := by
  unfold execJlReq
  with_reducible repeat' (first
    | assumption | apply State.jlReq_keeps | apply State.act_keeps | exact State.wait_keeps _ _ | intro _
    | dsimp only)

theorem execJlRsp_keeps {dt : Nat} {l : Fin 8} {gs : List (BitVec 10)} {rd : Bool} {ui : Nat} {s : State} :
    State.KeepsR (s.elapse dt) (execJlRsp dt l gs rd ui s) := by
  unfold execJlRsp
  with_reducible repeat' (first
    | assumption | apply State.jlRsp_keeps | apply State.act_keeps | exact State.wait_keeps _ _ | intro _
    | dsimp only)

theorem execJlMeasureEnd_keeps {dt : Nat} {l : Fin 8} {s : State} :
    State.KeepsR (s.elapse dt) (execJlMeasureEnd dt l s) := by
  unfold execJlMeasureEnd
  with_reducible repeat' (first
    | assumption | apply State.jlMeasureEnd_keeps | apply State.act_keeps | exact State.wait_keeps _ _ | intro _
    | dsimp only)

theorem execJlTmark_keeps {dt : Nat} {l : Fin 8} {fine : Fin 10} {s : State} :
    State.KeepsR (s.elapse dt) (execJlTmark dt l fine s) := by
  unfold execJlTmark
  with_reducible repeat' (first
    | assumption | apply State.jlTmark_keeps | apply State.act_keeps | exact State.wait_keeps _ _ | intro _
    | dsimp only)

theorem execJlTimeIdle_keeps {dt : Nat} {l : Fin 8} {s : State} :
    State.KeepsR (s.elapse dt) (execJlTimeIdle dt l s) := by
  unfold execJlTimeIdle
  with_reducible repeat' (first
    | assumption | apply State.jlIdle_keeps | apply State.act_keeps | exact State.wait_keeps _ _ | intro _
    | dsimp only)

theorem execJlFrameDepart_keeps {dt : Nat} {l : Fin 8} {s : State} :
    State.KeepsR (s.elapse dt) (execJlFrameDepart dt l s) := by
  unfold execJlFrameDepart
  with_reducible repeat' (first
    | assumption | apply State.jlDepart_keeps | apply State.act_keeps | exact State.wait_keeps _ _ | intro _
    | dsimp only)

theorem execJlStat_keeps {dt : Nat} {l : Fin 8} {gs : List (BitVec 10)} {rd : Bool} {s : State} :
    State.KeepsR (s.elapse dt) (execJlStat dt l gs rd s) := by
  unfold execJlStat
  with_reducible repeat' (first
    | assumption | apply State.jlStat_keeps | apply State.act_keeps | exact State.wait_keeps _ _ | intro _
    | dsimp only)

theorem execJlDl_keeps {dt : Nat} {acc : Master} {l : Fin 8} {v : Word} {s : State} :
    State.KeepsR (s.elapse dt) (execJlDl dt acc l v s) := by
  unfold execJlDl
  with_reducible repeat' (first
    | assumption | apply State.busWrite_keeps | apply State.actE_keeps | exact State.KeepsE.error
    | apply State.KeepsE.ok | exact State.wait_keeps _ _ | intro _ | dsimp only)

theorem execJlDlTimeout_keeps {dt : Nat} {l : Fin 8} {s : State} :
    State.KeepsR (s.elapse dt) (execJlDlTimeout dt l s) := by
  unfold execJlDlTimeout
  with_reducible repeat' (first
    | assumption | apply State.jlDlTimeout_keeps | apply State.act_keeps | exact State.wait_keeps _ _ | intro _
    | dsimp only)

theorem execJlLoss_keeps {dt : Nat} {l : Fin 8} {aligned : Bool} {gs : List (BitVec 10)} {rd : Bool} {s : State} :
    State.KeepsR (s.elapse dt) (execJlLoss dt l aligned gs rd s) := by
  unfold execJlLoss
  with_reducible repeat' (first
    | assumption | apply State.jlLoss_keeps | apply State.act_keeps | exact State.wait_keeps _ _ | intro _
    | dsimp only)

theorem execJlModlost_keeps {dt : Nat} {l : Fin 8} {p : Fin 16} {s : State} :
    State.KeepsR (s.elapse dt) (execJlModlost dt l p s) := by
  unfold execJlModlost
  with_reducible repeat' (first
    | assumption | apply State.jlModLost_keeps | apply State.act_keeps | exact State.wait_keeps _ _ | intro _
    | dsimp only)

theorem execBlTrain_keeps {dt : Nat} {acc : Master} {l : Fin 16} {v : Word} {s : State} :
    State.KeepsR (s.elapse dt) (execBlTrain dt acc l v s) := by
  unfold execBlTrain
  with_reducible repeat' (first
    | assumption | apply State.busWrite_keeps | apply State.actE_keeps | exact State.KeepsE.error
    | apply State.KeepsE.ok | exact State.wait_keeps _ _ | intro _ | dsimp only)

theorem execBlDisable_keeps {dt : Nat} {acc : Master} {l : Fin 16} {v : Word} {s : State} :
    State.KeepsR (s.elapse dt) (execBlDisable dt acc l v s) := by
  unfold execBlDisable
  with_reducible repeat' (first
    | assumption | apply State.busWrite_keeps | apply State.actE_keeps | exact State.KeepsE.error
    | apply State.KeepsE.ok | exact State.wait_keeps _ _ | intro _ | dsimp only)

theorem execBlClrflt_keeps {dt : Nat} {acc : Master} {l : Fin 16} {v : Word} {s : State} :
    State.KeepsR (s.elapse dt) (execBlClrflt dt acc l v s) := by
  unfold execBlClrflt
  with_reducible repeat' (first
    | assumption | apply State.busWrite_keeps | apply State.actE_keeps | exact State.KeepsE.error
    | apply State.KeepsE.ok | exact State.wait_keeps _ _ | intro _ | dsimp only)

theorem execBlAligned_keeps {dt : Nat} {l : Fin 16} {s : State} :
    State.KeepsR (s.elapse dt) (execBlAligned dt l s) := by
  unfold execBlAligned
  with_reducible repeat' (first
    | assumption | apply State.blAligned_keeps | apply State.act_keeps | exact State.wait_keeps _ _ | intro _
    | dsimp only)

theorem execPing_keeps {dt : Nat} {l : Fin 16} {s : State} :
    State.KeepsR (s.elapse dt) (execPing dt l s) := by
  unfold execPing
  with_reducible repeat' (first
    | assumption | apply State.blPing_keeps | apply State.act_keeps | exact State.wait_keeps _ _ | intro _
    | dsimp only)

theorem execPong_keeps {dt : Nat} {l : Fin 16} {tag : BitVec 8} {ui : Nat} {s : State} :
    State.KeepsR (s.elapse dt) (execPong dt l tag ui s) := by
  unfold execPong
  with_reducible repeat' (first
    | assumption | apply State.blPong_keeps | apply State.act_keeps | exact State.wait_keeps _ _ | intro _
    | dsimp only)

theorem execBlMeasureEnd_keeps {dt : Nat} {l : Fin 16} {s : State} :
    State.KeepsR (s.elapse dt) (execBlMeasureEnd dt l s) := by
  unfold execBlMeasureEnd
  with_reducible repeat' (first
    | assumption | apply State.blMeasureEnd_keeps | apply State.act_keeps | exact State.wait_keeps _ _ | intro _
    | dsimp only)

theorem execSyncLaunch_keeps {dt : Nat} {l : Fin 16} {s : State} :
    State.KeepsR (s.elapse dt) (execSyncLaunch dt l s) := by
  unfold execSyncLaunch
  with_reducible repeat' (first
    | assumption | apply State.blSync_keeps | apply State.act_keeps | exact State.wait_keeps _ _ | intro _
    | dsimp only)

theorem execUpstreamFrame_keeps {dt : Nat} {l : Fin 16} {gs : List (BitVec 10)} {rd : Bool} {s : State} :
    State.KeepsR (s.elapse dt) (execUpstreamFrame dt l gs rd s) := by
  unfold execUpstreamFrame
  with_reducible repeat' (first
    | assumption | apply State.blUpstream_keeps | apply State.act_keeps | exact State.wait_keeps _ _ | intro _
    | dsimp only)

theorem execBlCodeErrorBurst_keeps {dt : Nat} {l : Fin 16} {gs : List (BitVec 10)} {rd : Bool} {s : State} :
    State.KeepsR (s.elapse dt) (execBlCodeErrorBurst dt l gs rd s) := by
  unfold execBlCodeErrorBurst
  with_reducible repeat' (first
    | assumption | apply State.blErrors_keeps | apply State.act_keeps | exact State.wait_keeps _ _ | intro _
    | dsimp only)

theorem execAxNone_keeps {dt : Nat} {acc : Master} {n : Fin 64} {s : State} :
    State.KeepsR (s.elapse dt) (execAxNone dt acc n s) := by
  unfold execAxNone
  with_reducible repeat' (first
    | assumption | apply State.busWrite_keeps | apply State.actE_keeps | exact State.KeepsE.error
    | apply State.KeepsE.ok | exact State.wait_keeps _ _ | intro _ | dsimp only)

theorem execAxSync_keeps {dt : Nat} {acc : Master} {n : Fin 64} {s : State} :
    State.KeepsR (s.elapse dt) (execAxSync dt acc n s) := by
  unfold execAxSync
  with_reducible repeat' (first
    | assumption | apply State.busWrite_keeps | apply State.actE_keeps | exact State.KeepsE.error
    | apply State.KeepsE.ok | exact State.wait_keeps _ _ | intro _ | dsimp only)

theorem execAxMove_keeps {dt : Nat} {acc : Master} {n : Fin 64} {s : State} :
    State.KeepsR (s.elapse dt) (execAxMove dt acc n s) := by
  unfold execAxMove
  with_reducible repeat' (first
    | assumption | apply State.busWrite_keeps | apply State.actE_keeps | exact State.KeepsE.error
    | apply State.KeepsE.ok | exact State.wait_keeps _ _ | intro _ | dsimp only)

theorem execAxJog_keeps {dt : Nat} {acc : Master} {n : Fin 64} {s : State} :
    State.KeepsR (s.elapse dt) (execAxJog dt acc n s) := by
  unfold execAxJog
  with_reducible repeat' (first
    | assumption | apply State.busWrite_keeps | apply State.actE_keeps | exact State.KeepsE.error
    | apply State.KeepsE.ok | exact State.wait_keeps _ _ | intro _ | dsimp only)

theorem execAxExt_keeps {dt : Nat} {acc : Master} {n : Fin 64} {s : State} :
    State.KeepsR (s.elapse dt) (execAxExt dt acc n s) := by
  unfold execAxExt
  with_reducible repeat' (first
    | assumption | apply State.busWrite_keeps | apply State.actE_keeps | exact State.KeepsE.error
    | apply State.KeepsE.ok | exact State.wait_keeps _ _ | intro _ | dsimp only)

theorem execAxGear_keeps {dt : Nat} {acc : Master} {n : Fin 64} {s : State} :
    State.KeepsR (s.elapse dt) (execAxGear dt acc n s) := by
  unfold execAxGear
  with_reducible repeat' (first
    | assumption | apply State.busWrite_keeps | apply State.actE_keeps | exact State.KeepsE.error
    | apply State.KeepsE.ok | exact State.wait_keeps _ _ | intro _ | dsimp only)

theorem execAxCam_keeps {dt : Nat} {acc : Master} {n : Fin 64} {s : State} :
    State.KeepsR (s.elapse dt) (execAxCam dt acc n s) := by
  unfold execAxCam
  with_reducible repeat' (first
    | assumption | apply State.busWrite_keeps | apply State.actE_keeps | exact State.KeepsE.error
    | apply State.KeepsE.ok | exact State.wait_keeps _ _ | intro _ | dsimp only)

theorem execAxGroup_keeps {dt : Nat} {acc : Master} {n : Fin 64} {s : State} :
    State.KeepsR (s.elapse dt) (execAxGroup dt acc n s) := by
  unfold execAxGroup
  with_reducible repeat' (first
    | assumption | apply State.busWrite_keeps | apply State.actE_keeps | exact State.KeepsE.error
    | apply State.KeepsE.ok | exact State.wait_keeps _ _ | intro _ | dsimp only)

theorem execAxStop_keeps {dt : Nat} {acc : Master} {n : Fin 64} {s : State} :
    State.KeepsR (s.elapse dt) (execAxStop dt acc n s) := by
  unfold execAxStop
  with_reducible repeat' (first
    | assumption | apply State.busWrite_keeps | apply State.actE_keeps | exact State.KeepsE.error
    | apply State.KeepsE.ok | exact State.wait_keeps _ _ | intro _ | dsimp only)

theorem execAxQstop_keeps {dt : Nat} {acc : Master} {n : Fin 64} {s : State} :
    State.KeepsR (s.elapse dt) (execAxQstop dt acc n s) := by
  unfold execAxQstop
  with_reducible repeat' (first
    | assumption | apply State.busWrite_keeps | apply State.actE_keeps | exact State.KeepsE.error
    | apply State.KeepsE.ok | exact State.wait_keeps _ _ | intro _ | dsimp only)

theorem execAxDisengage_keeps {dt : Nat} {acc : Master} {n : Fin 64} {s : State} :
    State.KeepsR (s.elapse dt) (execAxDisengage dt acc n s) := by
  unfold execAxDisengage
  with_reducible repeat' (first
    | assumption | apply State.busWrite_keeps | apply State.actE_keeps | exact State.KeepsE.error
    | apply State.KeepsE.ok | exact State.wait_keeps _ _ | intro _ | dsimp only)

theorem execAxShift_keeps {dt : Nat} {acc : Master} {n : Fin 64} {v : Word} {s : State} :
    State.KeepsR (s.elapse dt) (execAxShift dt acc n v s) := by
  unfold execAxShift
  with_reducible repeat' (first
    | assumption | apply State.busWrite_keeps | apply State.actE_keeps | exact State.KeepsE.error
    | apply State.KeepsE.ok | exact State.wait_keeps _ _ | intro _ | dsimp only)

theorem execGrpPush_keeps {dt : Nat} {acc : Master} {n : Fin 64} {s : State} :
    State.KeepsR (s.elapse dt) (execGrpPush dt acc n s) := by
  unfold execGrpPush
  with_reducible repeat' (first
    | assumption | apply State.busWrite_keeps | apply State.actE_keeps | exact State.KeepsE.error
    | apply State.KeepsE.ok | exact State.wait_keeps _ _ | intro _ | dsimp only)

theorem execGrpStop_keeps {dt : Nat} {acc : Master} {n : Fin 64} {s : State} :
    State.KeepsR (s.elapse dt) (execGrpStop dt acc n s) := by
  unfold execGrpStop
  with_reducible repeat' (first
    | assumption | apply State.busWrite_keeps | apply State.actE_keeps | exact State.KeepsE.error
    | apply State.KeepsE.ok | exact State.wait_keeps _ _ | intro _ | dsimp only)

theorem execLoopEnable_keeps {dt : Nat} {acc : Master} {n : Fin 64} {v : Word} {s : State} :
    State.KeepsR (s.elapse dt) (execLoopEnable dt acc n v s) := by
  unfold execLoopEnable
  with_reducible repeat' (first
    | assumption | apply State.busWrite_keeps | apply State.actE_keeps | exact State.KeepsE.error
    | apply State.KeepsE.ok | exact State.wait_keeps _ _ | intro _ | dsimp only)

theorem execLoopDisable_keeps {dt : Nat} {acc : Master} {n : Fin 64} {v : Word} {s : State} :
    State.KeepsR (s.elapse dt) (execLoopDisable dt acc n v s) := by
  unfold execLoopDisable
  with_reducible repeat' (first
    | assumption | apply State.busWrite_keeps | apply State.actE_keeps | exact State.KeepsE.error
    | apply State.KeepsE.ok | exact State.wait_keeps _ _ | intro _ | dsimp only)

theorem execLoopResetI_keeps {dt : Nat} {acc : Master} {n : Fin 64} {v : Word} {s : State} :
    State.KeepsR (s.elapse dt) (execLoopResetI dt acc n v s) := by
  unfold execLoopResetI
  with_reducible repeat' (first
    | assumption | apply State.busWrite_keeps | apply State.actE_keeps | exact State.KeepsE.error
    | apply State.KeepsE.ok | exact State.wait_keeps _ _ | intro _ | dsimp only)

theorem execLoopClrPk_keeps {dt : Nat} {acc : Master} {n : Fin 64} {v : Word} {s : State} :
    State.KeepsR (s.elapse dt) (execLoopClrPk dt acc n v s) := by
  unfold execLoopClrPk
  with_reducible repeat' (first
    | assumption | apply State.busWrite_keeps | apply State.actE_keeps | exact State.KeepsE.error
    | apply State.KeepsE.ok | exact State.wait_keeps _ _ | intro _ | dsimp only)

theorem execFilterRawCommit_keeps {dt : Nat} {acc : Master} {n : Fin 64} {f : Fin 3} {v : Word} {s : State} :
    State.KeepsR (s.elapse dt) (execFilterRawCommit dt acc n f v s) := by
  unfold execFilterRawCommit
  with_reducible repeat' (first
    | assumption | apply State.busWrite_keeps | apply State.actE_keeps | exact State.KeepsE.error
    | apply State.KeepsE.ok | exact State.wait_keeps _ _ | intro _ | dsimp only)

theorem execAxisFaultClear_keeps {dt : Nat} {acc : Master} {n : Fin 64} {v : Word} {s : State} :
    State.KeepsR (s.elapse dt) (execAxisFaultClear dt acc n v s) := by
  unfold execAxisFaultClear
  with_reducible repeat' (first
    | assumption | apply State.busWrite_keeps | apply State.actE_keeps | exact State.KeepsE.error
    | apply State.KeepsE.ok | exact State.wait_keeps _ _ | intro _ | dsimp only)

theorem execCmdDutyEdge_keeps {dt : Nat} {k : Fin 8} {raw : BitVec 16} {pair : Bool} {s : State} :
    State.KeepsR (s.elapse dt) (execCmdDutyEdge dt k raw pair s) := by
  unfold execCmdDutyEdge
  with_reducible repeat' (first
    | assumption | apply State.cmdSample_keeps | apply State.act_keeps | exact State.wait_keeps _ _ | intro _
    | dsimp only)

theorem execCmdFreqEdge_keeps {dt : Nat} {k : Fin 8} {raw : BitVec 16} {pair : Bool} {s : State} :
    State.KeepsR (s.elapse dt) (execCmdFreqEdge dt k raw pair s) := by
  unfold execCmdFreqEdge
  with_reducible repeat' (first
    | assumption | apply State.cmdSample_keeps | apply State.act_keeps | exact State.wait_keeps _ _ | intro _
    | dsimp only)

theorem execCmdLoss_keeps {dt : Nat} {k : Fin 8} {s : State} :
    State.KeepsR (s.elapse dt) (execCmdLoss dt k s) := by
  unfold execCmdLoss
  with_reducible repeat' (first
    | assumption | apply State.cmdLoss_keeps | apply State.act_keeps | exact State.wait_keeps _ _ | intro _
    | dsimp only)

theorem execSillResult_keeps {dt : Nat} {code : BitVec 16} {s : State} :
    State.KeepsR (s.elapse dt) (execSillResult dt code s) := by
  unfold execSillResult
  with_reducible repeat' (first
    | assumption | apply State.sillNext_keeps | apply State.act_keeps | exact State.wait_keeps _ _ | intro _
    | dsimp only)

theorem execPortCfgWrite_keeps {dt : Nat} {acc : Master} {p : Fin 4} {v : Word} {s : State} :
    State.KeepsR (s.elapse dt) (execPortCfgWrite dt acc p v s) := by
  unfold execPortCfgWrite
  with_reducible repeat' (first
    | assumption | apply State.busWrite_keeps | apply State.actE_keeps | exact State.KeepsE.error
    | apply State.KeepsE.ok | exact State.wait_keeps _ _ | intro _ | dsimp only)

theorem execLinkChange_keeps {dt : Nat} {p : Fin 4} {up : Bool} {speed : Fin 3} {half : Bool} {s : State} :
    State.KeepsR (s.elapse dt) (execLinkChange dt p up speed half s) := by
  unfold execLinkChange
  with_reducible repeat' (first
    | assumption | apply State.linkChange_keeps | apply State.act_keeps | exact State.wait_keeps _ _ | intro _
    | dsimp only)

theorem execMdioAddress_keeps {dt : Nat} {acc : Master} {v : Word} {s : State} :
    State.KeepsR (s.elapse dt) (execMdioAddress dt acc v s) := by
  unfold execMdioAddress
  with_reducible repeat' (first
    | assumption | apply State.busWrite_keeps | apply State.actE_keeps | exact State.KeepsE.error
    | apply State.KeepsE.ok | exact State.wait_keeps _ _ | intro _ | dsimp only)

theorem execMdioWrite_keeps {dt : Nat} {acc : Master} {v : Word} {s : State} :
    State.KeepsR (s.elapse dt) (execMdioWrite dt acc v s) := by
  unfold execMdioWrite
  with_reducible repeat' (first
    | assumption | apply State.busWrite_keeps | apply State.actE_keeps | exact State.KeepsE.error
    | apply State.KeepsE.ok | exact State.wait_keeps _ _ | intro _ | dsimp only)

theorem execMdioRead_keeps {dt : Nat} {acc : Master} {v : Word} {s : State} :
    State.KeepsR (s.elapse dt) (execMdioRead dt acc v s) := by
  unfold execMdioRead
  with_reducible repeat' (first
    | assumption | apply State.busWrite_keeps | apply State.actE_keeps | exact State.KeepsE.error
    | apply State.KeepsE.ok | exact State.wait_keeps _ _ | intro _ | dsimp only)

theorem execMdioFrameEnd_keeps {dt : Nat} {data : BitVec 16} {s : State} :
    State.KeepsR (s.elapse dt) (execMdioFrameEnd dt data s) := by
  unfold execMdioFrameEnd
  with_reducible repeat' (first
    | assumption | apply State.mdioEnd_keeps | apply State.act_keeps | exact State.wait_keeps _ _ | intro _
    | dsimp only)

theorem execHwFrameReceive_keeps {dt : Nat} {p : Fin 4} {frame : List Byte} {ago : Nat} {s : State} :
    State.KeepsR (s.elapse dt) (execHwFrameReceive dt p frame ago s) := by
  unfold execHwFrameReceive
  with_reducible repeat' (first
    | assumption | apply State.receiveFrame_keeps | apply State.act_keeps | exact State.wait_keeps _ _ | intro _
    | dsimp only)

theorem execHwFrameTransmit_keeps {dt : Nat} {p : Fin 4} {own : Option MgmtTx} {s : State} :
    State.KeepsR (s.elapse dt) (execHwFrameTransmit dt p own s) := by
  unfold execHwFrameTransmit
  with_reducible repeat' (first
    | assumption | apply State.transmit_keeps | apply State.act_keeps | exact State.wait_keeps _ _ | intro _
    | dsimp only)

theorem execMacAgeing_keeps {dt : Nat} {mac : BitVec 48} {s : State} :
    State.KeepsR (s.elapse dt) (execMacAgeing dt mac s) := by
  unfold execMacAgeing
  with_reducible repeat' (first
    | assumption | apply State.macAge_keeps | apply State.act_keeps | exact State.wait_keeps _ _ | intro _
    | dsimp only)

theorem execQbvCommit_keeps {dt : Nat} {acc : Master} {p : Fin 4} {v : Word} {s : State} :
    State.KeepsR (s.elapse dt) (execQbvCommit dt acc p v s) := by
  unfold execQbvCommit
  with_reducible repeat' (first
    | assumption | apply State.busWrite_keeps | apply State.actE_keeps | exact State.KeepsE.error
    | apply State.KeepsE.ok | exact State.wait_keeps _ _ | intro _ | dsimp only)

theorem execQbvListStart_keeps {dt : Nat} {p : Fin 4} {s : State} :
    State.KeepsR (s.elapse dt) (execQbvListStart dt p s) := by
  unfold execQbvListStart
  with_reducible repeat' (first
    | assumption | apply State.qbvStart_keeps | apply State.act_keeps | exact State.wait_keeps _ _ | intro _
    | dsimp only)

theorem execQbvEntry_keeps {dt : Nat} {p : Fin 4} {s : State} :
    State.KeepsR (s.elapse dt) (execQbvEntry dt p s) := by
  unfold execQbvEntry
  with_reducible repeat' (first
    | assumption | apply State.qbvApply_keeps | apply State.act_keeps | exact State.wait_keeps _ _ | intro _
    | dsimp only)

theorem execJoistDepart_keeps {dt : Nat} {s : State} :
    State.KeepsR (s.elapse dt) (execJoistDepart dt s) := by
  unfold execJoistDepart
  with_reducible repeat' (first
    | assumption | apply State.joistDepart_keeps | apply State.act_keeps | exact State.wait_keeps _ _ | intro _
    | dsimp only)

theorem execJoistTimeout_keeps {dt : Nat} {r : Fin 64} {s : State} :
    State.KeepsR (s.elapse dt) (execJoistTimeout dt r s) := by
  unfold execJoistTimeout
  with_reducible repeat' (first
    | assumption | apply State.joistTimeout_keeps | apply State.act_keeps | exact State.wait_keeps _ _ | intro _
    | dsimp only)

theorem execSlotTaskStart_keeps {dt : Nat} {n : Fin 10} {i : Fin 32} {axes : List (Fin 64)} {s : State} :
    State.KeepsR (s.elapse dt) (execSlotTaskStart dt n i axes s) := by
  unfold execSlotTaskStart
  with_reducible repeat' (first
    | assumption | apply orUnpredictable_keeps | apply State.slotStart_keeps | apply State.actE_keeps
    | exact State.KeepsE.error | apply State.KeepsE.ok | exact State.KeepsO.none | apply State.KeepsO.some
    | exact State.wait_keeps _ _ | intro _ | dsimp only)

theorem execEventTaskStart_keeps {dt : Nat} {n : Fin 10} {s : State} :
    State.KeepsR (s.elapse dt) (execEventTaskStart dt n s) := by
  unfold execEventTaskStart
  with_reducible repeat' (first
    | assumption | apply State.eventStart_keeps | apply State.act_keeps | exact State.wait_keeps _ _ | intro _
    | dsimp only)

theorem execGougeForce_keeps {dt : Nat} {acc : Master} {n : Fin 10} {v : Word} {s : State} :
    State.KeepsR (s.elapse dt) (execGougeForce dt acc n v s) := by
  unfold execGougeForce
  with_reducible repeat' (first
    | assumption | apply State.busWrite_keeps | apply State.actE_keeps | exact State.KeepsE.error
    | apply State.KeepsE.ok | exact State.wait_keeps _ _ | intro _ | dsimp only)

theorem execCoreFault_keeps {dt : Nat} {n : Fin 10} {cause : CoreCause} {s : State} :
    State.KeepsR (s.elapse dt) (execCoreFault dt n cause s) := by
  unfold execCoreFault
  with_reducible repeat' (first
    | assumption | apply State.coreFault_keeps | apply State.act_keeps | exact State.wait_keeps _ _ | intro _
    | dsimp only)

theorem execMarchSlice_keeps {dt : Nat} {bad : Option (Fin 16)} {s : State} :
    State.KeepsR (s.elapse dt) (execMarchSlice dt bad s) := by
  unfold execMarchSlice
  with_reducible repeat' (first
    | assumption | apply State.marchSlice_keeps | apply State.act_keeps | exact State.wait_keeps _ _ | intro _
    | dsimp only)

theorem execMarchBackoffEnd_keeps {dt : Nat} {bad : Option (Fin 16)} {s : State} :
    State.KeepsR (s.elapse dt) (execMarchBackoffEnd dt bad s) := by
  unfold execMarchBackoffEnd
  with_reducible repeat' (first
    | assumption | apply State.marchBackoffEnd_keeps | apply State.act_keeps | exact State.wait_keeps _ _ | intro _
    | dsimp only)

theorem execMarchPassStart_keeps {dt : Nat} {bad : Option (Fin 16)} {s : State} :
    State.KeepsR (s.elapse dt) (execMarchPassStart dt bad s) := by
  unfold execMarchPassStart
  with_reducible repeat' (first
    | assumption | apply State.marchPassStart_keeps | apply State.act_keeps | exact State.wait_keeps _ _ | intro _
    | dsimp only)

theorem execThrInputSample_keeps {dt : Nat} {c : Fin 2} {ins bands : BitVec 8} {s : State} :
    State.KeepsR (s.elapse dt) (execThrInputSample dt c ins bands s) := by
  unfold execThrInputSample
  with_reducible repeat' (first
    | assumption | apply State.thrSample_keeps | apply State.actThr_keeps | exact State.wait_keeps _ _ | intro _
    | dsimp only)

theorem execThrTick_keeps {dt : Nat} {c : Fin 2} {refclk : Refclk} {badParity : Bool} {s : State} :
    State.KeepsR (s.elapse dt) (execThrTick dt c refclk badParity s) := by
  unfold execThrTick
  with_reducible repeat' (first
    | assumption | apply State.thrTick_keeps | apply State.actThr_keeps | exact State.wait_keeps _ _ | intro _
    | dsimp only)

theorem execThrRstreq_keeps {dt : Nat} {acc : Master} {v : Word} {s : State} :
    State.KeepsR (s.elapse dt) (execThrRstreq dt acc v s) := by
  unfold execThrRstreq
  with_reducible repeat' (first
    | assumption | apply State.busWrite_keeps | apply State.actE_keeps | exact State.KeepsE.error
    | apply State.KeepsE.ok | exact State.wait_keeps _ _ | intro _ | dsimp only)

theorem execThrDemand_keeps {dt : Nat} {acc : Master} {v : Word} {s : State} :
    State.KeepsR (s.elapse dt) (execThrDemand dt acc v s) := by
  unfold execThrDemand
  with_reducible repeat' (first
    | assumption | apply State.busWrite_keeps | apply State.actE_keeps | exact State.KeepsE.error
    | apply State.KeepsE.ok | exact State.wait_keeps _ _ | intro _ | dsimp only)

theorem execDarkTest_keeps {dt : Nat} {g : Fin 4} {s : State} :
    State.KeepsR (s.elapse dt) (execDarkTest dt g s) := by
  unfold execDarkTest
  with_reducible repeat' (first
    | assumption | apply State.thrDark_keeps | apply State.actThr_keeps | exact State.wait_keeps _ _ | intro _
    | dsimp only)

theorem execDarkTestLowSide_keeps {dt : Nat} {g : Fin 4} {s : State} :
    State.KeepsR (s.elapse dt) (execDarkTestLowSide dt g s) := by
  unfold execDarkTestLowSide
  with_reducible repeat' (first
    | assumption | apply State.thrDarkLow_keeps | apply State.actThr_keeps | exact State.wait_keeps _ _ | intro _
    | dsimp only)

theorem execDarkTestEnd_keeps {dt : Nat} {g : Fin 4} {s : State} :
    State.KeepsR (s.elapse dt) (execDarkTestEnd dt g s) := by
  unfold execDarkTestEnd
  with_reducible repeat' (first
    | assumption | apply State.thrDarkEnd_keeps | apply State.actThr_keeps | exact State.wait_keeps _ _ | intro _
    | dsimp only)

theorem execGraceExpiry_keeps {dt : Nat} {g : Fin 4} {s : State} :
    State.KeepsR (s.elapse dt) (execGraceExpiry dt g s) := by
  unfold execGraceExpiry
  with_reducible repeat' (first
    | assumption | apply State.thrGrace_keeps | apply State.actThr_keeps | exact State.wait_keeps _ _ | intro _
    | dsimp only)

theorem execCrossLinkMessage_keeps {dt : Nat} {c : Fin 2} {sameCrc : Bool} {interval : Nat} {s : State} :
    State.KeepsR (s.elapse dt) (execCrossLinkMessage dt c sameCrc interval s) := by
  unfold execCrossLinkMessage
  with_reducible repeat' (first
    | assumption | apply State.thrMessage_keeps | apply State.actThr_keeps | exact State.wait_keeps _ _ | intro _
    | dsimp only)

theorem execCrossLinkTimeout_keeps {dt : Nat} {c : Fin 2} {s : State} :
    State.KeepsR (s.elapse dt) (execCrossLinkTimeout dt c s) := by
  unfold execCrossLinkTimeout
  with_reducible repeat' (first
    | assumption | apply State.thrSilence_keeps | apply State.actThr_keeps | exact State.wait_keeps _ _ | intro _
    | dsimp only)

theorem execThrStartupTest_keeps {dt : Nat} {c : Fin 2} {pass : Bool} {s : State} :
    State.KeepsR (s.elapse dt) (execThrStartupTest dt c pass s) := by
  unfold execThrStartupTest
  with_reducible repeat' (first
    | assumption | apply State.thrStarted_keeps | apply State.actThr_keeps | exact State.wait_keeps _ _ | intro _
    | dsimp only)

theorem execChannelSupplyFail_keeps {dt : Nat} {c : Fin 2} {s : State} :
    State.KeepsR (s.elapse dt) (execChannelSupplyFail dt c s) := by
  unfold execChannelSupplyFail
  with_reducible repeat' (first
    | assumption | apply State.thrMute_keeps | apply State.actThr_keeps | exact State.wait_keeps _ _ | intro _
    | dsimp only)

theorem execLclkSet_keeps {dt : Nat} {acc : Master} {v : Word} {s : State} :
    State.KeepsR (s.elapse dt) (execLclkSet dt acc v s) := by
  unfold execLclkSet
  with_reducible repeat' (first
    | assumption | apply State.busWrite_keeps | apply State.actE_keeps | exact State.KeepsE.error
    | apply State.KeepsE.ok | exact State.wait_keeps _ _ | intro _ | dsimp only)

theorem execLclkStepWrite_keeps {dt : Nat} {acc : Master} {v : Word} {s : State} :
    State.KeepsR (s.elapse dt) (execLclkStepWrite dt acc v s) := by
  unfold execLclkStepWrite
  with_reducible repeat' (first
    | assumption | apply State.busWrite_keeps | apply State.actE_keeps | exact State.KeepsE.error
    | apply State.KeepsE.ok | exact State.wait_keeps _ _ | intro _ | dsimp only)

theorem execServoMeasurement_keeps {dt : Nat} {p : Fin 4} {dom : BitVec 8} {theta : Int} {ts : Nat}
    {parent : BitVec 80} {delay : Int} {gmid : BitVec 64} {s : State} :
    State.KeepsR (s.elapse dt) (execServoMeasurement dt p dom theta ts parent delay gmid s) := by
  unfold execServoMeasurement
  with_reducible repeat' (first
    | assumption | apply orUnpredictable_keeps | apply State.servoMeasure_keeps | apply State.actE_keeps
    | exact State.KeepsE.error | apply State.KeepsE.ok | exact State.KeepsO.none | apply State.KeepsO.some
    | exact State.wait_keeps _ _ | intro _ | dsimp only)

theorem execParentLoss_keeps {dt : Nat} {s : State} :
    State.KeepsR (s.elapse dt) (execParentLoss dt s) := by
  unfold execParentLoss
  with_reducible repeat' (first
    | assumption | apply State.parentLoss_keeps | apply State.act_keeps | exact State.wait_keeps _ _ | intro _
    | dsimp only)

theorem execBmcaGrandmaster_keeps {dt : Nat} {s : State} :
    State.KeepsR (s.elapse dt) (execBmcaGrandmaster dt s) := by
  unfold execBmcaGrandmaster
  with_reducible repeat' (first
    | assumption | apply State.grandmaster_keeps | apply State.act_keeps | exact State.wait_keeps _ _ | intro _
    | dsimp only)

theorem execRafterFire_keeps {dt : Nat} {acc : Master} {v : Word} {s : State} :
    State.KeepsR (s.elapse dt) (execRafterFire dt acc v s) := by
  unfold execRafterFire
  with_reducible repeat' (first
    | assumption | apply State.busWrite_keeps | apply State.actE_keeps | exact State.KeepsE.error
    | apply State.KeepsE.ok | exact State.wait_keeps _ _ | intro _ | dsimp only)

theorem execRafterDeferredLaunch_keeps {dt : Nat} {l : Fin 4} {s : State} :
    State.KeepsR (s.elapse dt) (execRafterDeferredLaunch dt l s) := by
  unfold execRafterDeferredLaunch
  with_reducible repeat' (first
    | assumption | apply State.rafDeferred_keeps | apply State.act_keeps | exact State.wait_keeps _ _ | intro _
    | dsimp only)

theorem execRafterBurstReceive_keeps {dt : Nat} {l : Fin 4} {bits : BitVec 7} {stable : Bool} {ago : Nat} {s : State} :
    State.KeepsR (s.elapse dt) (execRafterBurstReceive dt l bits stable ago s) := by
  unfold execRafterBurstReceive
  with_reducible repeat' (first
    | assumption | apply State.rafReceive_keeps | apply State.act_keeps | exact State.wait_keeps _ _ | intro _
    | dsimp only)

theorem execRafterAction_keeps {dt : Nat} {l : Fin 4} {s : State} :
    State.KeepsR (s.elapse dt) (execRafterAction dt l s) := by
  unfold execRafterAction
  with_reducible repeat' (first
    | assumption | apply State.rafActions_keeps | apply State.act_keeps | exact State.wait_keeps _ _ | intro _
    | dsimp only)

theorem execRafterMeas_keeps {dt : Nat} {acc : Master} {v : Word} {s : State} :
    State.KeepsR (s.elapse dt) (execRafterMeas dt acc v s) := by
  unfold execRafterMeas
  with_reducible repeat' (first
    | assumption | apply State.busWrite_keeps | apply State.actE_keeps | exact State.KeepsE.error
    | apply State.KeepsE.ok | exact State.wait_keeps _ _ | intro _ | dsimp only)

theorem execMrsp_keeps {dt : Nat} {l : Fin 4} {s : State} :
    State.KeepsR (s.elapse dt) (execMrsp dt l s) := by
  unfold execMrsp
  with_reducible repeat' (first
    | assumption | apply State.rafRespond_keeps | apply State.act_keeps | exact State.wait_keeps _ _ | intro _
    | dsimp only)

theorem execRafterMeasTimeout_keeps {dt : Nat} {s : State} :
    State.KeepsR (s.elapse dt) (execRafterMeasTimeout dt s) := by
  unfold execRafterMeasTimeout
  with_reducible repeat' (first
    | assumption | apply State.rafTimeout_keeps | apply State.act_keeps | exact State.wait_keeps _ _ | intro _
    | dsimp only)

theorem execRafclkLoss_keeps {dt : Nat} {s : State} :
    State.KeepsR (s.elapse dt) (execRafclkLoss dt s) := by
  unfold execRafclkLoss
  with_reducible repeat' (first
    | assumption | apply State.rafclkLoss_keeps | apply State.act_keeps | exact State.wait_keeps _ _ | intro _
    | dsimp only)

theorem execZenRead_keeps {dt : Nat} {h : ZHead} {addr : BitVec 32} {s : State} :
    State.KeepsR (s.elapse dt) (execZenRead dt h addr s) := by
  unfold execZenRead
  with_reducible repeat' (first
    | assumption | apply State.zenReadWord_keeps | apply State.actE_keeps | exact State.KeepsE.error
    | apply State.KeepsE.ok | exact State.wait_keeps _ _ | intro _ | dsimp only)

theorem execZenWrite_keeps {dt : Nat} {h : ZHead} {addr : BitVec 32} {data : Word} {s : State} :
    State.KeepsR (s.elapse dt) (execZenWrite dt h addr data s) := by
  unfold execZenWrite
  with_reducible repeat' (first
    | assumption | apply State.zenWriteWord_keeps | apply State.actE_keeps | exact State.KeepsE.error
    | apply State.KeepsE.ok | exact State.wait_keeps _ _ | intro _ | dsimp only)

theorem execZenBlockRead_keeps {dt : Nat} {h : ZHead} {addr : BitVec 32} {count : BitVec 16} {s : State} :
    State.KeepsR (s.elapse dt) (execZenBlockRead dt h addr count s) := by
  unfold execZenBlockRead
  with_reducible repeat' (first
    | assumption | apply State.zenReadBlock_keeps | apply State.actE_keeps | exact State.KeepsE.error
    | apply State.KeepsE.ok | exact State.wait_keeps _ _ | intro _ | dsimp only)

theorem execZenBlockWrite_keeps {dt : Nat} {h : ZHead} {addr : BitVec 32} {count : BitVec 16} {data : List Word}
    {s : State} :
    State.KeepsR (s.elapse dt) (execZenBlockWrite dt h addr count data s) := by
  unfold execZenBlockWrite
  with_reducible repeat' (first
    | assumption | apply State.zenWriteBlock_keeps | apply State.actE_keeps | exact State.KeepsE.error
    | apply State.KeepsE.ok | exact State.wait_keeps _ _ | intro _ | dsimp only)

theorem execZenLedgerInsert_keeps {dt : Nat} {h : ZHead} {slot : BitVec 16} {lane : Byte} {entry : BitVec 128}
    {s : State} :
    State.KeepsR (s.elapse dt) (execZenLedgerInsert dt h slot lane entry s) := by
  unfold execZenLedgerInsert
  with_reducible repeat' (first
    | assumption | apply State.zenInsert_keeps | apply State.actE_keeps | exact State.KeepsE.error
    | apply State.KeepsE.ok | exact State.wait_keeps _ _ | intro _ | dsimp only)

theorem execZenFlashWrite_keeps {dt : Nat} {h : ZHead} {slot : Byte} {erase : Byte} {offset : BitVec 32}
    {data : List Byte} {s : State} :
    State.KeepsR (s.elapse dt) (execZenFlashWrite dt h slot erase offset data s) := by
  unfold execZenFlashWrite
  with_reducible repeat' (first
    | assumption | apply State.zenFlash_keeps | apply State.actE_keeps | exact State.KeepsE.error
    | apply State.KeepsE.ok | exact State.wait_keeps _ _ | intro _ | dsimp only)

theorem execZenReload_keeps {dt : Nat} {h : ZHead} {mode : Byte} {s : State} :
    State.KeepsR (s.elapse dt) (execZenReload dt h mode s) := by
  unfold execZenReload
  with_reducible repeat' (first
    | assumption | apply State.zenReload_keeps | apply State.actE_keeps | exact State.KeepsE.error
    | apply State.KeepsE.ok | exact State.wait_keeps _ _ | intro _ | dsimp only)

theorem execSessionOpen_keeps {dt : Nat} {seq : BitVec 32} {req : OpenReq} {s : State} :
    State.KeepsR (s.elapse dt) (execSessionOpen dt seq req s) := by
  unfold execSessionOpen
  with_reducible repeat' (first
    | assumption | apply State.zenOpenReq_keeps | apply State.act_keeps | exact State.wait_keeps _ _ | intro _
    | dsimp only)

theorem execSessionClose_keeps {dt : Nat} {h : ZHead} {s : State} :
    State.KeepsR (s.elapse dt) (execSessionClose dt h s) := by
  unfold execSessionClose
  with_reducible repeat' (first
    | assumption | apply State.zenClose_keeps | apply State.actE_keeps | exact State.KeepsE.error
    | apply State.KeepsE.ok | exact State.wait_keeps _ _ | intro _ | dsimp only)

theorem execStreamOpen_keeps {dt : Nat} {h : ZHead} {req : StreamReq} {mac : Option (BitVec 48)} {s : State} :
    State.KeepsR (s.elapse dt) (execStreamOpen dt h req mac s) := by
  unfold execStreamOpen
  with_reducible repeat' (first
    | assumption | apply State.zenStream_keeps | apply State.actE_keeps | exact State.KeepsE.error
    | apply State.KeepsE.ok | exact State.wait_keeps _ _ | intro _ | dsimp only)

theorem execSessionTimeout_keeps {dt : Nat} {sid : BitVec 32} {s : State} :
    State.KeepsR (s.elapse dt) (execSessionTimeout dt sid s) := by
  unfold execSessionTimeout
  with_reducible repeat' (first
    | assumption | apply State.zenTimeout_keeps | apply State.act_keeps | exact State.wait_keeps _ _ | intro _
    | dsimp only)

theorem execStreamOpenNoroute_keeps {dt : Nat} {s : State} :
    State.KeepsR (s.elapse dt) (execStreamOpenNoroute dt s) := by
  unfold execStreamOpenNoroute
  with_reducible repeat' (first
    | assumption | apply State.streamNoRoute_keeps | apply State.act_keeps | exact State.wait_keeps _ _ | intro _
    | dsimp only)

theorem execFlashWriteComplete_keeps {dt : Nat} {found : Option (List Byte)} {s : State} :
    State.KeepsR (s.elapse dt) (execFlashWriteComplete dt found s) := by
  unfold execFlashWriteComplete
  with_reducible repeat' (first
    | assumption | apply State.flashDone_keeps | apply State.act_keeps | exact State.wait_keeps _ _ | intro _
    | dsimp only)

end Sys2Proof.Machine
end

