-- ==== Sys2Proof/Laws/KeepsDispatch.lean ====
section
/-! SUPPORT. What every command keeps beyond the passing of time. -/
namespace Sys2Proof.Machine

/-- A command keeps what `State.Keeps` says, beyond the passing of some time. -/
theorem exec_keeps (c : Instr) (s : State) : ∃ dt, State.KeepsR (s.elapse dt) (exec c s) := by
  cases c with
  | registerWrite => exact ⟨_, execRegisterWrite_keeps⟩
  | rcRead => exact ⟨_, execRcRead_keeps⟩
  | registerRead => exact ⟨_, execRegisterRead_keeps⟩
  | memoryWindowAccess => exact ⟨_, execMemoryWindowAccess_keeps⟩
  | runStart => exact ⟨_, execRunStart_keeps⟩
  | runStop => exact ⟨_, execRunStop_keeps⟩
  | cycleStart => exact ⟨_, execCycleStart_keeps⟩
  | upstreamDeadline => exact ⟨_, execUpstreamDeadline_keeps⟩
  | dutyDeadline => exact ⟨_, execDutyDeadline_keeps⟩
  | replayWindowEnd => exact ⟨_, execReplayWindowEnd_keeps⟩
  | downstreamFrameDepart => exact ⟨_, execDownstreamFrameDepart_keeps⟩
  | fuseProgram => exact ⟨_, execFuseProgram_keeps⟩
  | fuseProgramDone => exact ⟨_, execFuseProgramDone_keeps⟩
  | spindleEnable => exact ⟨_, execSpindleEnable_keeps⟩
  | spindleRescale => exact ⟨_, execSpindleRescale_keeps⟩
  | spindleLoad => exact ⟨_, execSpindleLoad_keeps⟩
  | spindleStandstill => exact ⟨_, execSpindleStandstill_keeps⟩
  | ledgerArm => exact ⟨_, execLedgerArm_keeps⟩
  | ledgerCancel => exact ⟨_, execLedgerCancel_keeps⟩
  | ledgerFire => exact ⟨_, execLedgerFire_keeps⟩
  | lclkLaneFire => exact ⟨_, execLclkLaneFire_keeps⟩
  | donePop => exact ⟨_, execDonePop_keeps⟩
  | markCapture => exact ⟨_, execMarkCapture_keeps⟩
  | markPop => exact ⟨_, execMarkPop_keeps⟩
  | toutForce => exact ⟨_, execToutForce_keeps⟩
  | chuckModeChange => exact ⟨_, execChuckModeChange_keeps⟩
  | chuckOffsetWrite => exact ⟨_, execChuckOffsetWrite_keeps⟩
  | quadCountChange => exact ⟨_, execQuadCountChange_keeps⟩
  | chuckIndex => exact ⟨_, execChuckIndex_keeps⟩
  | hallSectorChange => exact ⟨_, execHallSectorChange_keeps⟩
  | hallinv => exact ⟨_, execHallinv_keeps⟩
  | ssiRequest => exact ⟨_, execSsiRequest_keeps⟩
  | ssiFrameEnd => exact ⟨_, execSsiFrameEnd_keeps⟩
  | chuckFltClear => exact ⟨_, execChuckFltClear_keeps⟩
  | lclkSet => exact ⟨_, execLclkSet_keeps⟩
  | lclkStepWrite => exact ⟨_, execLclkStepWrite_keeps⟩
  | servoMeasurement => exact ⟨_, execServoMeasurement_keeps⟩
  | parentLoss => exact ⟨_, execParentLoss_keeps⟩
  | bmcaGrandmaster => exact ⟨_, execBmcaGrandmaster_keeps⟩
  | rafterFire => exact ⟨_, execRafterFire_keeps⟩
  | rafterDeferredLaunch => exact ⟨_, execRafterDeferredLaunch_keeps⟩
  | rafterBurstReceive => exact ⟨_, execRafterBurstReceive_keeps⟩
  | rafterAction => exact ⟨_, execRafterAction_keeps⟩
  | rafterMeas => exact ⟨_, execRafterMeas_keeps⟩
  | mrsp => exact ⟨_, execMrsp_keeps⟩
  | rafterMeasTimeout => exact ⟨_, execRafterMeasTimeout_keeps⟩
  | rafclkLoss => exact ⟨_, execRafclkLoss_keeps⟩
  | axNone => exact ⟨_, execAxNone_keeps⟩
  | axSync => exact ⟨_, execAxSync_keeps⟩
  | axMove => exact ⟨_, execAxMove_keeps⟩
  | axJog => exact ⟨_, execAxJog_keeps⟩
  | axExt => exact ⟨_, execAxExt_keeps⟩
  | axGear => exact ⟨_, execAxGear_keeps⟩
  | axCam => exact ⟨_, execAxCam_keeps⟩
  | axGroup => exact ⟨_, execAxGroup_keeps⟩
  | axStop => exact ⟨_, execAxStop_keeps⟩
  | axQstop => exact ⟨_, execAxQstop_keeps⟩
  | axDisengage => exact ⟨_, execAxDisengage_keeps⟩
  | axShift => exact ⟨_, execAxShift_keeps⟩
  | grpPush => exact ⟨_, execGrpPush_keeps⟩
  | grpStop => exact ⟨_, execGrpStop_keeps⟩
  | loopEnable => exact ⟨_, execLoopEnable_keeps⟩
  | loopDisable => exact ⟨_, execLoopDisable_keeps⟩
  | loopResetI => exact ⟨_, execLoopResetI_keeps⟩
  | loopClrPk => exact ⟨_, execLoopClrPk_keeps⟩
  | filterRawCommit => exact ⟨_, execFilterRawCommit_keeps⟩
  | axisFaultClear => exact ⟨_, execAxisFaultClear_keeps⟩
  | cmdDutyEdge => exact ⟨_, execCmdDutyEdge_keeps⟩
  | cmdFreqEdge => exact ⟨_, execCmdFreqEdge_keeps⟩
  | cmdLoss => exact ⟨_, execCmdLoss_keeps⟩
  | sillResult => exact ⟨_, execSillResult_keeps⟩
  | listenTimeout => exact ⟨_, execListenTimeout_keeps⟩
  | alignEnd => exact ⟨_, execAlignEnd_keeps⟩
  | brakeTimeout => exact ⟨_, execBrakeTimeout_keeps⟩
  | ifholdTimeout => exact ⟨_, execIfholdTimeout_keeps⟩
  | recatch => exact ⟨_, execRecatch_keeps⟩
  | iflow => exact ⟨_, execIflow_keeps⟩
  | recatchTimeout => exact ⟨_, execRecatchTimeout_keeps⟩
  | zvecTimeout => exact ⟨_, execZvecTimeout_keeps⟩
  | holdCurrent => exact ⟨_, execHoldCurrent_keeps⟩
  | stall => exact ⟨_, execStall_keeps⟩
  | blTrain => exact ⟨_, execBlTrain_keeps⟩
  | blDisable => exact ⟨_, execBlDisable_keeps⟩
  | blClrflt => exact ⟨_, execBlClrflt_keeps⟩
  | blAligned => exact ⟨_, execBlAligned_keeps⟩
  | ping => exact ⟨_, execPing_keeps⟩
  | pong => exact ⟨_, execPong_keeps⟩
  | blMeasureEnd => exact ⟨_, execBlMeasureEnd_keeps⟩
  | syncLaunch => exact ⟨_, execSyncLaunch_keeps⟩
  | upstreamFrame => exact ⟨_, execUpstreamFrame_keeps⟩
  | blCodeErrorBurst => exact ⟨_, execBlCodeErrorBurst_keeps⟩
  | creset => exact ⟨_, execCreset_keeps⟩
  | jlTrain => exact ⟨_, execJlTrain_keeps⟩
  | jlDisable => exact ⟨_, execJlDisable_keeps⟩
  | jlAligned => exact ⟨_, execJlAligned_keeps⟩
  | jlEnum => exact ⟨_, execJlEnum_keeps⟩
  | jlEnumTimeout => exact ⟨_, execJlEnumTimeout_keeps⟩
  | jlReq => exact ⟨_, execJlReq_keeps⟩
  | jlRsp => exact ⟨_, execJlRsp_keeps⟩
  | jlMeasureEnd => exact ⟨_, execJlMeasureEnd_keeps⟩
  | jlTmark => exact ⟨_, execJlTmark_keeps⟩
  | jlTimeIdle => exact ⟨_, execJlTimeIdle_keeps⟩
  | jlFrameDepart => exact ⟨_, execJlFrameDepart_keeps⟩
  | jlStat => exact ⟨_, execJlStat_keeps⟩
  | jlDl => exact ⟨_, execJlDl_keeps⟩
  | jlDlTimeout => exact ⟨_, execJlDlTimeout_keeps⟩
  | jlLoss => exact ⟨_, execJlLoss_keeps⟩
  | jlModlost => exact ⟨_, execJlModlost_keeps⟩
  | mnop => exact ⟨_, execMnop_keeps⟩
  | mpy => exact ⟨_, execMpy_keeps⟩
  | mac => exact ⟨_, execMac_keeps⟩
  | msu => exact ⟨_, execMsu_keeps⟩
  | mpy2 => exact ⟨_, execMpy2_keeps⟩
  | mac2 => exact ⟨_, execMac2_keeps⟩
  | add => exact ⟨_, execAdd_keeps⟩
  | sub => exact ⟨_, execSub_keeps⟩
  | adc => exact ⟨_, execAdc_keeps⟩
  | sbc => exact ⟨_, execSbc_keeps⟩
  | addd => exact ⟨_, execAddd_keeps⟩
  | subd => exact ⟨_, execSubd_keeps⟩
  | neg => exact ⟨_, execNeg_keeps⟩
  | abs => exact ⟨_, execAbs_keeps⟩
  | mova => exact ⟨_, execMova_keeps⟩
  | clr => exact ⟨_, execClr_keeps⟩
  | asl => exact ⟨_, execAsl_keeps⟩
  | asr => exact ⟨_, execAsr_keeps⟩
  | lsr => exact ⟨_, execLsr_keeps⟩
  | shv => exact ⟨_, execShv_keeps⟩
  | rnd => exact ⟨_, execRnd_keeps⟩
  | max => exact ⟨_, execMax_keeps⟩
  | min => exact ⟨_, execMin_keeps⟩
  | cmp => exact ⟨_, execCmp_keeps⟩
  | dtoa => exact ⟨_, execDtoa_keeps⟩
  | div => exact ⟨_, execDiv_keeps⟩
  | movd => exact ⟨_, execMovd_keeps⟩
  | cls => exact ⟨_, execCls_keeps⟩
  | dadd => exact ⟨_, execDadd_keeps⟩
  | dsub => exact ⟨_, execDsub_keeps⟩
  | daddi => exact ⟨_, execDaddi_keeps⟩
  | dand => exact ⟨_, execDand_keeps⟩
  | dor => exact ⟨_, execDor_keeps⟩
  | dxor => exact ⟨_, execDxor_keeps⟩
  | dshl => exact ⟨_, execDshl_keeps⟩
  | dshr => exact ⟨_, execDshr_keeps⟩
  | dlsr => exact ⟨_, execDlsr_keeps⟩
  | lnop => exact ⟨_, execLnop_keeps⟩
  | ld => exact ⟨_, execLd_keeps⟩
  | ldh => exact ⟨_, execLdh_keeps⟩
  | st => exact ⟨_, execSt_keeps⟩
  | sth => exact ⟨_, execSth_keeps⟩
  | sta => exact ⟨_, execSta_keeps⟩
  | xadd => exact ⟨_, execXadd_keeps⟩
  | xswp => exact ⟨_, execXswp_keeps⟩
  | par => exact ⟨_, execPar_keeps⟩
  | ldi => exact ⟨_, execLdi_keeps⟩
  | ldih => exact ⟨_, execLdih_keeps⟩
  | movc => exact ⟨_, execMovc_keeps⟩
  | padd => exact ⟨_, execPadd_keeps⟩
  | clrf => exact ⟨_, execClrf_keeps⟩
  | tfault => exact ⟨_, execTfault_keeps⟩
  | duty => exact ⟨_, execDuty_keeps⟩
  | bra => exact ⟨_, execBra_keeps⟩
  | call => exact ⟨_, execCall_keeps⟩
  | ret => exact ⟨_, execRet_keeps⟩
  | rete => exact ⟨_, execRete_keeps⟩
  | hwLoop => exact ⟨_, execLoop_keeps⟩
  | endTask => exact ⟨_, execEnd_keeps⟩
  | fence => exact ⟨_, execFence_keeps⟩
  | pantryLoadArrival => exact ⟨_, execPantryLoadArrival_keeps⟩
  | pantryStoreComplete => exact ⟨_, execPantryStoreComplete_keeps⟩
  | slotTaskStart => exact ⟨_, execSlotTaskStart_keeps⟩
  | eventTaskStart => exact ⟨_, execEventTaskStart_keeps⟩
  | gougeForce => exact ⟨_, execGougeForce_keeps⟩
  | coreFault => exact ⟨_, execCoreFault_keeps⟩
  | marchSlice => exact ⟨_, execMarchSlice_keeps⟩
  | marchBackoffEnd => exact ⟨_, execMarchBackoffEnd_keeps⟩
  | marchPassStart => exact ⟨_, execMarchPassStart_keeps⟩
  | celArm => exact ⟨_, execCelArm_keeps⟩
  | celStop => exact ⟨_, execCelStop_keeps⟩
  | celForce => exact ⟨_, execCelForce_keeps⟩
  | celSample => exact ⟨_, execCelSample_keeps⟩
  | autoTrigger => exact ⟨_, execAutoTrigger_keeps⟩
  | datagram => exact ⟨_, execDatagram_keeps⟩
  | thrInputSample => exact ⟨_, execThrInputSample_keeps⟩
  | thrTick => exact ⟨_, execThrTick_keeps⟩
  | thrRstreq => exact ⟨_, execThrRstreq_keeps⟩
  | thrDemand => exact ⟨_, execThrDemand_keeps⟩
  | darkTest => exact ⟨_, execDarkTest_keeps⟩
  | darkTestLowSide => exact ⟨_, execDarkTestLowSide_keeps⟩
  | darkTestEnd => exact ⟨_, execDarkTestEnd_keeps⟩
  | graceExpiry => exact ⟨_, execGraceExpiry_keeps⟩
  | crossLinkMessage => exact ⟨_, execCrossLinkMessage_keeps⟩
  | crossLinkTimeout => exact ⟨_, execCrossLinkTimeout_keeps⟩
  | thrStartupTest => exact ⟨_, execThrStartupTest_keeps⟩
  | channelSupplyFail => exact ⟨_, execChannelSupplyFail_keeps⟩
  | f3reset => exact ⟨_, execF3reset_keeps⟩
  | clockFault => exact ⟨_, execClockFault_keeps⟩
  | atticCommit => exact ⟨_, execAtticCommit_keeps⟩
  | atticScanDone => exact ⟨_, execAtticScanDone_keeps⟩
  | atticUser => exact ⟨_, execAtticUser_keeps⟩
  | atticClear => exact ⟨_, execAtticClear_keeps⟩
  | portCfgWrite => exact ⟨_, execPortCfgWrite_keeps⟩
  | linkChange => exact ⟨_, execLinkChange_keeps⟩
  | mdioAddress => exact ⟨_, execMdioAddress_keeps⟩
  | mdioWrite => exact ⟨_, execMdioWrite_keeps⟩
  | mdioRead => exact ⟨_, execMdioRead_keeps⟩
  | mdioFrameEnd => exact ⟨_, execMdioFrameEnd_keeps⟩
  | hwFrameReceive => exact ⟨_, execHwFrameReceive_keeps⟩
  | hwFrameTransmit => exact ⟨_, execHwFrameTransmit_keeps⟩
  | macAgeing => exact ⟨_, execMacAgeing_keeps⟩
  | qbvCommit => exact ⟨_, execQbvCommit_keeps⟩
  | qbvListStart => exact ⟨_, execQbvListStart_keeps⟩
  | qbvEntry => exact ⟨_, execQbvEntry_keeps⟩
  | joistDepart => exact ⟨_, execJoistDepart_keeps⟩
  | joistTimeout => exact ⟨_, execJoistTimeout_keeps⟩
  | zenRead => exact ⟨_, execZenRead_keeps⟩
  | zenWrite => exact ⟨_, execZenWrite_keeps⟩
  | zenBlockRead => exact ⟨_, execZenBlockRead_keeps⟩
  | zenBlockWrite => exact ⟨_, execZenBlockWrite_keeps⟩
  | zenLedgerInsert => exact ⟨_, execZenLedgerInsert_keeps⟩
  | zenFlashWrite => exact ⟨_, execZenFlashWrite_keeps⟩
  | zenReload => exact ⟨_, execZenReload_keeps⟩
  | sessionOpen => exact ⟨_, execSessionOpen_keeps⟩
  | sessionClose => exact ⟨_, execSessionClose_keeps⟩
  | streamOpen => exact ⟨_, execStreamOpen_keeps⟩
  | sessionTimeout => exact ⟨_, execSessionTimeout_keeps⟩
  | streamOpenNoroute => exact ⟨_, execStreamOpenNoroute_keeps⟩
  | flashWriteComplete => exact ⟨_, execFlashWriteComplete_keeps⟩
  | canInit => exact ⟨_, execCanInit_keeps⟩
  | canInitRelease => exact ⟨_, execCanInitRelease_keeps⟩
  | canBorcv => exact ⟨_, execCanBorcv_keeps⟩
  | canRom => exact ⟨_, execCanRom_keeps⟩
  | canMon => exact ⟨_, execCanMon_keeps⟩
  | canSleep => exact ⟨_, execCanSleep_keeps⟩
  | canTxreq => exact ⟨_, execCanTxreq_keeps⟩
  | canTxcancel => exact ⟨_, execCanTxcancel_keeps⟩
  | canNewdatClear => exact ⟨_, execCanNewdatClear_keeps⟩
  | canIntegrated => exact ⟨_, execCanIntegrated_keeps⟩
  | canRecovered => exact ⟨_, execCanRecovered_keeps⟩
  | canFrameReceive => exact ⟨_, execCanFrameReceive_keeps⟩
  | canTransmitStart => exact ⟨_, execCanTransmitStart_keeps⟩
  | canTransmitEnd => exact ⟨_, execCanTransmitEnd_keeps⟩
  | canError => exact ⟨_, execCanError_keeps⟩
  | protocolException => exact ⟨_, execProtocolException_keeps⟩
  | canWake => exact ⟨_, execCanWake_keeps⟩
  | powerOnReset => exact ⟨_, execPowerOnReset_keeps⟩
  | resetN => exact ⟨_, execResetN_keeps⟩
  | watchdog => exact ⟨_, execWatchdog_keeps⟩
  | zensorSoftReset => exact ⟨_, execZensorSoftReset_keeps⟩
  | warmReload => exact ⟨_, execWarmReload_keeps⟩
  | pwrResetSoft => exact ⟨_, execPwrResetSoft_keeps⟩
  | pwrResetWarm => exact ⟨_, execPwrResetWarm_keeps⟩
  | loadPass1End => exact ⟨_, execLoadPass1End_keeps⟩
  | regsPoll => exact ⟨_, execRegsPoll_keeps⟩
  | regsPollTimeout => exact ⟨_, execRegsPollTimeout_keeps⟩
  | regsDelay => exact ⟨_, execRegsDelay_keeps⟩
  | sleepRequest => exact ⟨_, execSleepRequest_keeps⟩
  | sleepEntry => exact ⟨_, execSleepEntry_keeps⟩
  | wakeN => exact ⟨_, execWakeN_keeps⟩
  | wakeTimer => exact ⟨_, execWakeTimer_keeps⟩
  | wdtStart => exact ⟨_, execWdtStart_keeps⟩
  | wdtKick => exact ⟨_, execWdtKick_keeps⟩
  | supplyBelowFallingThreshold => exact ⟨_, execSupplyBelowFallingThreshold_keeps⟩

end Sys2Proof.Machine
end

