-- ==== Sys2Proof/Laws/LineCode.lean ====
section
/-! SUPPORT. The line code inverts: the symbols read from the groups a transmitter sends are the symbols sent (R301, R353). -/
set_option Elab.async false
namespace Sys2Proof.Machine

/-- A symbol of the code: a byte, or a K symbol of the table. -/
def Sym.inCode : Sym → Bool
  | .d b => decide (b < 256)
  | .k b => kTable.any (fun e => e.1 == b)

theorem decodeGroup_data : [false, true].all (fun rd => (List.range 256).all (fun b =>
    decide (encodeSym rd (.d b) < 1024) && decodeGroup rd (encodeSym rd (.d b)) == some (.d b))) = true := by decide +kernel

theorem decodeGroup_control : [false, true].all (fun rd => kTable.all (fun e =>
    decide (encodeSym rd (.k e.1) < 1024) && decodeGroup rd (encodeSym rd (.k e.1)) == some (.k e.1))) = true := by decide +kernel

/-- Each code group of a symbol decodes to it at the disparity it was formed at. -/
theorem decodeGroup_encodeSym (rd : Bool) (x : Sym) (h : x.inCode = true) :
    encodeSym rd x < 1024 ∧ decodeGroup rd (encodeSym rd x) = some x := by
  have hr : rd ∈ [false, true] := by cases rd <;> simp
  cases x with
  | d b =>
    have := List.all_eq_true.1 (List.all_eq_true.1 decodeGroup_data rd hr) b (List.mem_range.2 (of_decide_eq_true h))
    simpa using this
  | k b =>
    obtain ⟨e, he, hb⟩ := List.any_eq_true.1 h
    have := List.all_eq_true.1 (List.all_eq_true.1 decodeGroup_control rd hr) e he
    simp only [beq_iff_eq] at hb
    subst hb
    simpa using this

theorem lineSymbols_lineGroups (rd : Bool) (l : List Sym) (h : ∀ x ∈ l, x.inCode = true) :
    lineSymbols rd (lineGroups rd l) = l.map some := by
  induction l generalizing rd with
  | nil => rfl
  | cons x r ih =>
    obtain ⟨hlt, hd⟩ := decodeGroup_encodeSym rd x (h x (List.mem_cons_self ..))
    simp only [lineGroups, lineSymbols, BitVec.toNat_ofNat, Nat.mod_eq_of_lt hlt, hd, List.map_cons,
      ih _ (fun y hy => h y (List.mem_cons_of_mem _ hy))]

theorem takeSyms_bytes (sets ins bs : List Nat) (h : sets.contains kEof = true) :
    takeSyms sets ins false ((bs.map Sym.d ++ [Sym.k kEof]).map some) = { bytes := bs, whole := true } := by
  induction bs with
  | nil =>
    have hk : isCodeError sets (some (Sym.k kEof)) = false := by simp [isCodeError, List.contains_iff_mem.1 h]
    simp [takeSyms, hk]
  | cons b r ih =>
    simp only [List.map_cons, List.cons_append, takeSyms, isCodeError, ih]
    simp

/-- A frame sent whole is taken whole, with its bytes and no code error. -/
theorem takeFrame_frameSyms (sets ins bs : List Nat) (rd : Bool) (he : sets.contains kEof = true) (hb : ∀ b ∈ bs, b < 256) :
    takeFrame sets ins (lineGroups rd (frameSyms bs)) rd = { bytes := bs, begun := true, whole := true } := by
  have hc : ∀ x ∈ frameSyms bs, x.inCode = true := by
    intro x hx
    simp only [frameSyms, List.cons_append, List.mem_cons, List.mem_append, List.mem_map, List.not_mem_nil, or_false] at hx
    rcases hx with rfl | ⟨b, hm, rfl⟩ | rfl
    · decide
    · simpa [Sym.inCode] using hb b hm
    · decide
  unfold takeFrame
  rw [lineSymbols_lineGroups rd _ hc]
  simp only [frameSyms, List.cons_append, List.map_cons, if_pos, takeSyms_bytes sets ins bs he]

end Sys2Proof.Machine
end

