-- ==== Sys2Proof/Laws/Rows.lean ====
section
/-! SUPPORT. The register table's rows at the addresses that the commands write. -/
set_option Elab.async false
namespace Sys2Proof.Machine

theorem row_CYC_CTRL_RUN : regAt (F.CYC_CTRL_RUN.addr 0 0) = some
    ⟨0x0, 0x0, 1, 0, 1, [⟨1, 1, .rw, .p, false, 0x0⟩, ⟨0, 0, .rw, .p, false, 0x0⟩]⟩ := by
  decide +kernel

theorem row_DEV_FUSE_PGM_GO : regAt (F.DEV_FUSE_PGM_GO.addr 0 0) = some
    ⟨0x40, 0x0, 1, 0, 1, [⟨31, 16, .wo, .p, false, 0x0⟩,
      ⟨7, 2, .rw, .p, true, 0x0⟩,
      ⟨1, 1, .wo, .p, true, 0x0⟩,
      ⟨0, 0, .ro, .p, true, 0x0⟩]⟩ := by
  decide +kernel

theorem row_SP_CTRL_EN (n : Fin 16) : regAt (F.SP_CTRL_EN.addr n 0) = some
    ⟨0x0, 0x0, 1, 0, 1, [⟨13, 8, .rw, .p, false, 0x0⟩, ⟨3, 1, .rw, .p, false, 0x0⟩, ⟨0, 0, .rw, .p, false, 0x0⟩]⟩ := by
  revert n; decide +kernel

theorem row_SP_SCALE (n : Fin 16) : regAt (F.SP_SCALE.addr n 0 + 4) = some
    ⟨0xc, 0x0, 1, 1, 2, [⟨31, 0, .rw, .p, false, 0x1⟩]⟩ := by
  revert n; decide +kernel

theorem row_SP_LOAD (n : Fin 16) : regAt (F.SP_LOAD.addr n 0 + 4) = some
    ⟨0x14, 0x0, 1, 1, 2, [⟨31, 0, .wo, .p, false, 0x0⟩]⟩ := by
  revert n; decide +kernel

theorem row_LED_ARM_SLOT : regAt (F.LED_ARM_SLOT.addr 0 0) = some
    ⟨0x4, 0x0, 1, 0, 1, [⟨20, 16, .wo, .p, false, 0x0⟩, ⟨14, 0, .wo, .p, false, 0x0⟩]⟩ := by
  decide +kernel

theorem row_LED_CANCEL_SLOT : regAt (F.LED_CANCEL_SLOT.addr 0 0) = some
    ⟨0x8, 0x0, 1, 0, 1, [⟨14, 0, .wo, .p, false, 0x0⟩]⟩ := by
  decide +kernel

theorem row_LED_DONE_POP : regAt (F.LED_DONE_POP.addr 0 0) = some
    ⟨0x24, 0x0, 1, 0, 1, [⟨0, 0, .wo, .p, false, 0x0⟩]⟩ := by
  decide +kernel

theorem row_MT_MARK_POP (n : Fin 16) : regAt (F.MT_MARK_POP.addr 0 n) = some
    ⟨0xc, 0x10, 16, 0, 1, [⟨0, 0, .wo, .p, false, 0x0⟩]⟩ := by
  revert n; decide +kernel

theorem row_MT_TOUT_FORCE_OP (n : Fin 16) : regAt (F.MT_TOUT_FORCE_OP.addr 0 n) = some
    ⟨0x108, 0x10, 16, 0, 1, [⟨1, 0, .wo, .p, false, 0x0⟩]⟩ := by
  revert n; decide +kernel

theorem row_CHUCK_CFG_MODE (n : Fin 32) : regAt (F.CHUCK_CFG_MODE.addr n 0) = some
    ⟨0x0, 0x0, 1, 0, 1, [⟨31, 24, .rw, .w, false, 0x4⟩,
      ⟨23, 20, .rw, .w, false, 0x3⟩,
      ⟨19, 18, .rw, .w, false, 0x0⟩,
      ⟨17, 17, .rw, .w, false, 0x0⟩,
      ⟨16, 15, .rw, .w, false, 0x0⟩,
      ⟨11, 8, .rw, .w, false, 0x0⟩,
      ⟨4, 4, .rw, .w, false, 0x0⟩,
      ⟨1, 0, .rw, .w, false, 0x0⟩]⟩ := by
  revert n; decide +kernel

theorem row_CHUCK_OFFSET (n : Fin 32) : regAt (F.CHUCK_OFFSET.addr n 0) = some
    ⟨0x44, 0x0, 1, 0, 1, [⟨31, 0, .rw, .w, false, 0x0⟩]⟩ := by
  revert n; decide +kernel

theorem row_CHUCK_FLT_ACTIVE (n : Fin 32) : regAt (F.CHUCK_FLT_ACTIVE.addr n 0) = some
    ⟨0x70, 0x0, 1, 0, 1, [⟨4, 4, .w1c, .w, false, 0x0⟩,
      ⟨3, 3, .w1c, .w, false, 0x0⟩,
      ⟨2, 2, .w1c, .w, false, 0x0⟩,
      ⟨1, 1, .w1c, .w, false, 0x0⟩,
      ⟨0, 0, .ro, .w, false, 0x0⟩]⟩ := by
  revert n; decide +kernel

theorem row_HEARTH_SET : regAt (F.HEARTH_SET.addr 0 0 + 8) = some
    ⟨0x2c, 0x0, 1, 2, 3, [⟨15, 0, .wo, .p, false, 0x0⟩]⟩ := by
  decide +kernel

theorem row_HEARTH_STEP : regAt (F.HEARTH_STEP.addr 0 0 + 4) = some
    ⟨0x34, 0x0, 1, 1, 2, [⟨31, 0, .wo, .p, false, 0x0⟩]⟩ := by
  decide +kernel

theorem row_RAFTER_FIRE_LINES : regAt (F.RAFTER_FIRE_LINES.addr 0 0) = some
    ⟨0x20, 0x0, 1, 0, 1, [⟨3, 0, .wo, .p, false, 0x0⟩]⟩ := by
  decide +kernel

theorem row_RAFTER_MEAS_GO : regAt (F.RAFTER_MEAS_GO.addr 0 0) = some
    ⟨0x50, 0x0, 1, 0, 1, [⟨6, 6, .wo, .p, false, 0x0⟩,
      ⟨5, 5, .rw, .p, false, 0x0⟩,
      ⟨4, 2, .rw, .p, false, 0x0⟩,
      ⟨1, 0, .rw, .p, false, 0x0⟩]⟩ := by
  decide +kernel

theorem row_AX_CMD_OP (n : Fin 64) : regAt (F.AX_CMD_OP.addr n 0) = some
    ⟨0x4, 0x0, 1, 0, 1, [⟨3, 0, .wo, .p, false, 0x0⟩]⟩ := by
  revert n; decide +kernel

theorem row_AX_SHIFT (n : Fin 64) : regAt (F.AX_SHIFT.addr n 0 + 4) = some
    ⟨0x184, 0x0, 1, 1, 2, [⟨31, 0, .wo, .p, false, 0x0⟩]⟩ := by
  revert n; decide +kernel

theorem row_AX_GRP_PUSH (n : Fin 64) : regAt (F.AX_GRP_PUSH.addr n 0) = some
    ⟨0x880, 0x0, 1, 0, 1, [⟨0, 0, .wo, .p, false, 0x0⟩]⟩ := by
  revert n; decide +kernel

theorem row_AX_GRP_CTRL_STOP (n : Fin 64) : regAt (F.AX_GRP_CTRL_STOP.addr n 0) = some
    ⟨0x800, 0x0, 1, 0, 1, [⟨0, 0, .wo, .p, false, 0x0⟩]⟩ := by
  revert n; decide +kernel

theorem row_AX_LOOP_CTRL_EN (n : Fin 64) : regAt (F.AX_LOOP_CTRL_EN.addr n 0) = some
    ⟨0x204, 0x0, 1, 0, 1, [⟨2, 2, .wo, .p, false, 0x0⟩, ⟨1, 1, .wo, .p, false, 0x0⟩, ⟨0, 0, .rw, .p, false, 0x0⟩]⟩ := by
  revert n; decide +kernel

theorem row_AX_FILT_A2 (n : Fin 64) (j : Fin 3) : regAt (F.AX_FILT_A2.addr n j) = some
    ⟨0x318, 0x20, 3, 0, 1, [⟨31, 0, .rw, .p, false, 0x0⟩]⟩ := by
  revert n j; decide +kernel

theorem row_AX_FAULT_CAUSE (n : Fin 64) : regAt (F.AX_FAULT_CAUSE.addr n 0) = some
    ⟨0x380, 0x0, 1, 0, 1, [⟨31, 31, .ro, .p, false, 0x0⟩,
      ⟨26, 24, .ro, .p, false, 0x0⟩,
      ⟨7, 0, .w1c, .p, false, 0x0⟩]⟩ := by
  revert n; decide +kernel

theorem row_BL_CTRL_EN (n : Fin 16) : regAt (F.BL_CTRL_EN.addr n 0) = some
    ⟨0x0, 0x0, 1, 0, 1, [⟨3, 3, .wo, .p, false, 0x0⟩,
      ⟨2, 2, .rw, .p, false, 0x1⟩,
      ⟨1, 1, .wo, .p, false, 0x0⟩,
      ⟨0, 0, .rw, .p, false, 0x0⟩]⟩ := by
  revert n; decide +kernel

theorem row_BAR_CRESET (n : Fin 16) : regAt (F.BAR_CRESET.addr n 0) = some
    ⟨0xa0, 0x0, 1, 0, 1, [⟨0, 0, .wo, .p, false, 0x0⟩]⟩ := by
  revert n; decide +kernel

theorem row_JL_CTRL_EN (n : Fin 8) : regAt (F.JL_CTRL_EN.addr n 0) = some
    ⟨0x0, 0x0, 1, 0, 1, [⟨2, 2, .rw, .p, false, 0x1⟩, ⟨1, 1, .wo, .p, false, 0x0⟩, ⟨0, 0, .rw, .p, false, 0x0⟩]⟩ := by
  revert n; decide +kernel

theorem row_JL_DL_GO (n : Fin 8) : regAt (F.JL_DL_GO.addr n 0) = some
    ⟨0xc, 0x0, 1, 0, 1, [⟨4, 4, .wo, .p, false, 0x0⟩, ⟨3, 0, .rw, .p, false, 0x0⟩]⟩ := by
  revert n; decide +kernel

theorem row_GOUGE_CTRL_EN (n : Fin 10) : regAt (F.GOUGE_CTRL_EN.addr n 0) = some
    ⟨0x0, 0x0, 1, 0, 1, [⟨15, 8, .rw, .p, false, 0x10⟩, ⟨1, 1, .wo, .p, false, 0x0⟩, ⟨0, 0, .rw, .p, false, 0x0⟩]⟩ := by
  revert n; decide +kernel

theorem row_CEL_CTRL_ARM : regAt (F.CEL_CTRL_ARM.addr 0 0) = some
    ⟨0x4, 0x0, 1, 0, 1, [⟨2, 2, .wo, .p, false, 0x0⟩, ⟨1, 1, .wo, .p, false, 0x0⟩, ⟨0, 0, .wo, .p, false, 0x0⟩]⟩ := by
  decide +kernel

theorem row_THRQ_THR_RSTREQ_KEY : regAt (F.THRQ_THR_RSTREQ_KEY.addr 0 0) = some
    ⟨0x4, 0x0, 1, 0, 1, [⟨31, 16, .wo, .p, true, 0x0⟩, ⟨3, 0, .wo, .p, true, 0x0⟩]⟩ := by
  decide +kernel

theorem row_THRQ_THR_DEMAND : regAt (F.THRQ_THR_DEMAND.addr 0 0) = some
    ⟨0x0, 0x0, 1, 0, 1, [⟨3, 0, .rw, .p, true, 0x0⟩]⟩ := by
  decide +kernel

theorem row_FLT_ATTIC_UWRITE_INST : regAt (F.FLT_ATTIC_UWRITE_INST.addr 0 0) = some
    ⟨0x58, 0x0, 1, 0, 1, [⟨31, 24, .wo, .p, true, 0x0⟩, ⟨15, 0, .wo, .p, true, 0x0⟩]⟩ := by
  decide +kernel

theorem row_FLT_ATTIC_CLEAR_KEY : regAt (F.FLT_ATTIC_CLEAR_KEY.addr 0 0) = some
    ⟨0x38, 0x0, 1, 0, 1, [⟨31, 16, .wo, .p, true, 0x0⟩, ⟨0, 0, .wo, .p, true, 0x0⟩]⟩ := by
  decide +kernel

theorem row_HW_PORT_CFG_MODE (n : Fin 4) : regAt (F.HW_PORT_CFG_MODE.addr 0 n) = some
    ⟨0x0, 0x80, 4, 0, 1, [⟨27, 16, .rw, .p, false, 0x1⟩,
      ⟨10, 8, .rw, .p, false, 0x0⟩,
      ⟨3, 3, .rw, .p, false, 0x1⟩,
      ⟨2, 0, .rw, .p, false, 0x0⟩]⟩ := by
  revert n; decide +kernel

theorem row_HW_MDIO_CMD_GO : regAt (F.HW_MDIO_CMD_GO.addr 0 0) = some
    ⟨0x424, 0x0, 1, 0, 1, [⟨31, 31, .wo, .p, false, 0x0⟩,
      ⟨30, 30, .ro, .p, false, 0x0⟩,
      ⟨29, 29, .rw, .p, false, 0x0⟩,
      ⟨28, 27, .rw, .p, false, 0x0⟩,
      ⟨26, 22, .rw, .p, false, 0x0⟩,
      ⟨21, 17, .rw, .p, false, 0x0⟩,
      ⟨15, 0, .rw, .p, false, 0x0⟩]⟩ := by
  decide +kernel

theorem row_HW_QBV_CTRL_EN (n : Fin 4) : regAt (F.HW_QBV_CTRL_EN.addr 0 n) = some
    ⟨0x20, 0x80, 4, 0, 1, [⟨2, 2, .ro, .p, false, 0x0⟩, ⟨1, 1, .wo, .p, false, 0x0⟩, ⟨0, 0, .rw, .p, false, 0x0⟩]⟩ := by
  revert n; decide +kernel

theorem row_CAN_CTRL_INIT (n : Fin 2) : regAt (F.CAN_CTRL_INIT.addr n 0) = some
    ⟨0x0, 0x0, 1, 0, 1, [⟨5, 5, .wo, .p, false, 0x0⟩,
      ⟨4, 4, .rw, .p, false, 0x0⟩,
      ⟨3, 3, .rw, .p, false, 0x0⟩,
      ⟨2, 2, .rw, .p, false, 0x0⟩,
      ⟨0, 0, .rw, .p, false, 0x1⟩]⟩ := by
  revert n; decide +kernel

theorem row_CAN_TXREQ_LO (n : Fin 2) : regAt (F.CAN_TXREQ_LO.addr n 0) = some
    ⟨0x40, 0x0, 1, 0, 1, [⟨31, 0, .w1s, .p, false, 0x0⟩]⟩ := by
  revert n; decide +kernel

theorem row_CAN_TXREQ_LO_4 (n : Fin 2) : regAt (F.CAN_TXREQ_LO.addr n 0 + 4) = some
    ⟨0x44, 0x0, 1, 0, 1, [⟨31, 0, .w1s, .p, false, 0x0⟩]⟩ := by
  revert n; decide +kernel

theorem row_CAN_TXCANCEL_LO (n : Fin 2) : regAt (F.CAN_TXCANCEL_LO.addr n 0) = some
    ⟨0x48, 0x0, 1, 0, 1, [⟨31, 0, .wo, .p, false, 0x0⟩]⟩ := by
  revert n; decide +kernel

theorem row_CAN_TXCANCEL_LO_4 (n : Fin 2) : regAt (F.CAN_TXCANCEL_LO.addr n 0 + 4) = some
    ⟨0x4c, 0x0, 1, 0, 1, [⟨31, 0, .wo, .p, false, 0x0⟩]⟩ := by
  revert n; decide +kernel

theorem row_CAN_NEWDAT_LO (n : Fin 2) : regAt (F.CAN_NEWDAT_LO.addr n 0) = some
    ⟨0x60, 0x0, 1, 0, 1, [⟨31, 0, .w1c, .p, false, 0x0⟩]⟩ := by
  revert n; decide +kernel

theorem row_CAN_NEWDAT_LO_4 (n : Fin 2) : regAt (F.CAN_NEWDAT_LO.addr n 0 + 4) = some
    ⟨0x64, 0x0, 1, 0, 1, [⟨31, 0, .w1c, .p, false, 0x0⟩]⟩ := by
  revert n; decide +kernel

theorem row_PWR_RESET_KEY : regAt (F.PWR_RESET_KEY.addr 0 0) = some
    ⟨0x0, 0x0, 1, 0, 1, [⟨31, 16, .wo, .p, true, 0x0⟩, ⟨1, 0, .wo, .p, true, 0x0⟩]⟩ := by
  decide +kernel

theorem row_PWR_SLEEP_KEY : regAt (F.PWR_SLEEP_KEY.addr 0 0) = some
    ⟨0x20, 0x0, 1, 0, 1, [⟨31, 16, .wo, .p, true, 0x0⟩, ⟨0, 0, .wo, .p, true, 0x0⟩]⟩ := by
  decide +kernel

theorem row_PWR_WDT_CTRL_EN : regAt (F.PWR_WDT_CTRL_EN.addr 0 0) = some
    ⟨0x40, 0x0, 1, 0, 1, [⟨31, 16, .rw, .p, true, 0x3E8⟩, ⟨0, 0, .w1s, .p, true, 0x0⟩]⟩ := by
  decide +kernel

theorem row_PWR_WDT_KICK_KEY : regAt (F.PWR_WDT_KICK_KEY.addr 0 0) = some
    ⟨0x44, 0x0, 1, 0, 1, [⟨15, 0, .wo, .p, true, 0x0⟩]⟩ := by
  decide +kernel

end Sys2Proof.Machine
end

