-- ==== Sys2Proof/WellFormed.lean ====
section
/-! DEFINITION. Well-formed commands: operands within the ranges that the spec gives them, where their types do not say so.
The meanings do not depend on it. -/
namespace Sys2Proof

/-- A command goes to the register space (R47). -/
def inSpace (a : BitVec 32) : Bool := decide (a.toNat < 0x0400_0000)

/-- The register at an address has a read-to-clear field (R7). -/
def hasRc (a : BitVec 32) : Bool :=
  match Machine.regAt (a.toNat / 4 * 4) with
  | none => false
  | some r => r.fields.any (fun f => f.ty == .rc)

/-- A CAN frame: at most 64 data bytes, and a base identifier in [28:18] (R559). -/
def CanFrame.wf (f : CanFrame) : Bool :=
  decide (f.data.length ≤ 64) && (f.ide || f.id.toNat % 2 ^ 18 == 0)

def CanSeen.wf : CanSeen → Bool
  | .dominant _ => true
  | .frame _ _ f => f.wf

/-- The payload of a Zensor request fits its datagram: 1,472 bytes with a header of 16 and a tag of 16 where there is one
(R545). -/
def ZHead.fits (h : ZHead) (payload : Nat) : Bool := decide (payload + 16 + (if h.tag.isSome then 16 else 0) ≤ 1472)

def WellFormed (i : Instr) : Bool :=
  match i with
  | .registerWrite _ _ _ a _ => inSpace a
  | .registerRead _ _ _ a => inSpace a
  | .rcRead _ _ _ a => inSpace a && hasRc a
  | .memoryWindowAccess _ _ _ _ a _ => !inSpace a
  | .zenBlockWrite _ h _ _ data => h.fits (8 + 4 * data.length)
  | .zenFlashWrite _ h _ _ _ data => h.fits (8 + data.length)
  | .streamOpen _ h q _ => h.fits 24 && decide (q.addr.length = 16)
  | .canFrameReceive _ _ f _ => f.wf
  | .canWake _ _ x _ => x.wf
  | _ => true

end Sys2Proof
end

