-- ==== Sys2Proof/Tests/Slice0.lean ====
section
/-! SUPPORT. The model's own tests, each of one command on a small state, and for each statement with hypotheses a state
and operands that meet them. -/
namespace Sys2Proof.Tests
open Sys2Proof Sys2Proof.Machine
set_option maxRecDepth 4000
set_option Elab.async false

/-- The command answers a next state of which `p` holds. -/
def after (c : Instr) (s : State) (p : State → Bool) : Bool :=
  match exec c s with
  | .next t => p t
  | _ => false

/-- The refusal that the command answers. -/
def refusal (c : Instr) (s : State) : Option Refusal :=
  match exec c s with
  | .refused r => some r
  | _ => none

/-! ## Operands outside their ranges are ill-formed -/

theorem test_wf_register_write : WellFormed (.registerWrite 0 .mgmt .b32 0x30400 1) = true ∧
    WellFormed (.registerWrite 0 .mgmt .b32 0x0400_0000 1) = false := by decide +kernel
theorem test_wf_register_read : WellFormed (.registerRead 0 .mgmt .b32 0x0600_0000) = false := by decide +kernel
theorem test_wf_rc_read : WellFormed (.rcRead 0 .mgmt .b32 0x30418) = true ∧
    WellFormed (.rcRead 0 .mgmt .b32 0x30400) = false ∧ WellFormed (.rcRead 0 .mgmt .b32 0x30F00) = false := by decide +kernel
theorem test_wf_window : WellFormed (.memoryWindowAccess 0 .mgmt .b32 true 0x30400 1) = false := by decide +kernel
theorem test_wf_can_frame :
    WellFormed (.canFrameReceive 0 0 ⟨false, false, false, false, false, 1, 0, []⟩ 0) = false ∧
    WellFormed (.canFrameReceive 0 0 ⟨true, false, false, false, false, 1, 0, []⟩ 0) = true ∧
    WellFormed (.canFrameReceive 0 0 ⟨true, false, true, false, false, 1, 15, List.replicate 65 0⟩ 0) = false := by decide +kernel
theorem test_wf_can_wake :
    WellFormed (.canWake 0 0 (.frame false true ⟨false, false, false, false, false, 1, 0, []⟩) false) = false := by decide +kernel
theorem test_wf_block_write :
    WellFormed (.zenBlockWrite 0 ⟨1, 0, none⟩ 0 0 (List.replicate 362 0)) = true ∧
    WellFormed (.zenBlockWrite 0 ⟨1, 0, none⟩ 0 0 (List.replicate 363 0)) = false := by decide +kernel
theorem test_wf_flash_write :
    WellFormed (.zenFlashWrite 0 ⟨1, 0, some 0⟩ 0 0 0 (List.replicate 1433 0)) = false := by decide +kernel

/-! ## One command at a time: the expected values are worked from the spec's rules by hand -/

/-- The table gives no row bits. -/
theorem test_no_row_has_bits : decodeTableWord 32 0x12345678 = none := rfl

/-- R47: a plain register reads back what was written. -/
theorem test_register_write : after (.registerWrite 0 .mgmt .b32 0x500210 5) State.reset (fun s => s.reg 0x500210 == 5) = true := by
  decide +kernel
/-- R8: a one written to a reserved bit has no defined outcome. -/
theorem test_register_write_reserved :
    refusal (.registerWrite 0 .mgmt .b32 0x30400 4) State.reset = some .reservedField := by decide +kernel
/-- R50: an access off its size's boundary. -/
theorem test_register_read_unaligned : refusal (.registerRead 0 .mgmt .b32 0x30402) State.reset = some .unaligned := by decide +kernel
/-- A window's bytes, low byte first. -/
theorem test_memory_window :
    after (.memoryWindowAccess 0 .mgmt .b32 true 0x0600_0010 0x1234_5678) State.reset
      (fun s => s.mem.read 0x0600_0010 == 0x78 && s.mem.read 0x0600_0013 == 0x12) = true := by decide +kernel
/-- The one-way time of the spec's RAFTER example: an MRSP stamped 1,046 ns after MREQ's launch gives 23 ns. -/
theorem test_rafter_one_way :
    after (.rafterBurstReceive 1366 0 0b0000011 true 320)
      { State.reset.setFlag F.RAFTER_CFG_EN true with raf := { State.reset.raf with meas := some ⟨0, 0, 0⟩ } }
      (fun s => s.fget F.RAFTER_MEAS_RES_ONEWAY == 23 && s.fget F.RAFTER_MEAS_RES_DONE == 1) = true := by decide +kernel
/-- R124: from 00 to 01 counts one up. -/
theorem test_quad_counts_up :
    after (.quadCountChange 100 0 0 0xFFFF) (State.reset.fset F.CHUCK_CFG_MODE 1 0)
      (fun s => s.fget F.CHUCK_COUNT 0 == 1 && s.fget F.CHUCK_QERR 0 == 0) = true := by decide +kernel
/-- R125: both lines at once count nothing and are an error. -/
theorem test_quad_both_lines :
    after (.quadCountChange 100 0 0xFFFF 0xFFFF) (State.reset.fset F.CHUCK_CFG_MODE 1 0)
      (fun s => s.fget F.CHUCK_COUNT 0 == 0 && s.fget F.CHUCK_QERR 0 == 1) = true := by decide +kernel
/-- R23: FISEL 7 is refused by CFGERR. -/
theorem test_run_start_refused :
    after (.runStart 0 .mgmt 1) (State.reset.fset F.CYC_CFG_FISEL 7)
      (fun s => s.fget F.CYC_STATUS_CFGERR == 1 && s.fget F.CYC_STATUS_RUNNING == 0) = true := by decide +kernel

theorem reaches_mgmt {x : State} {dt a v : Nat} (h1 : x.Live dt) (hl : ((x.found dt a).lodge .mgmt true a).1 = true)
    (hv : (regAt a).map (fun d => v - (v &&& d.mask (fun _ => true))) = some 0) : x.Reaches dt .mgmt a v := by
  refine ⟨h1, hl, fun d hd hg => rfl, fun d hd => ?_⟩
  rw [hd] at hv; simpa using hv

/-! ## For each statement, a state and operands that meet its hypotheses -/

theorem StepTakesTheFrontCommand_witness :
    ({ State.reset with pending := [.cycleStart 0] } : State).pending = .cycleStart 0 :: [] := rfl

theorem IdleStepIsOneClockCycle_witness : State.reset.pending = [] := rfl

theorem StepKeepsSound_witness : State.reset.Sound ∧ ∃ t, step State.reset = .next t := by
  exact ⟨by unfold State.Sound; decide, _, rfl⟩

theorem StepConsumesOneCommand_witness : ∃ t, step State.reset = .next t := ⟨_, rfl⟩

theorem ProgrammedFusesStayProgrammed_witness :
    ({ State.reset with fuses := { burnt := [(0, 1)] } } : State).burntBit 0 0 = true ∧
    ∃ t, step { State.reset with fuses := { burnt := [(0, 1)] } } = .next t := ⟨by decide, _, rfl⟩

theorem MisalignedAccessIsRefused_witness :
    State.reset.Live 0 ∧ (0x10001#32).toNat % sizeBytes .b32 ≠ 0 := by unfold State.Live; decide

theorem UnlistedAddressReadsAFreeValue_witness :
    State.reset.Live 0 ∧ plainAddr (0x10F00#32).toNat = true ∧ regAt (0x10F00#32).toNat = none ∧
    (State.reset.lodge .mgmt false 0x10F00).1 = true ∧ (State.reset.lodge .mgmt true 0x10F00).1 = true := by
  unfold State.Live; decide +kernel

theorem ReservedBitsReadZeroAndRefuseOnes_witness :
    State.reset.Live 0 ∧ plainAddr (0x30400#32).toNat = true ∧
    regAt (0x30400#32).toNat = some ⟨0x0, 0x0, 1, 0, 1, [⟨1, 1, .rw, .p, false, 0x0⟩, ⟨0, 0, .rw, .p, false, 0x0⟩]⟩ ∧
    (State.reset.lodge .mgmt false 0x30400).1 = true ∧ (State.reset.lodge .mgmt true 0x30400).1 = true ∧
    (4 : Nat) - (4 &&& RegD.mask ⟨0x0, 0x0, 1, 0, 1, [⟨1, 1, .rw, .p, false, 0x0⟩, ⟨0, 0, .rw, .p, false, 0x0⟩]⟩ (fun _ => true)) ≠ 0 := by
  unfold State.Live; decide +kernel

theorem WorldsGovernAccesses_witness :
    State.reset.Sound ∧ State.reset.Live 0 ∧ (0x100000#32).toNat % sizeBytes .b32 = 0 ∧
    (State.reset.found 0 (0x100000#32).toNat).asOfCycle.regions (0x100000#32).toNat = [] ∧ entryOf (0x100000#32).toNat = some 4 ∧
    (State.reset.found 0 (0x100000#32).toNat).masterSecure .mgmt = true ∧
    (State.reset.found 0 (0x100000#32).toNat).masterSecure (.session false) = false ∧
    (State.reset.found 0 (0x100000#32).toNat).asOfCycle.entryWorld 4 = 1 := by
  unfold State.Live State.Sound; decide +kernel

theorem PlainRegisterWriteStoresItsFields_witness :
    State.reset.Sound ∧ (0x500210#32).toNat ∈ plainRegisters ∧ State.reset.Reaches 0 .mgmt (0x500210#32).toNat (5#32).toNat := by
  refine ⟨by unfold State.Sound; decide, by decide, by unfold State.Live; decide, by decide +kernel, ?_, ?_⟩
  · intro d hd
    have : ((regAt (0x500210#32).toNat).map RegD.guarded) = some false := by decide +kernel
    rw [hd] at this; simp_all
  · intro d hd
    have : ((regAt (0x500210#32).toNat).map (fun d => 5 - (5 &&& d.mask (fun _ => true)))) = some 0 := by decide +kernel
    rw [hd] at this; simpa using this

theorem ReadClearFieldReturnsAndClears_witness :
    State.reset.Sound ∧ State.reset.Live 0 ∧ plainAddr (0x30418#32).toNat = true ∧
    regAt (0x30418#32).toNat = some ⟨0x18, 0x0, 1, 0, 1, [⟨31, 0, .rc, .p, false, 0x0⟩]⟩ ∧
    ((State.reset.found 0 (0x30418#32).toNat).lodge .mgmt false (0x30418#32).toNat).1 = true := by
  unfold State.Live State.Sound; decide +kernel

theorem WideValuesAreReadAndCommittedWhole_witness :
    State.reset.Sound ∧ F.AX_POSOFS ∈ axisWides ∧ (0x53F068#32).toNat = F.AX_POSOFS.addr 63 0 ∧
    State.reset.Reaches 0 .mgmt 0x53F068 5 ∧ State.reset.Reaches 0 .mgmt 0x53F06C 5 ∧
    (State.reset.lodge .mgmt false 0x53F068).1 = true ∧ (State.reset.lodge .mgmt false 0x53F06C).1 = true := by
  refine ⟨by unfold State.Sound; decide, by decide, by decide, ?_, ?_, by decide +kernel, by decide +kernel⟩ <;>
  · refine ⟨by unfold State.Live; decide, by decide +kernel, fun d hd hg => rfl, fun d hd => ?_⟩
    first
    | have h : (regAt 0x53F068).map (fun d => 5 - (5 &&& d.mask (fun _ => true))) = some 0 := by decide +kernel
      rw [hd] at h; simpa using h
    | have h : (regAt 0x53F06C).map (fun d => 5 - (5 &&& d.mask (fun _ => true))) = some 0 := by decide +kernel
      rw [hd] at h; simpa using h

theorem MemoryWindowsStoreBytes_witness :
    State.reset.Sound ∧ State.reset.Live 0 ∧ (0x081F_FFFF#32).toNat < 0x0820_0000 ∧
    ((State.reset.found 0 (0x081F_FFFF#32).toNat).lodge .mgmt true (0x081F_FFFF#32).toNat).1 = true ∧
    ((State.reset.found 0 (0x081F_FFFF#32).toNat).lodge .mgmt false (0x081F_FFFF#32).toNat).1 = true ∧
    (State.reset.found 0 (0x081F_FFFF#32).toNat).parityBad (0x081F_FFFF#32).toNat = false := by
  unfold State.Live State.Sound; decide +kernel

theorem FloorplanEndReadsZero_witness : State.reset.Live 0 ∧ 0xAD0 ≤ (0xFFC#32).toNat ∧ (0xFFC#32).toNat < 0x1000 ∧
    (0xFFC#32).toNat % 4 = 0 := by unfold State.Live; decide

theorem WorldAssignmentFollowsBworldAndLock_witness :
    State.reset.Sound ∧ (0x20024#32).toNat = F.LODGE_BWORLD.addr 0 5 ∧ State.reset.Reaches 0 .mgmt (0x20024#32).toNat (1#32).toNat ∧
    (State.reset.found 0 (0x20024#32).toNat).fget F.LODGE_CTRL_LOCK = 0 := by
  refine ⟨by unfold State.Sound; decide, by decide, ⟨by unfold State.Live; decide, by decide +kernel, fun d hd hg => rfl, ?_⟩, by decide +kernel⟩
  intro d hd
  have : ((regAt (0x20024#32).toNat).map (fun d => 1 - (1 &&& d.mask (fun _ => true)))) = some 0 := by decide +kernel
  rw [hd] at this; simpa using this

theorem RunStartChecksAndSchedules_witness :
    State.reset.Sound ∧ State.reset.Reaches 0 .mgmt 0x30400 (setB 0 1) ∧ (State.reset.found 0 0x30400).fget F.FLT_DEVFLT_HALT = 0 ∧
    (State.reset.found 0 0x30400).seq.next = none ∧ (State.reset.found 0 0x30400).seq.restart = none ∧
    (State.reset.found 0 0x30400).seq.stopEnd = none ∧ (State.reset.found 0 0x30400).fget F.CYC_CTRL_RUN = 0 ∧
    (State.reset.found 0 0x30400).fget F.CYC_CFG_FISEL ≠ 7 := by
  refine ⟨by unfold State.Sound; decide, ⟨by unfold State.Live; decide, by decide +kernel, fun d hd hg => rfl, ?_⟩, by decide +kernel, by decide +kernel, by decide +kernel, by decide +kernel, by decide +kernel, by decide +kernel⟩
  intro d hd
  have : ((regAt 0x30400).map (fun d => setB 0 1 - (setB 0 1 &&& d.mask (fun _ => true)))) = some 0 := by decide +kernel
  rw [hd] at this; simpa using this

theorem RunStopAndCycleStart_witness :
    (∃ s : State, s.Sound ∧ s.Reaches 0 .mgmt 0x30400 (clrB 0 1) ∧ (s.found 0 0x30400).fget F.CYC_CTRL_RUN = 1 ∧
      (s.found 0 0x30400).seq.stopEnd = none) ∧
    ∃ (s : State) (n : Nat), s.Sound ∧ s.Live 0 ∧ s.seq.stopEnd = none ∧ s.seq.next = some n ∧ n ≤ (s.wait 0).run ∧
      (s.wait 0).cycleLegal = true := by
  refine ⟨⟨State.reset.setFlag F.CYC_CTRL_RUN true, by unfold State.Sound; decide +kernel, ⟨by unfold State.Live; decide +kernel, by decide +kernel, fun d hd hg => rfl, ?_⟩, by decide +kernel, by decide +kernel⟩, State.reset.modSeq (fun q => { q with next := some 0 }), 0, by unfold State.Sound; decide +kernel, by unfold State.Live; decide +kernel, by decide +kernel, by decide +kernel, by decide +kernel, by decide +kernel⟩
  intro d hd
  have : ((regAt 0x30400).map (fun d => clrB 0 1 - (clrB 0 1 &&& d.mask (fun _ => true)))) = some 0 := by decide +kernel
  rw [hd] at this; simpa using this

theorem DeadlinesOfACycle_witness :
    ∃ s : State, s.Sound ∧ s.Live 0 ∧ s.fget F.CYC_STATUS_RUNNING = 1 ∧ s.seq.missDone = false ∧ s.seq.dutyDone = false ∧
      (s.wait 0).seq.start + 3000 * unitNs ≤ (s.wait 0).run ∧ (s.wait 0).dutyD ≤ (s.wait 0).run ∧
      (s.wait 0).replayR ≤ (s.wait 0).run ∧ s.fget F.BL_STATUS_STATE 15 = 3 ∧ s.bl[(15 : Fin 16)].arrived = false ∧
      s.bl[(15 : Fin 16)].departed = false ∧ s.bl[(15 : Fin 16)].closed = false ∧ (s.wait 0).blReady 15 = true := by
  refine ⟨{ ((State.reset.setFlag F.CYC_STATUS_RUNNING true).fset F.BL_STATUS_STATE 3 15) with run := 50000 * unitNs }, ?_⟩
  unfold State.Sound State.Live; decide +kernel

theorem FuseProgrammingObeysItsKey_witness :
    State.reset.Sound ∧ State.reset.Reaches 0 .mgmt 0x10040 (setB 0x5A3C0000 2) ∧ State.reset.Reaches 0 .mgmt 0x10040 (setB 0 2) ∧
    (State.reset.found 0 0x10040).fuses.prog = none ∧ bitsOf (0x5A3C0000#32).toNat 31 16 = 0x5A3C ∧ bitsOf (0x5A3C0000#32).toNat 7 2 = 0 ∧
    ({ State.reset with fuses := { prog := some (8, 1) } } : State).Sound := by
  exact ⟨by unfold State.Sound; decide +kernel, by exact reaches_mgmt (by unfold State.Live; decide +kernel) (by decide +kernel) (by decide +kernel), by exact reaches_mgmt (by unfold State.Live; decide +kernel) (by decide +kernel) (by decide +kernel), by decide +kernel, by decide, by decide, by unfold State.Sound; decide +kernel⟩

theorem SpindleWritesSetThePosition_witness :
    State.reset.Sound ∧ State.reset.Reaches 0 .mgmt (F.SP_CTRL_EN.addr 15 0) (setB 2 1) ∧ State.reset.Reaches 0 .mgmt (F.SP_SCALE.addr 15 0 + 4) 7 ∧
    State.reset.Reaches 0 .mgmt (F.SP_LOAD.addr 15 0 + 4) 7 ∧ (State.reset.found 0 (F.SP_CTRL_EN.addr 15 0)).fget F.SP_CTRL_EN 15 = 0 ∧
    srcLegal (bitsOf (2#32).toNat 3 1) (bitsOf (2#32).toNat 13 8) = true ∧ (State.reset.found 0 (F.SP_CTRL_EN.addr 15 0)).sp[(15 : Fin 16)].changes = [] ∧
    ∃ s : State, s.Sound ∧ s.Live 0 ∧ (s.wait 0).fget F.SP_CTRL_EN 15 = 1 ∧ countingSrc ((s.wait 0).fget F.SP_CTRL_SRC 15) = true := by
  have hr : ∀ a v : Nat, ((State.reset.found 0 a).lodge .mgmt true a).1 = true → (regAt a).map (fun d => v - (v &&& d.mask (fun _ => true))) = some 0 → State.reset.Reaches 0 .mgmt a v := by
    intro a v hl hv
    refine ⟨by unfold State.Live; decide, hl, fun d hd hg => rfl, fun d hd => ?_⟩
    rw [hd] at hv; simpa using hv
  refine ⟨by unfold State.Sound; decide, hr _ _ (by decide +kernel) (by decide +kernel), hr _ _ (by decide +kernel) (by decide +kernel), hr _ _ (by decide +kernel) (by decide +kernel), by decide +kernel, by decide, by decide +kernel, State.reset.setFlag F.SP_CTRL_EN true 15, by unfold State.Sound; decide +kernel, by unfold State.Live; decide +kernel, by decide +kernel, by decide +kernel⟩

def ledW : State := (State.reset.setMem32 (slotAddr 32767 + 8) 0x0002_0001).setMem32 (slotAddr 1 + 8) 0x000C_0001
def ledArmedW : State :=
  { State.reset with led := { State.reset.led with armed := [⟨3, 7, ⟨0, 0, 0, 3, false, 1, 0⟩, 0, [], false, none⟩] } }
theorem LedgerArmAndCancel_witness :
    let arm := F.LED_ARM_SLOT.addr 0 0
    let u := ledW.found 0 arm
    (ledW.Sound ∧ ledW.Reaches 0 .mgmt arm 0x000F_7FFF ∧ ledW.Reaches 0 .mgmt arm 0x001F_0000 ∧ ledW.Reaches 0 .mgmt arm 1 ∧
      ledW.Reaches 0 .mgmt arm 0) ∧
    (u.isArmed 32767 = false ∧ (u.entry 32767).count ≠ 0 ∧ (u.entry 32767).legal 15 = true ∧ u.laneLive (Fin.ofNat 16 15) = false ∧
      u.isArmed 1 = false ∧ (u.entry 1).count ≠ 0 ∧ (u.entry 1).legal 0 = false ∧ (u.entry 0).count = 0 ∧ u.isArmed 0 = false ∧
      u.badPar = [] ∧ u.led.ops = [] ∧ u.led.opAt = none) ∧
    ((u.lodge .ledger false (slotAddr 32767)) = (true, u) ∧ (u.lodge .ledger true (slotAddr 32767)) = (true, u) ∧
      (u.lodge .ledger false (slotAddr 0)) = (true, u) ∧ (u.lodge .ledger true (slotAddr 0)) = (true, u)) ∧
    (ledArmedW.Sound ∧ ledArmedW.Reaches 0 .mgmt (F.LED_CANCEL_SLOT.addr 0 0) 7 ∧ ledArmedW.Reaches 0 .mgmt arm 7 ∧
      (ledArmedW.found 0 arm).isArmed 7 = true ∧ (ledArmedW.found 0 (F.LED_CANCEL_SLOT.addr 0 0)).led.opAt = none) ∧
    ∃ s : State, s.Sound ∧ s.pending = [] ∧ s.raf.rx = [] ∧ s.led.ops = [⟨true, 0, 7, 2⟩] ∧ 2 ≤ s.phys + 2 ∧ (s.armedAt 7).isSome = true ∧
      (s.armedAt 7).all (fun a => ((s.elapse 2).dueAt a).isNone) = true ∧
      (s.elapse 2).lodge .ledger true (slotAddr 7) = (true, s.elapse 2) := by
  refine ⟨⟨by unfold State.Sound; decide +kernel, by exact reaches_mgmt (by unfold State.Live; decide +kernel) (by decide +kernel) (by decide +kernel), by exact reaches_mgmt (by unfold State.Live; decide +kernel) (by decide +kernel) (by decide +kernel), by exact reaches_mgmt (by unfold State.Live; decide +kernel) (by decide +kernel) (by decide +kernel), by exact reaches_mgmt (by unfold State.Live; decide +kernel) (by decide +kernel) (by decide +kernel)⟩, by decide +kernel, by decide +kernel, ⟨by unfold State.Sound; decide +kernel, by exact reaches_mgmt (by unfold State.Live; decide +kernel) (by decide +kernel) (by decide +kernel), by exact reaches_mgmt (by unfold State.Live; decide +kernel) (by decide +kernel) (by decide +kernel), by decide +kernel, by decide +kernel⟩,
    { ledArmedW with led := { ledArmedW.led with ops := [⟨true, 0, 7, 2⟩] } }, by unfold State.Sound; decide +kernel, rfl, rfl, rfl, by decide, by decide +kernel, by decide +kernel,
    by decide +kernel⟩

def fireW (lane : Nat) (g : List Target) : State :=
  let b := ((State.reset.setFlag F.CYC_STATUS_RUNNING true).setFlag F.LED_CTRL_EN true).setFlag F.SP_CTRL_EN true 15
  { b with led := { b.led with armed := [⟨lane, 5, ⟨0, 1, 0, 3, true, 1, 0⟩, 0, g, false, none⟩] } }
theorem LedgerEntriesFireAndRetire_witness :
    (let s := fireW 15 [⟨0, none, true, none, [(0, true)]⟩]
     let u := s.wait 0
     let e : Entry := ⟨0, 1, 0, 3, true, 1, 0⟩
     s.Sound ∧ s.Live 0 ∧ u.armedAt 5 = some ⟨15, 5, e, 0, [⟨0, none, true, none, [(0, true)]⟩], false, none⟩ ∧ u.ledFirst 5 = true ∧
      u.laneLiveAt 15 0 = true ∧ 0 ≤ u.run ∧ (u.ledAct e 0).lodge .ledger true (slotAddr 5) = (true, u.ledAct e 0)) ∧
    (let s := fireW 16 []
     let u := s.wait 0
     let e : Entry := ⟨0, 1, 0, 3, true, 1, 0⟩
     s.Sound ∧ s.Live 0 ∧ u.armedAt 5 = some ⟨16, 5, e, 0, [], false, none⟩ ∧ u.ledFirst 5 = true ∧ u.fget F.LED_CTRL_EN = 1 ∧
      0 * unitNs ≤ u.lclk ∧
      (u.ledAct e (u.lclkToRun (0 * unitNs))).lodge .ledger true (slotAddr 5) = (true, u.ledAct e (u.lclkToRun (0 * unitNs)))) ∧
    State.reset.Reaches 0 .mgmt (F.LED_DONE_POP.addr 0 0) (setB 0 1) := by
  refine ⟨⟨by unfold State.Sound; decide +kernel, by unfold State.Live; decide +kernel, by decide +kernel, by decide +kernel, by decide +kernel, by decide +kernel, by decide +kernel⟩,
    ⟨by unfold State.Sound; decide +kernel, by unfold State.Live; decide +kernel, by decide +kernel, by decide +kernel, by decide +kernel, by decide +kernel, by decide +kernel⟩, by exact reaches_mgmt (by unfold State.Live; decide +kernel) (by decide +kernel) (by decide +kernel)⟩

theorem MarkAndToutActAtTheirInstants_witness :
    (let s := (State.reset.setFlag F.MT_MARK_CFG_EN true 0 15).fset F.MT_MARK_CFG_EDGE 1 0 15
     let u := s.wait 0
     s.Sound ∧ s.Live 0 ∧ u.markLevel 15 0 = false ∧ u.markLevel 15 0xFFFF = true ∧ u.fget F.MT_MARK_STATUS_INLVL 0 15 = 0 ∧
      u.markSelected 15 true = true ∧ u.markSelected 15 false = false ∧ u.mark[(15 : Fin 16)].deadEnd ≤ u.markStamp 15 ∧
      u.mark[(15 : Fin 16)].fifo = []) ∧
    State.reset.Reaches 0 .mgmt (F.MT_MARK_POP.addr 0 15) (setB 0 1) ∧
    (let s := State.reset.setFlag F.MT_TOUT_CFG_EN true 0 15
     let x := s.found 0 (F.MT_TOUT_FORCE_OP.addr 0 15)
     s.Sound ∧ s.Reaches 0 .mgmt (F.MT_TOUT_FORCE_OP.addr 0 15) 3 ∧ s.Reaches 0 .mgmt (F.MT_TOUT_FORCE_OP.addr 0 15) 0 ∧
      x.fget F.MT_TOUT_CFG_EN 0 15 = 1 ∧ x.fget F.MT_TOUT_STATUS_LEVEL 0 15 = 0 ∧ x.tout[(15 : Fin 16)].lastEdge = none) := by
  refine ⟨⟨by unfold State.Sound; decide +kernel, by unfold State.Live; decide +kernel, by decide +kernel, by decide +kernel, by decide +kernel, by decide +kernel, by decide +kernel, by decide +kernel,
    by decide +kernel⟩, by exact reaches_mgmt (by unfold State.Live; decide +kernel) (by decide +kernel) (by decide +kernel), by unfold State.Sound; decide +kernel, by exact reaches_mgmt (by unfold State.Live; decide +kernel) (by decide +kernel) (by decide +kernel), by exact reaches_mgmt (by unfold State.Live; decide +kernel) (by decide +kernel) (by decide +kernel), by decide +kernel, by decide +kernel, by decide +kernel⟩

theorem ChuckQuadratureCountsAndIndexes_witness :
    (let s := (State.reset.fset F.CHUCK_CFG_MODE 1 31).fset F.CHUCK_CFG_IDXEDGE 1 31
     let u := s.wait 100
     s.Sound ∧ s.Live 100 ∧ u.chMode 31 = 1 ∧ u.chuck[(31 : Fin 32)].idxPend = false ∧ u.fget F.CHUCK_STATUS_LVL 31 = 0 ∧
      filtered (u.fget F.CHUCK_CFG_FILT 31) false 0xFFFF = true ∧ filtered (u.fget F.CHUCK_CFG_FILT 31) false 0 = false ∧
      quadStep false false false true = some 1 ∧ quadStep false false true true = none ∧ u.chClose 31 = false ∧
      u.chuck[(31 : Fin 32)].errs.length < u.fget F.CHUCK_CFG_QLIM 31 ∧ u.fget F.CHUCK_CFG_IDXEDGE 31 = 1 ∧
      u.fget F.CHUCK_CFG_IDXGEN 31 = 0 ∧ u.chuck[(31 : Fin 32)].idxRef = none) ∧
    (let s := (State.reset.fset F.CHUCK_CFG_MODE 1 31).modCh 31 (fun k => { k with lastEdge := some 0 })
     (s.wait 0).chClose 31 = true ∧ s.Live 0) ∧
    State.reset.Reaches 0 .mgmt (F.CHUCK_CFG_MODE.addr 31 0) 1 ∧ (State.reset.found 0 (F.CHUCK_CFG_MODE.addr 31 0)).chMode 31 = 0 ∧
    State.reset.Reaches 0 .mgmt (F.CHUCK_OFFSET.addr 31 0) 5 := by
  exact ⟨⟨by unfold State.Sound; decide +kernel, by unfold State.Live; decide +kernel, by decide +kernel⟩, ⟨by decide +kernel, by unfold State.Live; decide +kernel⟩, by exact reaches_mgmt (by unfold State.Live; decide +kernel) (by decide +kernel) (by decide +kernel), by decide +kernel, by exact reaches_mgmt (by unfold State.Live; decide +kernel) (by decide +kernel) (by decide +kernel)⟩

def hallW : State := ((State.reset.fset F.CHUCK_CFG_MODE 2 31).fset F.CHUCK_HALL_HINVT 1 31).modCh 31 (fun h => { h with sector := some 5 })
def ssiW (due frame : Nat) (busy : Nat) : State :=
  { ((((((State.reset.fset F.CHUCK_CFG_MODE 3 31).fset F.CHUCK_SSI_CFG_DIV 24 31).fset F.CHUCK_SSI_CFG_ERRLIM 0 31).fset
    F.CHUCK_SSI_FMT_POSBITS 32 31).fset F.CHUCK_SSI_FMT_CRCLEN 8 31).modCh 31 (fun h => { h with
      ssiDue := [due], ssiFrame := some frame, ssiBusy := busy })) with run := 50000 * unitNs }
theorem HallAndSsiFramesFollowTheirRules_witness :
    (let u := hallW.wait 0
     hallW.Sound ∧ hallW.Live 0 ∧ u.chMode 31 = 2 ∧ u.hallLevels 31 0 0 0xFFFF = 1 ∧ u.fget F.CHUCK_STATUS_LVL 31 % 8 = 0 ∧
      u.chuck[(31 : Fin 32)].sector = some 5 ∧ hallRaw 1 = some 0 ∧ (0 + 6 - 5) % 6 = 1 ∧ u.hallLevels 31 0xFFFF 0xFFFF 0xFFFF = 7 ∧
      hallRaw 7 = none ∧ u.fget F.CHUCK_HALL_HINVT 31 ≠ 0 ∧ u.hallOverdue 31 = false) ∧
    (let s := { hallW.modCh 31 (fun h => { h with invalidSince := some 0 }) with run := 5000 * unitNs }
     s.Sound ∧ s.Live 0 ∧ (s.wait 0).hallOverdue 31 = true ∧ bit ((s.wait 0).reg (F.CHUCK_FLT_ACTIVE.addr 31 0)).toNat 3 = false) ∧
    (let s := ssiW 0 0 0
     let u := s.wait 0
     s.Sound ∧ s.Live 0 ∧ u.chuck[(31 : Fin 32)].ssiDue = [0] ∧ 0 ≤ u.run ∧ u.chMode 31 = 3 ∧ u.ssiLegal 31 = true ∧
      u.chuck[(31 : Fin 32)].ssiBusy ≤ u.run ∧ u.ssiBits 31 = 40 ∧ u.fget F.CHUCK_SSI_CFG_ERRLIM 31 = 0 ∧
      u.chuck[(31 : Fin 32)].ssiFrame = some 0 ∧ u.chuck[(31 : Fin 32)].ssiPrev = none ∧
      0 + nsU (u.ssiBits 31 * u.ssiPeriod 31 + 4 * u.fget F.CHUCK_SSI_CFG_DLY 31) ≤ u.run ∧
      u.fget F.CHUCK_SSI_FMT_CRCLEN 31 = 8 ∧ u.fget F.CHUCK_SSI_FMT_CRCINV 31 = 0 ∧ u.fget F.CHUCK_SSI_FMT_SKIP 31 = 0 ∧
      u.fget F.CHUCK_SSI_FMT_STATBITS 31 = 0 ∧
      (let crc := fun (f : Nat) => ssiCrc 8 (u.fget F.CHUCK_SSI_CRC_POLY 31) (u.fget F.CHUCK_SSI_CRC_INIT 31) ((List.range 32).map (fun i => bit f (0 + i)))
       crc (2 ^ 39) ≠ frameField (2 ^ 39) (0 + 32) 8 ∧ ∃ f : Fin 2, crc (f.val * 0xC8_0000_0000) = frameField (f.val * 0xC8_0000_0000) (0 + 32) 8)) ∧
    (let s := ssiW 0 0 (60000 * unitNs)
     (s.wait 0).run < (s.wait 0).chuck[(31 : Fin 32)].ssiBusy ∧ s.Live 0) ∧
    (let s := (ssiW 0 0 0).fset F.CHUCK_SSI_CFG_DIV 0 31
     s.Live 0 ∧ (s.wait 0).ssiLegal 31 = false) ∧
    (let s := ssiW 0 0 0
     ((s.fset F.CHUCK_SSI_JUMP 1 31).modCh 31 (fun h => { h with ssiPrev := some 0 })).Live 0) ∧
    (let s := (State.reset.setReg (F.CHUCK_FLT_ACTIVE.addr 31 0) 9)
     s.Sound ∧ s.Reaches 0 .mgmt (F.CHUCK_FLT_ACTIVE.addr 31 0) 30 ∧
      bitsOf ((s.found 0 (F.CHUCK_FLT_ACTIVE.addr 31 0)).reg (F.CHUCK_FLT_ACTIVE.addr 31 0)).toNat 31 5 = 0) := by
  exact ⟨⟨by unfold State.Sound; decide +kernel, by unfold State.Live; decide +kernel, by decide +kernel⟩, ⟨by unfold State.Sound; decide +kernel, by unfold State.Live; decide +kernel, by decide +kernel, by decide +kernel⟩, ⟨by unfold State.Sound; decide +kernel, by unfold State.Live; decide +kernel, by decide +kernel⟩,
    ⟨by decide +kernel, by unfold State.Live; decide +kernel⟩, ⟨by unfold State.Live; decide +kernel, by decide +kernel⟩, by unfold State.Live; decide +kernel, by unfold State.Sound; decide +kernel, by exact reaches_mgmt (by unfold State.Live; decide +kernel) (by decide +kernel) (by decide +kernel), by decide +kernel⟩

theorem HearthStepsMoveLclk_witness :
    State.reset.Reaches 0 .mgmt (F.HEARTH_STEP.addr 0 0 + 4) 0 ∧ State.reset.Reaches 0 .mgmt (F.HEARTH_STEP.addr 0 0 + 4) 0xFFFFFFFF ∧
    State.reset.Reaches 0 .mgmt (F.HEARTH_STEP.addr 0 0 + 4) 1 ∧ (lookupWord (State.reset.found 0 (F.HEARTH_STEP.addr 0 0 + 4)).held (F.HEARTH_STEP.addr 0 0)).isNone ∧
    (State.reset.found 0 (F.HEARTH_STEP.addr 0 0 + 4)).lclk = 0 ∧ State.reset.Reaches 0 .mgmt (F.HEARTH_SET.addr 0 0 + 8) 0xFFFF := by
  exact ⟨by exact reaches_mgmt (by unfold State.Live; decide +kernel) (by decide +kernel) (by decide +kernel), by exact reaches_mgmt (by unfold State.Live; decide +kernel) (by decide +kernel) (by decide +kernel), by exact reaches_mgmt (by unfold State.Live; decide +kernel) (by decide +kernel) (by decide +kernel), by decide +kernel, by decide +kernel, by exact reaches_mgmt (by unfold State.Live; decide +kernel) (by decide +kernel) (by decide +kernel)⟩

theorem ServoSlewsStepsAndHolds_witness :
    State.reset.Live 0 ∧ (State.reset.wait 0).ptpMode = false ∧
    let m1 := State.reset.setFlag F.HEARTH_CTRL_MODE true
    m1.Sound ∧ m1.Live 0 ∧ (m1.wait 0).ptpMode = true ∧ (m1.wait 0).fget F.HEARTH_STEPTHR = 1000000 ∧
    (m1.wait 0).flag F.HEARTH_CTRL_NOSTEP = false ∧ (m1.wait 0).servo.parent = none ∧ (m1.wait 0).lclk = 0 := by
  exact ⟨by unfold State.Live; decide +kernel, by decide +kernel, by unfold State.Sound; decide +kernel, by unfold State.Live; decide +kernel, by decide +kernel, by decide +kernel, by decide +kernel, by decide +kernel, by decide +kernel⟩

def rafW : State :=
  let r := (((State.reset.setFlag F.RAFTER_CFG_EN true).setFlag F.RAFTER_LINE_CFG_TXEN true).setFlag F.RAFTER_LINE_CFG_TXEN true 0 1).setFlag
    F.RAFTER_LINE_CFG_RXEN true
  { r.setFlag F.RAFTER_CFG_MRSPEN true with run := 5000 * unitNs, raf := { r.raf with
    busy := r.raf.busy.set 1 (5001 * unitNs), waiting := [⟨0, 0, 3⟩], actions := [⟨0, 4600 * unitNs, 5000 * unitNs, 7⟩],
    responses := [(0, 5000 * unitNs), (1, 5000 * unitNs)], meas := some ⟨0, 0, 1000 * unitNs⟩ } }
theorem RafterLaunchesMeasuresAndActs_witness :
    rafW.Sound ∧ rafW.Live 0 ∧ rafW.Reaches 0 .mgmt (F.RAFTER_FIRE_LINES.addr 0 0) 1 ∧ rafW.Reaches 0 .mgmt (F.RAFTER_FIRE_LINES.addr 0 0) 2 ∧
    rafW.Reaches 0 .mgmt (F.RAFTER_FIRE_LINES.addr 0 0) 8 ∧ rafW.Reaches 0 .mgmt (F.RAFTER_MEAS_GO.addr 0 0) (setB 0x3F 64) ∧
    (rafW.setFlag F.RAFTER_MEAS_RES_BUSY true).Reaches 0 .mgmt (F.RAFTER_MEAS_GO.addr 0 0) (setB 0x3F 64) ∧
    (let x := rafW.found 0 (F.RAFTER_FIRE_LINES.addr 0 0)
     x.flag F.RAFTER_CFG_EN = true ∧ x.flag F.RAFTER_LINE_CFG_TXEN 0 0 = true ∧ x.flag F.RAFTER_LINE_CFG_TXEN 0 1 = true ∧
     x.rafMerges 0 x.run = false ∧ x.rafMerges 1 x.run = false ∧ x.raf.busy[0] ≤ x.run ∧ x.run < x.raf.busy[1] ∧
     x.flag F.RAFTER_LINE_CFG_TXEN 0 3 = false ∧ x.flag F.RAFTER_MEAS_RES_BUSY = false) ∧
    (let u := rafW.wait 0
     u.raf.rx = [] ∧ u.raf.waiting.find? (fun b => b.line == 0) = some ⟨0, 0, 3⟩ ∧ u.raf.busy[0] ≤ u.run ∧
     u.run < u.run - 0 * unitNs + 320 * unitNs ∧ u.run - 320 * unitNs + 320 * unitNs ≤ u.run ∧
     burstParity 0b0000001 = false ∧ burstParity 0b0000111 = false ∧ burstType 0b0000111 = 3 ∧
     burstParity 0b0100001 = true ∧ burstType 0b0100001 = 0 ∧ burstId 0b0100001 = 1 ∧ u.fget F.RAFTER_CFG_UNIT = 0 ∧
     u.run ≤ u.run - 320 * unitNs - u.fget F.RAFTER_DLY 0 1 * unitNs + u.fget F.RAFTER_CFG_ACTLAT * unitNs ∧
     burstType 0b0000101 = 1 ∧ burstId 0b0000101 = 0 ∧ burstParity 0b0000101 = true ∧
     burstType 0b0000011 = 2 ∧ burstId 0b0000011 = 0 ∧ burstParity 0b0000011 = true ∧ u.flag F.RAFTER_CFG_MRSPEN = true ∧
     u.raf.meas = some ⟨0, 0, 1000 * unitNs⟩ ∧
     1000 * unitNs / unitNs + 999 ≤ (u.run - 3000 * unitNs) / unitNs ∧ (u.run - 3000 * unitNs) / unitNs ≤ 1000 * unitNs / unitNs + 1999 ∧
     u.flag F.RAFTER_LINE_CFG_RXEN 0 0 = true ∧
     u.raf.actions.filter (fun a => a.line == 0 && decide (a.a ≤ u.run)) = [⟨0, 4600 * unitNs, 5000 * unitNs, 7⟩] ∧
     u.raf.responses.find? (fun x => x.1 == 1 && decide (x.2 ≤ u.run)) = some (1, 5000 * unitNs) ∧ 5000 * unitNs < u.raf.busy[1] ∧
     u.raf.responses.find? (fun x => x.1 == 0 && decide (x.2 ≤ u.run)) = some (0, 5000 * unitNs) ∧
     1000 * unitNs + 4000 * unitNs ≤ u.run ∧ u.boot.refsel = false) ∧
    (rafW.modBoot (fun b => { b with refsel := true })).Live 0 := by
  refine ⟨by unfold State.Sound; decide +kernel, by unfold State.Live; decide +kernel, by exact reaches_mgmt (by unfold State.Live; decide +kernel) (by decide +kernel) (by decide +kernel), by exact reaches_mgmt (by unfold State.Live; decide +kernel) (by decide +kernel) (by decide +kernel), by exact reaches_mgmt (by unfold State.Live; decide +kernel) (by decide +kernel) (by decide +kernel), by exact reaches_mgmt (by unfold State.Live; decide +kernel) (by decide +kernel) (by decide +kernel), by exact reaches_mgmt (by unfold State.Live; decide +kernel) (by decide +kernel) (by decide +kernel), by decide +kernel, by decide +kernel, by unfold State.Live; decide +kernel⟩

def axW : State :=
  ((((((State.reset.fset F.AX_CFG_KIND 1 0).fset F.AX_CFG_KIND 1 1).setFlag F.AX_LOOP_CTRL_EN true 1).fset F.AX_STATUS_STATE 4 3).fset
    F.AX_STATUS_STATE 5 4).setFlag F.AX_CFG_GRPEN true 5).fset F.AX_CFG_GROUP 5 5
def axW2 : State := (axW.modAx 5 (fun x => { x with queue := List.replicate 16 [] })).modLp 1 (fun l => { l with react := 1 })
theorem AxisCommandsWaitForTheirTick_witness :
    axW.Sound ∧ axW2.Sound ∧ axW.Reaches 0 .mgmt (F.AX_CMD_OP.addr 0 0) 2 ∧ axW.Reaches 0 .mgmt (F.AX_CMD_OP.addr 1 0) 10 ∧
    axW.Reaches 0 .mgmt (F.AX_CMD_OP.addr 63 0) 0 ∧ axW2.Reaches 0 .mgmt (F.AX_CMD_OP.addr 1 0) 1 ∧
    axW.Reaches 0 .mgmt (F.AX_SHIFT.addr 3 0 + 4) 0x80000000 ∧ axW.Reaches 0 .mgmt (F.AX_SHIFT.addr 4 0 + 4) 0 ∧
    axW.Reaches 0 .mgmt (F.AX_SHIFT.addr 63 0 + 4) 1 ∧ axW.Reaches 0 .mgmt (F.AX_GRP_PUSH.addr 5 0) 1 ∧
    axW2.Reaches 0 .mgmt (F.AX_GRP_PUSH.addr 5 0) 1 ∧ axW.Reaches 0 .mgmt (F.AX_GRP_PUSH.addr 63 0) 1 ∧
    axW.Reaches 0 .mgmt (F.AX_GRP_CTRL_STOP.addr 5 0) 1 ∧
    (let x := axW.found 0 (F.AX_CMD_OP.addr 0 0)
     x.axKind 0 = 1 ∧ x.fget F.AX_LOOP_CTRL_EN 0 = 0 ∧ x.axKind 1 = 1 ∧ x.fget F.AX_LOOP_CTRL_EN 1 = 1 ∧ x.axKind 63 = 0 ∧
     x.lp[1].react = 0 ∧ x.ax[1].cmd = none ∧ x.axState 3 = 4 ∧ x.axState 4 = 5 ∧ x.axState 63 = 0 ∧ x.isLeader 5 = true ∧
     x.isLeader 63 = false ∧ x.ax[(5 : Fin 64)].queue.length < 16) ∧
    (let x := axW2.found 0 (F.AX_CMD_OP.addr 0 0)
     x.lp[(1 : Fin 64)].react = 1 ∧ x.ax[(1 : Fin 64)].qstop = false ∧ x.ax[(1 : Fin 64)].t.v = 0 ∧ 16 ≤ x.ax[(5 : Fin 64)].queue.length) := by
  refine ⟨by unfold State.Sound; decide +kernel, by unfold State.Sound; decide +kernel, by exact reaches_mgmt (by unfold State.Live; decide +kernel) (by decide +kernel) (by decide +kernel), by exact reaches_mgmt (by unfold State.Live; decide +kernel) (by decide +kernel) (by decide +kernel), by exact reaches_mgmt (by unfold State.Live; decide +kernel) (by decide +kernel) (by decide +kernel), by exact reaches_mgmt (by unfold State.Live; decide +kernel) (by decide +kernel) (by decide +kernel), by exact reaches_mgmt (by unfold State.Live; decide +kernel) (by decide +kernel) (by decide +kernel), by exact reaches_mgmt (by unfold State.Live; decide +kernel) (by decide +kernel) (by decide +kernel), by exact reaches_mgmt (by unfold State.Live; decide +kernel) (by decide +kernel) (by decide +kernel), by exact reaches_mgmt (by unfold State.Live; decide +kernel) (by decide +kernel) (by decide +kernel), by exact reaches_mgmt (by unfold State.Live; decide +kernel) (by decide +kernel) (by decide +kernel), by exact reaches_mgmt (by unfold State.Live; decide +kernel) (by decide +kernel) (by decide +kernel), by exact reaches_mgmt (by unfold State.Live; decide +kernel) (by decide +kernel) (by decide +kernel), by decide +kernel, by decide +kernel⟩

theorem AxisCommandEntersItsState_witness : State.reset.Sound ∧ (State.reset.fset F.AX_STATUS_STATE 6).Sound ∧
    (State.reset.setFlag F.AX_CFG_GRPEN true).Sound ∧ (State.reset.fset F.AX_STATUS_STATE 4).axState 0 = 4 ∧
    State.reset.ax[(63 : Fin 64)].gearWait = none ∧ State.reset.ax[(0 : Fin 64)].t.v = 0 ∧ (0 : Fin 64) ≠ 63 ∧
    ((State.reset.fset F.AX_STATUS_STATE 6).setFlag F.AX_CFG_GRPEN true).Sound ∧
    (State.reset.modAx 0 (fun x => { x with t := { v := 1 } })).Sound := by
  refine ⟨by unfold State.Sound; decide +kernel, by unfold State.Sound; decide +kernel, by unfold State.Sound; decide +kernel, by decide +kernel, by decide +kernel, by decide +kernel, by decide, by unfold State.Sound; decide +kernel, by unfold State.Sound; decide +kernel⟩

def loopW : State :=
  ((((State.reset.fset F.AX_CFG_KIND 1 0).fset F.AX_CFG_KIND 1 1).setFlag F.AX_LOOP_CTRL_EN true 1).fset F.AX_FILT_CFG_MODE 3 0 2).fset
    F.AX_FAULT_CAUSE 0x81 0
theorem LoopControlFiltersAndFaults_witness :
    loopW.Sound ∧ loopW.Reaches 0 .mgmt (F.AX_LOOP_CTRL_EN.addr 0 0) (setB 0 1) ∧
    loopW.Reaches 0 .mgmt (F.AX_LOOP_CTRL_EN.addr 63 0) (setB 0 1) ∧ loopW.Reaches 0 .mgmt (F.AX_LOOP_CTRL_EN.addr 1 0) (clrB 0 1) ∧
    loopW.Reaches 0 .mgmt (F.AX_LOOP_CTRL_EN.addr 63 0) (setB 0 2) ∧ loopW.Reaches 0 .mgmt (F.AX_LOOP_CTRL_EN.addr 0 0) (setB 7 4) ∧
    loopW.Reaches 0 .mgmt (F.AX_FILT_A2.addr 0 2) 0xFFFFFFFF ∧ loopW.Reaches 0 .mgmt (F.AX_FILT_A2.addr 63 0) 0 ∧
    loopW.Reaches 0 .mgmt (F.AX_FAULT_CAUSE.addr 0 0) 0xFF ∧
    (let x := loopW.found 0 (F.AX_LOOP_CTRL_EN.addr 0 0)
     x.axKind 0 = 1 ∧ x.fget F.AX_FAULT_ACTIVE 0 = 0 ∧ x.halted = false ∧ x.fget F.AX_LOOP_CTRL_EN 0 = 0 ∧ x.axKind 63 = 0 ∧
     x.fget F.AX_LOOP_CTRL_EN 63 = 0 ∧ x.axKind 1 = 1 ∧ x.fget F.AX_LOOP_CTRL_EN 1 = 1 ∧ x.fget F.AX_FILT_CFG_MODE 0 2 = 3 ∧
     x.fget F.AX_FILT_CFG_MODE 63 0 = 0) := by
  refine ⟨by unfold State.Sound; decide +kernel, by exact reaches_mgmt (by unfold State.Live; decide +kernel) (by decide +kernel) (by decide +kernel), by exact reaches_mgmt (by unfold State.Live; decide +kernel) (by decide +kernel) (by decide +kernel), by exact reaches_mgmt (by unfold State.Live; decide +kernel) (by decide +kernel) (by decide +kernel), by exact reaches_mgmt (by unfold State.Live; decide +kernel) (by decide +kernel) (by decide +kernel), by exact reaches_mgmt (by unfold State.Live; decide +kernel) (by decide +kernel) (by decide +kernel), by exact reaches_mgmt (by unfold State.Live; decide +kernel) (by decide +kernel) (by decide +kernel), by exact reaches_mgmt (by unfold State.Live; decide +kernel) (by decide +kernel) (by decide +kernel), by exact reaches_mgmt (by unfold State.Live; decide +kernel) (by decide +kernel) (by decide +kernel), by decide +kernel⟩

def cmdWit : State :=
  let r := (((State.reset.fset F.CMD_CFG_MODE 2 0).fset F.CMD_CFG_MODE 3 1).fset F.CMD_CFG_MODE 1 7).setFlag F.CMD_CFG_LOSSEN true 7
  let q := (r.fset F.CMD_CFG_TMO 1 7).fset F.SILL_SEQ_CH 15 0 0
  { q with run := 10000 * unitNs, sill := [(0, 9500 * unitNs, 5)], cmdIn := q.cmdIn.set 0 { edges := [(0, 1)] } }
theorem CommandInputsAndSillMeasure_witness :
    cmdWit.Sound ∧ cmdWit.Live 0 ∧ cmdWit.Live 999999 ∧
    (let u := cmdWit.wait 0
     u.flag F.CMD_STATUS_LVL 0 = false ∧ filtered (u.fget F.CMD_CFG_FILT 0) false 0xFFFF = true ∧ filtered (u.fget F.CMD_CFG_FILT 0) false 0 = false ∧
     filtered (u.fget F.CMD_CFG_FILT 0) true 0 = false ∧ filtered (u.fget F.CMD_CFG_FILT 1) false 0xFFFF = true ∧
     u.fget F.CMD_CFG_MODE 6 < 2 ∧ ((cmdWit.setFlag F.CMD_STATUS_LVL true 2).wait 0).flag F.CMD_STATUS_LVL 2 = true ∧
     u.fget F.CMD_CFG_MODE 0 = 2 ∧ u.cmdIn[0].edges ≠ [] ∧ (u.cmdStamp 0 - 0) / (4 * unitNs) = 2500 ∧
     u.fget F.CMD_CFG_MODE 1 = 3 ∧ u.fget F.CMD_CFG_MODE 7 = 1 ∧ u.cmdIn[7].lastMeas + u.fget F.CMD_CFG_TMO 7 * 1000 * unitNs ≤ u.run ∧
     u.fget F.CMD_CFG_LOSSEN 7 = 1 ∧ u.fget F.CMD_STATUS_LOSS 7 = 0 ∧ u.sill.head? = some (0, 9500 * unitNs, 5) ∧
     9500 * unitNs + 500 * 0 * unitNs + 500 * unitNs ≤ u.run ∧ u.fget F.SILL_SEQ_CH 0 0 = 8 + 7) ∧
    250000 < ((cmdWit.wait 999999).cmdStamp 0 - 0) / (4 * unitNs) ∧ ¬ (State.reset.wait 0).run ≥ 0 + 500 * unitNs ∧
    ¬ ((cmdWit.fset F.CMD_CFG_TMO 11 7).wait 0).cmdIn[7].lastMeas + ((cmdWit.fset F.CMD_CFG_TMO 11 7).wait 0).fget F.CMD_CFG_TMO 7 * 1000 * unitNs ≤
      ((cmdWit.fset F.CMD_CFG_TMO 11 7).wait 0).run := by
  refine ⟨by unfold State.Sound; decide +kernel, by unfold State.Live; decide +kernel, by unfold State.Live; decide +kernel, by decide +kernel, by decide +kernel, by decide +kernel, by decide +kernel⟩

def fieldW (fs : Nat) : State := (((State.reset.fset F.AX_CFG_KIND 1 63).fset F.AX_FLD_STATUS_FSTATE fs 63).fset F.AX_FLD_CFG_ANGSRC 2 63).modFld 63
  (fun f => { f with ifendAt := some 0, highRun := 20, lowRun := 20, stallRun := 20 })
theorem TimedFieldStatesEnd_witness :
    (∀ fs ∈ [1, 2, 3, 4, 5, 6, 8], (fieldW fs).Sound ∧ (fieldW fs).Live 0 ∧ (fieldW fs).Live 50000000 ∧ (fieldW fs).Live 2000000002) ∧
    (∀ fs ∈ [1, 2, 3, 4, 5, 6, 8], ((fieldW fs).wait 0).fstate 63 = fs ∧ ((fieldW fs).wait 50000000).fstate 63 = fs) ∧
    ((fieldW 1).wait 50000000).run = 50 * 1000000 * unitNs ∧ ((fieldW 1).wait 0).run = 0 ∧ ((fieldW 1).wait 0).fld[(63 : Fin 64)].entered = 0 ∧
    2000 * 1000000 * unitNs < ((fieldW 2).wait 2000000002).run ∧ ((fieldW 2).wait 2000000002).fstate 63 = 2 ∧
    (let u := (fieldW 5).wait 0
     u.axKind 63 = 1 ∧ u.fget F.AX_FLD_CFG_ANGSRC 63 = 2 ∧ u.fget F.AX_FLD_LOCK_LOSSN 63 ≤ 20 ∧ u.fld[(63 : Fin 64)].highRun = 20 ∧
     u.fld[(63 : Fin 64)].lowRun = 20 ∧ u.fld[(62 : Fin 64)].highRun = 0 ∧ u.fget F.AX_FLD_STATUS_LOCK 63 = 0) ∧
    0 < ((fieldW 4).wait 0).fget F.AX_FLD_IFH_IFHOLD 63 ∧ 0 < ((fieldW 3).wait 0).fget F.AX_FLD_ALIGN_TALIGN 63 ∧
    ((fieldW 8).wait 2000000002).lp[(63 : Fin 64)].reactAt + 10 ^ 9 ≤ ((fieldW 8).wait 2000000002).phys ∧
    (let u := ((fieldW 0).fset F.AX_CFG_KIND 3 63).wait 2000000002
     u.axKind 63 = 3 ∧ u.fld[(63 : Fin 64)].muAt + u.fget F.AX_FLD_HOLD_HOLDT 63 * 1000000 * unitNs ≤ u.run ∧
     u.fget F.AX_FLD_HOLD_STALLN 63 ≤ u.fld[(63 : Fin 64)].stallRun ∧ u.fld[(63 : Fin 64)].stalled = false ∧ ((u.setFlag F.AX_LOOP_CFG_PFBEN true 63).loadOffset 63).isSome = true ∧
     0 < u.fget F.AX_FLD_HOLD_HOLDT 63) := by
  refine ⟨?_, by decide +kernel, by decide +kernel, by decide +kernel, by decide +kernel, by decide +kernel, by decide +kernel, by decide +kernel, by decide +kernel, by decide +kernel, by decide +kernel, by decide +kernel⟩
  intro fs h
  simp only [List.mem_cons, List.not_mem_nil, or_false] at h
  rcases h with rfl | rfl | rfl | rfl | rfl | rfl | rfl <;> exact ⟨by unfold State.Sound; decide +kernel, by unfold State.Live; decide +kernel, by unfold State.Live; decide +kernel, by unfold State.Live; decide +kernel⟩

def blW (st : Nat) : State :=
  let s := (((((State.reset.fset F.BL_STATUS_STATE st 0).fset F.BL_LAT 44000 0).setFlag F.CYC_STATUS_RUNNING true).modBl 0 (fun b => { b with
    pingsSent := 16, delays := List.replicate 12 1600000, codeErrs := 8, pings := [(0, 0), (255, 1250)] })).modBl 1 (fun b => { b with needTrain := true })).setFlag F.BL_CTRL_AUTOTRN false 1
  (s.modSeq (fun q => { q with next := some (133 * unitNs) }))
theorem BridgeLinksTrainMeasureAndCarryFrames_witness :
    (∀ st ∈ [1, 2, 3], (blW st).Sound ∧ (blW st).Live 0 ∧ (blW st).Live 4001) ∧
    (blW 1).Reaches 0 .mgmt (F.BL_CTRL_EN.addr 0 0) (setB 0 3) ∧ (blW 1).Reaches 0 .mgmt (F.BL_CTRL_EN.addr 15 0) (clrB 5 1) ∧
    (blW 3).Reaches 0 .mgmt (F.BL_CTRL_EN.addr 0 0) (setB 4 8) ∧
    (let u := (blW 1).wait 0
     u.blState 0 = 1 ∧ u.bl[(0 : Fin 16)].needTrain = false ∧ u.bl[(1 : Fin 16)].needTrain = true ∧ u.fget F.BL_CTRL_AUTOTRN 1 = 0) ∧
    (let u := (blW 2).wait 0
     u.blState 0 = 2 ∧ 16 ≤ u.bl[(0 : Fin 16)].pingsSent ∧ u.bl[(0 : Fin 16)].delays.length = 12 ∧
     u.bl[(0 : Fin 16)].pings.find? (fun p => p.1 == 7) = none ∧ u.bl[(0 : Fin 16)].pings.find? (fun p => p.1 == 0) = some (0, 0) ∧
     u.uiNow ≤ 0 + 5000 ∧ 0 + 5000 < ((blW 2).wait 4001).uiNow ∧ (((blW 2).fset F.BL_STATUS_STATE 2 3).wait 0).blState 3 = 2 ∧
     u.bl[(3 : Fin 16)].pingsSent < 16 ∧ u.bl[(3 : Fin 16)].delays.length < 12) ∧
    (let u := (blW 3).wait 0
     u.seq.next = some (133 * unitNs) ∧ u.run < 133 * unitNs ∧ u.blState 0 = 3 ∧ u.fget F.CYC_STATUS_RUNNING = 1 ∧
     u.bl[(0 : Fin 16)].syncFor ≠ 133 * unitNs ∧
     nearest (((((133 * unitNs - u.run) * 1000 / unitNs : Nat) : Int) - u.fget F.BL_LAT 0 : Int) / (800 : Int)) = 111 ∧
     u.flag F.CYC_STATUS_RUNNING = true ∧
     u.bl[(0 : Fin 16)].codeErrs + 0 ≤ 8 ∧ 8 < u.bl[(0 : Fin 16)].codeErrs + 1 ∧ u.fget F.BL_LAT 1 = 0) ∧
    (let u := (blW 3).wait 2
     u.run < 133 * unitNs ∧ nearest (((((133 * unitNs - u.run) * 1000 / unitNs : Nat) : Int) - u.fget F.BL_LAT 0 : Int) / (800 : Int)) = 109) ∧
    (let u := (blW 2).wait 0
     u.phys < max ((u.modBl 0 (fun b => { b with setTill := 4 })).bl[(0 : Fin 16)].setTill) 0 ∧ max u.bl[(0 : Fin 16)].setTill u.bl[(0 : Fin 16)].frameTill ≤ u.phys ∧
     u.bl[(3 : Fin 16)].pings = [] ∧ u.bl[(0 : Fin 16)].pingAt + 4000 < ((blW 2).wait 4001).phys) ∧
    (let bad := lineGroups false (frameSyms (List.replicate 41 7))
     let x := takeFrame bridgeSets [0x3C, 0x7C] bad false
     x.begun = true ∧ x.bytes.length = 41 ∧ x.errs = 0 ∧ x.whole = true) ∧
    lineErrors bridgeSets [0, 0] false = 2 ∧ lineErrors bridgeSets (lineGroups true [.k 0xBC, .d 5]) true = 0 := by
  refine ⟨?_, by exact reaches_mgmt (by unfold State.Live; decide +kernel) (by decide +kernel) (by decide +kernel), by exact reaches_mgmt (by unfold State.Live; decide +kernel) (by decide +kernel) (by decide +kernel), by exact reaches_mgmt (by unfold State.Live; decide +kernel) (by decide +kernel) (by decide +kernel), by decide +kernel, by decide +kernel, by decide +kernel, by decide +kernel, by decide +kernel,
    by decide +kernel, by decide +kernel, by decide +kernel⟩
  intro st h
  simp only [List.mem_cons, List.not_mem_nil, or_false] at h
  rcases h with rfl | rfl | rfl <;> exact ⟨by unfold State.Sound; decide +kernel, by unfold State.Live; decide +kernel, by unfold State.Live; decide +kernel⟩

def jetW (st : Nat) : State :=
  let s := (((State.reset.fset F.JL_STATUS_STATE st 7).fset F.JL_STATUS_NMOD 1 7).fset F.JL_STATUS_STATE st 6).setFlag F.JL_CTRL_AUTOTRN false 6
  (s.modJet 7 (fun x => { x with sums := List.replicate 12 (0, 2500000), outst := [] })).modJet 6 (fun x => { x with
    needTrain := true, reqs := 16, outst := [(0, 15, 0)] })
theorem JetLinksTrainAndMeasure_witness :
    (∀ st ∈ [1, 2, 3, 4, 5], (jetW st).Sound ∧ (jetW st).Live 0 ∧ (jetW st).Live 100000) ∧
    (jetW 1).Reaches 0 .mgmt (F.JL_CTRL_EN.addr 7 0) (setB 0 3) ∧ (jetW 1).Reaches 0 .mgmt (F.JL_CTRL_EN.addr 0 0) (clrB 5 1) ∧
    (let u := (jetW 1).wait 0
     u.jlState 7 = 1 ∧ u.jet[(7 : Fin 8)].needTrain = false ∧ u.jet[(6 : Fin 8)].needTrain = true ∧ u.fget F.JL_CTRL_AUTOTRN 6 = 0 ∧
     u.jet[(7 : Fin 8)].errs = []) ∧
    (let u := (jetW 2).wait 100000
     u.jlState 7 = 2 ∧ u.phys ≤ u.jet[(7 : Fin 8)].enumAt + 100000 ∧ u.jet[(7 : Fin 8)].enumAt + 100000 ≤ u.phys ∧ u.fget F.JL_CFG_EXPN 7 = 0) ∧
    ((jetW 2).wait 0).phys < ((jetW 2).wait 0).jet[(7 : Fin 8)].enumAt + 100000 ∧
    (let u := (jetW 3).wait 0
     u.jlState 7 = 3 ∧ u.fget F.JL_STATUS_NMOD 7 = 1 ∧ u.jet[(7 : Fin 8)].reqs = 0 ∧ u.jlState 6 = 3 ∧
     u.jet[(6 : Fin 8)].outst.find? (fun o => o.1 == 0 + 256 * 0 && o.2.1 == 15) = some (0, 15, 0) ∧ u.phys ≤ 0 + 8000) ∧
    (let u := ((jetW 3).modJet 7 (fun x => { x with reqs := 16 })).wait 0
     16 * u.fget F.JL_STATUS_NMOD 7 ≤ u.jet[(7 : Fin 8)].reqs ∧ u.jet[(7 : Fin 8)].reqAt + 1000 ≤ ((jetW 3).wait 100000).phys ∧ u.jet[(7 : Fin 8)].outst = [] ∧
     ∀ p ∈ List.range (u.fget F.JL_STATUS_NMOD 7), 12 ≤ (u.jet[(7 : Fin 8)].sums.filter (fun x => x.1 == p)).length) ∧
    (let u := (((jetW 3).modJet 5 (fun x => { x with reqs := 16 })).fset F.JL_STATUS_STATE 3 5).fset F.JL_STATUS_NMOD 1 5 |>.wait 0
     ¬ ∀ p ∈ List.range (u.fget F.JL_STATUS_NMOD 5), 12 ≤ (u.jet[(5 : Fin 8)].sums.filter (fun x => x.1 == p)).length) ∧
    (let u := (jetW 4).wait 100000
     u.jlState 7 = 4 ∧ u.fget F.JL_STATUS_NMOD 7 = 1 ∧ u.jet[(7 : Fin 8)].reqAt + 16000 ≤ u.phys ∧ ((jetW 4).wait 0).phys < u.jet[(7 : Fin 8)].reqAt + 16000) ∧
    (let x := takeFrame jetSets [0x3C] (lineGroups true (frameSyms [7]) ++ [0]) true
     x.begun = true ∧ lineErrors jetSets (List.replicate 16 0) true = 16) ∧
    (let x := takeFrame jetSets [0x3C] ((lineGroups true (frameSyms [7])).take 2) true
     x.begun = true ∧ x.whole = false) := by
  refine ⟨?_, by exact reaches_mgmt (by unfold State.Live; decide +kernel) (by decide +kernel) (by decide +kernel), by exact reaches_mgmt (by unfold State.Live; decide +kernel) (by decide +kernel) (by decide +kernel), by decide +kernel, by decide +kernel, by decide +kernel, by decide +kernel, by decide +kernel, by decide +kernel, by decide +kernel, by decide +kernel, by decide +kernel⟩
  intro st h
  simp only [List.mem_cons, List.not_mem_nil, or_false] at h
  rcases h with rfl | rfl | rfl | rfl | rfl <;> exact ⟨by unfold State.Sound; decide +kernel, by unfold State.Live; decide +kernel, by unfold State.Live; decide +kernel⟩

def jet2W (st : Nat) : State :=
  let s := ((((State.reset.fset F.JL_STATUS_STATE st 7).fset F.JL_STATUS_STATE st 0).fset F.JL_STATUS_MODOK 0x8001 7).setFlag F.JL_DLSTAT_BUSY true 0).setMem32 (0x0500_000C + 32 * 127) 2048
  let q := s.modJet 7 (fun x => { x with queue := [⟨16, .timeIdle⟩], heard := [(0, 1000), (15, 0)], dl := some (1, some 0) })
  { q with phys := 4000000, run := 5000 * unitNs, lclk := 5000 * unitNs }
theorem JetFramesDownloadsAndReports_witness :
    (∀ st ∈ [3, 4], (jet2W st).Sound ∧ (jet2W st).Live 0) ∧ (jet2W 4).Reaches 0 .mgmt (F.BAR_CRESET.addr 15 0) 1 ∧
    (jet2W 4).Reaches 0 .mgmt (F.JL_DL_GO.addr 7 0) (setB 0xF 16) ∧ (jet2W 4).Reaches 0 .mgmt (F.JL_DL_GO.addr 0 0) (setB 0 16) ∧
    (let u := (jet2W 4).wait 0
     u.jlState 7 = 4 ∧ u.jet[(7 : Fin 8)].mark < u.nowNs / 1000 ∧ u.jet[(7 : Fin 8)].echoTill ≤ u.phys ∧ u.jet[(7 : Fin 8)].stepTill ≤ u.phys ∧
     u.jet[(7 : Fin 8)].queue.any (fun f => f.rank.1 == 0) = false ∧ u.jet[(7 : Fin 8)].queue.any (fun f => f.rank.1 == 5) = true ∧
     u.jet[(0 : Fin 8)].queue.any (fun f => f.rank.1 == 5) = false ∧ u.jet[(0 : Fin 8)].queue = [] ∧ u.jet[(7 : Fin 8)].busy ≤ u.phys ∧
     (u.jlPick 7).isSome = true ∧ u.flag F.JL_DLSTAT_BUSY 0 = true ∧ u.flag F.JL_DLSTAT_BUSY 7 = false ∧ u.modNcol (16 * 7 + 15) = 2048 ∧
     u.modNcol (16 * 7 + 14) = 0 ∧ u.geomOpen = true ∧ (u.lodge .skew false (0x0504_0000 + 4096 * (16 * 7 + 15))).1 = true ∧ u.badPar = [] ∧
     (u.lodge .skew true (0x050C_0000 + 2048 * (16 * 7 + 15))).1 = true ∧ u.jet[(7 : Fin 8)].dl = some (1, some 0) ∧ 0 + 4000000 ≤ u.phys ∧ bit (u.fget F.JL_STATUS_MODOK 7) 0 = true ∧
     bit (u.fget F.JL_STATUS_MODOK 7) 15 = true ∧ u.phys < 1000 + 4000000 ∧ ¬ u.phys < 0 + 4000000) := by
  refine ⟨?_, by exact reaches_mgmt (by unfold State.Live; decide +kernel) (by decide +kernel) (by decide +kernel), by exact reaches_mgmt (by unfold State.Live; decide +kernel) (by decide +kernel) (by decide +kernel), by exact reaches_mgmt (by unfold State.Live; decide +kernel) (by decide +kernel) (by decide +kernel), by decide +kernel⟩
  intro st h
  simp only [List.mem_cons, List.not_mem_nil, or_false] at h
  rcases h with rfl | rfl <;> exact ⟨by unfold State.Sound; decide +kernel, by unfold State.Live; decide +kernel⟩

def gouW19 (st : Nat) (f : GCore → GCore) : State := (State.reset.modCore 9 f).fset F.GOUGE_STATUS_STATE st 9
def dieW19 : State := { (gouW19 1 (fun c => { c with outst := [.load 0x08000000 false (.main 7) 0], fence := true })).fset F.GOUGE_CTRL_PLIM 0 9
  with badPar := [0x08000000] }
theorem GougeSumsSaturateOrWrap_witness :
    (∀ q ∈ [gouW19 0 id, gouW19 3 id, gouW19 4 (fun c => { c with wrote := [.a false 3, .d (.main 0)], base := some {} }),
        gouW19 1 (fun c => { c with regs := { c.regs with le := #v[0, 0], lc := #v[1, 1], ls := #v[5, 2] } }), dieW19],
      q.Sound ∧ (q.wait 0).off = false) ∧
    (gouW19 0 id).coreDead 9 = false ∧ (gouW19 3 id).coreDead 9 = true ∧
    (gouW19 1 (fun c => { c with regs := { c.regs with le := #v[0, 0], lc := #v[1, 1], ls := #v[5, 2] } })).badLoops 9 ∧
    (gouW19 4 (fun c => { c with wrote := [.a false 3, .d (.main 0)], base := some {} })).core[(9 : Fin 10)].wrote.contains (.a false 3) = true ∧
    dieW19.coreDead 9 = false ∧ (dieW19.interlock 9 []).coreDead 9 = true := by
  unfold State.Sound State.badLoops; decide +kernel

def gouW20 (st : Nat) (f : GCore → GCore) : State := (State.reset.modCore 9 f).fset F.GOUGE_STATUS_STATE st 9
def dieW20 : State := { (gouW20 1 (fun c => { c with outst := [.load 0x08000000 false (.main 7) 0], fence := true })).fset F.GOUGE_CTRL_PLIM 0 9
  with badPar := [0x08000000] }
theorem GougeShiftsDividesConvertsAndWordOps_witness :
    (∀ q ∈ [gouW20 0 id, gouW20 3 id, gouW20 4 (fun c => { c with wrote := [.a false 3, .d (.main 0)], base := some {} }),
        gouW20 1 (fun c => { c with regs := { c.regs with le := #v[0, 0], lc := #v[1, 1], ls := #v[5, 2] } }), dieW20],
      q.Sound ∧ (q.wait 0).off = false) ∧
    (gouW20 0 id).coreDead 9 = false ∧ (gouW20 3 id).coreDead 9 = true ∧
    (gouW20 1 (fun c => { c with regs := { c.regs with le := #v[0, 0], lc := #v[1, 1], ls := #v[5, 2] } })).badLoops 9 ∧
    (gouW20 4 (fun c => { c with wrote := [.a false 3, .d (.main 0)], base := some {} })).core[(9 : Fin 10)].wrote.contains (.a false 3) = true ∧
    dieW20.coreDead 9 = false ∧ (dieW20.interlock 9 []).coreDead 9 = true ∧
    (let s := gouW20 1 (fun c => { c with regs := c.regs.put (.main 0) 1 })
     s.Sound ∧ 0 < ((s.wait 0).core[(9 : Fin 10)].regs.d 0).toInt ∧ ((s.wait 0).core[(9 : Fin 10)].regs.a 0).toNat < 2 ^ 23) ∧
    ((gouW20 0 id).core[(9 : Fin 10)].regs.d 0).toInt ≤ 0 := by
  unfold State.Sound State.badLoops; decide +kernel

def gouW21 (st : Nat) (f : GCore → GCore) : State := (State.reset.modCore 9 f).fset F.GOUGE_STATUS_STATE st 9
def dieW21 : State := { (gouW21 1 (fun c => { c with outst := [.load 0x08000000 false (.main 7) 0], fence := true })).fset F.GOUGE_CTRL_PLIM 0 9
  with badPar := [0x08000000] }
theorem GougeLoadsStoresAndAtomics_witness :
    (∀ q ∈ [gouW21 0 id, gouW21 3 id, gouW21 4 (fun c => { c with wrote := [.a false 3, .d (.main 0)], base := some {} }),
        gouW21 1 (fun c => { c with regs := { c.regs with le := #v[0, 0], lc := #v[1, 1], ls := #v[5, 2] } }), dieW21],
      q.Sound ∧ (q.wait 0).off = false) ∧
    (gouW21 0 id).coreDead 9 = false ∧ (gouW21 3 id).coreDead 9 = true ∧
    (gouW21 1 (fun c => { c with regs := { c.regs with le := #v[0, 0], lc := #v[1, 1], ls := #v[5, 2] } })).badLoops 9 ∧
    (gouW21 4 (fun c => { c with wrote := [.a false 3, .d (.main 0)], base := some {} })).core[(9 : Fin 10)].wrote.contains (.a false 3) = true ∧
    dieW21.coreDead 9 = false ∧ (dieW21.interlock 9 []).coreDead 9 = true ∧
    (∀ q ∈ [((0x7FFF, 0) : Nat × Nat), (0x8000, 0), (0x1FFFF, 4), (0x20000, 3), (0x3FFFF, 4)],
      let s := gouW21 1 (fun c => { c with regs := c.regs.setP 0 (BitVec.ofNat 18 q.1), outst := List.replicate q.2 (.store 0x08000000 5) })
      s.Sound ∧ s.core[(9 : Fin 10)].regs.access 0 .none 0 = some (q.1, s.core[(9 : Fin 10)].regs) ∧
      s.core[(9 : Fin 10)].outst.length = q.2) ∧
    (gouW21 0 (fun c => { c with regs := { c.regs with m := c.regs.m.set 0 0xC0000000 } })).core[(9 : Fin 10)].regs.access 0 .inc 0 = none ∧
    ({ gouW21 0 id with badPar := [localAddr 9 0] } : State).parityBad (localAddr ((gouW21 0 id).owner 9) 0) = true ∧ (gouW21 0 id).badPar = [] := by
  unfold State.Sound State.badLoops; decide +kernel

def gouW22 (st : Nat) (f : GCore → GCore) : State := (State.reset.modCore 9 f).fset F.GOUGE_STATUS_STATE st 9
def dieW22 : State := { (gouW22 1 (fun c => { c with outst := [.load 0x08000000 false (.main 7) 0], fence := true })).fset F.GOUGE_CTRL_PLIM 0 9
  with badPar := [0x08000000] }
theorem GougeRegisterMovesWriteTheNamedBits_witness :
    (∀ q ∈ [gouW22 0 id, gouW22 3 id, gouW22 4 (fun c => { c with wrote := [.a false 3, .d (.main 0)], base := some {} }),
        gouW22 1 (fun c => { c with regs := { c.regs with le := #v[0, 0], lc := #v[1, 1], ls := #v[5, 2] } }), dieW22],
      q.Sound ∧ (q.wait 0).off = false) ∧
    (gouW22 0 id).coreDead 9 = false ∧ (gouW22 3 id).coreDead 9 = true ∧
    (gouW22 1 (fun c => { c with regs := { c.regs with le := #v[0, 0], lc := #v[1, 1], ls := #v[5, 2] } })).badLoops 9 ∧
    (gouW22 4 (fun c => { c with wrote := [.a false 3, .d (.main 0)], base := some {} })).core[(9 : Fin 10)].wrote.contains (.a false 3) = true ∧
    dieW22.coreDead 9 = false ∧ (dieW22.interlock 9 []).coreDead 9 = true := by
  unfold State.Sound State.badLoops; decide +kernel

def gouW23 (st : Nat) (f : GCore → GCore) : State := (State.reset.modCore 9 f).fset F.GOUGE_STATUS_STATE st 9
def dieW23 : State := { (gouW23 1 (fun c => { c with outst := [.load 0x08000000 false (.main 7) 0], fence := true })).fset F.GOUGE_CTRL_PLIM 0 9
  with badPar := [0x08000000] }
theorem GougeControlFlowBranchesCallsAndLoops_witness :
    (∀ q ∈ [gouW23 0 id, gouW23 3 id, gouW23 4 (fun c => { c with wrote := [.a false 3, .d (.main 0)], base := some {} }),
        gouW23 1 (fun c => { c with regs := { c.regs with le := #v[0, 0], lc := #v[1, 1], ls := #v[5, 2] } }), dieW23],
      q.Sound ∧ (q.wait 0).off = false) ∧
    (gouW23 0 id).coreDead 9 = false ∧ (gouW23 3 id).coreDead 9 = true ∧
    (gouW23 1 (fun c => { c with regs := { c.regs with le := #v[0, 0], lc := #v[1, 1], ls := #v[5, 2] } })).badLoops 9 ∧
    (gouW23 4 (fun c => { c with wrote := [.a false 3, .d (.main 0)], base := some {} })).core[(9 : Fin 10)].wrote.contains (.a false 3) = true ∧
    dieW23.coreDead 9 = false ∧ (dieW23.interlock 9 []).coreDead 9 = true ∧
    (∀ k ∈ [0, 7, 8], (gouW23 1 (fun c => { c with stack := List.replicate k 5 })).core[(9 : Fin 10)].stack.length = k) ∧
    (gouW23 1 (fun c => { c with regs := { c.regs with inEvt := true } })).core[(9 : Fin 10)].regs.inEvt = true ∧
    (gouW23 1 id).core[(9 : Fin 10)].atLoopEnd = false ∧ (gouW23 1 id).core[(9 : Fin 10)].nextPc = none ∧
    (gouW23 1 id).core[(9 : Fin 10)].base = none ∧
    (gouW23 1 (fun c => { c with regs := { c.regs with lc := #v[1, 0] } })).core[(9 : Fin 10)].atLoopEnd = true := by
  unfold State.Sound State.badLoops; decide +kernel

def loopsW (lc le : Vector (BitVec 14) 2) (w : List (Nat × Nat × Nat)) : State :=
  State.reset.modCore 9 (fun c => { c with loopWrites := w, regs := { c.regs with
    lc := #v[lc[0].setWidth 16, lc[1].setWidth 16], le := le, ls := #v[0, 0] } })
def modRegsW (m p : Nat) : GRegs := { m := Vector.replicate 8 (BitVec.ofNat 32 m), main := { p := Vector.replicate 8 (BitVec.ofNat 18 p) } }
theorem GougeAddressModificationsAndLoopEnds_witness :
    (∀ q ∈ [(16384, 14, 16383), (16384, 14, 32767), (1, 0, 0x3FFFF), (5, 3, 4), (5, 3, 12)],
      let r := modRegsW (2 ^ 30 + (q.1 - 1) * 2 ^ 16 + q.1 % 2 ^ 15) q.2.2
      let K := r.m[(0 : Fin 8)].toNat / 2 ^ 16 % 2 ^ 14 + 1
      K = q.1 ∧ r.m[(0 : Fin 8)].toNat / 2 ^ 30 = 1 ∧ K ≤ 2 ^ q.2.1 ∧ (q.2.1 = 0 ∨ 2 ^ (q.2.1 - 1) < K) ∧
      (r.p 0).toNat % 2 ^ q.2.1 < K ∧ (BitVec.ofNat 16 r.m[(0 : Fin 8)].toNat).toInt ≤ K) ∧
    (let r := modRegsW (2 ^ 30 + 4 * 2 ^ 16 + 6) 7
     ¬ ((r.p 0).toNat % 8 < 5) ∧ ¬ ((BitVec.ofNat 16 r.m[(0 : Fin 8)].toNat).toInt ≤ 5)) ∧
    (∀ e : Fin 15, (modRegsW (2 ^ 31 + (2 ^ e.val - 1) * 2 ^ 16 + 8) 5).m[(0 : Fin 8)].toNat / 2 ^ 16 % 2 ^ 14 + 1 = 2 ^ e.val) ∧
    (List.range 15).all (fun e => decide ((modRegsW (2 ^ 31 + 2 * 2 ^ 16) 5).m[(0 : Fin 8)].toNat / 2 ^ 16 % 2 ^ 14 + 1 ≠ 2 ^ e)) = true ∧
    (modRegsW (2 ^ 32 - 1) 5).m[(0 : Fin 8)].toNat / 2 ^ 30 = 3 ∧
    (∀ q ∈ [loopsW #v[0, 2] #v[0, 0] [], loopsW #v[0, 1] #v[9, 0] [], loopsW #v[1, 1] #v[0, 0] [], loopsW #v[2, 1] #v[0, 0] [],
        loopsW #v[2, 0] #v[0, 0] [], loopsW #v[1, 0] #v[0, 5] [], loopsW #v[0, 0] #v[0, 0] [],
        loopsW #v[0, 0] #v[5, 6] [(2, 3, 7)], loopsW #v[0, 0] #v[5, 6] [(1, 0, 65535)]],
      q.Sound ∧ (q.wait 0).off = false ∧ (q.wait 0).coreDead 9 = false ∧ ((q.wait 0).interlock 9 []).coreDead 9 = false ∧
      (q.wait 0).core[(9 : Fin 10)].base = none ∧ q.core[(9 : Fin 10)].nextPc = none ∧ q.core[(9 : Fin 10)].endTask = false ∧
      q.core[(9 : Fin 10)].regs.nested = true) := by
  unfold State.Sound; decide +kernel

def panW (o : List PanAcc) (a : List (DLoc × BitVec 24)) : State :=
  { (State.reset.modCore 9 (fun c => { c with outst := o, arrivals := a })) with phys := 12 }
theorem PantryAccessesCompleteInOrder_witness :
    (∀ q ∈ [([], []), ([], [(DLoc.win 31, (5 : BitVec 24))]), ([.load 0x081FFFFC true (.shadow 15) 0], []),
        ([.load 0x08000000 false (.main 0) 1], []), ([.store 0x081FFFFC 0xFFFFFFFF], []),
        ([.xadd 0x08000000 0x800000 (.main 7)], []), ([.xswp 0x08000000 0xFFFFFF (.win 0)], [])],
      let s := panW q.1 q.2
      s.Sound ∧ s.Live 0 ∧ (s.wait 0).core[(9 : Fin 10)].outst = q.1 ∧ (s.wait 0).core[(9 : Fin 10)].arrivals = q.2 ∧
      (s.wait 0).phys = 12 ∧ 2 * q.1.length + q.2.length ≤ 32) ∧
    (∀ a ∈ [0x08000000, 0x081FFFFC], ∀ w ∈ [true, false], (((panW [] []).wait 0).lodge (.gouge 9) w a).1 = true) ∧
    (∀ o ∈ [[PanAcc.load 0x08000000 false (.main 0) 0], [.store 0x08000000 5]],
      let r := ((panW o []).fset F.LODGE_BWORLD 2 0 5).fset F.LODGE_BWORLD 0 0 4
      let s := r
      s.Sound ∧ s.Live 0 ∧ (s.wait 0).core[(9 : Fin 10)].outst = o ∧
      ((s.wait 0).lodge (.gouge 9) false 0x08000000).1 = false ∧ ((s.wait 0).lodge (.gouge 9) true 0x08000000).1 = false) ∧
    ({ panW [] [] with badPar := [0x08000000] } : State).parityBad 0x08000000 = true := by
  unfold State.Sound State.Live; decide +kernel

def marchW (sl : Nat) (b p : Option Nat) : State :=
  { (State.reset.setFlag F.PAN_MARCH_CTRL_EN true) with march := { slice := sl, backoff := b, pause := p }, run := 5 }
theorem MarchEngineTestsSlicesInOrder_witness :
    (∀ q ∈ [(8191, none, none), (0, some 5, none), (0, none, some 5), (3, some 6, none), (3, none, some 6)],
      let s := marchW q.1 q.2.1 q.2.2
      s.Sound ∧ s.Live 0 ∧ (s.wait 0).march.slice < 8192 ∧ (s.wait 0).flag F.PAN_MARCH_CTRL_EN = true ∧
      (s.wait 0).march.under = none ∧ (s.wait 0).march.backoff = q.2.1 ∧ (s.wait 0).march.pause = q.2.2 ∧
      (s.wait 0).run = 5) := by
  unfold State.Sound State.Live; decide +kernel

def taskW (st spare : Nat) (f : GCore → GCore) : State :=
  let s := (((State.reset.modCore 0 f).fset F.GOUGE_STATUS_STATE st 0).fset F.GS_GOUGE_SPARE_CORE spare).setFlag F.CYC_STATUS_RUNNING true
  let t := (((s.fset F.GOUGE_STATUS_STATE 2 9).fset F.GOUGE_SLOT_EN 1 0 31).fset F.GOUGE_SLOT_PHASE 0xFFF 0 31).fset F.GOUGE_EVPEND (2 ^ 31) 0 7
  { ((t.fset F.GOUGE_SLOTCK_CKWORDS 4 0 31).fset F.GOUGE_SLOTCK_CKBASE 0x80000 0 31).setMem32 0x08000010 (7 * 2 ^ 16) with
    run := 20 * 0xFFF * unitNs, seq := { t.seq with k := 8, nDiv := 4, mDiv := 4, start := 0 } }
theorem GougeTasksStartAndCoresFault_witness :
    (∀ st ∈ [0, 1, 2, 3, 4], ∀ sp ∈ [9, 0, 0xF], (taskW st sp id).Sound ∧ (taskW st sp id).Live 0) ∧
    (let u := (taskW 1 9 (fun c => { c with todo := [31] })).wait 0
     u.coreState 0 = 1 ∧ u.flag F.CYC_STATUS_RUNNING = true ∧ u.core[(0 : Fin 10)].todo.head? = some 31 ∧ u.owner 0 = 0 ∧
     u.seq.start + 20 * u.fget F.GOUGE_SLOT_PHASE (u.owner 0) 31 * unitNs ≤ u.run ∧ u.flag F.GOUGE_SLOT_CL (u.owner 0) 31 = false ∧
     bit (u.fget F.GOUGE_EVPEND 0 7) 31 = true ∧
     (List.finRange 256).all (fun f => decide (255 ≤ f.val) || !bit (u.fget F.GOUGE_EVPEND 0 (f / 32)) (f % 32)) = true) ∧
    (((taskW 1 9 id).setFlag F.GOUGE_SLOT_CL true 0 31).fset F.AX_CFG_KIND 1 0).axKind 0 = 1 ∧
    ((((taskW 1 9 id).setFlag F.GOUGE_SLOT_CL true 0 31).fset F.AX_CFG_KIND 1 0).fset F.AX_FLD_CFG_ANGSRC 3 0).fieldLegal 0 = false ∧
    (taskW 1 9 id).fieldLegal 0 = true ∧
    (taskW 1 9 id).fget F.GS_GOUGE_SPARE_CORE = 9 ∧ (taskW 1 9 id).coreState 9 = 2 ∧ (taskW 1 9 id).flag F.GS_GOUGE_MIGR_VALID = false ∧
    (taskW 1 0xF id).fget F.GS_GOUGE_SPARE_CORE = 0xF ∧
    (let u := { taskW 1 9 id with run := 0 }
     u.clSlots 0 = [] ∧ ((u.setFlag F.GOUGE_SLOT_CL true 0 31).clSlots 0 = [31]) ∧ u.core[(0 : Fin 10)].servedBy 31 = [] ∧
     u.checkpoint 0 31 8 = none ∧ (u.checkpoint 0 31 7).isSome = true ∧ ¬ (u.seq.start + u.tiNs * 6 / 10 * unitNs < u.run)) ∧
    (∀ v ∈ [0, 0xFF01], (taskW 1 9 id).Reaches 0 .mgmt (F.GOUGE_CTRL_EN.addr 0 0) (setB (BitVec.ofNat 32 v) 2)) := by
  refine ⟨by unfold State.Sound State.Live; decide +kernel, by decide +kernel, by decide +kernel, by decide +kernel,
    by decide +kernel, by decide +kernel, by decide +kernel, by decide +kernel, by decide +kernel, by decide +kernel, ?_⟩
  intro v hv
  simp only [List.mem_cons, List.not_mem_nil, or_false] at hv
  rcases hv with rfl | rfl <;> exact reaches_mgmt (by unfold State.Live; decide +kernel) (by decide +kernel) (by decide +kernel)

def celW (st mode smode pre post alen per np : Nat) (c : Cellar) : State :=
  let r := [(F.CEL_STATUS_STATE, st), (F.CEL_CFG_MODE, mode), (F.CEL_CFG_SMODE, smode), (F.CEL_PRE, pre), (F.CEL_POST, post),
    (F.CEL_AREA_ALEN, alen), (F.CEL_PER, per)].foldl (fun (t : State) q => t.fset q.1 q.2) State.reset
  { (List.range np).foldl (fun (t : State) i => (t.fset F.CEL_PROBE_CFG_EN 1 0 (63 - i)).fset F.CEL_PROBE_CFG_KIND 8 0 (63 - i)) r with
    cel := c, run := 5 * unitNs, lclk := 5 * unitNs, phys := 5 }
def celTrigW (left : Nat) : CelTrig := ⟨5, 6, 255, true, false, 2, 1, left⟩
theorem CellarArmsSamplesTriggersAndStreams_witness :
    (∀ q ∈ [celW 0 0 0 0 0 64 0 1 {}, celW 0 0 0 0 0 64 0 0 {}, celW 3 0 0 8000 8000 1 0 1 {}, celW 0 0 0 0 0 64 0 5 {}, celW 0 1 0 0 0 1 0 1 {},
        celW 1 0 0 0 0 1 0 0 { trig := some (celTrigW 1) }, celW 2 0 0 0 5 1 0 0 { trig := some (celTrigW 2) }],
      q.Sound ∧ q.Live 0) ∧
    (∀ v ∈ [0, 1], (celW 0 0 0 0 0 64 0 1 {}).Reaches 0 .mgmt (F.CEL_CTRL_ARM.addr 0 0) (setB (BitVec.ofNat 32 v) 1)) ∧
    (celW 0 0 0 0 0 64 0 0 {}).Reaches 0 .mgmt (F.CEL_CTRL_ARM.addr 0 0) (setB 0 2) ∧
    (celW 0 0 0 0 0 64 0 0 {}).Reaches 0 .mgmt (F.CEL_CTRL_ARM.addr 0 0) (setB 0 4) ∧
    (celW 0 0 0 0 0 64 0 1 {}).celLegal = true ∧ ((celW 0 0 0 0 0 64 0 1 {}).fset F.CEL_CFG_SRATE 3).celLegal = false ∧
    (celW 0 0 0 0 0 64 0 5 {}).probesOn.length = 5 ∧ (celW 0 1 0 0 0 1 0 1 {}).stream = none ∧
    (let c : Cellar := { nextAt := some (5 * unitNs), force := true, autoFrom := some 0, w := 1, cap := 10, fifo := [(0, .row 7 [1])] }
     let u := (celW 4 0 0 0 0 1 0 0 c).wait 0
     u.run = 5 * unitNs ∧ u.cel.nextAt = some (5 * unitNs) ∧ u.cel.waiting = [] ∧ u.cel.auto = false ∧ u.cel.stepMarks = [] ∧ u.cel.lost = 0 ∧
     u.evs = [] ∧ u.badPar = [] ∧ (u.lodge .cellar true (0x0600_0000 + 65536 * u.fget F.CEL_AREA_ABASE)).1 = true ∧ u.fget F.CEL_CFG_SMODE = 0 ∧ u.fget F.CEL_CFG_ARMMODE = 0 ∧ u.fget F.CEL_CFG_RAFOUT = 0 ∧
     u.fget F.CEL_CFG_REQPRE = 0 ∧ u.celState = 4 ∧ u.fget F.CEL_STREAM_MAXDG = 1472 ∧ 28 + 4 ≤ u.fget F.CEL_STREAM_MAXDG) ∧
    ((celW 4 0 0 0 0 1 0 0 {}).fset F.CEL_STREAM_FLUSH 0).fget F.CEL_STREAM_FLUSH = 0 ∧
    (celW 1 0 0 5 0 1 0 0 {}).fget F.CEL_PRE = 5 ∧ ((celW 1 0 0 5 0 1 0 0 {}).fset F.CEL_CFG_REQPRE 1).fget F.CEL_CFG_REQPRE = 1 ∧
    ((celW 1 0 0 5 0 1 0 0 {}).fset F.CEL_CFG_ARMMODE 1).fget F.CEL_CFG_ARMMODE = 1 := by
  refine ⟨by unfold State.Sound State.Live; decide +kernel, ?_, by exact reaches_mgmt (by unfold State.Live; decide +kernel) (by decide +kernel) (by decide +kernel), by exact reaches_mgmt (by unfold State.Live; decide +kernel) (by decide +kernel) (by decide +kernel), by decide +kernel, by decide +kernel, by decide +kernel,
    by decide +kernel, by decide +kernel, by decide +kernel, by decide +kernel, by decide +kernel, by decide +kernel⟩
  intro v hv
  simp only [List.mem_cons, List.not_mem_nil, or_false] at hv
  rcases hv with rfl | rfl <;> exact reaches_mgmt (by unfold State.Live; decide +kernel) (by decide +kernel) (by decide +kernel)

def thrBlkW (en src : Nat) : List Nat :=
  [0x54, 0x48, 0x53, 0x46, 1, 0, 0, 0] ++ bytesLE 2 2 ++ bytesLE 2 1 ++ bytesLE 2 1 ++ bytesLE 2 20 ++ bytesLE 2 1 ++ bytesLE 2 1 ++
    [en, src, 0, 0] ++ (List.range 4).flatMap (fun g => bytesLE 8 (2 ^ (63 - g)) ++ bytesLE 2 (2 ^ (15 - g)) ++ List.replicate 6 0) ++
    List.replicate 36 0 ++ [1, 2, 3, 4]
def thrW (a b : ThrCh) (g : ThrGrp) (en src : Nat) (demand : Nat) : State :=
  { (State.reset.fset F.THRQ_THR_DEMAND demand) with
    phys := 60000000000, boot := { State.reset.boot with held := false }
    thr := { ch := #v[a, b], grp := Vector.replicate 4 g, block := some (thrBlkW en src) } }
def chW (lv : Bool) (df : Nat) : ThrCh :=
  { started := true, level := Vector.replicate 8 lv, band := Vector.replicate 4 1, diff := Vector.replicate 4 df, run := Vector.replicate 8 1
    dec := Vector.replicate 4 true, heard := Vector.replicate 4 true }
theorem ThresholdTripsLatchesAndResets_witness :
    (∀ q ∈ [thrW (chW true 0) (chW true 0) { state := 2 } 15 0 0, thrW {} (chW true 0) { state := 2 } 15 0 0,
        thrW { chW true 0 with faulty := true } (chW true 0) { state := 2, degr := true } 15 0 0],
      q.Sound ∧ (q.wait 0).boot.held = false ∧ q.thr.block ≠ none ∧ bit (ofBytesLE (((q.thr.block.getD []).drop 0x14).take 1)) 3 = true) ∧
    (∀ v ∈ [0, 15], (thrW (chW true 0) (chW true 0) {} 15 0 0).Reaches 0 .mgmt (F.THRQ_THR_DEMAND.addr 0 0) (BitVec.ofNat 32 v).toNat) ∧
    (∀ v ∈ [0x5AC3000F, 0x5AC20001], (thrW (chW true 0) (chW true 0) {} 15 0 0).Reaches 0 .mgmt (F.THRQ_THR_RSTREQ_KEY.addr 0 0) (BitVec.ofNat 32 v).toNat) ∧
    (let u := (thrW { chW true 4 with level := #v[true, true, true, true, true, true, true, false], diff := #v[0, 0, 0, 4] } (chW true 0)
        { state := 2, settle := 60000000001 } 15 0 8).wait 0
     u.thr.ch[(0 : Fin 2)].level[(6 : Fin 8)] = true ∧ u.thr.ch[(0 : Fin 2)].level[(7 : Fin 8)] = false ∧ u.thr.ch[(0 : Fin 2)].diff[(3 : Fin 4)] + 1 = 4 * 1 + 1 ∧
     u.phys < u.thr.grp[(3 : Fin 4)].settle ∧ bit (u.fget F.THRQ_THR_DEMAND) 3 = true) ∧
    (let u := (thrW (chW true 0) (chW true 0) { state := 1, settle := 60000000001, req := true, cycled := true } 15 0 0).wait 0
     u.thr.expected 3 = 1 ∧ u.thr.ch[(0 : Fin 2)].band[(3 : Fin 4)] = 1 ∧ u.thr.ch[(1 : Fin 2)].band[(3 : Fin 4)] = 1 ∧
     bit (u.fget F.THRQ_THR_DEMAND) 3 = false ∧ u.thr.ch[(1 : Fin 2)].dec[(3 : Fin 4)] = true ∧ u.thr.ch[(0 : Fin 2)].heard[(3 : Fin 4)] = true ∧
     u.thr.ch[(0 : Fin 2)].msgAt + 1000000 ≤ u.phys) := by
  refine ⟨by unfold State.Sound; decide +kernel, ?_, ?_, by decide +kernel, by decide +kernel⟩ <;>
  · intro v hv
    simp only [List.mem_cons, List.not_mem_nil, or_false] at hv
    rcases hv with rfl | rfl <;> exact reaches_mgmt (by unfold State.Live; decide +kernel) (by decide +kernel) (by decide +kernel)

def thrSecW : List Nat :=
  let a := (thrBlkW 15 0).take 124
  let n := a.map (fun x => 255 - x % 256)
  a ++ bytesLE 4 (crc32 a) ++ n ++ bytesLE 4 (crc32 n)
theorem ThresholdTestsItsSwitchesAndChannels_witness :
    safeGood thrSecW = true ∧ safeGood (thrSecW.set 8 3) = false ∧
    (∀ q ∈ [thrW (chW true 0) (chW true 0) { state := 2, nextTest := 60000000000, wantH := true } 15 0 0,
        thrW (chW true 0) (chW true 0) { state := 2, nextTest := 60000000000, rb := true } 15 0 0,
        thrW (chW true 0) (chW true 0) { state := 2, lowAt := some 60000000000 } 15 0 0,
        thrW (chW true 0) (chW true 0) { state := 2, test := some ⟨true, 60000000000 - 20000, true, true⟩, testGood := true } 15 0 0,
        thrW (chW true 0) (chW true 0) { state := 2, test := some ⟨false, 60000000000 - 20000, true, false⟩ } 15 0 0,
        thrW (chW true 0) (chW true 0) { state := 2, test := some ⟨true, 60000000000 - 20000, false, false⟩, degr := true } 15 0 0,
        thrW (chW true 0) (chW true 0) { state := 2, graceFrom := some 0, degr := true } 15 0 0],
      q.Sound ∧ (q.wait 0).boot.held = false ∧ (q.wait 0).phys = 60000000000) ∧
    (let u := (thrW (chW true 0) (chW true 0) {} 15 0 0).wait 0
     ofBytesLE (((u.thr.block.getD []).drop 14).take 2) = 20 ∧ ofBytesLE (((u.thr.block.getD []).drop 12).take 2) = 1) ∧
    (let s := thrW (chW true 0) {} { state := 3 } 15 0 0
     let t := { s with thr := { s.thr with offer := some thrSecW } }
     (t.wait 0).thr.ch[(1 : Fin 2)].started = false ∧ (t.wait 0).thr.ch[(0 : Fin 2)].started = true ∧ (t.wait 0).thr.offer = some thrSecW ∧
     ofBytesLE (((t.thr.block.getD []).drop 0x7C).take 4) ≠ ofBytesLE ((thrSecW.drop 0x7C).take 4) ∧
     t.thr.grp.any (fun x => x.state == 2) = false) := by
  refine ⟨by decide +kernel, by decide +kernel, by unfold State.Sound; decide +kernel, by decide +kernel, by decide +kernel⟩

def fltW (ready halt : Bool) (a : Attic) : State :=
  { ((State.reset.setFlag F.FLT_ATTIC_STATUS_READY ready).setFlag F.FLT_DEVFLT_HALT halt).setFlag F.FLT_FAULT_CFG_F3RESET true with
    attic := a, phys := 1000000 }
def recW (src : Nat) : AtticRec := ⟨0, 3, src, 255, 65535, [1, 2], 5, 6, 65535⟩
theorem FaultsHaltAndAtticRecords_witness :
    (∀ q ∈ [fltW true false {}, fltW true true { haltAt := some 0 }, fltW false false { urgent := [recW 1] }, fltW true false { urgent := [recW 1] },
        fltW true false { queue := [recW 0x0F] }, fltW true false { queue := List.replicate 16 (recW 0x0E), pairs := [(0x0E, 0, 0, 3)] },
        fltW true false { pairs := [(0x0E, 0, 1, 3)] }],
      q.Sound ∧ q.Live 0 ∧ (q.wait 0).phys = 1000000 ∧ (q.wait 0).boot.refLost = false ∧ (q.wait 0).boot.load = none) ∧
    ((fltW true true { haltAt := some 0 }).wait 0).attic.haltAt = some 0 ∧ (fltW true true {}).flag F.FLT_FAULT_CFG_F3RESET = true ∧
    (∀ v ∈ [0, 0xFF00FFFF], (fltW true false {}).Reaches 0 .mgmt (F.FLT_ATTIC_UWRITE_INST.addr 0 0) (BitVec.ofNat 32 v).toNat) ∧
    (∀ v ∈ [0xA5C30000, 0xA5C40001], (fltW true false {}).Reaches 0 .mgmt (F.FLT_ATTIC_CLEAR_KEY.addr 0 0) (setB (BitVec.ofNat 32 v) 1)) ∧
    (fltW false false {}).flag F.FLT_ATTIC_STATUS_READY = false ∧
    (List.range 4096).filterMap (fun i => (((fltW false false {}).wait 0).atticValid i).map (fun r => (i, r.1, r.2.1, r.2.2))) = [] ∧
    (let u := ((fltW false false {}).fset F.FLT_ATTIC_STATUS_HEAD 4095).atticWrite (recW 0x0F) []
     (u.atticValid 4095).isSome = true ∧ u.flag F.FLT_ATTIC_STATUS_READY = false ∧
     (List.range 4096).filterMap (fun i => (u.atticValid i).map (fun r => (i, r.1, r.2.1, r.2.2))) = [(4095, 0, 0, 0x0F)]) := by
  refine ⟨by unfold State.Sound State.Live; decide +kernel, by decide +kernel, by decide +kernel, ?_, ?_, by decide +kernel,
    by decide +kernel, by decide +kernel⟩ <;>
  · intro v hv
    simp only [List.mem_cons, List.not_mem_nil, or_false] at hv
    rcases hv with rfl | rfl <;> exact reaches_mgmt (by unfold State.Live; decide +kernel) (by decide +kernel) (by decide +kernel)

def hwCfgW (p : Fin 4) (mode : Nat) (pend : Bool) (h : Hallway) : State :=
  { ((((State.reset.fset F.HW_PORT_CFG_MODE mode 0 p).fset F.HW_QBV_CYCLE 1000 0 p).wset F.HW_QBV_BASE 77 0 p).setFlag F.HW_QBV_CTRL_PEND pend 0 p).setFlag
      F.HW_MDIO_CMD_BUSY h.mdio.isSome with hw := h, phys := 500, run := 500 * unitNs, lclk := 500 * unitNs }
theorem HallwayPortsMdioAddressesAndGateLists_witness :
    (∀ q ∈ [hwCfgW 3 4 true { mdio := some 0x1000_0000 }, hwCfgW 0 1 false { ops := Vector.replicate 4 ⟨1000, 0, [(1, 0), (0x80, 500), (0x7F, 300)]⟩ }],
      q.Sound ∧ q.Live 0) ∧
    (∀ p : Fin 4, ∀ v ∈ [0x0FFF0700, 0x0FFF070C, 0x4, 0x1, 0x3], (hwCfgW 3 4 true {}).Reaches 0 .mgmt (F.HW_PORT_CFG_MODE.addr 0 p) (BitVec.ofNat 32 v).toNat) ∧
    (∀ c ∈ [0xA0000000, 0x88000000, 0x90000000], ∀ v ∈ [0, 0x27FEFFFF], (hwCfgW 3 4 true {}).Reaches 0 .mgmt (F.HW_MDIO_CMD_GO.addr 0 0)
      (setB (BitVec.ofNat 32 v &&& 0x67FF_FFFF#32) c)) ∧
    (∀ p : Fin 4, ∀ v ∈ [0, 1], (hwCfgW 3 4 true {}).Reaches 0 .mgmt (F.HW_QBV_CTRL_EN.addr 0 p) (setB (BitVec.ofNat 32 v) 2)) ∧
    ((hwCfgW 3 4 true {}).wait 0).hw.start[(3 : Fin 4)] ≤ ((hwCfgW 3 4 true {}).wait 0).nowNs ∧
    ((hwCfgW 3 4 true {}).found 0 (F.HW_QBV_CTRL_EN.addr 0 3)).fget F.HW_QBV_CYCLE 0 3 = 1000 := by
  refine ⟨by unfold State.Sound State.Live; decide +kernel, ?_, ?_, ?_, by decide +kernel, by decide +kernel⟩
  · intro p v hv
    simp only [List.mem_cons, List.not_mem_nil, or_false] at hv
    have hp : p = 0 ∨ p = 1 ∨ p = 2 ∨ p = 3 := by revert p; decide
    rcases hp with rfl | rfl | rfl | rfl <;> rcases hv with rfl | rfl | rfl | rfl | rfl <;> exact reaches_mgmt (by unfold State.Live; decide +kernel) (by decide +kernel) (by decide +kernel)
  · intro c hc v hv
    simp only [List.mem_cons, List.not_mem_nil, or_false] at hc hv
    rcases hc with rfl | rfl | rfl <;> rcases hv with rfl | rfl <;> exact reaches_mgmt (by unfold State.Live; decide +kernel) (by decide +kernel) (by decide +kernel)
  · intro p v hv
    simp only [List.mem_cons, List.not_mem_nil, or_false] at hv
    have hp : p = 0 ∨ p = 1 ∨ p = 2 ∨ p = 3 := by revert p; decide
    rcases hp with rfl | rfl | rfl | rfl <;> rcases hv with rfl | rfl <;> exact reaches_mgmt (by unfold State.Live; decide +kernel) (by decide +kernel) (by decide +kernel)

def hwRxW (member rx : Nat) (q : List EFrame) : State :=
  { ((((State.reset.setFlag F.HW_CTRL_EN true).setFlag F.HW_PORT_STATUS_LINK true 0 3).setFlag F.HW_VLAN_EN true 0 63).fset F.HW_VLAN_VID 1 0 63).fset
      F.HW_VLAN_MEMBER member 0 63 with hw := { rx := List.replicate rx ⟨[1], 0, 0, 0, 0⟩, q := Vector.replicate 4 q } }
theorem HallwayFramesAreCheckedLearnedAndForwarded_witness :
    (∀ w ∈ [hwRxW 0x1F 255 [], hwRxW 0x1F 256 [⟨List.replicate 9000 0, 7, .none⟩], hwRxW 7 0 []], w.Sound ∧ w.Live 0 ∧
      let u := w.wait 0
      u.flag F.HW_CTRL_EN = true ∧ u.flag F.HW_PORT_STATUS_LINK 0 3 = true ∧ u.fget F.HW_MAXLEN = 1522 ∧ u.fget F.HW_PORT_CFG_PVID 0 3 = 1 ∧
      (List.range 64).filter (fun v => u.flag F.HW_VLAN_EN 0 v && u.fget F.HW_VLAN_VID 0 v == 1) = [63] ∧
      (List.range 64).filter (fun v => u.flag F.HW_VLAN_EN 0 v && u.fget F.HW_VLAN_VID 0 v == 2) = [] ∧
      u.wget F.HW_MAC = 0 ∧ u.wget F.HW_J_DMAC = 0) ∧
    State.reset.Live 0 ∧ (State.reset.wait 0).flag F.HW_CTRL_EN = false ∧
    ((hwRxW 0x1F 255 []).wait 0).fget F.HW_VLAN_MEMBER 0 63 / 2 ^ 3 % 2 = 1 ∧ ((hwRxW 7 0 []).wait 0).fget F.HW_VLAN_MEMBER 0 63 / 2 ^ 3 % 2 = 0 ∧
    ((hwRxW 0x1F 255 []).wait 0).hw.rx.length = 255 ∧ ((hwRxW 0x1F 255 []).wait 0).bufferHeld + 5 * 1526 ≤ 2 ^ 20 ∧
    (((hwRxW 0x1F 255 []).wait 0).hw.rx.foldl (fun k f => k + frLen f.bytes) 0) + 1526 ≤ 2 ^ 18 ∧
    ((List.replicate 1504 (0 : Byte)).length + 18 ≤ 1522) := by
  refine ⟨by unfold State.Sound State.Live; decide +kernel, by unfold State.Live; decide +kernel, ?_⟩
  decide +kernel

def hwTxW (f : List EFrame) (gate en busy : Nat) (cyc : Nat) : State :=
  { (((State.reset.fset F.HW_CTRL_EN en).setFlag F.HW_PORT_STATUS_LINK true 0 3).setFlag F.HW_QBV_CTRL_EN true 0 3).fset F.HW_PORT_STATUS_SPEED 4 0 3 with
    hw := { q := Vector.replicate 4 f, busy := Vector.replicate 4 busy, gates := Vector.replicate 4 gate,
            ops := Vector.replicate 4 ⟨cyc, 0, [(0x80, 71), (0x7F, 29)]⟩ } }
def hwMsgW (ty : Nat) : List Nat := List.replicate 12 1 ++ [0x88, 0xF7, ty] ++ List.replicate 45 0
def hwMsg6W (ty : Nat) : List Nat := List.replicate 12 1 ++ [0x86, 0xDD] ++ List.replicate 6 0 ++ [17] ++ List.replicate 35 0 ++ [1, 63, 0, 54, 0, 0, ty] ++
  List.replicate 45 0
theorem HallwayPortsSendByClassAndGates_witness :
    (∀ w ∈ [hwTxW [] 0x80 0 0 0, hwTxW [] 0x80 1 1 100, hwTxW [⟨hwMsgW 0, 7, .none⟩] 0x80 1 0 100, hwTxW [⟨hwMsgW 0, 6, .none⟩] 0x80 1 0 100,
        hwTxW [⟨hwMsgW 3, 7, .own 5⟩, ⟨[], 6, .none⟩] 0x80 1 0 100, hwTxW [⟨hwMsg6W 0, 7, .forwarded 9 3⟩] 0x80 1 0 0],
      w.Sound ∧ w.Live 0 ∧ (w.wait 0).rate = 2 ^ 40 ∧ (w.wait 0).lclk % unitNs = 0 ∧ (w.wait 0).nowNs = 0) ∧
    (let need := fun (f : EFrame) => ((max f.bytes.length 60 + 24) * 8 + 9) / 10
     let l : QbvList := ⟨100, 0, [(0x80, 71), (0x7F, 29)]⟩
     need ⟨hwMsgW 0, 7, .none⟩ = 68 ∧ (List.range 68).all (fun j => bit (qbvGates l j) 7) = true ∧
     (List.range 100).all (fun a => (List.range 68).any (fun j => !bit (qbvGates l (a + j)) 6)) = true) ∧
    ((hwTxW [⟨hwMsgW 3, 7, .own 5⟩] 0x80 1 0 100).wait 0).bufferHeld + 64 ≤ 2 ^ 20 ∧
    (hwMsg6W 0).length = 108 ∧ ofBytesBE (((hwMsg6W 0).drop 58).take 2) = 54 ∧ (hwMsgW 0).length = 60 := by
  refine ⟨by unfold State.Sound State.Live; decide +kernel, ?_⟩
  decide +kernel

def joW (en tmo : Nat) (j : Joist) : State :=
  { (((((((State.reset.setFlag F.HW_CTRL_EN true).setFlag F.HW_PORT_STATUS_LINK true 0 3).setFlag F.HW_VLAN_EN true 0 63).fset F.HW_VLAN_VID 1 0 63).fset
      F.HW_VLAN_MEMBER 8 0 63).fset F.HW_J_CFG_EN en).fset F.HW_J_CFG_TMO tmo).wset F.HW_J_OUTMASK (2 ^ 63 + 1) with jo := j }
theorem JoistFramesDepartAreAcceptedAndTimeOut_witness :
    (∀ w ∈ [joW 1 3 {}, joW 0 0 {}, joW 1 3 { due := [(1, 1, 5)] }, joW 1 3 { due := [(2 ^ 32, 0, 5)], seq := 65535, fltrst := 2 ^ 63 },
        joW 1 3 { counts := [(63, 3)] }, joW 1 3 { counts := [(63, 2)] }, joW 1 3 { sources := List.replicate 32 (1, 2, 3) },
        joW 1 3 { sources := [(65535, 65535, 2 ^ 63)] }],
      w.Sound ∧ w.Live 0 ∧ (let u := w.wait 0
      u.run = 0 ∧ u.flag F.HW_CTRL_EN = true ∧ u.flag F.HW_PORT_STATUS_LINK 0 3 = true ∧ u.fget F.HW_MAXLEN = 1522 ∧
      (List.range 64).filter (fun v => u.flag F.HW_VLAN_EN 0 v && u.fget F.HW_VLAN_VID 0 v == u.fget F.HW_PORT_CFG_PVID 0 3) = [63] ∧
      u.fget F.HW_VLAN_MEMBER 0 63 / 2 ^ 3 % 2 = 1 ∧ u.wget F.HW_J_DMAC < 2 ^ 48 ∧ (u.wget F.HW_J_TMOREC).testBit 63 = false)) ∧
    ((joW 1 3 {}).wait 0).flag F.HW_J_CFG_EN = true ∧ ((joW 1 3 {}).wait 0).fget F.HW_J_CFG_TMO = 3 ∧
    ((joW 0 0 {}).wait 0).flag F.HW_J_CFG_EN = false ∧
    (BitVec.ofInt 16 (0 - 65535)).toInt = 1 ∧ (BitVec.ofInt 16 (65535 - 65535)).toInt = 0 ∧ (BitVec.ofInt 16 (32767 - 65535)).toInt = -32768 ∧
    12 + 2 + 32 + 4 ≤ 1522 := by
  refine ⟨by unfold State.Sound State.Live; decide +kernel, ?_⟩
  decide +kernel

def zenW (loaded : Bool) (l : List Session) (op : Option FlashOp) : State :=
  { (State.reset.setFlag F.PWR_BOOT_STATUS_LOADED loaded) with sessions := l, zen := { netcfg := List.replicate 320 0, flashOp := op } }
theorem ZensorRequestsAreCheckedThenAct_witness :
    (∀ w ∈ [zenW false [] none, zenW true [] none, zenW true [⟨1, false, [], none, [], 0⟩] none, zenW true [⟨2, true, [1], some (2 ^ 32 - 2), [], 0⟩] none,
        zenW true [⟨2, true, [1], some 0, [], 0⟩] (some ⟨2, 0, 1, 0, false, []⟩)],
      w.Sound ∧ w.Live 0 ∧ (w.wait 0).zen.netcfg ≠ [] ∧ (w.wait 0).fget F.PWR_BOOT_STATUS_SLOT = 0) ∧
    ((zenW true [] none).wait 0).flag F.PWR_BOOT_STATUS_LOADED = true ∧
    (((zenW true [⟨1, false, [], none, [], 0⟩] none).wait 0).busRead (.session false) .b32 0x20_0414).toOption.isSome = true ∧
    (((zenW true [⟨1, false, [], none, [], 0⟩] none).wait 0).busWrite (.session false) .b32 0x20_0414 (2 ^ 16 - 1)).toOption.isSome = true ∧
    (((zenW true [⟨1, false, [], none, [], 0⟩] none).wait 0).busRead (.session false) .b32 0x20_0415).toOption.isSome = false ∧
    (((zenW true [⟨1, false, [], none, [], 0⟩] none).wait 0).busRead (.session false) .b32 0x0400_0008).toOption.isSome = true := by
  refine ⟨by unfold State.Sound State.Live; decide +kernel, by decide +kernel, by decide +kernel, by decide +kernel, by decide +kernel,
    by decide +kernel⟩

def zenPtW : Nat × Nat := p256g.getD (0, 0)
def zenHashW : Nat := ofBytesBE (sha256 ([0x5A, 0x4E, 0x53, 0x31] ++ bytesBE 16 5 ++ 4 :: bytesBE 32 zenPtW.1 ++ bytesBE 32 zenPtW.2))
def zenNetW (loaded : Bool) (flags tmo n : Nat) (f : Option FlashOp) (r : Option (StreamTo × Nat × Nat)) : State :=
  { (State.reset.setFlag F.PWR_BOOT_STATUS_LOADED loaded) with
    phys := 65535 * 10 ^ 9, sessions := List.replicate n ⟨2 ^ 32 - 1, true, [1], some 0, [], 0⟩,
    zen := { netcfg := [0, 0, flags, 0] ++ bytesLE 2 tmo ++ 1 :: List.replicate 57 0 ++ bytesBE 32 zenPtW.1 ++ bytesBE 32 zenPtW.2 ++ List.replicate 192 0,
             flashOp := f, resolving := r } }
theorem ZensorSessionsStreamsAndFlashWritesEnd_witness :
    (∀ w ∈ [zenNetW false 0 0 0 none none, zenNetW true 1 65535 4 none none, zenNetW true 0 65535 3 (some ⟨2 ^ 32 - 1, 0, 1, 65536, true, [255]⟩)
        (some (⟨0, 0, 0, 4, [], 0, 2 ^ 32 - 1⟩, 0, 65534 * 10 ^ 9)), zenNetW true 0 1 0 (some ⟨5, 0, 1, 0, false, []⟩) (some (⟨0, 0, 0, 4, [], 0, 5⟩, 0, 65534 * 10 ^ 9 + 1))],
      w.Sound ∧ w.Live 0 ∧ (w.wait 0).phys = 65535 * 10 ^ 9 ∧ (w.wait 0).zen.netcfg.length = 320 ∧
      ofBytesBE (((w.wait 0).zen.netcfg.drop 0x40).take 32) = zenPtW.1 ∧ ofBytesBE (((w.wait 0).zen.netcfg.drop 0x60).take 32) = zenPtW.2 ∧
      ((w.wait 0).zen.netcfg.drop 6).take 1 = [1] ∧ ecOnCurve zenPtW.1 zenPtW.2 = true ∧ zenPtW.1 < 2 ^ 256 ∧ zenPtW.2 < 2 ^ 256) ∧
    ofBytesLE (((zenNetW true 0 65535 3 none none).zen.netcfg.drop 4).take 2) = 65535 ∧
    ecdsaVerify (sha256 ([0x5A, 0x4E, 0x53, 0x31] ++ bytesBE 16 5 ++ 4 :: bytesBE 32 zenPtW.1 ++ bytesBE 32 zenPtW.2)) zenPtW.1 zenPtW.2 zenPtW.1
      ((zenHashW + zenPtW.1) % p256n) = true := by
  refine ⟨by unfold State.Sound State.Live; decide +kernel, by decide +kernel, by decide +kernel⟩

def canTxW (buf stamp : Nat) : CanTx := ⟨buf, stamp, ⟨true, false, true, false, false, 5, 15, List.replicate 64 255⟩, []⟩
def canW (st tec rec' : Nat) (c : Can) : State :=
  { ((((((State.reset.fset F.CAN_STATUS_STATE st 1).fset F.CAN_ERRCNT_TEC tec 1).fset F.CAN_ERRCNT_REC rec' 1).fset F.CAN_CFG_SSHOT 1 1).fset
      F.CAN_WAKE_CFG_WEN 1 1).fset F.CAN_WAKE_CFG_WERRLIM 1 1) with can := Vector.replicate 2 c }
theorem CanControllersChangeStateCountErrorsAndWake_witness :
    (∀ w ∈ [canW 0 0 0 {}, canW 2 255 128 { tx := some (canTxW 63 (0)) }, canW 3 247 127 { rom := true }, canW 4 256 0 {}, canW 5 0 0 { werr := 1 }, canW 6 0 0 {}],
      w.Sound ∧ w.Live 0 ∧ (w.wait 0).fget F.CAN_STATUS_STATE 1 < 7 ∧ (w.wait 0).boot.asleep = none ∧ (w.wait 0).boot.entering = false ∧
      (w.wait 0).flag F.CAN_WAKE_CFG_WEN 1 = true) ∧
    (∀ v ∈ [0, 0x1D], (canW 0 0 0 {}).Reaches 0 .mgmt (F.CAN_CTRL_INIT.addr 1 0) (setB (BitVec.ofNat 32 v) 1) ∧
      (canW 0 0 0 {}).Reaches 0 .mgmt (F.CAN_CTRL_INIT.addr 1 0) (clrB (BitVec.ofNat 32 v) 1) ∧
      (canW 0 0 0 {}).Reaches 0 .mgmt (F.CAN_CTRL_INIT.addr 1 0) (setB (BitVec.ofNat 32 v) 32) ∧
      (canW 0 0 0 {}).Reaches 0 .mgmt (F.CAN_CTRL_INIT.addr 1 0) (BitVec.ofNat 32 v).toNat) ∧
    ((canW 2 255 128 { tx := some (canTxW 63 (0)) }).wait 0).flag F.CAN_CFG_SSHOT 1 = true ∧
    ((canW 2 0 0 {}).fset F.CAN_CFG_EXCERR 1 1).flag F.CAN_CFG_EXCERR 1 = true ∧
    ((canW 2 0 0 {}).fset F.CAN_WAKE_CFG_WMODE 1 1).flag F.CAN_WAKE_CFG_WMODE 1 = true := by
  refine ⟨by unfold State.Sound State.Live; decide +kernel, ?_, by decide +kernel, by decide +kernel, by decide +kernel⟩
  intro v hv
  simp only [List.mem_cons, List.not_mem_nil, or_false] at hv
  rcases hv with rfl | rfl <;> refine ⟨?_, ?_, ?_, ?_⟩ <;> exact reaches_mgmt (by unfold State.Live; decide +kernel) (by decide +kernel) (by decide +kernel)

def canBufW (mode : Nat) (newdat : Nat) (c : Can) : State :=
  { (((((State.reset.fset F.CAN_STATUS_STATE 2 1).fset F.CAN_NEWDAT_HI newdat 1).fset F.CAN_TXREQ_HI (2 ^ 31) 1).setMem32 (canBuf 1 63 0) (2 ^ 31 + 5)).setMem32
      (canBuf 1 63 4) (mode * 2 ^ 30)) with can := Vector.replicate 2 c }
def canFrameW (id : Nat) : CanFrame := ⟨true, false, false, false, false, BitVec.ofNat 29 id, 15, List.replicate 8 255⟩
theorem CanMessagesAreStoredRequestedAndSent_witness :
    (∀ w ∈ [canBufW 1 0 {}, canBufW 1 (2 ^ 31) {}, canBufW 2 0 {}, canBufW 2 0 { tx := some (canTxW 63 (2 ^ 32 - 1)) }, canBufW 0 0 { store := some (63, 0) }],
      w.Sound ∧ w.Live 0 ∧ (w.wait 0).fget F.CAN_STATUS_STATE 1 = 2 ∧ (w.wait 0).fget F.CAN_ERRCNT_TEC 1 = 0 ∧
      (w.wait 0).fget F.CAN_ERRCNT_REC 1 = 0 ∧ (w.wait 0).can[(1 : Fin 2)].rom = false ∧ (w.wait 0).can[(1 : Fin 2)].mon = false ∧
      ((w.wait 0).reg (F.CAN_TXREQ_LO.addr 1 0 + 4)).getLsbD 31 = true ∧ (w.wait 0).mem32 (0xA0_4000 + 0x2000 + 0x80 * 63) = 2 ^ 31 + 5) ∧
    (∀ v ∈ [0, 2 ^ 31, 2 ^ 32 - 1], (canBufW 2 0 {}).Reaches 0 .mgmt (F.CAN_TXREQ_LO.addr 1 0 + 4) (BitVec.ofNat 32 v).toNat ∧
      (canBufW 2 0 {}).Reaches 0 .mgmt (F.CAN_TXCANCEL_LO.addr 1 0 + 4) (BitVec.ofNat 32 v).toNat ∧
      (canBufW 2 0 {}).Reaches 0 .mgmt (F.CAN_NEWDAT_LO.addr 1 0 + 4) (BitVec.ofNat 32 v).toNat) ∧
    ((canBufW 1 0 {}).wait 0).mem32 (0xA0_4000 + 0x2000 + 0x80 * 63 + 4) = 2 ^ 30 ∧
    ((canBufW 2 0 {}).wait 0).mem32 (0xA0_4000 + 0x2000 + 0x80 * 63 + 4) = 2 ^ 31 ∧
    ((canBufW 1 (2 ^ 31) {}).wait 0).reg (F.CAN_NEWDAT_LO.addr 1 0 + 4) = BitVec.ofNat 32 (2 ^ 31) ∧ (canFrameW 5).id = 5 := by
  refine ⟨by unfold State.Sound State.Live; decide +kernel, ?_, by decide +kernel, by decide +kernel, by decide +kernel, by decide +kernel⟩
  intro v hv
  simp only [List.mem_cons, List.not_mem_nil, or_false] at hv
  rcases hv with rfl | rfl | rfl <;> refine ⟨?_, ?_, ?_⟩ <;> exact reaches_mgmt (by unfold State.Live; decide +kernel) (by decide +kernel) (by decide +kernel)

def rstW (b : Boot) (r : Option Nat) : State :=
  { (State.reset.setFlag F.PWR_BOOT_NEXT_ONCE true) with boot := b, resetReq := r, phys := 5, run := 5 * unitNs, lclk := 5 * unitNs }
def loadW (kind : Nat) : Load := ⟨kind, 0, 0, none, 0, false, 0, 0, false, [], none⟩
theorem ResetsKeepWhatTheirKindKeeps_witness :
    (∀ w ∈ [rstW {} none, rstW { load := some (loadW 0) } (some 3), rstW { load := some (loadW 5) } (some 4), rstW { wdt := some 5 } (some 4),
        rstW { wdt := some 6 } (some 3)], w.Sound ∧ w.Live 0 ∧ (w.wait 0).phys = 5 ∧ (w.wait 0).boot.held = false) ∧
    (rstW { held := true } none).Sound ∧ ((rstW { held := true } none).wait 0).boot.held = true ∧
    (∀ v ∈ [0x5A960000, 0x5A970000], (rstW {} none).Reaches 0 .mgmt (F.PWR_RESET_KEY.addr 0 0) (setB (BitVec.ofNat 32 v &&& 0xFFFF_FFFC#32) 1) ∧
      (rstW {} none).Reaches 0 .mgmt (F.PWR_RESET_KEY.addr 0 0) (setB (BitVec.ofNat 32 v &&& 0xFFFF_FFFC#32) 2)) := by
  refine ⟨by unfold State.Sound State.Live; decide +kernel, by unfold State.Sound; decide +kernel, by decide +kernel, ?_⟩
  intro v hv
  simp only [List.mem_cons, List.not_mem_nil, or_false] at hv
  rcases hv with rfl | rfl <;> refine ⟨?_, ?_⟩ <;> exact reaches_mgmt (by unfold State.Live; decide +kernel) (by decide +kernel) (by decide +kernel)

def imgHeadW : List Nat := bytesLE 4 0x444C4853 ++ [1, 0, 255, 255, 0, 0, 0, 0] ++ bytesLE 4 64 ++ bytesLE 4 7 ++ List.replicate 44 0
def bootW (b : Boot) : State :=
  { ((State.reset.setFlag F.PWR_WAKE_CFG_PINEN true).fset F.PWR_WAKE_CFG_TIMER 1).fset F.CAN_WAKE_CFG_WEN 1 1 with
    boot := b, phys := 10 ^ 9, flash := programBytes (programBytes [] 0 imgHeadW) 224 (sha256 imgHeadW) }
def bootLoadW (pass2 : Bool) (recs : List (Nat × Nat × Nat)) (wait : Option Nat) : Load := ⟨0, 0, 0, none, 0, pass2, 0, 0, false, recs, wait⟩
/-- The flash and the fuses as manufactured are parameters of the part: an image loads where the flash holds it and, as here
unsigned, where SECBOOT is not programmed. -/
theorem ImagesLoadSleepWakesAndTheWatchdogRuns_witness :
    (∀ b ∈ [({} : Boot), { load := some (bootLoadW false [] none) }, { load := some (bootLoadW true [(2, 0, 0)] (some (9 * 10 ^ 8))) },
        { load := some (bootLoadW true [(3, 10 ^ 5, 0)] (some (9 * 10 ^ 8))) }, { load := some (bootLoadW true [(3, 10 ^ 5, 0)] (some (9 * 10 ^ 8 + 1))) },
        { entering := true }, { entering := true, wake := some 7 }],
      (bootW b).Sound ∧ (bootW b).Live 0 ∧ ((bootW b).wait 0).boot = b ∧ ((bootW b).wait 0).phys = 10 ^ 9) ∧
    (∀ q ∈ [0, 1], ((bootW { asleep := some q }).wait 0).boot.asleep = some q ∧ (bootW { asleep := some q }).Sound) ∧
    (let num := fun (o k : Nat) => ofBytesLE ((List.range k).map (fun j => (bootW {}).flashByte (o + j)))
     num 0 4 = 0x444C4853 ∧ num 4 2 = 1 ∧ num 8 1 = 0 ∧ num 9 1 = 0 ∧ num 12 4 = 64 ∧ num 6 2 = 65535 ∧
     (List.range 32).map (fun j => (bootW {}).flashByte (224 + j)) = sha256 ((List.range 64).map (fun j => (bootW {}).flashByte (0 + j)))) ∧
    (let x := (bootW {}).found 0 (F.PWR_SLEEP_KEY.addr 0 0)
     x.flag F.THR_STATUS_ALLSTO = true ∧ x.boot.load = none ∧ x.boot.entering = false ∧
     (((bootW {}).setFlag F.THR_STATUS_ALLSTO false).found 0 (F.PWR_SLEEP_KEY.addr 0 0)).flag F.THR_STATUS_ALLSTO = false) ∧
    (bootW {}).fuse 0 / 2 ^ 16 ≤ 65535 ∧ (512 ≤ Config.flashDensity → 64 + 192 ≤ slotSize) ∧
    (((bootW {}).wait 0).busRead .loader .b32 0).toOption.isSome = true ∧
    (∀ v ∈ [0x5AA50000, 0x5AA60000], (bootW {}).Reaches 0 .mgmt (F.PWR_SLEEP_KEY.addr 0 0) (setB (BitVec.ofNat 32 v) 1)) ∧
    (∀ v ∈ [0, 0xFFFF0000], (bootW {}).Reaches 0 .mgmt (F.PWR_WDT_CTRL_EN.addr 0 0) (setB (BitVec.ofNat 32 v) 1)) ∧
    (∀ v ∈ [0, 0xC35A], (bootW {}).Reaches 0 .mgmt (F.PWR_WDT_KICK_KEY.addr 0 0) (BitVec.ofNat 32 v).toNat) := by
  refine ⟨by unfold State.Sound State.Live; decide +kernel, by unfold State.Sound; decide +kernel, by decide +kernel, by decide +kernel, ?_, ?_, ?_, ?_, ?_, ?_⟩
  · have h : (bootW {}).fuse 0 = (Config.fuseWord 0).toNat := by
      show (Config.fuseWord 0).toNat ||| 0 = _
      simp
    rw [h]
    have := (Config.fuseWord 0).isLt
    omega
  · intro h
    unfold slotSize
    omega
  · decide +kernel
  all_goals
    intro v hv
    simp only [List.mem_cons, List.not_mem_nil, or_false] at hv
    rcases hv with rfl | rfl <;> exact reaches_mgmt (by unfold State.Live; decide +kernel) (by decide +kernel) (by decide +kernel)

end Sys2Proof.Tests
end

section
/-! SUPPORT. An aligned 32-bit access to the register space that the Lodge lets through: what the bus answers for a
listed and for an unlisted address (R3, R8, R9), and which bits a row's masks hold. -/
namespace Sys2Proof.Machine

/-! ### Bits of masks -/

/-- Taking away bits that a number has borrows nothing. -/
theorem testBit_sub_and (a c i : Nat) : (a - (a &&& c)).testBit i = (a.testBit i && !c.testBit i) := by
  have hle : a &&& c ≤ a := Nat.and_le_left
  have hlow : (a &&& c) % 2 = 1 ↔ a % 2 = 1 ∧ c % 2 = 1 := Nat.and_mod_two_eq_one
  induction i generalizing a c with
  | zero =>
    simp only [Nat.testBit_zero, ← decide_not, ← Bool.decide_and]
    exact decide_eq_decide.2 (by omega)
  | succ i ih =>
    have hhalf : (a - (a &&& c)) / 2 = a / 2 - (a / 2 &&& c / 2) := by
      rw [← Nat.and_div_two]
      omega
    simp only [Nat.testBit_add_one, hhalf, ih _ _ Nat.and_le_left Nat.and_mod_two_eq_one]

/-- A mask holds the bits of the fields that it is of. -/
theorem RegD.testBit_mask (r : RegD) (p : FieldD → Bool) (i : Nat) :
    (r.mask p).testBit i = r.fields.any (fun f => p f && (decide (f.lo ≤ i) && decide (i ≤ f.hi))) := by
  suffices h : ∀ (l : List FieldD) (w : Nat),
      (l.foldl (fun w f => if p f then w ||| ((2 ^ (f.hi + 1 - f.lo) - 1) <<< f.lo) else w) w).testBit i =
        (w.testBit i || l.any (fun f => p f && (decide (f.lo ≤ i) && decide (i ≤ f.hi)))) by
    simpa [RegD.mask] using h r.fields 0
  intro l
  induction l with
  | nil => simp
  | cons f l ih =>
    intro w
    have hfield : ((2 ^ (f.hi + 1 - f.lo) - 1) <<< f.lo).testBit i = (decide (f.lo ≤ i) && decide (i ≤ f.hi)) := by
      rw [Nat.testBit_shiftLeft, Nat.testBit_two_pow_sub_one, ← Bool.decide_and, ← Bool.decide_and]
      exact decide_eq_decide.2 (by omega)
    rw [List.foldl_cons, ih, List.any_cons]
    cases p f with
    | false => simp
    | true => simp [hfield, Bool.or_assoc]

/-- The bits that some fields of a row list are bits that its fields list. -/
theorem RegD.mask_all_and_mask (r : RegD) (p : FieldD → Bool) : r.mask (fun _ => true) &&& r.mask p = r.mask p := by
  refine Nat.eq_of_testBit_eq (fun i => ?_)
  simp only [Nat.testBit_and, RegD.testBit_mask, Bool.true_and, Bool.and_eq_right_iff_imp, List.any_eq_true]
  rintro ⟨f, hf, h⟩
  exact ⟨f, hf, (Bool.and_eq_true_iff.1 h).2⟩

/-- A word cut to a row's fields, less some of the row's fields, has no bit that the row does not list. -/
theorem RegD.testBit_masked_sub {r : RegD} {i : Nat} (hi : (r.mask (fun _ => true)).testBit i = false)
    (p : FieldD → Bool) (w : Nat) : ((w &&& r.mask (fun _ => true)) - (w &&& r.mask p)).testBit i = false := by
  have hsub : w &&& r.mask p = (w &&& r.mask (fun _ => true)) &&& r.mask p := by
    rw [Nat.and_assoc, r.mask_all_and_mask]
  rw [hsub, testBit_sub_and, Nat.testBit_and, hi, Bool.and_false, Bool.false_and]

/-! ### Listed rows -/

/-- A listed address has a row of the tables or is a reserved word of a block. -/
theorem regAt_mem {a : Nat} {d : RegD} (h : regAt a = some d) :
    (∃ b ∈ blockTable, d ∈ b.regs) ∨ ∃ o, d = reservedRow o := by
  obtain ⟨b, hb, hd⟩ := List.exists_of_findSome?_eq_some h
  unfold BlockD.find at hd
  obtain ⟨-, hd⟩ := Option.ite_none_left_eq_some.1 hd
  obtain ⟨-, hd⟩ := Option.ite_none_right_eq_some.1 hd
  split at hd
  · rename_i r hr
    obtain rfl : r = d := Option.some_injective _ hd
    exact .inl ⟨b, hb, List.mem_of_find?_eq_some hr⟩
  · obtain ⟨-, hd⟩ := Option.ite_none_right_eq_some.1 hd
    exact .inr ⟨_, (Option.some_injective _ hd).symm⟩

/-- No register mixes read-to-clear with write-only fields (R3). -/
theorem regAt_rc_or_wo {a : Nat} {d : RegD} (h : regAt a = some d) : d.writeMask .rc = 0 ∨ d.writeMask .wo = 0 := by
  have htable : ∀ b ∈ blockTable, ∀ d ∈ b.regs, d.writeMask .rc = 0 ∨ d.writeMask .wo = 0 := by decide +kernel
  obtain ⟨b, hb, hd⟩ | ⟨o, rfl⟩ := regAt_mem h
  · exact htable b hb d hd
  · exact .inl rfl

/-- Reserved fields read as zero (R8). -/
theorem State.regRead_reserved {s : State} {m : Master} {d : RegD} {a at' i : Nat} (hd : regAt a = some d)
    (hi : (d.mask (fun _ => true)).testBit i = false) : (s.regRead m d a at').1.testBit i = false := by
  unfold State.regRead
  split
  · exact Nat.zero_testBit i
  · dsimp only
    split
    · exact RegD.testBit_masked_sub hi _ _
    · rename_i hrc
      have hwo : d.writeMask .wo = 0 := (regAt_rc_or_wo hd).resolve_left hrc
      simp only [hwo, Nat.and_zero, Nat.sub_zero, Nat.testBit_and, hi, Bool.and_false]

/-- A write of a one to a reserved field is refused (R8), where the world of the master does not stop it before (R4). -/
theorem State.regWrite_reserved {s : State} {m : Master} {d : RegD} {a v : Nat} {idle : Option Bool}
    (hg : d.guarded = true → s.masterSecure m = true) (hv : v - (v &&& d.mask (fun _ => true)) ≠ 0) :
    s.regWrite m d a v idle = .error .reservedField := by
  have hworld : ¬ (d.guarded && !s.masterSecure m) = true := by
    simp only [Bool.and_eq_true, Bool.not_eq_true', not_and, Bool.not_eq_false]
    exact hg
  unfold State.regWrite
  rw [if_neg hworld, if_pos hv]

/-! ### Accesses past the Lodge -/

/-- An aligned address of the register space outside its memory parts. -/
theorem plainAddr_iff (a : Nat) : plainAddr a = true ↔
    0x1000 ≤ a ∧ a < 0x0400_0000 ∧ a % 4 = 0 ∧ ¬ (0xB00000 ≤ a ∧ a < 0xB01000) ∧ ¬ (0xC00000 ≤ a ∧ a < 0xC40000) ∧
      ¬ (0xA04000 ≤ a ∧ a < 0xA08000) := by
  simp only [plainAddr, Bool.and_eq_true, Bool.not_eq_true', ← Bool.decide_and, decide_eq_true_eq, decide_eq_false_iff_not,
    and_assoc]

theorem State.flatWord_plain {s : State} {a : Nat} (ha : plainAddr a = true) : s.flatWord a = none := by
  rw [plainAddr_iff] at ha
  unfold State.flatWord
  rw [if_neg (by omega), if_neg (by omega), if_neg (by omega)]

theorem State.busRead_plain {s : State} {m : Master} {a : Nat} (ha : plainAddr a = true)
    (hl : ((s.settleAt a).lodge m false a).1 = true) : s.busRead m .b32 a = .ok ((s.settleAt a).spaceRead m 4 a) := by
  obtain ⟨-, hspace, haligned, -⟩ := (plainAddr_iff a).1 ha
  unfold State.busRead
  simp [sizeBytes, haligned, hspace, State.lodge_through hspace hl]

theorem State.busWrite_plain {s : State} {m : Master} {a v : Nat} {idle : Option Bool} (ha : plainAddr a = true)
    (hl : ((s.settleAt a).lodge m true a).1 = true) :
    s.busWrite m .b32 a v idle = (s.settleAt a).spaceWrite m 4 a v idle := by
  obtain ⟨-, hspace, haligned, -⟩ := (plainAddr_iff a).1 ha
  unfold State.busWrite
  simp [sizeBytes, haligned, hspace, State.lodge_through hspace hl]

theorem State.spaceRead_listed {s : State} {m : Master} {a : Nat} {d : RegD} (ha : plainAddr a = true)
    (hd : regAt a = some d) :
    s.spaceRead m 4 a = (((s.readForms a).regRead m d a a).1 % 2 ^ 32, ((s.readForms a).regRead m d a a).2) := by
  have haligned : a % 4 = 0 := ((plainAddr_iff a).1 ha).2.2.1
  have hword : a / 4 * 4 = a := by omega
  unfold State.spaceRead
  simp only [hword, State.flatWord_plain ha, hd, haligned, Nat.mul_zero, Nat.pow_zero, Nat.div_one]

/-- The registers that a read forms anew (R252) are listed. -/
theorem State.readForms_unlisted {s : State} {a : Nat} (hn : regAt a = none) : s.readForms a = s := by
  have hval : ∀ k : Fin 8, regAt (F.CMD_VAL.addr k 0) ≠ none := by decide +kernel
  have hmeas : ∀ k : Fin 8, regAt (F.CMD_MEAS.addr k 0) ≠ none := by decide +kernel
  unfold State.readForms
  refine if_neg ?_
  rintro (h | h)
  · exact hval _ (h ▸ hn)
  · exact hmeas _ (h ▸ hn)

theorem State.spaceRead_unlisted {s : State} {m : Master} {a : Nat} (ha : plainAddr a = true) (hn : regAt a = none) :
    s.spaceRead m 4 a = (s.takeFree.1.toNat % 2 ^ 32, s.takeFree.2) := by
  have haligned : a % 4 = 0 := ((plainAddr_iff a).1 ha).2.2.1
  have hword : a / 4 * 4 = a := by omega
  unfold State.spaceRead
  simp only [hword, State.readForms_unlisted hn, State.flatWord_plain ha, hn, haligned, Nat.mul_zero, Nat.pow_zero,
    Nat.div_one, Nat.mod_mod]

theorem State.spaceWrite_listed {s : State} {m : Master} {a v : Nat} {d : RegD} {idle : Option Bool}
    (ha : plainAddr a = true) (hd : regAt a = some d) : s.spaceWrite m 4 a v idle = s.regWrite m d a v idle := by
  rw [plainAddr_iff] at ha
  have hword : a / 4 * 4 = a := by omega
  unfold State.spaceWrite
  simp only [hword, hd, ne_eq, not_true_eq_false, if_false]
  rw [if_neg (by omega), if_neg (by omega)]

theorem State.spaceWrite_unlisted {s : State} {m : Master} {a v : Nat} {idle : Option Bool}
    (ha : plainAddr a = true) (hn : regAt a = none) : s.spaceWrite m 4 a v idle = .error .unlistedAddress := by
  rw [plainAddr_iff] at ha
  have hword : a / 4 * 4 = a := by omega
  unfold State.spaceWrite
  simp only [hword, hn, ne_eq, not_true_eq_false, if_false]
  rw [if_neg (by omega), if_neg (by omega)]

/-! ### The commands -/

/-- A command of a block with power whose effect is refused is refused. -/
theorem State.actE_error {s : State} {dt : Nat} (h : s.Live dt) {f : State → Except Refusal State} {e : Refusal}
    (hf : f (s.wait dt) = .error e) : s.actE dt f = .refused e := by
  unfold State.Live at h
  unfold State.actE
  simp [h, hf]

/-- A register read that the Lodge lets through completes with what the register space answers as its result. -/
theorem completes_registerRead {s : State} {dt : Nat} {m : Master} {a : BitVec 32} {P : State → Prop} (h : s.Live dt)
    (ha : plainAddr a.toNat = true) (hl : ((s.found dt a.toNat).lodge m false a.toNat).1 = true)
    (hP : P { ((s.found dt a.toNat).spaceRead m 4 a.toNat).2 with
      rdata := BitVec.ofNat 32 ((s.found dt a.toNat).spaceRead m 4 a.toNat).1 }) :
    Completes (.registerRead dt m .b32 a) s P := by
  refine ⟨_, ?_, hP⟩
  rw [exec_registerRead]
  refine State.actE_live h ?_
  unfold State.fabricRead
  rw [State.busRead_plain ha hl]
  rfl

/-- A register write that the Lodge lets through is refused where the register space refuses it. -/
theorem registerWrite_refused {s : State} {dt : Nat} {m : Master} {a : BitVec 32} {v : Word} {e : Refusal} (h : s.Live dt)
    (ha : plainAddr a.toNat = true) (hl : ((s.found dt a.toNat).lodge m true a.toNat).1 = true)
    (he : (s.found dt a.toNat).spaceWrite m 4 a.toNat v.toNat none = .error e) :
    exec (.registerWrite dt m .b32 a v) s = .refused e := by
  rw [exec_registerWrite]
  exact State.actE_error h ((State.busWrite_plain ha hl).trans he)

end Sys2Proof.Machine
end

section
/-! The statements of the scope chapter: unlisted addresses (R9) and reserved fields (R8). -/
namespace Sys2Proof.Machine

/-- Settles O8: the Lodge changes nothing and a read forms anew only listed registers, so that an unlisted read only takes
the next free value. -/
theorem unlistedAddressReadsAFreeValue : Obligations.UnlistedAddressReadsAFreeValue := by
  unfold Obligations.UnlistedAddressReadsAFreeValue
  intro s dt m a v hlive ha hn
  refine ⟨fun hread => completes_registerRead hlive ha hread ?_, fun hwrite => ?_⟩
  · rw [State.spaceRead_unlisted ha hn]
    refine ⟨?_, (State.Within.refl _ _).same rfl rfl⟩
    exact BitVec.eq_of_toNat_eq (by simp [State.takeFree])
  · exact registerWrite_refused hlive ha hwrite (State.spaceWrite_unlisted ha hn)

/-- Settles O9: a read cuts what a register shows to its fields, and a write with a one outside them stops before it
stores. -/
theorem reservedBitsReadZeroAndRefuseOnes : Obligations.ReservedBitsReadZeroAndRefuseOnes := by
  unfold Obligations.ReservedBitsReadZeroAndRefuseOnes
  intro s dt m a v hlive ha d hd
  refine ⟨fun hread => completes_registerRead hlive ha hread (fun i hi => ?_), fun hwrite hworld hones => ?_⟩
  · rw [State.spaceRead_listed ha hd]
    rw [BitVec.toNat_ofNat, Nat.mod_mod, Nat.testBit_mod_two_pow, State.regRead_reserved hd hi, Bool.and_false]
  · have hv : v.toNat - (v.toNat &&& d.mask (fun _ => true)) ≠ 0 := by
      intro h0
      refine hones (fun d' hd' => ?_)
      obtain rfl : d = d' := Option.some_injective _ (hd.symm.trans hd')
      exact h0
    exact registerWrite_refused hlive ha hwrite
      ((State.spaceWrite_listed ha hd).trans (State.regWrite_reserved hworld hv))

end Sys2Proof.Machine
end

section
/-! SUPPORT. The cycle sequencer's start: the first instant of R20 at or after another, and what a write of 1 to RUN
does in each case (R22, R23). -/
namespace Sys2Proof.Machine

/-! ### The state that an access finds -/

/-- What an access finds of a sound state is sound. -/
theorem State.found_sound {s : State} (h : s.Sound) (dt a : Nat) : (s.found dt a).Sound :=
  (State.settleAt_keeps (State.wait_keeps s dt)).sound (State.elapse_sound h dt)

/-! ### Aligned instants (R20) -/

theorem tiOf_pos (fisel : Nat) : 0 < tiOf fisel := by
  unfold tiOf
  split <;> decide

/-- T_I has a positive length in the units of `run`. -/
theorem State.tiU_pos (s : State) : 0 < s.tiU := Nat.mul_pos (tiOf_pos _) (by decide)

/-- How far LCLK, at the instant `r`, is past PHASE. -/
def State.pastPhase (s : State) (r : Nat) : Int := (s.lclk : Int) + r - s.run - (s.seq.phase * unitNs : Nat)

theorem State.phaseGap_nonneg (s : State) (r : Nat) : 0 ≤ (-s.pastPhase r) % (s.tiU : Int) :=
  Int.emod_nonneg _ (by have := s.tiU_pos; omega)

/-- The aligned instant lies past `r` by what brings LCLK less PHASE to a multiple of T_I. -/
theorem State.alignedAfter_eq (s : State) (r : Nat) : (s.alignedAfter r : Int) = r + (-s.pastPhase r) % (s.tiU : Int) := by
  have hgap := s.phaseGap_nonneg r
  have hval : s.alignedAfter r = (r + (-s.pastPhase r) % (s.tiU : Int)).toNat := by
    unfold State.alignedAfter State.pastPhase
    dsimp only
    rw [Int.emod_def, Int.neg_sub, Int.neg_mul, Int.mul_comm (s.tiU : Int)]
    congr 1
    omega
  omega

theorem State.le_alignedAfter (s : State) (r : Nat) : r ≤ s.alignedAfter r := by
  have heq := s.alignedAfter_eq r
  have hgap := s.phaseGap_nonneg r
  omega

theorem State.alignedAfter_lt (s : State) (r : Nat) : s.alignedAfter r < r + s.tiU := by
  have heq := s.alignedAfter_eq r
  have hgap : (-s.pastPhase r) % (s.tiU : Int) < s.tiU := Int.emod_lt_of_pos _ (by have := s.tiU_pos; omega)
  omega

/-- At an aligned instant LCLK less PHASE is a multiple of T_I. -/
theorem State.pastPhase_alignedAfter (s : State) (r : Nat) : s.pastPhase (s.alignedAfter r) % (s.tiU : Int) = 0 := by
  have hmoved : s.pastPhase (s.alignedAfter r) = s.pastPhase r + (-s.pastPhase r) % (s.tiU : Int) := by
    have heq := s.alignedAfter_eq r
    unfold State.pastPhase at heq ⊢
    omega
  rw [hmoved, Int.add_emod_emod, Int.add_right_neg, Int.zero_emod]

/-! ### A write to CYC_CTRL -/

/-- A field of a register other than CYC_CTRL. -/
theorem State.fget_setFlag_ctrl (s : State) (f g : Fld) (b : Bool) (n j : Nat) (hf : f.addr 0 0 = 0x30400)
    (hg : 0x30400 ≠ g.addr n j) : (s.setFlag f b).fget g n j = s.fget g n j :=
  State.fget_fset_addr s f g _ _ _ _ _ (hf ▸ hg)

/-- LCLK's rate is not in CYC_CTRL. -/
theorem State.rate_setFlag_ctrl (s : State) (f : Fld) (b : Bool) (hf : f.addr 0 0 = 0x30400) :
    (s.setFlag f b).rate = s.rate := by
  unfold State.rate State.fgetS
  rw [s.fget_setFlag_ctrl f F.HEARTH_ADJ b 0 0 hf (by decide)]

/-- Which axes are local servos is not in CYC_CTRL. -/
theorem State.localServos_setFlag_raln (s : State) (b : Bool) :
    (s.setFlag F.CYC_CTRL_RALN b).localServos = s.localServos := by
  have hkind : ∀ n : Fin 64, (s.setFlag F.CYC_CTRL_RALN b).axKind n = s.axKind n := fun n =>
    s.fget_setFlag_ctrl F.CYC_CTRL_RALN F.AX_CFG_KIND b n 0 rfl (by simp only [Fld.addr, F.AX_CFG_KIND]; omega)
  unfold State.localServos
  simp only [hkind]

/-- The configuration is one that R23 turns away. -/
def State.cfgBad (s : State) : Prop :=
  s.fget F.CYC_CFG_FISEL = 7 ∨ servoLimit (s.fget F.CYC_CFG_FISEL) < s.localServos

theorem State.cfgBad_setFlag_raln (s : State) (b : Bool) : (s.setFlag F.CYC_CTRL_RALN b).cfgBad ↔ s.cfgBad := by
  unfold State.cfgBad
  rw [s.fget_setFlag_ctrl _ F.CYC_CFG_FISEL b 0 0 rfl (by decide), s.localServos_setFlag_raln]

/-- The sequencer is stopped, with no start waiting, and the device is not halted. -/
structure State.CanStart (s : State) : Prop where
  halt : s.fget F.FLT_DEVFLT_HALT = 0
  next : s.seq.next = none
  restart : s.seq.restart = none
  stopEnd : s.seq.stopEnd = none

theorem State.CanStart.setFlag_raln {s : State} (h : s.CanStart) (b : Bool) : (s.setFlag F.CYC_CTRL_RALN b).CanStart :=
  ⟨(s.fget_setFlag_ctrl _ F.FLT_DEVFLT_HALT b 0 0 rfl (by decide)).trans h.halt, h.next, h.restart, h.stopEnd⟩

theorem State.seqSettle_of_stopEnd {s : State} (h : s.seq.stopEnd = none) : s.seqSettle = s := by
  unfold State.seqSettle
  rw [h]

/-- The first start of a stopped sequencer, RUN set and the configuration latched: it is to come 1 µs from now or later
(R22). -/
def State.firstStart (s : State) : State :=
  let t := (s.setFlag F.CYC_CTRL_RUN true).seqLatch
  t.modSeq (fun q => { q with starting := some s.afterMicro, next := some (t.alignedAfter s.afterMicro) })

/-- What RUN_START does in a state that can start: R23's error, else nothing where RUN read 1, else the first start. -/
theorem State.CanStart.seqRun {s : State} (h : s.CanStart) :
    (s.cfgBad → s.seqRun = (s.setFlag F.CYC_CTRL_RUN true).raise F.CYC_STATUS_CFGERR) ∧
    (¬ s.cfgBad → s.fget F.CYC_CTRL_RUN ≠ 0 → s.seqRun = s) ∧
    (¬ s.cfgBad → s.fget F.CYC_CTRL_RUN = 0 → s.seqRun = s.firstStart) := by
  obtain ⟨hhalt, hnext, hrestart, hstop⟩ := h
  have hidle : (s.halted || s.seq.next.isSome || s.seq.restart.isSome) = false := by
    simp [State.halted, State.flag, hhalt, hnext, hrestart]
  unfold State.seqRun State.cfgBad
  simp only [State.seqSettle_of_stopEnd hstop, hidle, Bool.false_eq_true, if_false]
  refine ⟨fun hbad => if_pos hbad, fun hgood hrun => ?_, fun hgood hrun => ?_⟩
  · rw [if_neg hgood, if_pos (by simpa [State.flag] using hrun)]
  · rw [if_neg hgood, if_neg (by simp [State.flag, hrun]), if_neg (by simp [hstop])]
    rfl

/-- A write of 1 to RUN takes RALN and starts the sequencer. -/
theorem State.effCyc_run (s p : State) (v : Word) :
    s.effCyc p 0 (setB v 1) = some (s.setFlag F.CYC_CTRL_RALN (bit (setB v 1) 1)).seqRun := by
  have hrun : bit (setB v 1) 0 = true := by simp [bit, setB]
  unfold State.effCyc
  simp only [if_true, hrun]

/-- RUN_START that reaches CYC_CTRL takes RALN and starts the sequencer. -/
theorem completes_runStart {s : State} {dt : Nat} {m : Master} {v : Word} {P : State → Prop}
    (h : s.Reaches dt m 0x30400 (setB v 1))
    (hP : P ((s.found dt 0x30400).setFlag F.CYC_CTRL_RALN (bit (setB v 1) 1)).seqRun) :
    Completes (.runStart dt m v) s P := by
  refine ⟨_, ?_, hP⟩
  rw [exec_runStart]
  exact State.actE_write h (by decide) row_CYC_CTRL_RUN
    ((State.regEffect_cyc _ _ 0 _ _ (by decide)).trans (State.effCyc_run _ _ v))

/-! ### The outcomes -/

/-- After R23's error CFGERR reads 1. -/
theorem State.fget_raise_cfgerr {s : State} (h : s.regs.wf = true) :
    (s.raise F.CYC_STATUS_CFGERR).fget F.CYC_STATUS_CFGERR = 1 :=
  State.fget_fset h F.CYC_STATUS_CFGERR 1 0 0 rfl

/-- After the first start RUN reads 1. -/
theorem State.fget_firstStart_run {s : State} (h : s.regs.wf = true) : s.firstStart.fget F.CYC_CTRL_RUN = 1 :=
  State.fget_fset h F.CYC_CTRL_RUN 1 0 0 rfl

/-- Of the registers R23's error changes CYC_CTRL and CYC_STATUS alone. -/
theorem State.Within.raise_cfgerr {z s : State} {p : Nat → Prop} (h : State.Within z s p) (hctrl : p 0x30400)
    (hstatus : p 0x3040C) : State.Within z ((s.setFlag F.CYC_CTRL_RUN true).raise F.CYC_STATUS_CFGERR) p :=
  ((h.setFlag (f := F.CYC_CTRL_RUN) (n := 0) (j := 0) hctrl true).setFlag (f := F.CYC_STATUS_CFGERR) (n := 0) (j := 0)
    hstatus true).same rfl rfl

/-- Of the registers the first start changes CYC_CTRL alone. -/
theorem State.Within.firstStart {z s : State} {p : Nat → Prop} (h : State.Within z s p) (hp : p 0x30400) :
    State.Within z s.firstStart p :=
  (h.setFlag (f := F.CYC_CTRL_RUN) (n := 0) (j := 0) hp true).same rfl rfl

/-- `n` is the first aligned instant that is 1 µs of physical time away or more (R20, R22). -/
def State.FirstInstant (s : State) (n : Nat) : Prop :=
  let ti := tiOf (s.fget F.CYC_CFG_FISEL)
  s.run + 500 * s.rate ≤ n ∧ n < s.run + 500 * s.rate + ti * unitNs ∧
    ((s.lclk : Int) + n - s.run - ((s.fget F.CYC_PHASE % ti * unitNs : Nat) : Int)) % ((ti * unitNs : Nat) : Int) = 0

/-- The first instant by the configuration that a start latches. -/
theorem State.firstInstant_iff (s : State) (n : Nat) : s.FirstInstant n ↔
    s.afterMicro ≤ n ∧ n < s.afterMicro + s.seqLatch.tiU ∧ s.seqLatch.pastPhase n % (s.seqLatch.tiU : Int) = 0 := Iff.rfl

theorem State.firstInstant_setFlag_ctrl (s : State) (f : Fld) (b : Bool) (n : Nat) (hf : f.addr 0 0 = 0x30400) :
    (s.setFlag f b).FirstInstant n ↔ s.FirstInstant n := by
  unfold State.FirstInstant
  rw [s.fget_setFlag_ctrl f F.CYC_CFG_FISEL b 0 0 hf (by decide), s.fget_setFlag_ctrl f F.CYC_PHASE b 0 0 hf (by decide),
    s.rate_setFlag_ctrl f b hf]
  rfl

/-- The first start schedules the first instant, by the configuration that it latches. -/
theorem State.firstStart_next (s : State) : ∃ n, s.firstStart.seq.next = some n ∧ s.FirstInstant n := by
  refine ⟨(s.setFlag F.CYC_CTRL_RUN true).seqLatch.alignedAfter s.afterMicro, rfl, ?_⟩
  rw [← s.firstInstant_setFlag_ctrl F.CYC_CTRL_RUN true _ rfl]
  have hmicro : s.afterMicro = (s.setFlag F.CYC_CTRL_RUN true).afterMicro := by
    unfold State.afterMicro
    rw [s.rate_setFlag_ctrl F.CYC_CTRL_RUN true rfl]
    rfl
  rw [hmicro]
  exact (State.firstInstant_iff _ _).2
    ⟨State.le_alignedAfter _ _, State.alignedAfter_lt _ _, State.pastPhase_alignedAfter _ _⟩

/-- A write of 1 to RUN in a state that can start: R23's error, else the first start of R22. RALN, which the write takes
first, is none of what the start looks at. -/
theorem State.CanStart.run_outcome {u : State} (h : u.CanStart) (hwf : u.regs.wf = true) (raln : Bool) :
    let t := (u.setFlag F.CYC_CTRL_RALN raln).seqRun
    u.Within t (fun a => a = 0x30400 ∨ a = 0x3040C) ∧
    (u.cfgBad → t.fget F.CYC_STATUS_CFGERR = 1 ∧ t.seq.next = none) ∧
    (¬ u.cfgBad → u.fget F.CYC_CTRL_RUN = 0 → t.fget F.CYC_CTRL_RUN = 1 ∧ t.reg 0x3040C = u.reg 0x3040C ∧
      ∃ n, t.seq.next = some n ∧ u.FirstInstant n) := by
  have hbad := u.cfgBad_setFlag_raln raln
  have hstop : (u.setFlag F.CYC_CTRL_RALN raln).CanStart := h.setFlag_raln raln
  have hrun : (u.setFlag F.CYC_CTRL_RALN raln).fget F.CYC_CTRL_RUN = u.fget F.CYC_CTRL_RUN :=
    State.fget_fset_bits hwf F.CYC_CTRL_RALN F.CYC_CTRL_RUN _ 0 0 0 0 rfl rfl (by decide)
  have hctrl : u.Within (u.setFlag F.CYC_CTRL_RALN raln) (fun a => a = 0x30400) :=
    (State.Within.refl u (fun a => a = 0x30400)).setFlag rfl raln
  have hinstant := fun n => u.firstInstant_setFlag_ctrl F.CYC_CTRL_RALN raln n rfl
  replace hwf : (u.setFlag F.CYC_CTRL_RALN raln).regs.wf = true := State.fset_wf hwf _ _ _ _
  generalize u.setFlag F.CYC_CTRL_RALN raln = q at *
  obtain ⟨herror, hstays, hfirst⟩ := hstop.seqRun
  by_cases hb : q.cfgBad
  · rw [herror hb]
    exact ⟨State.Within.raise_cfgerr (hctrl.mono fun a ha => .inl ha) (.inl rfl) (.inr rfl),
      fun _ => ⟨State.fget_raise_cfgerr (State.fset_wf hwf _ _ _ _), hstop.next⟩, fun hgood => absurd (hbad.1 hb) hgood⟩
  by_cases hr : q.fget F.CYC_CTRL_RUN = 0
  · rw [hfirst hb hr]
    have hframe := hctrl.firstStart rfl
    obtain ⟨n, hn, hfirstn⟩ := q.firstStart_next
    exact ⟨hframe.mono fun a ha => .inl ha, fun hb' => absurd (hbad.2 hb') hb, fun _ _ =>
      ⟨State.fget_firstStart_run hwf, hframe.1 _ (by decide), n, hn, (hinstant n).1 hfirstn⟩⟩
  · rw [hstays hb hr]
    exact ⟨hctrl.mono fun a ha => .inl ha, fun hb' => absurd (hbad.2 hb') hb, fun _ hr' => absurd (hrun.trans hr') hr⟩

end Sys2Proof.Machine
end

section
/-! The statements of the chapter on the cycle and the architecture: the start of the sequencer (R20, R22, R23). -/
namespace Sys2Proof.Machine

/-- Settles O17: what the access finds can start, and a start has the outcomes of R22 and R23. -/
theorem runStartChecksAndSchedules : Obligations.RunStartChecksAndSchedules := by
  unfold Obligations.RunStartChecksAndSchedules
  intro s dt m v hs hreach u fi bad hhalt hnext hrestart hstop
  have hstart : u.CanStart := ⟨hhalt, hnext, hrestart, hstop⟩
  exact completes_runStart hreach (hstart.run_outcome (State.found_sound hs dt _).1 _)

end Sys2Proof.Machine
end

section
/-! SUPPORT. Accesses that need no register: one that is not naturally aligned (R50), and one to the Floorplan table
(R45), which the Lodge lets every master through to. -/
namespace Sys2Proof.Machine

/-! ### Alignment (R50) -/

theorem State.busWrite_unaligned {s : State} {m : Master} {size : Size} {a v : Nat} {idle : Option Bool}
    (h : a % sizeBytes size ≠ 0) : s.busWrite m size a v idle = .error .unaligned := if_pos h

theorem State.busRead_unaligned {s : State} {m : Master} {size : Size} {a : Nat} (h : a % sizeBytes size ≠ 0) :
    s.busRead m size a = .error .unaligned := if_pos h

theorem State.fabricRead_unaligned {s : State} {m : Master} {size : Size} {a : Nat} (h : a % sizeBytes size ≠ 0) :
    s.fabricRead m size a = .error .unaligned := by
  rw [State.fabricRead, State.busRead_unaligned h]
  rfl

/-! ### The Floorplan table (R45) -/

theorem entryOf_floor {a : Nat} (ha : a < 0x1000) : entryOf a = some 0 := by
  have hinst : FloorRow.inst ⟨0, 0x0001, 1, 0x0, 0, 0x1000, true, true⟩ a = some 0 := by
    simp [FloorRow.inst, ha]
  rw [entryOf, floorplan, List.findSome?_cons, hinst]
  rfl

/-- The Floorplan table is shared: the Lodge lets every access to it through. -/
theorem State.lodge_floor (s : State) (m : Master) (w : Bool) {a : Nat} (ha : a < 0x1000) : s.lodge m w a = (true, s) := by
  have hregion : s.asOfCycle.region a = (none, s.asOfCycle) := by
    rw [State.region, regions_below _ (by omega)]
  unfold State.lodge
  simp only [entryOf_floor ha, hregion]
  rfl

/-- Past its last entry the table reads as zero. -/
theorem State.floorWord_end (s : State) {a : Nat} (ha : 0xAD0 ≤ a) : s.floorWord a = 0 := by
  have hentries : ∀ r ∈ floorplan, r.entry + r.count ≤ 172 := by decide
  have hnone : floorplan.find? (fun r => decide (r.entry ≤ a / 4 / 4 - 1) && decide (a / 4 / 4 - 1 < r.entry + r.count)) =
      none := by
    refine List.find?_eq_none.2 fun r hr => ?_
    have hle := hentries r hr
    simp only [Bool.and_eq_true, decide_eq_true_eq, not_and]
    omega
  unfold State.floorWord
  split
  case h_5 => simp only [hnone]
  all_goals omega

/-- No word of the table is one that a read forms anew. -/
theorem State.readForms_floor (s : State) {a : Nat} (ha : a < 0x1000) : s.readForms a = s := by
  unfold State.readForms
  refine if_neg ?_
  simp only [Fld.addr, F.CMD_VAL, F.CMD_MEAS]
  omega

theorem State.busWrite_floor (s : State) (m : Master) {a : Nat} (v : Nat) (idle : Option Bool) (ha : a < 0x1000)
    (h4 : a % 4 = 0) : s.busWrite m .b32 a v idle = .ok (s.settleAt a) := by
  unfold State.busWrite State.spaceWrite
  simp [sizeBytes, h4, State.lodge_floor _ m true ha, ha, show a < 0x4000000 by omega]

theorem State.busRead_floor (s : State) (m : Master) {a : Nat} (ha : a < 0x1000) (h4 : a % 4 = 0) :
    s.busRead m .b32 a = .ok ((s.settleAt a).floorWord a % 2 ^ 32, s.settleAt a) := by
  have hword : a / 4 * 4 = a := by omega
  unfold State.busRead State.spaceRead State.flatWord
  simp [sizeBytes, h4, State.lodge_floor _ m false ha, ha, show a < 0x4000000 by omega, hword, State.readForms_floor]

end Sys2Proof.Machine
end

section
/-! SUPPORT. A write to a BWORLD register of the Lodge (R55, R65). -/
namespace Sys2Proof.Machine

theorem row_LODGE_BWORLD (j : Fin 8) : regAt (F.LODGE_BWORLD.addr 0 j) = some
    ⟨0x10, 0x4, 8, 0, 1, [⟨31, 0, .rw, .p, true, 0xFFFF_FFFF⟩]⟩ := by
  revert j; decide +kernel

theorem plainAddr_LODGE_BWORLD (j : Fin 8) : plainAddr (F.LODGE_BWORLD.addr 0 j) = true := by
  revert j; decide

/-- The bits of BWORLD that are not ignored are those of the entries that the Lodge can assign (R55). -/
theorem testBit_bworldMask (j : Fin 8) {b : Nat} (hb : b < 32) : (bworldMask j).testBit b = assignable (32 * j + b) := by
  revert j
  have h : ∀ b : Fin 32, ∀ j : Fin 8, (bworldMask j).testBit b = assignable (32 * j + b) := by decide +kernel
  exact h ⟨b, hb⟩

/-- The first three entries are fixed. -/
theorem three_le_of_assignable {e : Nat} (h : assignable e = true) : 3 ≤ e := by
  have hrows : ∀ r ∈ floorplan, r.fixed = true ∨ 3 ≤ r.entry := by decide
  obtain ⟨r, hr, h⟩ := List.any_eq_true.1 h
  simp only [Bool.and_eq_true, decide_eq_true_eq, Bool.not_eq_true'] at h
  obtain ⟨⟨hle, -⟩, hfree⟩ := h
  have h3 := (hrows r hr).resolve_left (by simp [hfree])
  omega

/-- The world of an entry that the Lodge can assign is its bit of BWORLD. -/
theorem State.entryWorld_assignable (t : State) (j : Fin 8) {b : Nat} (hb : b < 32)
    (h : assignable (32 * j + b) = true) :
    t.entryWorld (32 * j + b) = b2n ((t.reg (F.LODGE_BWORLD.addr 0 j)).toNat.testBit b) := by
  have h3 := three_le_of_assignable h
  have hword : (32 * j.val + b) / 32 = j := by omega
  have hbit : (32 * j.val + b) % 32 = b := by omega
  unfold State.entryWorld bit State.fget
  rw [if_neg (by omega), if_neg (by omega), hword, hbit, testBit_bitsOf]
  simp [F.LODGE_BWORLD, hb]

/-- A write to BWORLD is ignored while LOCK is 1 (R65), and otherwise stores the bits that are not ignored (R55). -/
theorem State.regEffect_bworld (s p : State) (j : Fin 8) (v : Nat) (idle : Option Bool) :
    s.regEffect p (F.LODGE_BWORLD.addr 0 j) v idle = some (if s.flag F.LODGE_CTRL_LOCK then s
      else s.setReg (F.LODGE_BWORLD.addr 0 j) (BitVec.ofNat 32 (v &&& bworldMask j))) := by
  have haddr : F.LODGE_BWORLD.addr 0 j = 0x20000 + (0x10 + 4 * j.val) := by simp [Fld.addr, F.LODGE_BWORLD]; omega
  have hword : (0x10 + 4 * j.val - 0x10) / 4 = j := by omega
  rw [haddr, State.regEffect_lodge _ _ _ _ _ (by omega)]
  unfold State.effLodge
  dsimp only
  rw [if_neg (by omega), if_neg (by omega), if_pos (by omega), hword]

/-- A register write that reaches BWORLD completes as LOCK says. -/
theorem completes_bworldWrite {s : State} {dt : Nat} {m : Master} {j : Fin 8} {a : BitVec 32} {v : Word} {P : State → Prop}
    (ha : a.toNat = F.LODGE_BWORLD.addr 0 j) (h : s.Reaches dt m a.toNat v.toNat)
    (hP : P (if (s.found dt a.toNat).flag F.LODGE_CTRL_LOCK then s.found dt a.toNat
      else (s.found dt a.toNat).setReg a.toNat (BitVec.ofNat 32 (v.toNat &&& bworldMask j)))) :
    Completes (.registerWrite dt m .b32 a v) s P := by
  refine ⟨_, ?_, hP⟩
  rw [exec_registerWrite]
  refine State.actE_write h (ha ▸ plainAddr_LODGE_BWORLD j) (ha ▸ row_LODGE_BWORLD j) ?_
  rw [ha]
  exact State.regEffect_bworld _ _ j _ _

end Sys2Proof.Machine
end

section
/-! SUPPORT. Passing time leaves the fuses alone: neither what a wait decodes for Rafter nor what it serves for the Ledger
touches them. -/
namespace Sys2Proof.Machine

/-! ### Iteration -/

theorem forList_fuses {α : Type} {f : α → State → State} (h : ∀ i t, (f i t).fuses = t.fuses) (l : List α) (s : State) :
    (forList l f s).fuses = s.fuses :=
  List.foldlRecOn (motive := fun t => t.fuses = s.fuses) l _ rfl fun t ht i _ => (h i t).trans ht

theorem forFin_fuses {k : Nat} {f : Fin k → State → State} (h : ∀ i t, (f i t).fuses = t.fuses) (s : State) :
    (forFin k f s).fuses = s.fuses := forList_fuses h _ s

/-! ### Fields, spindles, events -/

@[simp] theorem State.setFlag_fuses (s : State) (f : Fld) (b : Bool) (n j : Nat) : (s.setFlag f b n j).fuses = s.fuses := rfl
@[simp] theorem State.finc_fuses (s : State) (f : Fld) (n j k : Nat) : (s.finc f n j k).fuses = s.fuses := rfl
@[simp] theorem State.raise_fuses (s : State) (f : Fld) (n j : Nat) : (s.raise f n j).fuses = s.fuses := rfl
@[simp] theorem State.raiseBits_fuses (s : State) (f : Fld) (m n j : Nat) : (s.raiseBits f m n j).fuses = s.fuses := rfl
@[simp] theorem State.modTout_fuses (s : State) (n : Fin 16) (f : Tout → Tout) : (s.modTout n f).fuses = s.fuses := rfl

@[simp] theorem State.spinNorm_fuses (s : State) (n : Fin 16) : (s.spinNorm n).fuses = s.fuses := by
  unfold State.spinNorm
  extract_lets x y
  split <;> simp

@[simp] theorem State.spinCount_fuses (s : State) (n : Fin 16) (d : Int) (stamp : Nat) :
    (s.spinCount n d stamp).fuses = s.fuses := by
  unfold State.spinCount
  split <;> simp

@[simp] theorem State.spinSource_fuses (s : State) (src sel : Nat) (d : Int) (stamp : Nat) :
    (s.spinSource src sel d stamp).fuses = s.fuses :=
  forFin_fuses (fun n t => by split <;> simp) s

@[simp] theorem State.gougeEvent_fuses (s : State) (e : Nat) : (s.gougeEvent e).fuses = s.fuses :=
  forFin_fuses (fun n t => by dsimp only; split_ifs <;> simp) s

@[simp] theorem State.celEvent_fuses (s : State) (op sel at' num from' : Nat) :
    (s.celEvent op sel at' num from').fuses = s.fuses := by
  unfold State.celEvent
  extract_lets st
  split <;> rfl

/-! ### Rafter -/

@[simp] theorem State.rafDrive_fuses (s : State) (l : Fin 4) (kind id t : Nat) :
    (s.rafDrive l kind id t).fuses = s.fuses := by
  unfold State.rafDrive
  dsimp only
  split_ifs <;> rfl

@[simp] theorem State.rafAwait_fuses (s : State) (l : Fin 4) (id t : Nat) : (s.rafAwait l id t).fuses = s.fuses := rfl

@[simp] theorem State.rafLaunch_fuses (s : State) (l : Fin 4) (kind id t : Nat) :
    (s.rafLaunch l kind id t).fuses = s.fuses := by
  unfold State.rafLaunch
  split_ifs <;> simp

@[simp] theorem State.rafTrig_fuses (s : State) (l : Fin 4) (t : Nat) : (s.rafTrig l t).fuses = s.fuses :=
  State.rafLaunch_fuses ..

@[simp] theorem State.rafAct_fuses (s : State) (a : RafAct) : (s.rafAct a).fuses = s.fuses := by
  unfold State.rafAct
  split
  · rfl
  · extract_lets s1 s2 s3 s4
    have h2 : s2.fuses = s.fuses := by
      simp only [s2, s1]
      split
      · exact (State.gougeEvent_fuses ..).trans (State.spinSource_fuses ..)
      · exact State.spinSource_fuses ..
    have h4 : s4.fuses = s.fuses := (State.fset_fuses ..).trans ((State.celEvent_fuses ..).trans h2)
    rw [State.fset_fuses, State.setFlag_fuses, h4]

@[simp] theorem State.rafResult_fuses (s : State) (l : Fin 4) (id stamp : Nat) :
    (s.rafResult l id stamp).fuses = s.fuses := by
  unfold State.rafResult
  split
  · rfl
  · split
    · extract_lets one r s1 s2 s3
      have h3 : s3.fuses = s.fuses :=
        (State.setFlag_fuses ..).trans ((State.setFlag_fuses ..).trans (State.fset_fuses ..))
      split
      · exact (State.fset_fuses ..).trans h3
      · exact h3
    · rfl

@[simp] theorem State.rafDecode_fuses (s : State) (b : RxBurst) : (s.rafDecode b).fuses = s.fuses := by
  unfold State.rafDecode
  extract_lets l s1 kind id
  have h1 : s1.fuses = s.fuses := by
    simp only [s1]
    split <;> simp
  split_ifs <;> simp [h1]

theorem State.rafSettle_fuses (s : State) : s.rafSettle.fuses = s.fuses := by
  unfold State.rafSettle
  dsimp only
  split
  · rfl
  · exact forList_fuses (fun b t => by split <;> simp) _ _

/-! ### Violations -/

@[simp] theorem State.atticUrgent_fuses (s : State) (r : AtticRec) : (s.atticUrgent r).fuses = s.fuses := by
  unfold State.atticUrgent
  split <;> simp

@[simp] theorem State.atticQueue_fuses (s : State) (r : AtticRec) : (s.atticQueue r).fuses = s.fuses := by
  unfold State.atticQueue
  dsimp only
  split
  · rfl
  · split <;> simp

@[simp] theorem State.countFault_fuses (s : State) (cls : Nat) : (s.countFault cls).fuses = s.fuses :=
  (State.raiseBits_fuses ..).trans (State.finc_fuses ..)

@[simp] theorem State.raiseFault_fuses (s : State) (cls src inst detail : Nat) (data : List Nat) :
    (s.raiseFault cls src inst detail data).fuses = s.fuses := by
  unfold State.raiseFault
  extract_lets s3 s4
  have h3 : s3.fuses = s.fuses :=
    (State.fset_fuses ..).trans ((State.fset_fuses ..).trans ((State.fset_fuses ..).trans (State.countFault_fuses ..)))
  have h4 : s4.fuses = s.fuses := by
    simp only [s4]
    split
    · exact (State.gougeEvent_fuses ..).trans h3
    · exact h3
  split_ifs
  · exact h4
  · exact (State.atticUrgent_fuses ..).trans h4
  · exact (State.atticQueue_fuses ..).trans h4

@[simp] theorem State.violCapture_fuses (s : State) (m : Master) (k : Viol) (a : Nat) :
    (s.violCapture m k a).fuses = s.fuses := by
  unfold State.violCapture
  extract_lets s2 s3
  have h3 : s3.fuses = s.fuses := (State.raise_fuses ..).trans ((State.setFlag_fuses ..).trans
    ((State.fset_fuses ..).trans (State.fset_fuses ..)))
  rw [State.fset_fuses, State.fset_fuses, h3]

@[simp] theorem State.violRequeue_fuses (s : State) (old : Nat) (m : Master) (k : Viol) (a : Nat) :
    (s.violRequeue old m k a).fuses = s.fuses := by
  unfold State.violRequeue
  extract_lets r f s1
  split
  · rw [State.fset_fuses, State.fset_fuses]
  · rfl

@[simp] theorem State.violate_fuses (s : State) (m : Master) (k : Viol) (a : Nat) : (s.violate m k a).fuses = s.fuses := by
  unfold State.violate
  split
  · extract_lets s1 s2 old
    have h2 : s2.fuses = s.fuses := (State.raise_fuses ..).trans (State.finc_fuses ..)
    split <;> simp [h2]
  · extract_lets s1 _ s2
    have hcap : (s1.violCapture m k a).fuses = s.fuses := (State.violCapture_fuses ..).trans (State.finc_fuses ..)
    have h2 : s2.fuses = s.fuses := by simpa only [s2] using hcap
    split
    · exact (State.raiseFault_fuses ..).trans h2
    · exact h2

@[simp] theorem State.lodge_fuses (s : State) (m : Master) (w : Bool) (a : Nat) : (s.lodge m w a).2.fuses = s.fuses := by
  unfold State.lodge
  split
  · rfl
  · extract_lets q r t secure
    split
    · exact State.violate_fuses ..
    · split
      · split
        · exact State.violate_fuses ..
        · rfl
      · rfl

theorem State.writeAs_fuses {f : State → State} (h : ∀ t, (f t).fuses = t.fuses) (s : State) (m : Master) (a : Nat) :
    (s.writeAs m a f).fuses = s.fuses := by
  unfold State.writeAs
  dsimp only
  split <;> simp [h]

/-! ### The Ledger -/

@[simp] theorem State.toutDrive_fuses (s : State) (n : Fin 16) (b : Bool) (r : Nat) :
    (s.toutDrive n b r).fuses = s.fuses := by
  unfold State.toutDrive
  dsimp only
  split_ifs <;> simp

@[simp] theorem State.toutEdge_fuses (s : State) (n : Fin 16) (op r : Nat) : (s.toutEdge n op r).fuses = s.fuses := by
  unfold State.toutEdge
  dsimp only
  split
  · simp
  · split_ifs <;> simp

@[simp] theorem State.ledAct_fuses (s : State) (e : Entry) (r : Nat) : (s.ledAct e r).fuses = s.fuses := by
  unfold State.ledAct
  dsimp only
  split <;> simp

@[simp] theorem State.entryRead_fuses (s : State) (slot : Nat) : (s.entryRead slot).2.fuses = s.fuses :=
  State.lodge_fuses ..

@[simp] theorem State.entryBack_fuses (s : State) (slot pos rep : Nat) (armed : Bool) :
    (s.entryBack slot pos rep armed).fuses = s.fuses :=
  State.writeAs_fuses (fun _ => (State.setMem32_fuses ..).trans (State.writeN_fuses ..)) s .ledger (slotAddr slot)

@[simp] theorem State.ledDone_fuses (s : State) (r : DoneRec) : (s.ledDone r).fuses = s.fuses := by
  unfold State.ledDone
  split
  · rfl
  · exact State.raise_fuses ..

@[simp] theorem State.dropArmed_fuses (s : State) (slot : Nat) : (s.dropArmed slot).fuses = s.fuses := rfl

@[simp] theorem State.ledRetire_fuses (s : State) (lane slot : Nat) (e : Entry) (code stamp pos rep : Nat) :
    (s.ledRetire lane slot e code stamp pos rep).fuses = s.fuses := by
  unfold State.ledRetire
  dsimp only
  split <;> simp

@[simp] theorem State.predictTarget_fuses (s : State) (n : Fin 16) (t : Target) (fresh : Bool) :
    (s.predictTarget n t fresh).2.fuses = s.fuses := by
  unfold State.predictTarget
  split <;> simp

@[simp] theorem State.spinFire_fuses (n : Fin 16) (slot : Nat) (fwd : Bool) (fuel : Nat) :
    ∀ (s : State) (e : Entry) (p : Int) (code r : Nat) (keep : List (Nat × Bool)),
      (s.spinFire n slot e p fwd code r keep fuel).fuses = s.fuses := by
  induction fuel with
  | zero => intros; rfl
  | succ k ih =>
    intro s e p code r keep
    unfold State.spinFire
    extract_lets stamp s1 s2 rep s3 ts pos' e' s4 late preds s5 a
    have h2 : s2.fuses = s.fuses := by
      simp only [s2, s1]
      split <;> simp
    have h4 : s4.fuses = s.fuses := by
      simp only [s4, s3, State.entryBack_fuses]
      split <;> simp [h2]
    have h5 : s5.fuses = s.fuses := by
      simp only [s5, State.dropArmed_fuses, preds]
      refine List.foldlRecOn (motive := fun u : List Target × State => u.2.fuses = s.fuses) ts _ h4 fun u hu t _ => ?_
      split <;> simp [hu]
    split_ifs
    · simp [h2]
    · rw [ih, h4]
    · exact h5

@[simp] theorem State.evalArm_fuses (s : State) (n : Fin 16) (a : Armed) : (s.evalArm n a).fuses = s.fuses := by
  unfold State.evalArm
  dsimp only
  split
  · split <;> simp
  · simp

@[simp] theorem State.lclkFire_fuses (s : State) (slot : Nat) (e : Entry) (late : Bool) :
    (s.lclkFire slot e late).fuses = s.fuses := by
  unfold State.lclkFire
  dsimp only
  split_ifs <;> simp

@[simp] theorem State.ledArm_fuses (s : State) (lane slot : Nat) : (s.ledArm lane slot).fuses = s.fuses := by
  unfold State.ledArm
  dsimp only
  split_ifs <;> simp

@[simp] theorem State.ledCancel_fuses (s : State) (slot : Nat) : (s.ledCancel slot).fuses = s.fuses := by
  unfold State.ledCancel
  split <;> simp

theorem State.ledServe_fuses (os : List LedOp) : ∀ s : State, (s.ledServe os).fuses = s.fuses := by
  induction os with
  | nil => intro s; rfl
  | cons o os ih =>
    intro s
    unfold State.ledServe
    split
    · rfl
    · rw [ih]
      split <;> simp

theorem State.ledSettle_fuses (s : State) : s.ledSettle.fuses = s.fuses := by
  unfold State.ledSettle
  split
  · rfl
  · exact State.ledServe_fuses _ s

/-- Passing time leaves the fuses alone. -/
theorem State.wait_fuses (s : State) (dt : Nat) : (s.wait dt).fuses = s.fuses :=
  (State.ledSettle_fuses _).trans (State.rafSettle_fuses _)

end Sys2Proof.Machine
end

section
/-! SUPPORT. Programming the fuses: what a write of GO to FUSE_PGM does (R68), and what the end of programming does
(R69). -/
namespace Sys2Proof.Machine

/-! ### A write of GO -/

/-- The bit that GO sets lies below KEY and WORD. -/
theorem bitsOf_setB_two (v : Word) {hi lo : Nat} (h : 2 ≤ lo) : bitsOf (setB v 2) hi lo = bitsOf v.toNat hi lo := by
  refine Nat.eq_of_testBit_eq fun i => ?_
  have hgo : (2 : Nat).testBit (lo + i) = false :=
    Nat.testBit_lt_two_pow (Nat.lt_of_lt_of_le (by decide) (Nat.pow_le_pow_right (by decide) (show 2 ≤ lo + i by omega)))
  rw [testBit_bitsOf, testBit_bitsOf, setB, Nat.testBit_or, hgo, Bool.or_false]

/-- A value of FUSE_PGM that starts programming as GO is written with it: the key, a listed word, and no word being
programmed (R68). -/
def State.FuseStarts (s : State) (v : Nat) : Prop :=
  bitsOf v 31 16 = 0x5A3C ∧ s.fuses.prog = none ∧ (bitsOf v 7 2 = 0 ∨ 8 ≤ bitsOf v 7 2 ∧ bitsOf v 7 2 ≤ 15)

/-- BUSY reads 1, WORD holds its new value, and its word is being programmed with FUSE_DATA. -/
def State.fuseStart (s : State) (word : Nat) : State :=
  { (s.fset F.DEV_FUSE_PGM_WORD word).setFlag F.DEV_FUSE_PGM_BUSY true with
    fuses := { s.fuses with prog := some (word, s.fget F.DEV_FUSE_DATA) } }

/-- FUSE_DATA is a register other than FUSE_PGM. -/
theorem State.fget_fuseData_fset (s : State) (word : Nat) :
    (s.fset F.DEV_FUSE_PGM_WORD word).fget F.DEV_FUSE_DATA = s.fget F.DEV_FUSE_DATA :=
  State.fget_fset_addr _ _ _ _ _ _ _ _ (by decide)

/-- A write of GO starts programming or is ignored (R68). -/
theorem State.fuseWrite_go (s : State) (v : Word) :
    (s.FuseStarts v.toNat → s.fuseWrite (setB v 2) = s.fuseStart (bitsOf v.toNat 7 2)) ∧
    (¬ s.FuseStarts v.toNat → s.fuseWrite (setB v 2) = s) := by
  have hgo : bit (setB v 2) 1 = true := by
    rw [bit, setB, Nat.testBit_or, show Nat.testBit 2 1 = true from rfl, Bool.or_true]
  unfold State.fuseWrite State.FuseStarts
  simp only [hgo, bitsOf_setB_two v (show 2 ≤ 16 by decide), bitsOf_setB_two v (show 2 ≤ 2 by decide), Bool.not_true,
    Bool.false_eq_true, if_false]
  refine ⟨fun hgood => ?_, fun hbad => if_neg hbad⟩
  rw [if_pos hgood, State.fget_fuseData_fset]
  rfl

theorem State.fuseStart_regs (s : State) (word : Nat) : (s.fuseStart word).regs =
    ((s.fset F.DEV_FUSE_PGM_WORD word).setFlag F.DEV_FUSE_PGM_BUSY true).regs := rfl

theorem State.fget_busy_fuseStart {s : State} (h : s.regs.wf = true) (word : Nat) :
    (s.fuseStart word).fget F.DEV_FUSE_PGM_BUSY = 1 :=
  (State.fget_congr (s.fuseStart_regs word) _ _ _).trans
    (State.fget_fset (State.fset_wf h _ _ _ _) F.DEV_FUSE_PGM_BUSY 1 0 0 rfl)

theorem State.fget_word_fuseStart {s : State} (h : s.regs.wf = true) {word : Nat} (hw : word < 64) :
    (s.fuseStart word).fget F.DEV_FUSE_PGM_WORD = word := by
  have hkept : (s.fuseStart word).fget F.DEV_FUSE_PGM_WORD =
      (s.fset F.DEV_FUSE_PGM_WORD word).fget F.DEV_FUSE_PGM_WORD :=
    (State.fget_congr (s.fuseStart_regs word) _ _ _).trans (State.fget_fset_bits (State.fset_wf h _ _ _ _)
      F.DEV_FUSE_PGM_BUSY F.DEV_FUSE_PGM_WORD 1 0 0 0 0 rfl rfl (by decide))
  rw [hkept, State.fget_fset h _ _ _ _ rfl]
  exact Nat.mod_eq_of_lt hw

theorem State.prog_fuseStart (s : State) (word : Nat) :
    (s.fuseStart word).fuses.prog = some (word, s.fget F.DEV_FUSE_DATA) := rfl

theorem State.burnt_fuseStart (s : State) (word : Nat) : (s.fuseStart word).fuses.burnt = s.fuses.burnt := rfl

/-- Of the registers the start of programming changes FUSE_PGM alone. -/
theorem State.within_fuseStart (s : State) (word : Nat) : s.Within (s.fuseStart word) (fun a => a = 0x10040) :=
  (((State.Within.refl s (fun a => a = 0x10040)).fset (f := F.DEV_FUSE_PGM_WORD) (n := 0) (j := 0) rfl word).setFlag
    (f := F.DEV_FUSE_PGM_BUSY) (n := 0) (j := 0) rfl true).same rfl rfl

theorem State.regEffect_fusePgm (s p : State) (v : Nat) (idle : Option Bool) :
    s.regEffect p 0x10040 v idle = some (s.fuseWrite v) :=
  (State.regEffect_dev s p 0x40 v idle (by decide)).trans (congrArg some (if_pos rfl))

/-- FUSE_PROGRAM that reaches FUSE_PGM does what the register does with GO. -/
theorem completes_fuseProgram {s : State} {dt : Nat} {m : Master} {v : Word} {P : State → Prop}
    (h : s.Reaches dt m 0x10040 (setB v 2)) (hP : P ((s.found dt 0x10040).fuseWrite (setB v 2))) :
    Completes (.fuseProgram dt m v) s P := by
  refine ⟨_, ?_, hP⟩
  rw [exec_fuseProgram]
  exact State.actE_write h (by decide) row_DEV_FUSE_PGM_GO (State.regEffect_fusePgm _ _ _ _)

/-! ### The end of programming -/

/-- As programming ends BUSY is cleared and the data's bits join those that the word holds (R69). -/
theorem State.fuseDone_busy {s : State} {w d : Nat} (h : s.fuses.prog = some (w, d)) :
    s.fuseDone = { s.setFlag F.DEV_FUSE_PGM_BUSY false with
      fuses := { s.fuses with burnt := orWord s.fuses.burnt w d, prog := none } } := by
  unfold State.fuseDone
  rw [h]

theorem State.fget_busy_fuseDone {s : State} {w d : Nat} (hwf : s.regs.wf = true) (h : s.fuses.prog = some (w, d)) :
    s.fuseDone.fget F.DEV_FUSE_PGM_BUSY = 0 := by
  have hregs : s.fuseDone.regs = (s.setFlag F.DEV_FUSE_PGM_BUSY false).regs := by rw [State.fuseDone_busy h]
  exact (State.fget_congr hregs _ _ _).trans (State.fget_fset hwf F.DEV_FUSE_PGM_BUSY 0 0 0 rfl)

theorem State.prog_fuseDone {s : State} {w d : Nat} (h : s.fuses.prog = some (w, d)) : s.fuseDone.fuses.prog = none := by
  rw [State.fuseDone_busy h]

/-- The bits programmed into a word are programmed. -/
theorem State.burntBit_fuseDone {s : State} {w d : Nat} (h : s.fuses.prog = some (w, d)) (b : Nat)
    (hb : d.testBit b = true) : s.fuseDone.burntBit w b = true := by
  have hburnt : s.fuseDone.fuses.burnt = orWord s.fuses.burnt w d := by rw [State.fuseDone_busy h]
  rw [State.burntBit, hburnt, orWord, List.find?_cons_of_pos (by simp)]
  simp [bit, Nat.testBit_or, hb]

/-- Of the registers the end of programming changes FUSE_PGM alone. -/
theorem State.within_fuseDone (s : State) : s.Within s.fuseDone (fun a => a = 0x10040) := by
  unfold State.fuseDone
  split
  · exact State.Within.refl _ _
  · exact ((State.Within.refl s (fun a => a = 0x10040)).setFlag (f := F.DEV_FUSE_PGM_BUSY) (n := 0) (j := 0) rfl
      false).same rfl rfl

/-- FUSE_PROGRAM_DONE needs no power of the blocks: it answers the end of programming. -/
theorem completes_fuseProgramDone {s : State} {dt : Nat} {P : State → Prop} (hP : P (s.wait dt).fuseDone) :
    Completes (.fuseProgramDone dt) s P := ⟨_, rfl, hP⟩

end Sys2Proof.Machine
end

section
/-! The statements of the Floorplan chapter: misaligned accesses (R50), the Floorplan table (R45), the assignment of worlds
(R55, R65), programming a fuse word (R68, R69). -/
namespace Sys2Proof.Machine

/-- Settles O7: the alignment is the first that a fabric access looks at. -/
theorem misalignedAccessIsRefused : Obligations.MisalignedAccessIsRefused := by
  unfold Obligations.MisalignedAccessIsRefused
  intro s dt m size a v hlive ha
  have hwrite : s.actE dt (fun t => t.busWrite m size a.toNat v.toNat) = .refused .unaligned :=
    State.actE_error hlive (State.busWrite_unaligned ha)
  have hread : s.actE dt (fun t => t.fabricRead m size a.toNat) = .refused .unaligned :=
    State.actE_error hlive (State.fabricRead_unaligned ha)
  refine ⟨hwrite, hread, hread, fun w => ?_⟩
  cases w with
  | false => exact hread
  | true => exact hwrite

/-- Settles O15: the Lodge lets the access through, a write stores nothing, and no row of the C0 map describes the
terminator or what follows it. -/
theorem floorplanEndReadsZero : Obligations.FloorplanEndReadsZero := by
  unfold Obligations.FloorplanEndReadsZero
  intro s dt m a v hlive ha h4
  refine ⟨⟨s.found dt a.toNat, ?_, State.Within.refl _ _⟩, fun hend => ⟨{ s.found dt a.toNat with rdata := 0 }, ?_, rfl,
    (State.Within.refl _ _).same rfl rfl⟩⟩
  · rw [exec_registerWrite]
    exact State.actE_live hlive (State.busWrite_floor _ m _ _ ha h4)
  · rw [exec_registerRead]
    refine State.actE_live hlive ?_
    rw [State.fabricRead, State.busRead_floor _ m ha h4, State.floorWord_end _ hend]
    rfl

/-- Settles O16: LOCK decides whether the write is ignored, and what is stored is cut to the entries that the Lodge can
assign. -/
theorem worldAssignmentFollowsBworldAndLock : Obligations.WorldAssignmentFollowsBworldAndLock := by
  unfold Obligations.WorldAssignmentFollowsBworldAndLock
  intro s dt m j v hs a ha hreach u
  refine completes_bworldWrite ha hreach ?_
  by_cases hlock : u.fget F.LODGE_CTRL_LOCK = 0
  · have hflag : u.flag F.LODGE_CTRL_LOCK = false := by simp [State.flag, hlock]
    rw [if_neg (ne_true_of_eq_false hflag)]
    refine ⟨(State.Within.refl u (fun r => r = a.toNat)).setReg rfl _, fun h => absurd (h.symm.trans hlock) (by decide),
      fun _ b hb => ?_⟩
    have hstored : ((u.setReg a.toNat (BitVec.ofNat 32 (v.toNat &&& bworldMask j))).reg a.toNat).toNat.testBit b =
        (assignable (32 * j + b) && v.toNat.testBit b) := by
      rw [State.reg_setReg (State.found_sound hs dt _).1, BitVec.toNat_ofNat, Nat.testBit_mod_two_pow, Nat.testBit_and,
        testBit_bworldMask j hb, decide_eq_true hb, Bool.true_and, Bool.and_comm]
    refine ⟨hstored, fun hassign => ?_⟩
    rw [State.entryWorld_assignable _ j hb hassign, ← ha, hstored, hassign, Bool.true_and]
  · have hflag : u.flag F.LODGE_CTRL_LOCK = true := by simpa [State.flag] using hlock
    rw [if_pos hflag]
    exact ⟨State.Within.refl _ _, fun _ => rfl, fun h => absurd h hlock⟩

/-- Settles O20: a write of GO starts programming or is ignored, and the word that waits is programmed as programming
ends, since passing time leaves the fuses alone. -/
theorem fuseProgrammingObeysItsKey : Obligations.FuseProgrammingObeysItsKey := by
  unfold Obligations.FuseProgrammingObeysItsKey
  refine ⟨?_, ?_⟩
  · intro s dt m v hs hreach u word good
    have hwf : u.regs.wf = true := (State.found_sound hs dt _).1
    obtain ⟨hstarts, hignored⟩ := u.fuseWrite_go v
    refine ⟨fun hbad => completes_fuseProgram hreach ?_, fun hgood => completes_fuseProgram hreach ?_⟩
    · rw [hignored hbad]
      exact ⟨State.Within.refl _ _, rfl⟩
    · rw [hstarts hgood]
      exact ⟨State.fget_busy_fuseStart hwf word, State.fget_word_fuseStart hwf (bitsOf_lt _ _ _), u.prog_fuseStart word,
        u.burnt_fuseStart word, u.within_fuseStart word⟩
  · intro s dt w d hs hprog
    have hwait : (s.wait dt).fuses.prog = some (w, d) := (congrArg Fuses.prog (s.wait_fuses dt)).trans hprog
    have hsound : (s.wait dt).Sound := (State.wait_keeps s dt).sound (State.elapse_sound hs dt)
    refine completes_fuseProgramDone ?_
    exact ⟨State.fget_busy_fuseDone hsound.1 hwait, State.prog_fuseDone hwait, State.burntBit_fuseDone hwait,
      State.within_fuseDone _⟩

end Sys2Proof.Machine
end
